-- ==== Sys2Proof/Word.lean ====
section
/-! DEFINITION. The word types of the Narryn N16: 64-bit words, bytes, instruction words and vector registers. -/

namespace Sys2Proof

/-- A general register's contents (R33). -/
abbrev Word := BitVec 64

/-- One byte of memory. -/
abbrev Byte := BitVec 8

/-- One 32-bit instruction word (R17). -/
abbrev IWord := BitVec 32

/-- A vector register's contents (R168). -/
abbrev VWord := BitVec 512

end Sys2Proof
end

