-- ==== Sys2Proof/Syntax.lean ====
section
/-! DEFINITION. The instructions: one constructor of `Instr` for every row of the opcode table. The first 255
stand for instructions with words (R17 to R55); seven more stand for the words of `krd` and `kwr` that name a
register whose access the table lists apart; the others are the machine's own steps and the host's inputs.
Operand names are those of the table's fields: `d` destination, `a` and `b` sources, `p` predicate, `i`
immediate, `w`, `t`, `e` width bits, `o` the order or offset, `m` the fields of length, word 1, word 2 and literal. -/

namespace Sys2Proof

/-- What an instruction carries beside word 0's operand fields: its length code (R17), the fields of word 1
(R23), word 2, and the 64-bit literal. A part that the length does not hold is zero. -/
structure Mods where
  len    : BitVec 2
  gpred  : BitVec 3
  gsense : Bool
  consA  : Bool
  consB  : Bool
  consC  : Bool
  rc     : BitVec 5
  scope  : BitVec 3
  round  : BitVec 3
  fmtA   : BitVec 5
  fmtB   : BitVec 5
  w2     : BitVec 32
  lit    : BitVec 64
  deriving DecidableEq, Repr

/-- The base form: length 0b00, no guard, every other field zero. -/
def Mods.base : Mods :=
  ⟨0#2, 0#3, false, false, false, false, 0#5, 0#3, 0#3, 0#5, 0#5, 0#32, 0#64⟩

/-- One constructor per row of the opcode table. -/
inductive Instr where
  /-- ADD (R121). Register add: rd := ra + rb, wrapping to 64 bits. -/
  | add (d a b : BitVec 5) (imm : Bool) (m : Mods)
  /-- SUB (R121). Register subtract: rd := ra - rb, wrapping to 64 bits. -/
  | sub (d a b : BitVec 5) (imm : Bool) (m : Mods)
  /-- MUL (R121). Register multiply, keeping the low 64 bits of the product. -/
  | mul (d a b : BitVec 5) (imm : Bool) (m : Mods)
  /-- MULH (R121). High 64 bits of the signed 128-bit product. -/
  | mulh (d a b : BitVec 5) (imm : Bool) (m : Mods)
  /-- MULHU (R121). High 64 bits of the unsigned 128-bit product. -/
  | mulhu (d a b : BitVec 5) (imm : Bool) (m : Mods)
  /-- DIV (R121). Signed divide issued to the divide unit; the destination stays pending until the result lands. -/
  | div (d a b : BitVec 5) (imm : Bool) (m : Mods)
  /-- DIVU (R121). Unsigned divide issued to the divide unit. -/
  | divu (d a b : BitVec 5) (imm : Bool) (m : Mods)
  /-- REM (R121). Signed remainder issued to the divide unit. -/
  | rem (d a b : BitVec 5) (imm : Bool) (m : Mods)
  /-- REMU (R121). Unsigned remainder issued to the divide unit. -/
  | remu (d a b : BitVec 5) (imm : Bool) (m : Mods)
  /-- AND (R121). Bitwise and of two registers. -/
  | and (d a b : BitVec 5) (imm : Bool) (m : Mods)
  /-- OR (R121). Bitwise or of two registers. -/
  | or (d a b : BitVec 5) (imm : Bool) (m : Mods)
  /-- XOR (R121). Bitwise exclusive or of two registers. -/
  | xor (d a b : BitVec 5) (imm : Bool) (m : Mods)
  /-- ANDN (R121). ra and not rb. -/
  | andn (d a b : BitVec 5) (imm : Bool) (m : Mods)
  /-- SHL (R121). Shift left by rb[5:0]. -/
  | shl (d a b : BitVec 5) (imm : Bool) (m : Mods)
  /-- SHR (R121). Logical shift right by rb[5:0]. -/
  | shr (d a b : BitVec 5) (imm : Bool) (m : Mods)
  /-- SAR (R121). Arithmetic shift right by rb[5:0]. -/
  | sar (d a b : BitVec 5) (imm : Bool) (m : Mods)
  /-- ROL (R121). Rotate left by rb[5:0]. -/
  | rol (d a b : BitVec 5) (imm : Bool) (m : Mods)
  /-- ROR (R121). Rotate right by rb[5:0]. -/
  | ror (d a b : BitVec 5) (imm : Bool) (m : Mods)
  /-- MIN (R121). Signed minimum of two registers. -/
  | min (d a b : BitVec 5) (imm : Bool) (m : Mods)
  /-- MAX (R121). Signed maximum of two registers. -/
  | max (d a b : BitVec 5) (imm : Bool) (m : Mods)
  /-- MINU (R121). Unsigned minimum of two registers. -/
  | minu (d a b : BitVec 5) (imm : Bool) (m : Mods)
  /-- MAXU (R121). Unsigned maximum of two registers. -/
  | maxu (d a b : BitVec 5) (imm : Bool) (m : Mods)
  /-- MOV (R122). Register copy rd := ra. -/
  | mov (d a : BitVec 5) (m : Mods)
  /-- CLZ (R122). Count leading zero bits. -/
  | clz (d a : BitVec 5) (m : Mods)
  /-- CTZ (R122). Count trailing zero bits. -/
  | ctz (d a : BitVec 5) (m : Mods)
  /-- POPC (R122). Count one bits. -/
  | popc (d a : BitVec 5) (m : Mods)
  /-- BSWAP (R122). Reverse the eight bytes of ra. -/
  | bswap (d a : BitVec 5) (m : Mods)
  /-- SXB (R122). Sign-extend the low byte. -/
  | sxb (d a : BitVec 5) (m : Mods)
  /-- SXH (R122). Sign-extend the low halfword. -/
  | sxh (d a : BitVec 5) (m : Mods)
  /-- SXW (R122). Sign-extend the low word. -/
  | sxw (d a : BitVec 5) (m : Mods)
  /-- ZXW (R122). Zero-extend the low word. -/
  | zxw (d a : BitVec 5) (m : Mods)
  /-- BFX_REG (R124). Sign-extending bit-field extract with position and width taken from rb. -/
  | bfxReg (d a b : BitVec 5) (imm : Bool) (m : Mods)
  /-- BFXU_REG (R124). Zero-extending bit-field extract with position and width taken from rb. -/
  | bfxuReg (d a b : BitVec 5) (imm : Bool) (m : Mods)
  /-- BFI (R124). Bit-field insert of ra into the C register at rb's position and width; extended form only. -/
  | bfi (d a b : BitVec 5) (imm : Bool) (m : Mods)
  /-- LEA_1 (R125). Address arithmetic ra + rb*1 + disp, with no check. -/
  | lea1 (d a b : BitVec 5) (m : Mods)
  /-- LEA_2 (R125). Address arithmetic ra + rb*2 + disp. -/
  | lea2 (d a b : BitVec 5) (m : Mods)
  /-- LEA_4 (R125). Address arithmetic ra + rb*4 + disp. -/
  | lea4 (d a b : BitVec 5) (m : Mods)
  /-- LEA_8 (R125). Address arithmetic ra + rb*8 + disp. -/
  | lea8 (d a b : BitVec 5) (m : Mods)
  /-- ADDI (R121). Add an immediate. -/
  | addi (d a : BitVec 5) (i : BitVec 14) (m : Mods)
  /-- MULI (R121). Multiply by an immediate. -/
  | muli (d a : BitVec 5) (i : BitVec 14) (m : Mods)
  /-- ANDI (R121). And with an immediate mask. -/
  | andi (d a : BitVec 5) (i : BitVec 14) (m : Mods)
  /-- ORI (R121). Or with an immediate mask. -/
  | ori (d a : BitVec 5) (i : BitVec 14) (m : Mods)
  /-- XORI (R121). Exclusive or with an immediate mask. -/
  | xori (d a : BitVec 5) (i : BitVec 14) (m : Mods)
  /-- SHL_IMM (R39). Shift left by an immediate amount (SHI kind 0). -/
  | shlImm (d a : BitVec 5) (n : BitVec 6) (m : Mods)
  /-- SHR_IMM (R39). Logical shift right by an immediate amount (SHI kind 1). -/
  | shrImm (d a : BitVec 5) (n : BitVec 6) (m : Mods)
  /-- SAR_IMM (R39). Arithmetic shift right by an immediate amount (SHI kind 2). -/
  | sarImm (d a : BitVec 5) (n : BitVec 6) (m : Mods)
  /-- ROL_IMM (R39). Rotate left by an immediate amount (SHI kind 3). -/
  | rolImm (d a : BitVec 5) (n : BitVec 6) (m : Mods)
  /-- ROR_IMM (R39). Rotate right by an immediate amount (SHI kind 4). -/
  | rorImm (d a : BitVec 5) (n : BitVec 6) (m : Mods)
  /-- BFX_IMM (R124). Sign-extending bit-field extract with immediate position and width. -/
  | bfxImm (d a : BitVec 5) (p w : BitVec 6) (m : Mods)
  /-- BFXU_IMM (R124). Zero-extending bit-field extract with immediate position and width. -/
  | bfxuImm (d a : BitVec 5) (p w : BitVec 6) (m : Mods)
  /-- MOVI (R123). Move an immediate into rd. -/
  | movi (d : BitVec 5) (i : BitVec 14) (m : Mods)
  /-- CMP_EQ_IMM (R126). pd := ra = immediate. -/
  | cmpEqImm (p : BitVec 3) (a : BitVec 5) (i : BitVec 14) (m : Mods)
  /-- CMP_NE_IMM (R126). pd := ra != immediate. -/
  | cmpNeImm (p : BitVec 3) (a : BitVec 5) (i : BitVec 14) (m : Mods)
  /-- CMP_LT_IMM (R126). pd := ra < immediate, signed. -/
  | cmpLtImm (p : BitVec 3) (a : BitVec 5) (i : BitVec 14) (m : Mods)
  /-- CMP_LE_IMM (R126). pd := ra <= immediate, signed. -/
  | cmpLeImm (p : BitVec 3) (a : BitVec 5) (i : BitVec 14) (m : Mods)
  /-- CMP_GT_IMM (R126). pd := ra > immediate, signed. -/
  | cmpGtImm (p : BitVec 3) (a : BitVec 5) (i : BitVec 14) (m : Mods)
  /-- CMP_GE_IMM (R126). pd := ra >= immediate, signed. -/
  | cmpGeImm (p : BitVec 3) (a : BitVec 5) (i : BitVec 14) (m : Mods)
  /-- CMP_LTU_IMM (R126). pd := ra < immediate, unsigned. -/
  | cmpLtuImm (p : BitVec 3) (a : BitVec 5) (i : BitVec 14) (m : Mods)
  /-- CMP_LEU_IMM (R126). pd := ra <= immediate, unsigned. -/
  | cmpLeuImm (p : BitVec 3) (a : BitVec 5) (i : BitVec 14) (m : Mods)
  /-- CMP_GTU_IMM (R126). pd := ra > immediate, unsigned. -/
  | cmpGtuImm (p : BitVec 3) (a : BitVec 5) (i : BitVec 14) (m : Mods)
  /-- CMP_GEU_IMM (R126). pd := ra >= immediate, unsigned. -/
  | cmpGeuImm (p : BitVec 3) (a : BitVec 5) (i : BitVec 14) (m : Mods)
  /-- CMP_TST_IMM (R126). pd := (ra and immediate) != 0. -/
  | cmpTstImm (p : BitVec 3) (a : BitVec 5) (i : BitVec 14) (m : Mods)
  /-- CMP_TSTZ_IMM (R126). pd := (ra and immediate) = 0. -/
  | cmpTstzImm (p : BitVec 3) (a : BitVec 5) (i : BitVec 14) (m : Mods)
  /-- CMP_EQ (R126). pd := ra = rb. -/
  | cmpEq (p : BitVec 3) (a b : BitVec 5) (m : Mods)
  /-- CMP_NE (R126). pd := ra != rb. -/
  | cmpNe (p : BitVec 3) (a b : BitVec 5) (m : Mods)
  /-- CMP_LT (R126). pd := ra < rb, signed. -/
  | cmpLt (p : BitVec 3) (a b : BitVec 5) (m : Mods)
  /-- CMP_LE (R126). pd := ra <= rb, signed. -/
  | cmpLe (p : BitVec 3) (a b : BitVec 5) (m : Mods)
  /-- CMP_GT (R126). pd := ra > rb, signed. -/
  | cmpGt (p : BitVec 3) (a b : BitVec 5) (m : Mods)
  /-- CMP_GE (R126). pd := ra >= rb, signed. -/
  | cmpGe (p : BitVec 3) (a b : BitVec 5) (m : Mods)
  /-- CMP_LTU (R126). pd := ra < rb, unsigned. -/
  | cmpLtu (p : BitVec 3) (a b : BitVec 5) (m : Mods)
  /-- CMP_LEU (R126). pd := ra <= rb, unsigned. -/
  | cmpLeu (p : BitVec 3) (a b : BitVec 5) (m : Mods)
  /-- CMP_GTU (R126). pd := ra > rb, unsigned. -/
  | cmpGtu (p : BitVec 3) (a b : BitVec 5) (m : Mods)
  /-- CMP_GEU (R126). pd := ra >= rb, unsigned. -/
  | cmpGeu (p : BitVec 3) (a b : BitVec 5) (m : Mods)
  /-- CMP_TST (R126). pd := (ra and rb) != 0. -/
  | cmpTst (p : BitVec 3) (a b : BitVec 5) (m : Mods)
  /-- CMP_TSTZ (R126). pd := (ra and rb) = 0. -/
  | cmpTstz (p : BitVec 3) (a b : BitVec 5) (m : Mods)
  /-- PAND (R127). Predicate and. -/
  | pand (d a b : BitVec 3) (m : Mods)
  /-- POR (R127). Predicate or. -/
  | por (d a b : BitVec 3) (m : Mods)
  /-- PXOR (R127). Predicate exclusive or. -/
  | pxor (d a b : BitVec 3) (m : Mods)
  /-- PANDN (R127). Predicate pa and not pb. -/
  | pandn (d a b : BitVec 3) (m : Mods)
  /-- PNOT (R127). Predicate not. -/
  | pnot (d a : BitVec 3) (m : Mods)
  /-- PMOV (R127). Predicate copy. -/
  | pmov (d a : BitVec 3) (m : Mods)
  /-- PRD (R127). Read p7..p1 into a general register, with bit 0 set. -/
  | prd (d : BitVec 5) (m : Mods)
  /-- PWR (R127). Write p1..p7 from bits [7:1] of a general register. -/
  | pwr (a : BitVec 5) (m : Mods)
  /-- FADD (R133). Floating add in f32 or f64, rounded once. -/
  | fadd (w : Bool) (d a b : BitVec 5) (m : Mods)
  /-- FSUB (R133). Floating subtract. -/
  | fsub (w : Bool) (d a b : BitVec 5) (m : Mods)
  /-- FMUL (R133). Floating multiply. -/
  | fmul (w : Bool) (d a b : BitVec 5) (m : Mods)
  /-- FDIV (R133). Floating divide on the divide unit. -/
  | fdiv (w : Bool) (d a b : BitVec 5) (m : Mods)
  /-- FSQRT (R133). Floating square root on the divide unit. -/
  | fsqrt (w : Bool) (d a : BitVec 5) (m : Mods)
  /-- FMIN (R134). minimumNumber of two floats. -/
  | fmin (w : Bool) (d a b : BitVec 5) (m : Mods)
  /-- FMAX (R134). maximumNumber of two floats. -/
  | fmax (w : Bool) (d a b : BitVec 5) (m : Mods)
  /-- FABS (R134). Clear the sign bit. -/
  | fabs (w : Bool) (d a : BitVec 5) (m : Mods)
  /-- FNEG (R134). Invert the sign bit. -/
  | fneg (w : Bool) (d a : BitVec 5) (m : Mods)
  /-- FMA (R133). Fused multiply-add ra*rb + C, rounded once; extended form only. -/
  | fma (w : Bool) (d a b : BitVec 5) (m : Mods)
  /-- FNMA (R133). Fused negated multiply-add -(ra*rb) + C; extended form only. -/
  | fnma (w : Bool) (d a b : BitVec 5) (m : Mods)
  /-- FCMP_EQ (R135). Float compare equal into a predicate. -/
  | fcmpEq (w : Bool) (p : BitVec 3) (a b : BitVec 5) (m : Mods)
  /-- FCMP_NE (R135). Float compare not equal or unordered. -/
  | fcmpNe (w : Bool) (p : BitVec 3) (a b : BitVec 5) (m : Mods)
  /-- FCMP_LT (R135). Float compare less than. -/
  | fcmpLt (w : Bool) (p : BitVec 3) (a b : BitVec 5) (m : Mods)
  /-- FCMP_LE (R135). Float compare less or equal. -/
  | fcmpLe (w : Bool) (p : BitVec 3) (a b : BitVec 5) (m : Mods)
  /-- FCMP_UN (R135). Float compare unordered. -/
  | fcmpUn (w : Bool) (p : BitVec 3) (a b : BitVec 5) (m : Mods)
  /-- FCLASS (R135). Write a one-hot float class mask. -/
  | fclass (w : Bool) (d a : BitVec 5) (m : Mods)
  /-- FCVT (R136). Convert a scalar between float and integer formats; extended form only. -/
  | fcvt (d a : BitVec 5) (m : Mods)
  /-- NOP (R141). Use one issue turn and change nothing. -/
  | nop (m : Mods)
  /-- KRD (R140). Read a control register into rd. -/
  | krd (d : BitVec 5) (k : BitVec 10) (m : Mods)
  /-- KWR (R140). Write a control register from ra, field by field; the step for every register without a row of its own. -/
  | kwr (k : BitVec 10) (a : BitVec 5) (m : Mods)
  /-- FENCE (R260). Wait for earlier accesses, invalidate caches by scope, and order later accesses. -/
  | fence (m : Mods)
  /-- TRAP (R351). Write a trap record and park the thread until it is answered. -/
  | trap (n : BitVec 5) (m : Mods)
  /-- RFT (R352). Answer a fault or trap record of the selected function. -/
  | rft (m : Mods)
  /-- TLBINV (R345). Remove the matching translations from every TLB and walker of the package. -/
  | tlbinv (a : BitVec 5) (m : Mods)
  /-- KSLZ (R326). Zeroise one key slot at every controller and wait for every acknowledgement. -/
  | kslz (a : BitVec 5) (m : Mods)
  /-- SCRB (R330). Check a scrub descriptor, record and hold the scrub, and start the scrub engine. -/
  | scrb (a : BitVec 5) (m : Mods)
  /-- LD_B (R162). Load a byte, sign-extended. -/
  | ldB (d a : BitVec 5) (i : BitVec 14) (m : Mods)
  /-- LD_BU (R162). Load a byte, zero-extended. -/
  | ldBu (d a : BitVec 5) (i : BitVec 14) (m : Mods)
  /-- LD_H (R162). Load a halfword, sign-extended. -/
  | ldH (d a : BitVec 5) (i : BitVec 14) (m : Mods)
  /-- LD_HU (R162). Load a halfword, zero-extended. -/
  | ldHu (d a : BitVec 5) (i : BitVec 14) (m : Mods)
  /-- LD_W (R162). Load a word, sign-extended. -/
  | ldW (d a : BitVec 5) (i : BitVec 14) (m : Mods)
  /-- LD_WU (R162). Load a word, zero-extended. -/
  | ldWu (d a : BitVec 5) (i : BitVec 14) (m : Mods)
  /-- LD_D (R162). Load a dword. -/
  | ldD (d a : BitVec 5) (i : BitVec 14) (m : Mods)
  /-- ST_B (R162). Store a byte, written through to its home. -/
  | stB (d a : BitVec 5) (i : BitVec 14) (m : Mods)
  /-- ST_H (R162). Store a halfword. -/
  | stH (d a : BitVec 5) (i : BitVec 14) (m : Mods)
  /-- ST_W (R162). Store a word. -/
  | stW (d a : BitVec 5) (i : BitVec 14) (m : Mods)
  /-- ST_D (R162). Store a dword. -/
  | stD (d a : BitVec 5) (i : BitVec 14) (m : Mods)
  /-- LDFE (R166). Issue a full/empty load to the word's home. -/
  | ldfe (d a : BitVec 5) (i : BitVec 14) (m : Mods)
  /-- STFE (R166). Issue a full/empty store to the word's home. -/
  | stfe (d a : BitVec 5) (i : BitVec 14) (m : Mods)
  /-- LD_INDEXED (R161). Indexed load at ra + rb*s, with size and scale fields. -/
  | ldIndexed (s : BitVec 2) (z : BitVec 3) (d a b : BitVec 5) (m : Mods)
  /-- ST_INDEXED (R161). Indexed store at ra + rb*s. -/
  | stIndexed (s : BitVec 2) (z : BitVec 3) (d a b : BitVec 5) (m : Mods)
  /-- LDLO (R287). Read a latest-only cell's value and sequence number. -/
  | ldlo (d a : BitVec 5) (m : Mods)
  /-- STLO (R287). Pass a latest-only store to the core's store queue. -/
  | stlo (a b : BitVec 5) (m : Mods)
  /-- STLO_MD (R287). Must-deliver latest-only store, which is never discarded in transit. -/
  | stloMd (a b : BitVec 5) (m : Mods)
  /-- B (R109). Unconditional forward branch. -/
  | b (o : BitVec 19) (m : Mods)
  /-- BT (R109). Forward branch when pN is true. -/
  | bt (p : BitVec 3) (o : BitVec 19) (m : Mods)
  /-- BF (R109). Forward branch when pN is false. -/
  | bf (p : BitVec 3) (o : BitVec 19) (m : Mods)
  /-- CALL_LIT (R112). Call an absolute code address, saving a window frame. -/
  | callLit (m : Mods)
  /-- CALL_REG (R112). Call through a register, saving a window frame. -/
  | callReg (a : BitVec 5) (m : Mods)
  /-- JMP (R114). Jump forward to the address in ra. -/
  | jmp (a : BitVec 5) (m : Mods)
  /-- RET (R113). Return from a window frame, or end the thread at depth 0. -/
  | ret (m : Mods)
  /-- WFLUSH (R115). Write every resident frame of the slot to its spill place. -/
  | wflush (m : Mods)
  /-- WDEPTH (R115). Read the thread's window depth. -/
  | wdepth (d : BitVec 5) (m : Mods)
  /-- CREATE (R97). Make a family, capture its range, write its descriptor and deal its members. -/
  | create (d a b : BitVec 5) (m : Mods)
  /-- SPAWN (R98). Make a family whose end is delivered to no one. -/
  | spawn (a b : BitVec 5) (m : Mods)
  /-- SYNC (R99). Wait until a register is full, helping unclaimed members of a pending family. -/
  | sync (a : BitVec 5) (m : Mods)
  /-- BRK (R101). End the member and send a break to the family's home. -/
  | brk (a : BitVec 5) (m : Mods)
  /-- KILL (R103). Send a kill to the named family, or cancel the named engine operation. -/
  | kill (a : BitVec 5) (m : Mods)
  /-- MIG (R107). Move the thread to the run queue of the address's owner core. -/
  | mig (a : BitVec 5) (m : Mods)
  /-- MIG_S (R107). Move the thread to the serial queue of the owner core. -/
  | migS (a : BitVec 5) (m : Mods)
  /-- YIELD (R108). Save the thread to the run queue's tail and start the head record. -/
  | yield (m : Mods)
  /-- HTEST (R105). Report without suspending whether a wait on ra would suspend. -/
  | htest (d a : BitVec 5) (m : Mods)
  /-- HWAIT (R106). Wait for the operation that ra names, helping where it can. -/
  | hwait (a : BitVec 5) (m : Mods)
  /-- HCANCEL (R104). Stop the named engine operation, or kill the named family. -/
  | hcancel (a : BitVec 5) (m : Mods)
  /-- IFENCE (R118). Wait for the slot's stores, empty its buffer and invalidate the instruction cache. -/
  | ifence (m : Mods)
  /-- AMO_ADD (R268). Atomic add at the home, returning the old value. -/
  | amoAdd (w : Bool) (o : BitVec 2) (d a b : BitVec 5) (m : Mods)
  /-- AMO_AND (R268). Atomic and. -/
  | amoAnd (w : Bool) (o : BitVec 2) (d a b : BitVec 5) (m : Mods)
  /-- AMO_OR (R268). Atomic or. -/
  | amoOr (w : Bool) (o : BitVec 2) (d a b : BitVec 5) (m : Mods)
  /-- AMO_XOR (R268). Atomic exclusive or. -/
  | amoXor (w : Bool) (o : BitVec 2) (d a b : BitVec 5) (m : Mods)
  /-- AMO_MIN (R268). Atomic signed minimum. -/
  | amoMin (w : Bool) (o : BitVec 2) (d a b : BitVec 5) (m : Mods)
  /-- AMO_MAX (R268). Atomic signed maximum. -/
  | amoMax (w : Bool) (o : BitVec 2) (d a b : BitVec 5) (m : Mods)
  /-- AMO_MINU (R268). Atomic unsigned minimum. -/
  | amoMinu (w : Bool) (o : BitVec 2) (d a b : BitVec 5) (m : Mods)
  /-- AMO_MAXU (R268). Atomic unsigned maximum. -/
  | amoMaxu (w : Bool) (o : BitVec 2) (d a b : BitVec 5) (m : Mods)
  /-- AMO_XCHG (R268). Atomic exchange. -/
  | amoXchg (w : Bool) (o : BitVec 2) (d a b : BitVec 5) (m : Mods)
  /-- CAS (R268). Compare and swap; extended form only. -/
  | cas (w : Bool) (o : BitVec 2) (d a b : BitVec 5) (m : Mods)
  /-- FAMO_ADD (R269). Unordered float atomic add. -/
  | famoAdd (w : Bool) (o : BitVec 2) (d a b : BitVec 5) (m : Mods)
  /-- FAMO_MIN (R269). Float atomic minimumNumber. -/
  | famoMin (w : Bool) (o : BitVec 2) (d a b : BitVec 5) (m : Mods)
  /-- FAMO_MAX (R269). Float atomic maximumNumber. -/
  | famoMax (w : Bool) (o : BitVec 2) (d a b : BitVec 5) (m : Mods)
  /-- TKGET (R251). Take the next ticket from a ticket word. -/
  | tkget (d a : BitVec 5) (m : Mods)
  /-- TKWAIT (R251). Wait until the ticket word serves the given ticket. -/
  | tkwait (a b : BitVec 5) (m : Mods)
  /-- TKADV (R251). Advance serving, as a release. -/
  | tkadv (a : BitVec 5) (m : Mods)
  /-- WAITEQ (R274). Wait until a dword equals rb. -/
  | waiteq (a b : BitVec 5) (m : Mods)
  /-- WAITNE (R274). Wait until a dword differs from rb. -/
  | waitne (a b : BitVec 5) (m : Mods)
  /-- LKACQ (R277). Acquire a lock word, queueing when it is held. -/
  | lkacq (a : BitVec 5) (m : Mods)
  /-- LKREL (R277). Release a lock word to its oldest waiter or free it. -/
  | lkrel (a : BitVec 5) (m : Mods)
  /-- BAR_JOIN (R280). Join a barrier. -/
  | barJoin (a : BitVec 5) (m : Mods)
  /-- BAR_ARRIVE (R280). Arrive at a barrier. -/
  | barArrive (a : BitVec 5) (m : Mods)
  /-- BAR_DROP (R280). Leave a barrier. -/
  | barDrop (a : BitVec 5) (m : Mods)
  /-- VLD_CONTIG (R173). Contiguous vector load; pins the thread. -/
  | vldContig (e k : Bool) (d : BitVec 3) (a : BitVec 5) (m : Mods)
  /-- VLD_STRIDED (R173). Strided vector load. -/
  | vldStrided (e k : Bool) (d : BitVec 3) (a b : BitVec 5) (m : Mods)
  /-- VLD_INDEXED (R173). Indexed vector load. -/
  | vldIndexed (e k : Bool) (d : BitVec 3) (a : BitVec 5) (b : BitVec 3) (m : Mods)
  /-- VST_CONTIG (R173). Contiguous vector store. -/
  | vstContig (e k : Bool) (d : BitVec 3) (a : BitVec 5) (m : Mods)
  /-- VST_STRIDED (R173). Strided vector store. -/
  | vstStrided (e k : Bool) (d : BitVec 3) (a b : BitVec 5) (m : Mods)
  /-- VST_INDEXED (R173). Indexed vector store. -/
  | vstIndexed (e k : Bool) (d : BitVec 3) (a : BitVec 5) (b : BitVec 3) (m : Mods)
  /-- VADD (R174). Lane-wise integer add. -/
  | vadd (t : Bool) (d a b : BitVec 3) (m : Mods)
  /-- VSUB (R174). Lane-wise integer subtract. -/
  | vsub (t : Bool) (d a b : BitVec 3) (m : Mods)
  /-- VMUL (R174). Lane-wise integer multiply, low half. -/
  | vmul (t : Bool) (d a b : BitVec 3) (m : Mods)
  /-- VMULH (R174). Lane-wise signed multiply, high half. -/
  | vmulh (t : Bool) (d a b : BitVec 3) (m : Mods)
  /-- VMIN (R174). Lane-wise signed minimum. -/
  | vmin (t : Bool) (d a b : BitVec 3) (m : Mods)
  /-- VMAX (R174). Lane-wise signed maximum. -/
  | vmax (t : Bool) (d a b : BitVec 3) (m : Mods)
  /-- VMINU (R174). Lane-wise unsigned minimum. -/
  | vminu (t : Bool) (d a b : BitVec 3) (m : Mods)
  /-- VMAXU (R174). Lane-wise unsigned maximum. -/
  | vmaxu (t : Bool) (d a b : BitVec 3) (m : Mods)
  /-- VAND (R174). Lane-wise and. -/
  | vand (t : Bool) (d a b : BitVec 3) (m : Mods)
  /-- VOR (R174). Lane-wise or. -/
  | vor (t : Bool) (d a b : BitVec 3) (m : Mods)
  /-- VXOR (R174). Lane-wise exclusive or. -/
  | vxor (t : Bool) (d a b : BitVec 3) (m : Mods)
  /-- VSHL (R174). Lane-wise shift left. -/
  | vshl (t : Bool) (d a b : BitVec 3) (m : Mods)
  /-- VSHR (R174). Lane-wise logical shift right. -/
  | vshr (t : Bool) (d a b : BitVec 3) (m : Mods)
  /-- VSAR (R174). Lane-wise arithmetic shift right. -/
  | vsar (t : Bool) (d a b : BitVec 3) (m : Mods)
  /-- VADDS (R174). Lane-wise signed saturating add. -/
  | vadds (t : Bool) (d a b : BitVec 3) (m : Mods)
  /-- VADDUS (R174). Lane-wise unsigned saturating add. -/
  | vaddus (t : Bool) (d a b : BitVec 3) (m : Mods)
  /-- VSUBS (R174). Lane-wise signed saturating subtract. -/
  | vsubs (t : Bool) (d a b : BitVec 3) (m : Mods)
  /-- VSUBUS (R174). Lane-wise unsigned saturating subtract. -/
  | vsubus (t : Bool) (d a b : BitVec 3) (m : Mods)
  /-- VABS (R174). Lane-wise absolute value. -/
  | vabs (t : Bool) (d a : BitVec 3) (m : Mods)
  /-- VNEG (R174). Lane-wise negate. -/
  | vneg (t : Bool) (d a : BitVec 3) (m : Mods)
  /-- VCMP_EQ (R174). Lane-wise equal compare into a general-register mask. -/
  | vcmpEq (t : Bool) (d : BitVec 5) (a b : BitVec 3) (m : Mods)
  /-- VCMP_LT (R174). Lane-wise signed less-than mask. -/
  | vcmpLt (t : Bool) (d : BitVec 5) (a b : BitVec 3) (m : Mods)
  /-- VCMP_LE (R174). Lane-wise signed less-or-equal mask. -/
  | vcmpLe (t : Bool) (d : BitVec 5) (a b : BitVec 3) (m : Mods)
  /-- VCMP_LTU (R174). Lane-wise unsigned less-than mask. -/
  | vcmpLtu (t : Bool) (d : BitVec 5) (a b : BitVec 3) (m : Mods)
  /-- VCMP_LEU (R174). Lane-wise unsigned less-or-equal mask. -/
  | vcmpLeu (t : Bool) (d : BitVec 5) (a b : BitVec 3) (m : Mods)
  /-- VMAD (R174). Lane-wise integer multiply-add; extended form only. -/
  | vmad (t : Bool) (d a b : BitVec 3) (m : Mods)
  /-- VFADD (R175). Lane-wise float add. -/
  | vfadd (w : Bool) (d a b : BitVec 3) (m : Mods)
  /-- VFSUB (R175). Lane-wise float subtract. -/
  | vfsub (w : Bool) (d a b : BitVec 3) (m : Mods)
  /-- VFMUL (R175). Lane-wise float multiply. -/
  | vfmul (w : Bool) (d a b : BitVec 3) (m : Mods)
  /-- VFDIV (R176). Lane-wise float divide on the divide unit. -/
  | vfdiv (w : Bool) (d a b : BitVec 3) (m : Mods)
  /-- VFSQRT (R176). Lane-wise float square root on the divide unit. -/
  | vfsqrt (w : Bool) (d a : BitVec 3) (m : Mods)
  /-- VFMIN (R175). Lane-wise minimumNumber. -/
  | vfmin (w : Bool) (d a b : BitVec 3) (m : Mods)
  /-- VFMAX (R175). Lane-wise maximumNumber. -/
  | vfmax (w : Bool) (d a b : BitVec 3) (m : Mods)
  /-- VFABS (R175). Lane-wise clear of the sign bit. -/
  | vfabs (w : Bool) (d a : BitVec 3) (m : Mods)
  /-- VFNEG (R175). Lane-wise inversion of the sign bit. -/
  | vfneg (w : Bool) (d a : BitVec 3) (m : Mods)
  /-- VFMA (R175). Lane-wise fused multiply-add; extended form only. -/
  | vfma (w : Bool) (d a b : BitVec 3) (m : Mods)
  /-- VFNMA (R175). Lane-wise negated fused multiply-add; extended form only. -/
  | vfnma (w : Bool) (d a b : BitVec 3) (m : Mods)
  /-- VFCMP_EQ (R175). Lane-wise float equal mask. -/
  | vfcmpEq (w : Bool) (d : BitVec 5) (a b : BitVec 3) (m : Mods)
  /-- VFCMP_LT (R175). Lane-wise float less-than mask. -/
  | vfcmpLt (w : Bool) (d : BitVec 5) (a b : BitVec 3) (m : Mods)
  /-- VFCMP_LE (R175). Lane-wise float less-or-equal mask. -/
  | vfcmpLe (w : Bool) (d : BitVec 5) (a b : BitVec 3) (m : Mods)
  /-- VFCMP_UN (R175). Lane-wise unordered mask. -/
  | vfcmpUn (w : Bool) (d : BitVec 5) (a b : BitVec 3) (m : Mods)
  /-- VMOV (R177). Vector register copy. -/
  | vmov (d a : BitVec 3) (m : Mods)
  /-- VBCAST_W (R177). Broadcast a 32-bit value to every lane. -/
  | vbcastW (d : BitVec 3) (a : BitVec 5) (m : Mods)
  /-- VBCAST_D (R177). Broadcast a 64-bit value to every lane. -/
  | vbcastD (d : BitVec 3) (a : BitVec 5) (m : Mods)
  /-- VEXT_W (R177). Extract a 32-bit lane into a general register. -/
  | vextW (d : BitVec 5) (a : BitVec 3) (b : BitVec 5) (m : Mods)
  /-- VEXT_D (R177). Extract a 64-bit lane into a general register. -/
  | vextD (d : BitVec 5) (a : BitVec 3) (b : BitVec 5) (m : Mods)
  /-- VINS_W (R177). Insert a 32-bit value into one lane. -/
  | vinsW (d : BitVec 3) (a b : BitVec 5) (m : Mods)
  /-- VINS_D (R177). Insert a 64-bit value into one lane. -/
  | vinsD (d : BitVec 3) (a b : BitVec 5) (m : Mods)
  /-- VCVT (R178). Convert vector elements between formats; extended form only. -/
  | vcvt (d a : BitVec 3) (m : Mods)
  /-- NZSCAN (R142). Pack the positions of nonzero lanes and write their count; extended form only. -/
  | nzscan (e : Bool) (d a : BitVec 3) (m : Mods)
  /-- VCOMPRESS (R179). Pack the lanes selected by a mask. -/
  | vcompress (e : Bool) (d a : BitVec 3) (b : BitVec 5) (m : Mods)
  /-- VPERM (R179). Permute lanes by an index vector. -/
  | vperm (e : Bool) (d a b : BitVec 3) (m : Mods)
  /-- VREL (R170). Wait for pending vectors, zero v0 to v7 and unpin. -/
  | vrel (m : Mods)
  /-- VRED_ADD (R180). Add-reduce a vector into a general register, in fixed or free tree order. -/
  | vredAdd (t : BitVec 2) (o : Bool) (d : BitVec 5) (a : BitVec 3) (m : Mods)
  /-- VRED_MIN (R180). Min-reduce a vector. -/
  | vredMin (t : BitVec 2) (o : Bool) (d : BitVec 5) (a : BitVec 3) (m : Mods)
  /-- VRED_MAX (R180). Max-reduce a vector. -/
  | vredMax (t : BitVec 2) (o : Bool) (d : BitVec 5) (a : BitVec 3) (m : Mods)
  /-- HACC_O (R182). Send an ordered hash-accumulate of 16 key/value lanes to the table's home. -/
  | haccO (d a : BitVec 5) (b : BitVec 3) (m : Mods)
  /-- HACC_U (R183). Hash-accumulate that may first combine lanes with equal keys. -/
  | haccU (d a : BitVec 5) (b : BitVec 3) (m : Mods)
  /-- CPY (R190). Issue an asynchronous copy whose size is a literal. -/
  | cpy (d a b : BitVec 5) (m : Mods)
  /-- CPY_REG_SIZE (R190). Issue an asynchronous copy whose size is in a register. -/
  | cpyRegSize (d a b : BitVec 5) (m : Mods)
  /-- GTH (R143). Issue a gather of indexed rows. -/
  | gth (d a b : BitVec 5) (m : Mods)
  /-- SCT (R193). Issue a scatter of packed rows. -/
  | sct (d a b : BitVec 5) (m : Mods)
  /-- CPYR_ADD (R194). Issue a copy that adds the source into the destination. -/
  | cpyrAdd (u rs : Bool) (d a b : BitVec 5) (m : Mods)
  /-- CPYR_MIN (R194). Issue a copy that takes the minimum into the destination. -/
  | cpyrMin (u rs : Bool) (d a b : BitVec 5) (m : Mods)
  /-- CPYR_MAX (R194). Issue a copy that takes the maximum into the destination. -/
  | cpyrMax (u rs : Bool) (d a b : BitVec 5) (m : Mods)
  /-- ALLRED_ADD (R376). Issue a collective add-reduction over a group of packages. -/
  | allredAdd (u : Bool) (d a b : BitVec 5) (m : Mods)
  /-- ALLRED_MIN (R376). Issue a collective min-reduction. -/
  | allredMin (u : Bool) (d a b : BitVec 5) (m : Mods)
  /-- ALLRED_MAX (R376). Issue a collective max-reduction. -/
  | allredMax (u : Bool) (d a b : BitVec 5) (m : Mods)
  /-- TLD (R215). Admit a tile load job to the data lane. -/
  | tld (d : BitVec 5) (t : BitVec 3) (a : BitVec 5) (m : Mods)
  /-- TST (R215). Admit a tile store job to the data lane. -/
  | tst (d : BitVec 5) (t : BitVec 3) (a : BitVec 5) (m : Mods)
  /-- TZERO (R216). Admit a job that zeroes a tile. -/
  | tzero (d : BitVec 5) (t : BitVec 3) (m : Mods)
  /-- TMOV (R216). Admit a job that copies one tile into another. -/
  | tmov (d : BitVec 5) (t s : BitVec 3) (m : Mods)
  /-- MMA (R219). Admit a dense matrix multiply-accumulate job. -/
  | mma (D : BitVec 3) (d : BitVec 5) (a b : BitVec 3) (m : Mods)
  /-- MMA_Q (R220). Admit a job that forms unscaled partial sums and column sums. -/
  | mmaQ (D : BitVec 3) (d : BitVec 5) (a b : BitVec 3) (m : Mods)
  /-- MMA_SP (R226). Admit a sparse matrix multiply-accumulate job. -/
  | mmaSp (D : BitVec 3) (d : BitVec 5) (a b : BitVec 3) (m : Mods)
  /-- SCA (R221). Admit a job that applies block scales to partial sums. -/
  | sca (D : BitVec 3) (d : BitVec 5) (a b : BitVec 3) (m : Mods)
  /-- PRUNE (R222). Admit an N:M pruning job and write TSHAPE_D and TMETA_D. -/
  | prune (D : BitVec 3) (d : BitVec 5) (a : BitVec 3) (m : Mods)
  /-- KWR_FSTAT (R139). Write FSTAT after the thread's divide operations land, clearing the flags written as 1. -/
  | kwrFstat (a : BitVec 5) (m : Mods)
  /-- KRD_FSTAT (R139). Read FSTAT after every divide-unit operation of the thread has landed. -/
  | krdFstat (d : BitVec 5) (m : Mods)
  /-- KRD_ADOPTMAX (R298). Read ADOPTMAX after every stlo.md of the thread has been acknowledged. -/
  | krdAdoptmax (d : BitVec 5) (m : Mods)
  /-- KWR_TSHAPE (R205). Write a TSHAPE register, checking SHAPE causes 1 to 3. -/
  | kwrTshape (i : BitVec 3) (a : BitVec 5) (m : Mods)
  /-- KWR_TMETA (R242). Write a TMETA header, checking META causes 2 to 5. -/
  | kwrTmeta (i : BitVec 3) (a : BitVec 5) (m : Mods)
  /-- KWR_ASSIGN (R328). Request that a resource be given to a function, completing once decided. -/
  | kwrAssign (a : BitVec 5) (m : Mods)
  /-- KEYLOAD (R364). Load a key slot from an SM2-encrypted blob at every controller. -/
  | keyload (a : BitVec 5) (m : Mods)
  /-- PREEMPT_REMOVE (R356). Remove a queue's slots from the rotation at the next boundary. -/
  | preemptRemove
  /-- PREEMPT_RESTORE (R356). Return a queue's slots, spilled ones included, to the rotation. -/
  | preemptRestore
  /-- PREEMPT_SAVE_IMAGE (R361). Remove every queue of a function and write its context image. -/
  | preemptSaveImage
  /-- PREEMPT_LOAD_IMAGE (R361). Write a context image back and restore the function's queues. -/
  | preemptLoadImage
  /-- IDLE_TURN (R93). A cycle in which no slot is ready and nothing issues. -/
  | idleTurn (core : Nat)
  /-- ROTATION_BOUNDARY (R314). Every 16 cycles the slot arbiter rewrites the queue-owner field of free slots. -/
  | rotationBoundary (core : Nat)
  /-- REPLY_LANDS (R34). A load reply lands, fills its register and frees its reservation. -/
  | replyLands (id : Nat)
  /-- STORE_ACKNOWLEDGED (R152). A home's store acknowledgement lands and frees the reservation. -/
  | storeAcknowledged (id : Nat)
  /-- DIVIDE_RESULT_LANDS (R137). The divide unit's result lands at its fixed time and its flags enter FSTAT. -/
  | divideResultLands (core : Nat)
  /-- CODE_FETCH_LANDS (R154). An instruction-cache refill lands through a fetch entry. -/
  | codeFetchLands (id : Nat)
  /-- LOAD_AT_HOME (R149). A load request is served at its home. -/
  | loadAtHome (id : Nat)
  /-- STORE_AT_HOME (R152). A home applies a write and answers every armed wait that the write satisfies. -/
  | storeAtHome (id : Nat)
  /-- EGRESS_LOAD (R262). A load reaching the die egress is answered from held writes or merged with the home's reply. -/
  | egressLoad (id : Nat)
  /-- INGRESS_RELEASE (R263). A home die's ingress releases a write held for causal order. -/
  | ingressRelease (id : Nat)
  /-- ATOMIC_AT_HOME (R268). An atomic or combined atomic is applied in one step at its home. -/
  | atomicAtHome (id : Nat)
  /-- COMBINER_GROUP_CLOSE (R271). A combiner group closes after 16 cycles or 8 atomics and sends one request. -/
  | combinerGroupClose (id : Nat)
  /-- PREDICTOR_ENTRY_DROP (R271). A contention predictor entry is dropped after 1,024 idle cycles. -/
  | predictorEntryDrop (cl line : Nat)
  /-- LDFE_AT_HOME (R166). ldfe takes a full word, refills from a queued filler, or queues. -/
  | ldfeAtHome (id : Nat)
  /-- STFE_AT_HOME (R166). stfe feeds the oldest waiter, fills the word, or queues. -/
  | stfeAtHome (id : Nat)
  /-- TKGET_AT_HOME (R251). The ticket home hands out next and increments it. -/
  | tkgetAtHome (id : Nat)
  /-- TKWAIT_AT_HOME (R251). The ticket home serves or arms a ticket wait. -/
  | tkwaitAtHome (id : Nat)
  /-- TKADV_AT_HOME (R251). The ticket home increments serving and answers matching waits. -/
  | tkadvAtHome (id : Nat)
  /-- WAIT_AT_HOME (R274). A waiteq or waitne is compared and armed in one step. -/
  | waitAtHome (id : Nat)
  /-- LKACQ_AT_HOME (R277). The lock home grants a free lock or queues the tag. -/
  | lkacqAtHome (id : Nat)
  /-- LKREL_AT_HOME (R277). The lock home passes the lock to its oldest waiter or frees it. -/
  | lkrelAtHome (id : Nat)
  /-- BAR_JOIN_AT_HOME (R280). The barrier home adds a member. -/
  | barJoinAtHome (id : Nat)
  /-- BAR_ARRIVE_AT_HOME (R280). The barrier home counts or arms an arrival. -/
  | barArriveAtHome (id : Nat)
  /-- BAR_DROP_AT_HOME (R280). The barrier home removes a member and its arrivals. -/
  | barDropAtHome (id : Nat)
  /-- HACC_AT_HOME (R182). The table's home inserts the lanes of one hacc. -/
  | haccAtHome (id : Nat)
  /-- ARMED_REPLY_LANDS (R253). An armed reply frees the waiter's reservation. -/
  | armedReplyLands (id : Nat)
  /-- SERVED_ANSWER_LANDS (R253). A served, acquired or fill answer wakes a waiter and invalidates by scope. -/
  | servedAnswerLands (id : Nat)
  /-- LDLO_AT_HOME (R287). The cell's home replies with its value and number. -/
  | ldloAtHome (id : Nat)
  /-- STLO_AT_HOME (R292). The home applies, supersedes or refuses a latest-only store by its number. -/
  | stloAtHome (id : Nat)
  /-- LDLO_REPLY_LANDS (R297). An ldlo reply is written, or refetched when older than the read table's entry. -/
  | ldloReplyLands (id : Nat)
  /-- LATEST_ONLY_ACK_LANDS (R288). A latest-only acknowledgement lands and the store queue sends its next held store. -/
  | latestOnlyAckLands (id : Nat)
  /-- IN_TRANSIT_DISCARD (R294). A router, egress or bridge discards older latest-only stores to the same cell. -/
  | inTransitDiscard (id : Nat)
  /-- TRANSLATION_WALK (R339). A walker walks the five-level table for a missed translation. -/
  | translationWalk (id : Nat)
  /-- WALK_RESULT_LANDS (R342). A walk's translation or fault reaches every joined request. -/
  | walkResultLands (id : Nat)
  /-- CLAIM_AT_HOME (R73). A claim increments the family's progress at the descriptor's home. -/
  | claimAtHome (id : Nat)
  /-- CORE_CLAIM (R74). A core with a free slot claims for the oldest deque entry. -/
  | coreClaim (core : Nat)
  /-- STEAL (R74). An idle core scans other deques and claims. -/
  | steal (core : Nat)
  /-- CLAIM_LANDS (R76). A claimed record lands in a slot or run queue and is acknowledged. -/
  | claimLands (id : Nat)
  /-- CLAIM_ACK_AT_HOME (R76). The home accepts an acknowledgement, or refuses it when the lease has expired. -/
  | claimAckAtHome (id : Nat)
  /-- LEASE_EXPIRY (R76). A 16,384-cycle claim lease expires and the k or record returns to the family. -/
  | leaseExpiry (thread : Nat)
  /-- DEPENDENT_FILL_LANDS (R408). A shared write fills the successor's dependent. -/
  | dependentFillLands (id : Nat)
  /-- PASS_THROUGH_FORWARD (R79). A pass-through stub forwards a dependent's value when it lands. -/
  | passThroughForward (id : Nat)
  /-- STUB_RESEND (R87). A forwarding stub resends a fill to the thread's new location. -/
  | stubResend (id : Nat)
  /-- END_REPORT_AT_HOME (R81). A member's end report reaches the family home after its writes are acknowledged. -/
  | endReportAtHome (id : Nat)
  /-- FAMILY_FILL_LANDS (R59). The completion word and link values fill the creator's registers in one act. -/
  | familyFillLands (id : Nat)
  /-- HWAIT_ANSWER_LANDS (R106). The answer to a wait armed at a family home lands. -/
  | hwaitAnswerLands (id : Nat)
  /-- BREAK_AT_HOME (R60). A break is recorded at the home and members of higher index are killed. -/
  | breakAtHome (id : Nat)
  /-- KILL_AT_HOME (R82). A kill arrives at the family home and overrides unless the end is fixed. -/
  | killAtHome (id : Nat)
  /-- KILL_REACHES_MEMBER (R61). A kill reaches a member's slot and the member ends at its next issue turn. -/
  | killReachesMember (id : Nat)
  /-- MIGRATION_ARRIVAL (R90). A migrating record arrives at the owner's run queue or serial queue. -/
  | migrationArrival (id : Nat)
  /-- COPY_FORK (R199). An engine operation forks once the issuer's earlier accesses complete. -/
  | copyFork (unit cl e : Nat)
  /-- COPY_CHUNK_CHECK (R190). A chunk or row checks and translates its addresses and reads its source. -/
  | copyChunkCheck (cl e chunk : Nat)
  /-- COPY_CHUNK_WRITE (R190). A chunk or row writes its destination. -/
  | copyChunkWrite (cl e chunk : Nat)
  /-- COPY_COMPLETE (R189). An operation ends and fills its handle with its completion word. -/
  | copyComplete (cl e : Nat)
  /-- ENGINE_HANDLE_FILL_LANDS (R200). An engine handle fill lands at the thread, which invalidates its data cache. -/
  | engineHandleFillLands (id : Nat)
  /-- JOB_START (R208). A tile or matrix job starts on its lane. -/
  | jobStart (cl e : Nat)
  /-- TILE_ROW_TRANSFER (R212). One row of a tld or tst runs its check and write phases. -/
  | tileRowTransfer (cl e r : Nat)
  /-- JOB_END (R208). A job ends, clears its locks and readies slots that retried on them. -/
  | jobEnd (cl e : Nat)
  /-- JOB_HANDLE_FILL (R209). A job's handle fills 4 cycles after it ends. -/
  | jobHandleFill (cl e : Nat)
  /-- SNOWPLOUGH_STEP (R321). Every 4 cycles the die grants array-job starts by its lane count. -/
  | snowploughStep (die : Nat)
  /-- LEVEL2_REPLY_RELEASE (R320). A reply held at level 2 is released at its fixed time. -/
  | level2ReplyRelease (id : Nat)
  /-- FAULT_RECORD_CLAIM (R349). A writer claims a fault-queue record, waiting for room, and writes it. -/
  | faultRecordClaim (id : Nat)
  /-- PAGING_SERVICE (R354). The hardware paging service brings an absent page in and answers replay. -/
  | pagingService (id : Nat)
  /-- ANSWER_AT_HOLDER (R350). An answer reaches the holder of a record, which replays, resumes or aborts. -/
  | answerAtHolder (id : Nat)
  /-- ANSWER_DOORBELL (R370). The host's write to ansact answers a record as rft does. -/
  | answerDoorbell (vf : Nat) (w : Word)
  /-- QUEUE_DOORBELL (R306). A write to a queue's tail announces new packets. -/
  | queueDoorbell (vf q : Nat) (w : Word)
  /-- QUEUE_CONTROL_WRITE (R307). A write to a queue's control word, refused with error 0x05 when malformed. -/
  | queueControlWrite (vf q : Nat) (w : Word)
  /-- PACKET_READ_LANDS (R306). A packet read from the ring lands and may start. -/
  | packetReadLands (vf q i : Nat)
  /-- LAUNCH (R312). Admit a launch record: promise, arena entry, launch core, range and deal. -/
  | launch (vf q i : Nat)
  /-- ADMISSION_WAKE (R312). A waiting admission step resumes when its awaited event occurs. -/
  | admissionWake (vf q i : Nat)
  /-- LOCAL_SECTION_COPY_LANDS (R312). The copy of the local section completes and admission proceeds. -/
  | localSectionCopyLands (vf q i : Nat)
  /-- COPY (R309). Packet that runs a copy as cpy does. -/
  | copy (vf q i : Nat)
  /-- SIGNAL (R309). Packet that stores or atomically adds an 8-byte value as a release. -/
  | signal (vf q i : Nat)
  /-- WAIT_SEQ (R309). Packet that arms a wait for W >= v or W = v. -/
  | waitSeq (vf q i : Nat)
  /-- WAIT_SEQ_ANSWER (R309). A write satisfies a WAIT_SEQ and the queue goes on. -/
  | waitSeqAnswer (id : Nat)
  /-- SET_DET (R318). Packet that stops the function's queues at their next LAUNCH. -/
  | setDet (vf q i : Nat)
  /-- SET_DET_DRAINED (R318). Earlier launches have ended; the level is set and the queues resume. -/
  | setDetDrained (vf : Nat)
  /-- FENCE_PACKET (R309). Packet that waits for every earlier packet of the function. -/
  | fencePacket (vf q i : Nat)
  /-- FENCE_PACKET_COMPLETE (R309). Every earlier packet has completed and the FENCE completes. -/
  | fencePacketComplete (vf q i : Nat)
  /-- SCRUB_REGION_DONE (R330). The scrub engine finishes a region and records its progress. -/
  | scrubRegionDone
  /-- SCRUBGO (R402). The host reports a kind-4 region zeroed in host-assisted scrub. -/
  | scrubgo (w : Word)
  /-- CORE_STOP (R365). A core stops on a hardware fault and the Lodestar repairs its cluster. -/
  | coreStop (core bad : Nat)
  /-- REPAIR (R402). Host choice of spare or shrink for a host-assisted core repair. -/
  | repair (w : Word)
  /-- SLOTQ (R402). Host write of queue-owner fields of free slots in host-assisted scheduling. -/
  | slotq (w : Word)
  /-- SPILL (R402). Host request to spill a named core in host-assisted slot spill. -/
  | spill (w : Word)
  /-- ASSIGN (R327). Host write of an ASSIGN request in the management page. -/
  | assign (w : Word)
  /-- MANAGEMENT_WRITE (R370). Host write to a management-space field without a row of its own. -/
  | managementWrite (off : Nat) (w : Word)
  /-- HOST_MEMORY_ACCESS (R369). A host read or write of device memory. -/
  | hostMemoryAccess (wr : Bool) (addr len v : Nat)
  /-- GANGCTL_ARM (R380). Arm a queue so that its next LAUNCH is a gang launch. -/
  | gangctlArm (vf : Nat) (w : Word)
  /-- PREPARED (R381). A rank's PREPARED message reaches the coordinator. -/
  | prepared (vf gid rank : Nat)
  /-- REFUSED (R381). A rank's REFUSED message reaches the coordinator, which aborts. -/
  | refused (vf gid rank : Nat)
  /-- COMMIT (R381). COMMIT reaches a rank, which deals its launch. -/
  | commit (vf gid : Nat)
  /-- ABORT (R382). ABORT reaches a rank, which releases its entry and writes status 0x12. -/
  | abort (vf gid rank pkg : Nat)
  /-- GANG_TIMEOUT (R381). The coordinator's limit passes and it sends ABORT. -/
  | gangTimeout (vf : Nat)
  /-- ALLRED_MESSAGE (R376). A collective chunk arrives from another rank and is combined or written. -/
  | allredMessage (pkg gid seq chunk rank op fmt size mode len v : Nat)
  /-- RANK_LOST (R379). A lost rank stops every survivor's operation with MACHINE(4). -/
  | rankLost (pkg : Nat)
  /-- KEEPALIVE (R372). Every 65,536 cycles a keepalive is sent; 16 unanswered make the peer lost. -/
  | keepalive (pkg : Nat) (answered : Bool)
  /-- PEER_PORT_DOWN (R372). A scale-out port goes down, and a peer with no port left is lost. -/
  | peerPortDown (port : Nat)
  /-- UCIE_MODULE_FAILURE (R368). A UCIe module fails and its lines pass to the next working module. -/
  | ucieModuleFailure (module : Nat)
  /-- CXL_LINK_DOWN (R371). A CXL link goes down; reads return poison and writes are held. -/
  | cxlLinkDown (port : Nat)
  /-- CXL_LINK_RETRAIN (R371). A CXL link retrains and held writes proceed. -/
  | cxlLinkRetrain (port : Nat)
  /-- START (R397). A reset or power-up runs the start steps in index order against the boot record. -/
  | start (again ok : Bool) (mask : Nat)
  /-- BOOTCLR (R398). Host write that clears a halted step so that the start runs it again. -/
  | bootclr (w : Word)
  /-- ATTEST (R401). Host write that makes the device write a signed attestation report. -/
  | attest (w : Word)
  /-- DUTY_WRITE (R403). A write to a duty register requests a mode switch. -/
  | dutyWrite (duty : Nat) (w : Word)
  /-- DUTY_DRAIN_END (R403). Old-mode work has finished and the duty's mode changes. -/
  | dutyDrainEnd (duty : Nat)
  /-- THROTTLE (R405). Power above cap or temperature at 100 °C halves Snowplough grants. -/
  | throttle (power temp die : Nat)
  /-- THERMAL_TRIP (R405). A die reaching 115 °C resets the package. -/
  | thermalTrip (die : Nat)
  /-- WITHDRAWAL_AT_HOME (R303). An lkacq or ldfe request that would close a wait cycle is withdrawn at the word's home,
  which acknowledges it. -/
  | withdrawalAtHome (id : Nat)
  /-- WITHDRAWAL_ACK_LANDS (R303). The home's acknowledgement of a withdrawal lands and the waiter faults WAITCYCLE unless
  its answer landed first. -/
  | withdrawalAckLands (id : Nat)
  /-- HWAIT_ARM_AT_HOME (R106). A wait armed by hwait on a family handle reaches the family's home, which arms it or
  answers it when the end is fixed. -/
  | hwaitArmAtHome (id : Nat)
  /-- PEER_ADMIT (R372). The host driver admits a lost peer again, so that its frames are no longer refused. -/
  | peerAdmit (pkg : Nat)
  /-- SCALE_OUT_PORT_UP (R372). A scale-out port comes back up on the electrical layer. -/
  | scaleOutPortUp (port : Nat)
  /-- FIRMWARE_IMAGE_WRITE (R400). The host writes a new firmware image through the UCIe sideband. -/
  | firmwareImageWrite (len v sig version : Nat)
  /-- GATING_REQUEST (R76). A request to power-gate a core, which waits until the core has no occupied slot and no claim
  outstanding. -/
  | gatingRequest (core : Nat)
  /-- THROTTLE_END (R405). Power falls to cap or below and the temperature falls below 100 °C, so full Snowplough grants
  resume. -/
  | throttleEnd (power temp die : Nat)
  deriving DecidableEq, Repr

end Sys2Proof
end

