-- ==== Sys2Proof/Decode.lean ====
section
/-! DEFINITION. The decoder and the encoder: instruction words to `Instr` and back (chapter "Instruction words,
registers and the opcode map", with the field rules of the group chapters). Decoding is total; it rejects by
name, and the cause is the first row of R56's table that applies.

The definitions that build an instruction are marked noncomputable only because Lean's compiler cannot give an
object with fields a constructor number above 244, and the table has 382 rows; the kernel evaluates them all. -/

namespace Sys2Proof

/-- The cause of an ILLEGAL fault: the rows of R56's table, in its order. -/
inductive IllegalCause where
  /-- 1: unassigned major opcode. -/
  | major
  /-- 2: unassigned function code. -/
  | function
  /-- 3: length field not taken by the major or function. -/
  | length
  /-- 4: nonzero reserved or roleless field. -/
  | reserved
  /-- 5: register number not permitted in its field, or p0 as guard with sense 1. -/
  | register
  /-- 6: format, rounding, scope, option or control-register code not permitted. -/
  | code
  /-- 7: control-transfer target not permitted (raised at execution, R58). -/
  | target
  deriving DecidableEq, Repr

/-- The cause's number in a fault record. -/
def IllegalCause.toNat : IllegalCause → Nat
  | .major => 1
  | .function => 2
  | .length => 3
  | .reserved => 4
  | .register => 5
  | .code => 6
  | .target => 7

/-- Why bytes are no instruction: too few of them, or an ILLEGAL encoding. -/
inductive DecodeError where
  /-- The bytes end before the words that the length field asks for. -/
  | truncated
  /-- R56: the encoding raises ILLEGAL with this cause. -/
  | illegal (c : IllegalCause)
  deriving DecidableEq, Repr

/-- An instruction's fields as they stand in its words (R20 to R23): word 0's, word 1's reserved bits, and the
rest in `m`. -/
structure Raw where
  major : BitVec 6
  rd    : BitVec 5
  ra    : BitVec 5
  rb    : BitVec 5
  func  : BitVec 9
  rsv   : BitVec 4
  m     : Mods
  deriving DecidableEq, Repr

/-- The number of words that a length code selects (R17). -/
def lenWords (len : BitVec 2) : Nat :=
  match len.toNat with
  | 0 => 1
  | 1 => 3
  | 2 => 3
  | _ => 5

/-- The bytes of an instruction of this length. -/
def lenBytes (len : BitVec 2) : Nat := 4 * lenWords len

/-- Word 0's bits [31:18] as one field: imm14 of R21. -/
def Raw.imm14 (r : Raw) : BitVec 14 := r.func ++ r.rb

/-- The immediate of an I32 major, by length (R30). -/
def Raw.imm (r : Raw) : Word :=
  match r.m.len.toNat with
  | 0 => r.imm14.signExtend 64
  | 1 => r.m.w2.signExtend 64
  | _ => r.m.lit

/-- What a register field may hold (R33, R36 and the group chapters). -/
inductive Role where
  /-- No role: must be zero (R29). -/
  | none
  /-- A general register read as a source: any number. -/
  | source
  /-- A general destination: l0 to l9, sh0 to sh3, z, lk (R33, R120). -/
  | dest
  /-- A load destination: l0 to l9 or z (R161). -/
  | loadDest
  /-- A handle: l0 to l9 (R97, R185, R206). -/
  | handle
  /-- A predicate source (R36). -/
  | pred
  /-- A predicate destination: p1 to p7 (R36). -/
  | predDest
  /-- The rd of a compare with an immediate: bits [2:0] name the predicate (R36). -/
  | predDestLow
  /-- A vector register (R36). -/
  | vector
  /-- v0 or v4 (R217). -/
  | vector04
  /-- A tile (R36). -/
  | tile
  /-- A number that every value is permitted for. -/
  | any
  deriving DecidableEq, Repr

/-- The lengths in which word 2 has a role. -/
inductive Word2Role where
  /-- Word 2 must be zero. -/
  | none
  /-- Word 2 has a role in length 0b01 and must be zero in 0b11. -/
  | x96
  /-- Word 2 has a role in every length that holds it. -/
  | full
  deriving DecidableEq, Repr

/-- What an instruction's encoding tables say of its fields. -/
structure FieldRules where
  lens  : List (BitVec 2)
  rd    : Role := .none
  ra    : Role := .none
  rb    : Role := .none
  rc    : Role := .none
  consA : Bool := false
  consB : Bool := false
  consC : Bool := false
  w2    : Word2Role := .none
  scope : Bool := false
  round : Bool := false
  fmtA  : Bool := false
  fmtB  : Bool := false
  /-- A roleless format field, or a consume bit of A or B that R24 does not allow, breaches as cause 6, not 4 (R185,
  R375). -/
  copyFmt : Bool := false
  /-- A set consC breaches as cause 6, not 4 (R185). -/
  copyCons : Bool := false
  deriving DecidableEq, Repr

/-- The field rules of every instruction with words: the encoding tables of chapters 2, 5, 6, 9 to 12, 15 to 18,
21 to 23. A row without words has none. A `bfi` with func[8] = 0 may have length 0b11, as R119 lists it; its literal is
not read (DEDUCED, log entry 84). -/
def fieldRules : Instr → Option FieldRules
  | .add _ _ _ imm _ | .sub _ _ _ imm _ | .mul _ _ _ imm _ | .mulh _ _ _ imm _ | .mulhu _ _ _ imm _
  | .div _ _ _ imm _ | .divu _ _ _ imm _ | .rem _ _ _ imm _ | .remu _ _ _ imm _ | .and _ _ _ imm _
  | .or _ _ _ imm _ | .xor _ _ _ imm _ | .andn _ _ _ imm _ | .shl _ _ _ imm _ | .shr _ _ _ imm _
  | .sar _ _ _ imm _ | .rol _ _ _ imm _ | .ror _ _ _ imm _ | .min _ _ _ imm _ | .max _ _ _ imm _
  | .minu _ _ _ imm _ | .maxu _ _ _ imm _ | .bfxReg _ _ _ imm _ | .bfxuReg _ _ _ imm _ =>
      some { lens := (if imm then [1#2, 2#2, 3#2] else [0#2, 1#2]), rd := .dest, ra := .source, rb := (if imm then .none else .source), consA := true, consB := !imm, w2 := (if imm then .x96 else .none) }
  | .mov _ _ _ | .clz _ _ _ | .ctz _ _ _ | .popc _ _ _ | .bswap _ _ _ | .sxb _ _ _ | .sxh _ _ _ | .sxw _ _ _
  | .zxw _ _ _ | .fabs _ _ _ _ | .fneg _ _ _ _ | .fclass _ _ _ _ =>
      some { lens := [0#2, 1#2], rd := .dest, ra := .source, consA := true }
  | .bfi _ _ _ imm _ =>
      some { lens := [1#2, 3#2], rd := .dest, ra := .source, rb := (if imm then .none else .source), rc := .source, consA := true, consB := !imm, consC := true, w2 := (if imm then .x96 else .none) }
  | .lea1 _ _ _ _ | .lea2 _ _ _ _ | .lea4 _ _ _ _ | .lea8 _ _ _ _ =>
      some { lens := [0#2, 1#2], rd := .dest, ra := .source, rb := .source, consA := true, consB := true, w2 := .x96 }
  | .addi _ _ _ _ | .muli _ _ _ _ | .andi _ _ _ _ | .ori _ _ _ _ | .xori _ _ _ _ | .shlImm _ _ _ _
  | .shrImm _ _ _ _ | .sarImm _ _ _ _ | .rolImm _ _ _ _ | .rorImm _ _ _ _ | .bfxuImm _ _ _ _ _
  | .bfxImm _ _ _ _ _ =>
      some { lens := [0#2, 1#2, 2#2, 3#2], rd := .dest, ra := .source, rb := .any, consA := true, w2 := .x96 }
  | .movi _ _ _ =>
      some { lens := [0#2, 1#2, 2#2, 3#2], rd := .dest, rb := .any, w2 := .x96 }
  | .cmpEqImm _ _ _ _ | .cmpNeImm _ _ _ _ | .cmpLtImm _ _ _ _ | .cmpLeImm _ _ _ _ | .cmpGtImm _ _ _ _
  | .cmpGeImm _ _ _ _ | .cmpLtuImm _ _ _ _ | .cmpLeuImm _ _ _ _ | .cmpGtuImm _ _ _ _ | .cmpGeuImm _ _ _ _
  | .cmpTstImm _ _ _ _ | .cmpTstzImm _ _ _ _ =>
      some { lens := [0#2, 1#2, 2#2, 3#2], rd := .predDestLow, ra := .source, rb := .any, consA := true, w2 := .x96 }
  | .cmpEq _ _ _ _ | .cmpNe _ _ _ _ | .cmpLt _ _ _ _ | .cmpLe _ _ _ _ | .cmpGt _ _ _ _ | .cmpGe _ _ _ _
  | .cmpLtu _ _ _ _ | .cmpLeu _ _ _ _ | .cmpGtu _ _ _ _ | .cmpGeu _ _ _ _ | .cmpTst _ _ _ _ | .cmpTstz _ _ _ _
  | .fcmpEq _ _ _ _ _ | .fcmpNe _ _ _ _ _ | .fcmpLt _ _ _ _ _ | .fcmpLe _ _ _ _ _ | .fcmpUn _ _ _ _ _ =>
      some { lens := [0#2, 1#2], rd := .predDest, ra := .source, rb := .source, consA := true, consB := true }
  | .pand _ _ _ _ | .por _ _ _ _ | .pxor _ _ _ _ | .pandn _ _ _ _ =>
      some { lens := [0#2, 1#2], rd := .predDest, ra := .pred, rb := .pred }
  | .pnot _ _ _ | .pmov _ _ _ =>
      some { lens := [0#2, 1#2], rd := .predDest, ra := .pred }
  | .prd _ _ | .wdepth _ _ =>
      some { lens := [0#2, 1#2], rd := .dest }
  | .pwr _ _ | .tlbinv _ _ | .kslz _ _ | .scrb _ _ | .callReg _ _ | .jmp _ _ | .sync _ _ | .brk _ _ | .mig _ _
  | .migS _ _ | .hwait _ _ =>
      some { lens := [0#2, 1#2], ra := .source, consA := true }
  | .fadd _ _ _ _ _ | .fsub _ _ _ _ _ | .fmul _ _ _ _ _ | .fdiv _ _ _ _ _ =>
      some { lens := [0#2, 1#2], rd := .dest, ra := .source, rb := .source, consA := true, consB := true, round := true }
  | .fsqrt _ _ _ _ =>
      some { lens := [0#2, 1#2], rd := .dest, ra := .source, consA := true, round := true }
  | .fmin _ _ _ _ _ | .fmax _ _ _ _ _ =>
      some { lens := [0#2, 1#2], rd := .dest, ra := .source, rb := .source, consA := true, consB := true }
  | .fma _ _ _ _ _ | .fnma _ _ _ _ _ =>
      some { lens := [1#2], rd := .dest, ra := .source, rb := .source, rc := .source, consA := true, consB := true, consC := true, round := true }
  | .fcvt _ _ _ =>
      some { lens := [1#2], rd := .dest, ra := .source, consA := true, round := true, fmtA := true, fmtB := true }
  | .nop _ | .rft _ | .ret _ | .wflush _ | .yield _ | .ifence _ | .vrel _ =>
      some { lens := [0#2, 1#2] }
  | .krd _ _ _ | .krdFstat _ _ | .krdAdoptmax _ _ =>
      some { lens := [0#2, 1#2], rd := .dest, ra := .any, rb := .any }
  | .kwr _ _ _ | .kwrFstat _ _ | .kwrTshape _ _ _ | .kwrTmeta _ _ _ | .kwrAssign _ _ | .keyload _ _ =>
      some { lens := [0#2, 1#2], rd := .any, ra := .source, rb := .any, consA := true }
  | .fence _ =>
      some { lens := [0#2, 1#2], scope := true }
  | .trap _ _ =>
      some { lens := [0#2, 1#2], rb := .any }
  | .ldB _ _ _ _ | .ldBu _ _ _ _ | .ldH _ _ _ _ | .ldHu _ _ _ _ | .ldW _ _ _ _ | .ldWu _ _ _ _ | .ldD _ _ _ _
  | .ldfe _ _ _ _ =>
      some { lens := [0#2, 1#2, 2#2, 3#2], rd := .loadDest, ra := .source, rb := .any, consA := true, w2 := .x96, scope := true }
  | .stB _ _ _ _ | .stH _ _ _ _ | .stW _ _ _ _ | .stD _ _ _ _ | .stfe _ _ _ _ =>
      some { lens := [0#2, 1#2, 2#2, 3#2], rd := .source, ra := .source, rb := .any, consA := true, w2 := .x96, scope := true }
  | .ldIndexed _ _ _ _ _ _ | .amoAdd _ _ _ _ _ _ | .amoAnd _ _ _ _ _ _ | .amoOr _ _ _ _ _ _
  | .amoXor _ _ _ _ _ _ | .amoMin _ _ _ _ _ _ | .amoMax _ _ _ _ _ _ | .amoMinu _ _ _ _ _ _
  | .amoMaxu _ _ _ _ _ _ | .amoXchg _ _ _ _ _ _ | .famoMin _ _ _ _ _ _ | .famoMax _ _ _ _ _ _ =>
      some { lens := [0#2, 1#2], rd := .loadDest, ra := .source, rb := .source, consA := true, consB := true, w2 := .x96, scope := true }
  | .stIndexed _ _ _ _ _ _ =>
      some { lens := [0#2, 1#2], rd := .source, ra := .source, rb := .source, consA := true, consB := true, w2 := .x96, scope := true }
  | .ldlo _ _ _ =>
      some { lens := [1#2], rd := .loadDest, ra := .source, rc := .loadDest, consA := true, w2 := .x96, scope := true }
  | .stlo _ _ _ | .stloMd _ _ _ =>
      some { lens := [1#2], ra := .source, rb := .source, rc := .source, consA := true, consB := true, consC := true, w2 := .x96, scope := true }
  | .b _ _ | .bt _ _ _ | .bf _ _ _ =>
      some { lens := [0#2], rd := .any, ra := .any, rb := .any }
  | .callLit _ =>
      some { lens := [2#2, 3#2] }
  | .create _ _ _ _ =>
      some { lens := [3#2], rd := .handle, ra := .source, rb := .source, rc := .source, consA := true, w2 := .full }
  | .spawn _ _ _ =>
      some { lens := [3#2], ra := .source, rb := .source, rc := .source, consA := true, w2 := .full }
  | .kill _ _ | .hcancel _ _ =>
      some { lens := [0#2, 1#2], ra := .source }
  | .htest _ _ _ =>
      some { lens := [0#2, 1#2], rd := .dest, ra := .source }
  | .cas _ _ _ _ _ _ =>
      some { lens := [1#2], rd := .loadDest, ra := .source, rb := .source, rc := .source, consA := true, consB := true, consC := true, w2 := .x96, scope := true }
  | .famoAdd _ _ _ _ _ _ =>
      some { lens := [0#2, 1#2], rd := .loadDest, ra := .source, rb := .source, consA := true, consB := true, w2 := .x96, scope := true, round := true }
  | .tkget _ _ _ =>
      some { lens := [0#2, 1#2], rd := .loadDest, ra := .source, consA := true, scope := true }
  | .tkwait _ _ _ | .waiteq _ _ _ | .waitne _ _ _ =>
      some { lens := [0#2, 1#2], ra := .source, rb := .source, consA := true, consB := true, scope := true }
  | .tkadv _ _ | .lkacq _ _ | .lkrel _ _ | .barJoin _ _ | .barArrive _ _ | .barDrop _ _ =>
      some { lens := [0#2, 1#2], ra := .source, consA := true, scope := true }
  | .vldContig _ k _ _ _ | .vstContig _ k _ _ _ =>
      some { lens := (if k then [1#2] else [0#2, 1#2]), rd := .vector, ra := .source, rc := (if k then .source else .none), consA := true, consC := k, w2 := .x96 }
  | .vldStrided _ k _ _ _ _ | .vstStrided _ k _ _ _ _ =>
      some { lens := (if k then [1#2] else [0#2, 1#2]), rd := .vector, ra := .source, rb := .source, rc := (if k then .source else .none), consA := true, consB := true, consC := k, w2 := .x96 }
  | .vldIndexed _ k _ _ _ _ | .vstIndexed _ k _ _ _ _ =>
      some { lens := (if k then [1#2] else [0#2, 1#2]), rd := .vector, ra := .source, rb := .vector, rc := (if k then .source else .none), consA := true, consC := k, w2 := .x96 }
  | .vadd _ _ _ _ _ | .vsub _ _ _ _ _ | .vmul _ _ _ _ _ | .vmulh _ _ _ _ _ | .vmin _ _ _ _ _ | .vmax _ _ _ _ _
  | .vminu _ _ _ _ _ | .vmaxu _ _ _ _ _ | .vand _ _ _ _ _ | .vor _ _ _ _ _ | .vxor _ _ _ _ _ | .vshl _ _ _ _ _
  | .vshr _ _ _ _ _ | .vsar _ _ _ _ _ | .vadds _ _ _ _ _ | .vaddus _ _ _ _ _ | .vsubs _ _ _ _ _
  | .vsubus _ _ _ _ _ | .vfmin _ _ _ _ _ | .vfmax _ _ _ _ _ | .vperm _ _ _ _ _ =>
      some { lens := [0#2, 1#2], rd := .vector, ra := .vector, rb := .vector }
  | .vabs _ _ _ _ | .vneg _ _ _ _ | .vfabs _ _ _ _ | .vfneg _ _ _ _ | .vmov _ _ _ =>
      some { lens := [0#2, 1#2], rd := .vector, ra := .vector }
  | .vcmpEq _ _ _ _ _ | .vcmpLt _ _ _ _ _ | .vcmpLe _ _ _ _ _ | .vcmpLtu _ _ _ _ _ | .vcmpLeu _ _ _ _ _
  | .vfcmpEq _ _ _ _ _ | .vfcmpLt _ _ _ _ _ | .vfcmpLe _ _ _ _ _ | .vfcmpUn _ _ _ _ _ =>
      some { lens := [0#2, 1#2], rd := .dest, ra := .vector, rb := .vector }
  | .vmad _ _ _ _ _ =>
      some { lens := [1#2], rd := .vector, ra := .vector, rb := .vector, rc := .vector }
  | .vfadd _ _ _ _ _ | .vfsub _ _ _ _ _ | .vfmul _ _ _ _ _ | .vfdiv _ _ _ _ _ =>
      some { lens := [0#2, 1#2], rd := .vector, ra := .vector, rb := .vector, round := true }
  | .vfsqrt _ _ _ _ =>
      some { lens := [0#2, 1#2], rd := .vector, ra := .vector, round := true }
  | .vfma _ _ _ _ _ | .vfnma _ _ _ _ _ =>
      some { lens := [1#2], rd := .vector, ra := .vector, rb := .vector, rc := .vector, round := true }
  | .vbcastW _ _ _ | .vbcastD _ _ _ =>
      some { lens := [0#2, 1#2], rd := .vector, ra := .source, consA := true }
  | .vextW _ _ _ _ | .vextD _ _ _ _ =>
      some { lens := [0#2, 1#2], rd := .dest, ra := .vector, rb := .source, consB := true }
  | .vinsW _ _ _ _ | .vinsD _ _ _ _ =>
      some { lens := [0#2, 1#2], rd := .vector, ra := .source, rb := .source, consA := true, consB := true }
  | .vcvt _ _ _ =>
      some { lens := [1#2], rd := .vector, ra := .vector, round := true, fmtA := true, fmtB := true }
  | .nzscan _ _ _ _ =>
      some { lens := [1#2], rd := .vector, ra := .vector, rc := .dest }
  | .vcompress _ _ _ _ _ =>
      some { lens := [0#2, 1#2], rd := .vector, ra := .vector, rb := .source, consB := true }
  | .vredAdd _ _ _ _ _ =>
      some { lens := [0#2, 1#2], rd := .dest, ra := .vector, round := true }
  | .vredMin _ _ _ _ _ | .vredMax _ _ _ _ _ =>
      some { lens := [0#2, 1#2], rd := .dest, ra := .vector }
  | .haccO _ _ _ _ | .haccU _ _ _ _ =>
      some { lens := [1#2], rd := .dest, ra := .source, rb := .vector, rc := .vector, consA := true, round := true, fmtA := true, fmtB := true }
  | .tld _ _ _ _ | .tst _ _ _ _ =>
      some { lens := [0#2, 1#2], rd := .handle, ra := .source, rb := .tile, consA := true, w2 := .x96 }
  | .tzero _ _ _ =>
      some { lens := [0#2, 1#2], rd := .handle, rb := .tile }
  | .tmov _ _ _ _ =>
      some { lens := [0#2, 1#2], rd := .handle, ra := .tile, rb := .tile }
  | .mma _ _ _ _ _ | .mmaSp _ _ _ _ _ =>
      some { lens := [0#2, 1#2], rd := .handle, ra := .tile, rb := .tile, round := true }
  | .mmaQ _ _ _ _ _ =>
      some { lens := [1#2], rd := .handle, ra := .tile, rb := .tile, rc := .vector04, round := true }
  | .sca _ _ _ _ _ =>
      some { lens := [1#2], rd := .handle, ra := .tile, rb := .vector04, rc := .source, consC := true, round := true }
  | .prune _ _ _ _ =>
      some { lens := [1#2], rd := .handle, ra := .tile, w2 := .x96 }
  | .cpy _ _ _ _ =>
      some { lens := [1#2, 3#2], rd := .handle, ra := .source, rb := .source, consA := true, consB := true, w2 := .x96, copyFmt := true, copyCons := true }
  | .cpyRegSize _ _ _ _ =>
      some { lens := [1#2], rd := .handle, ra := .source, rb := .source, rc := .source, consA := true, consB := true, copyFmt := true, copyCons := true }
  | .gth _ _ _ _ | .sct _ _ _ _ =>
      some { lens := [1#2], rd := .handle, ra := .source, rb := .source, rc := .vector, consA := true, consB := true, w2 := .x96, copyFmt := true, copyCons := true }
  | .cpyrAdd _ rs _ _ _ _ =>
      some { lens := (if rs then [1#2] else [1#2, 3#2]), rd := .handle, ra := .source, rb := .source, rc := (if rs then .source else .none), consA := true, consB := true, w2 := (if rs then .none else .x96), round := true, fmtA := true, copyFmt := true, copyCons := true }
  | .cpyrMin _ rs _ _ _ _ | .cpyrMax _ rs _ _ _ _ =>
      some { lens := (if rs then [1#2] else [1#2, 3#2]), rd := .handle, ra := .source, rb := .source, rc := (if rs then .source else .none), consA := true, consB := true, w2 := (if rs then .none else .x96), fmtA := true, copyFmt := true, copyCons := true }
  | .allredAdd _ _ _ _ _ =>
      some { lens := [1#2], rd := .handle, ra := .source, rb := .source, rc := .source, consA := true, consB := true, w2 := .x96, round := true, fmtA := true, copyFmt := true }
  | .allredMin _ _ _ _ _ | .allredMax _ _ _ _ _ =>
      some { lens := [1#2], rd := .handle, ra := .source, rb := .source, rc := .source, consA := true, consB := true, w2 := .x96, fmtA := true, copyFmt := true }
  | .preemptRemove | .preemptRestore | .preemptSaveImage | .preemptLoadImage | .idleTurn _
  | .rotationBoundary _ | .replyLands _ | .storeAcknowledged _ | .divideResultLands _ | .codeFetchLands _
  | .loadAtHome _ | .storeAtHome _ | .egressLoad _ | .ingressRelease _ | .atomicAtHome _
  | .combinerGroupClose _ | .predictorEntryDrop _ _ | .ldfeAtHome _ | .stfeAtHome _ | .tkgetAtHome _
  | .tkwaitAtHome _ | .tkadvAtHome _ | .waitAtHome _ | .lkacqAtHome _ | .lkrelAtHome _ | .barJoinAtHome _
  | .barArriveAtHome _ | .barDropAtHome _ | .haccAtHome _ | .armedReplyLands _ | .servedAnswerLands _
  | .ldloAtHome _ | .stloAtHome _ | .ldloReplyLands _ | .latestOnlyAckLands _ | .inTransitDiscard _
  | .translationWalk _ | .walkResultLands _ | .claimAtHome _ | .coreClaim _ | .steal _ | .claimLands _
  | .claimAckAtHome _ | .leaseExpiry _ | .dependentFillLands _ | .passThroughForward _ | .stubResend _
  | .endReportAtHome _ | .familyFillLands _ | .hwaitAnswerLands _ | .breakAtHome _ | .killAtHome _
  | .killReachesMember _ | .migrationArrival _ | .copyFork _ _ _ | .copyChunkCheck _ _ _
  | .copyChunkWrite _ _ _ | .copyComplete _ _ | .engineHandleFillLands _ | .jobStart _ _
  | .tileRowTransfer _ _ _ | .jobEnd _ _ | .jobHandleFill _ _ | .snowploughStep _ | .level2ReplyRelease _
  | .faultRecordClaim _ | .pagingService _ | .answerAtHolder _ | .answerDoorbell _ _ | .queueDoorbell _ _ _
  | .queueControlWrite _ _ _ | .packetReadLands _ _ _ | .launch _ _ _ | .admissionWake _ _ _
  | .localSectionCopyLands _ _ _ | .copy _ _ _ | .signal _ _ _ | .waitSeq _ _ _ | .waitSeqAnswer _
  | .setDet _ _ _ | .setDetDrained _ | .fencePacket _ _ _ | .fencePacketComplete _ _ _ | .scrubRegionDone
  | .scrubgo _ | .coreStop _ _ | .repair _ | .slotq _ | .spill _ | .assign _ | .managementWrite _ _
  | .hostMemoryAccess _ _ _ _ | .gangctlArm _ _ | .prepared _ _ _ | .refused _ _ _ | .commit _ _
  | .abort _ _ _ _ | .gangTimeout _ | .allredMessage _ _ _ _ _ _ _ _ _ _ _ | .rankLost _ | .keepalive _ _
  | .peerPortDown _ | .ucieModuleFailure _ | .cxlLinkDown _ | .cxlLinkRetrain _ | .start _ _ _ | .bootclr _
  | .attest _ | .dutyWrite _ _ | .dutyDrainEnd _ | .throttle _ _ _ | .thermalTrip _ | .withdrawalAtHome _
  | .withdrawalAckLands _ | .hwaitArmAtHome _ | .peerAdmit _ | .scaleOutPortUp _ | .firmwareImageWrite _ _ _ _
  | .gatingRequest _ | .throttleEnd _ _ _ =>
      none

/-- A field without a role must be zero (R29). -/
def Role.rolelessOk (ρ : Role) (n : BitVec 5) : Bool :=
  match ρ with
  | .none => n == 0#5
  | _ => true

/-- A register number permitted in its position (R33, R36). -/
def Role.numberOk (ρ : Role) (n : BitVec 5) : Bool :=
  match ρ with
  | .none | .source | .any => true
  | .dest => n.toNat ≤ 9 || (18 ≤ n.toNat && n.toNat ≤ 21) || n.toNat == 27 || n.toNat == 29
  | .loadDest => n.toNat ≤ 9 || n.toNat == 27
  | .handle => n.toNat ≤ 9
  | .pred | .vector | .tile => n.toNat < 8
  | .predDest => 0 < n.toNat && n.toNat < 8
  | .predDestLow => n.extractLsb' 0 3 != 0#3
  | .vector04 => n.toNat == 0 || n.toNat == 4

/-- A consume bit that is clear, or that stands where the instruction allows one and names l0 to l9 (R24). -/
def consOk (set allowed : Bool) (n : BitVec 5) : Bool :=
  !set || (allowed && n.toNat ≤ 9)

/-- The numbers of the control registers that exist (R37, R335). -/
def kregAssigned (k : BitVec 10) : Bool :=
  let n := k.toNat
  (1 ≤ n && n ≤ 3) || (8 ≤ n && n ≤ 0x0D) || (0x10 ≤ n && n ≤ 0x20) || (0x100 ≤ n && n ≤ 0x112) ||
    (0x200 ≤ n && n ≤ 0x208)

/-- The formats of `fcvt` and `cpyr` (R136, R185): f16, bf16, f32, f64, i32, i64, n32, n64. -/
def fmtScalar (f : BitVec 5) : Bool :=
  [0x12#5, 0x13#5, 0x14#5, 0x18#5, 0x1A#5, 0x1B#5, 0x1D#5, 0x1E#5].contains f

/-- The formats of 32 and 64 bits, of which `vcvt` needs one (R178). -/
def fmtWide (f : BitVec 5) : Bool :=
  [0x14#5, 0x18#5, 0x1A#5, 0x1B#5, 0x1D#5, 0x1E#5].contains f

/-- Link k's field of `create`'s word 2 (R46). -/
def linkField (w2 : BitVec 32) (k : Nat) : BitVec 4 := w2.extractLsb' (7 + 4 * k) 4

/-- The links that a `create` uses. -/
def linksUsed (w2 : BitVec 32) : List (BitVec 4) :=
  ((List.range 4).map (linkField w2)).filter (· != 0xF#4)

/-- A list in which no entry stands twice. -/
def noRepeats : List (BitVec 4) → Bool
  | [] => true
  | x :: xs => !xs.contains x && noRepeats xs

/-- The link fields name distinct locals (R97). -/
def linksOk (w2 : BitVec 32) : Bool :=
  (linksUsed w2).all (fun x => x.toNat < 10) && noRepeats (linksUsed w2)

/-- The globals and the place of `create`'s word 2 (R46, R97). -/
def createOptionsOk (w2 : BitVec 32) : Bool :=
  let gcount := (w2.extractLsb' 28 4).toNat
  let gbase := (w2.extractLsb' 23 5).toNat
  gcount ≤ 8 && gbase + gcount ≤ 18 && (gcount != 0 || gbase == 0) && (w2.extractLsb' 0 3).toNat < 6

/-- The pairing of an atomic's order with its scope (R47). -/
def orderScopeOk (o : BitVec 2) (scope : BitVec 3) : Bool := (o == 0#2) == (scope == 0#3)

/-- The element format and rounding of `cpyr` (R185). -/
def cpyrOk (add : Bool) (m : Mods) : Bool :=
  fmtScalar m.fmtA && (m.round == 0#3 || (add && [0x12#5, 0x13#5, 0x14#5, 0x18#5].contains m.fmtA))

/-- The element format and rounding of `allred` (R375): stochastic rounding is not accepted. -/
def allredOk (add : Bool) (m : Mods) : Bool :=
  (fmtWide m.fmtA || (add && m.fmtA == 0x10#5)) && m.fmtB == 0#5 &&
    (m.round == 0#3 || (add && m.round != 5#3 && [0x14#5, 0x18#5].contains m.fmtA))

/-- The value format and rounding of `hacc` (R182). -/
def haccOk (m : Mods) : Bool :=
  m.fmtB == 0#5 && (m.fmtA == 0x14#5 || (m.fmtA == 0x1A#5 && m.round == 0#3))

/-- The format pair of `fcvt` (R136). -/
def fcvtOk (m : Mods) : Bool := fmtScalar m.fmtA && fmtScalar m.fmtB && m.fmtA != m.fmtB

/-- The format pair of `vcvt` (R178). -/
def vcvtOk (m : Mods) : Bool :=
  m.fmtA != m.fmtB && m.fmtA != 0x1F#5 && m.fmtB != 0x1F#5 && (fmtWide m.fmtA || fmtWide m.fmtB)

/-- N and M of `prune`'s option word (R54). -/
def pruneOk (w2 : BitVec 32) : Bool :=
  let n := (w2.extractLsb' 0 3).toNat
  n != 0 && n < 2 ^ ((w2.extractLsb' 3 2).toNat + 1)

/-- An instruction's own condition on a reserved field (cause 4), beside its field rules. -/
def ownReservedOk (i : Instr) (r : Raw) : Bool :=
  match i with
  | .b _ _ => !r.rd.getLsbD 4
  | .bt _ _ _ => !r.rd.getLsbD 4
  | .bf _ _ _ => !r.rd.getLsbD 4
  | .prune _ _ _ m => m.w2.extractLsb' 7 25 == 0#25
  | _ => true

/-- An instruction's own condition on its register numbers (cause 5), beside its field rules. -/
def ownRegisterOk (i : Instr) : Bool :=
  match i with
  | .bf p _ _ => p != 0#3
  | .ldlo d _ m => d != m.rc || d == 27#5
  | .create d _ _ m => linksOk m.w2 && !((linksUsed m.w2).any (fun x => x.toNat == d.toNat))
  | .spawn _ _ m => linksOk m.w2
  | .mma D _ a b _ => D != a && D != b
  | .mmaQ D _ a b _ => D != a && D != b
  | .mmaSp D _ a b _ => D != a && D != b
  | .sca D _ a _ _ => D != a
  | .prune D _ a _ => D != a
  | _ => true

/-- An instruction's own condition on its codes (cause 6), beside its field rules. -/
def ownCodeOk (i : Instr) (r : Raw) : Bool :=
  match i with
  | .shlImm _ _ _ _ => r.imm.toNat < 64
  | .shrImm _ _ _ _ => true
  | .sarImm _ _ _ _ => true
  | .rolImm _ _ _ _ => true
  | .rorImm _ _ _ _ => true
  | .bfxImm _ _ p w _ => r.imm.toNat < 2 ^ 13 && p.toNat + w.toNat < 64
  | .bfxuImm _ _ p w _ => r.imm.toNat < 2 ^ 13 && p.toNat + w.toNat < 64
  | .krd _ k _ => kregAssigned k
  | .kwr k _ _ => kregAssigned k
  | .fence m => m.len == 0#2 || m.scope != 0#3
  | .amoAdd _ o _ _ _ m => orderScopeOk o m.scope
  | .amoAnd _ o _ _ _ m => orderScopeOk o m.scope
  | .amoOr _ o _ _ _ m => orderScopeOk o m.scope
  | .amoXor _ o _ _ _ m => orderScopeOk o m.scope
  | .amoMin _ o _ _ _ m => orderScopeOk o m.scope
  | .amoMax _ o _ _ _ m => orderScopeOk o m.scope
  | .amoMinu _ o _ _ _ m => orderScopeOk o m.scope
  | .amoMaxu _ o _ _ _ m => orderScopeOk o m.scope
  | .amoXchg _ o _ _ _ m => orderScopeOk o m.scope
  | .cas _ o _ _ _ m => orderScopeOk o m.scope
  | .famoAdd _ o _ _ _ m => orderScopeOk o m.scope
  | .famoMin _ o _ _ _ m => orderScopeOk o m.scope
  | .famoMax _ o _ _ _ m => orderScopeOk o m.scope
  | .fcvt _ _ m => fcvtOk m
  | .vcvt _ _ m => vcvtOk m
  | .vredAdd t _ _ _ m => m.round == 0#3 || t.getLsbD 1
  | .haccO _ _ _ m => haccOk m
  | .haccU _ _ _ m => haccOk m
  | .cpyrAdd _ _ _ _ _ m => cpyrOk true m
  | .cpyrMin _ _ _ _ _ m => cpyrOk false m
  | .cpyrMax _ _ _ _ _ m => cpyrOk false m
  | .allredAdd _ _ _ _ m => allredOk true m
  | .allredMin _ _ _ _ m => allredOk false m
  | .allredMax _ _ _ _ m => allredOk false m
  | .tld _ _ _ m => m.len != 1#2 || m.w2.extractLsb' 0 16 != 0#16
  | .tst _ _ _ m => m.len != 1#2 || m.w2.extractLsb' 0 16 != 0#16
  | .prune _ _ _ m => pruneOk m.w2
  | .create _ _ _ m => createOptionsOk m.w2
  | .spawn _ _ m => createOptionsOk m.w2
  | _ => true

/-- Every reserved or roleless field is zero (R29; R56, cause 4). A consume bit that R24 does not allow counts as one of
them (DESIGN CHOICE, log entry 77), but for those to which R185 and R375 give cause 6. -/
def reservedOk (i : Instr) (f : FieldRules) (r : Raw) : Bool :=
  r.rsv == 0#4 &&
  (f.rd.rolelessOk r.rd && f.ra.rolelessOk r.ra && f.rb.rolelessOk r.rb && f.rc.rolelessOk r.m.rc) &&
  (r.m.len == 0#2 || !isImmediateMajor r.major || r.imm14 == 0#14) &&
  (match f.w2 with
    | .none => r.m.w2 == 0#32
    | .x96 => r.m.len == 1#2 || r.m.w2 == 0#32
    | .full => true) &&
  (f.fmtA || f.copyFmt || r.m.fmtA == 0#5) && (f.fmtB || f.copyFmt || r.m.fmtB == 0#5) &&
  ((f.copyFmt || (consOk r.m.consA f.consA r.ra && consOk r.m.consB f.consB r.rb)) &&
    (f.copyCons || consOk r.m.consC f.consC r.m.rc)) &&
  ownReservedOk i r
where
  /-- The majors of the I32 layout (R38), whose bits [31:18] are zero in the longer forms (R30). -/
  isImmediateMajor (major : BitVec 6) : Bool :=
    let n := major.toNat
    (0x02 ≤ n && n ≤ 0x0C) || (0x10 ≤ n && n ≤ 0x16) || (0x18 ≤ n && n ≤ 0x1D)

/-- Every register number is permitted in its field, and the guard is no p0 with sense 1 (R56, cause 5). -/
def registersOk (i : Instr) (f : FieldRules) (r : Raw) : Bool :=
  (r.m.gpred != 0#3 || !r.m.gsense) &&
  (f.rd.numberOk r.rd && f.ra.numberOk r.ra && f.rb.numberOk r.rb && f.rc.numberOk r.m.rc) &&
  ownRegisterOk i

/-- Every format, rounding, scope and option code is permitted (R26 to R28; R56, cause 6), and the consume bits of a copy
follow R24 (R185, R375). -/
def codesOk (i : Instr) (f : FieldRules) (r : Raw) : Bool :=
  (r.m.scope == 0#3 || (f.scope && r.m.scope.toNat < 6)) &&
  (r.m.round == 0#3 || (f.round && r.m.round.toNat < 6)) &&
  (f.fmtA || r.m.fmtA == 0#5) && (f.fmtB || r.m.fmtB == 0#5) &&
  (!f.copyCons || !r.m.consC) &&
  (!f.copyFmt || (consOk r.m.consA f.consA r.ra && consOk r.m.consB f.consB r.rb)) &&
  ownCodeOk i r

/-- The first row of R56's table, from cause 3 on, that a named instruction's fields meet. -/
def fieldFault (i : Instr) (r : Raw) : Option IllegalCause :=
  match fieldRules i with
  | none => none
  | some f =>
    if !f.lens.contains r.m.len then some .length
    else if !reservedOk i f r then some .reserved
    else if !registersOk i f r then some .register
    else if !codesOk i f r then some .code
    else none

/-- The immediate of a shift major (R39): kind in [8:6], amount in [5:0]. -/
def shiftImm (kind : BitVec 3) (n : BitVec 6) : Word := 0#55 ++ kind ++ n

/-- The immediate of the BFX major (R39): sign in [12], width - 1 in [11:6], pos in [5:0]. -/
def fieldImm (sign : Bool) (p w : BitVec 6) : Word := 0#51 ++ BitVec.ofBool sign ++ w ++ p

/-- The fields without the immediate's long forms, which a shift or field constructor holds as operands. -/
def Mods.noImm (m : Mods) : Mods := { m with w2 := 0#32, lit := 0#64 }

/-- The words' fields of an I32 instruction whose immediate is `imm`, placed by length (R30). -/
def immRaw (major : BitVec 6) (d a : BitVec 5) (imm : Word) (m : Mods) : Raw :=
  match m.len.toNat with
  | 0 => ⟨major, d, a, imm.extractLsb' 0 5, imm.extractLsb' 5 9, 0#4, m⟩
  | 1 => ⟨major, d, a, 0#5, 0#9, 0#4, { m with w2 := imm.extractLsb' 0 32 }⟩
  | _ => ⟨major, d, a, 0#5, 0#9, 0#4, { m with lit := imm }⟩

/-- The words' fields of a branch (R22). -/
def branchRaw (sense : BitVec 1) (p : BitVec 3) (o : BitVec 19) (m : Mods) : Raw :=
  ⟨0x20#6, 0#1 ++ sense ++ p, o.extractLsb' 0 5, o.extractLsb' 5 5, o.extractLsb' 10 9, 0#4, m⟩

/-- The shift majors (R39); kinds 5 to 7 fail their code check. -/
def buildShift (r : Raw) : Instr :=
  let n := r.imm.extractLsb' 0 6
  match (r.imm.toNat / 64) with
  | 1 => .shrImm r.rd r.ra n r.m.noImm
  | 2 => .sarImm r.rd r.ra n r.m.noImm
  | 3 => .rolImm r.rd r.ra n r.m.noImm
  | 4 => .rorImm r.rd r.ra n r.m.noImm
  | _ => .shlImm r.rd r.ra n r.m.noImm

/-- The BFX major (R39). -/
def buildField (r : Raw) : Instr :=
  if r.imm.getLsbD 12 then .bfxImm r.rd r.ra (r.imm.extractLsb' 0 6) (r.imm.extractLsb' 6 6) r.m.noImm
  else .bfxuImm r.rd r.ra (r.imm.extractLsb' 0 6) (r.imm.extractLsb' 6 6) r.m.noImm

/-- The branches (R22, R109). -/
def buildBranch (r : Raw) : Instr :=
  let o : BitVec 19 := r.func ++ r.rb ++ r.ra
  let p := r.rd.extractLsb' 0 3
  if r.rd.getLsbD 3 then .bf p o r.m else if p == 0#3 then .b o r.m else .bt p o r.m

/-- `krd` by its register number (R37): FSTAT and ADOPTMAX have rows of their own. -/
noncomputable def buildKrd (r : Raw) : Except IllegalCause Instr :=
  let k : BitVec 10 := r.ra ++ r.rb
  match k.toNat with
  | 0x002 => .ok (.krdFstat r.rd r.m)
  | 0x020 => .ok (.krdAdoptmax r.rd r.m)
  | _ => .ok (.krd r.rd k r.m)

/-- `kwr` by its register number (R37): FSTAT, TSHAPE, TMETA, ASSIGN and KEYLOAD have rows of their own. -/
noncomputable def buildKwr (r : Raw) : Except IllegalCause Instr :=
  let k : BitVec 10 := r.rd ++ r.rb
  if k == 0x002#10 then .ok (.kwrFstat r.ra r.m)
  else if k == 0x101#10 then .ok (.kwrAssign r.ra r.m)
  else if k == 0x112#10 then .ok (.keyload r.ra r.m)
  else if k.extractLsb' 3 7 == 2#7 then .ok (.kwrTshape (k.extractLsb' 0 3) r.ra r.m)
  else if k.extractLsb' 3 7 == 3#7 then .ok (.kwrTmeta (k.extractLsb' 0 3) r.ra r.m)
  else .ok (.kwr k r.ra r.m)

/-- The indexed loads and stores (R44): func[8:6] = 0, store in [5], scale in [4:3], size in [2:0]. -/
def buildIndexed (r : Raw) : Except IllegalCause Instr :=
  let s := r.func.extractLsb' 3 2
  let z := r.func.extractLsb' 0 3
  if r.func.extractLsb' 6 3 != 0#3 || z == 7#3 then .error .function
  else if r.func.getLsbD 5 then
    if z == 1#3 || z == 3#3 || z == 5#3 then .error .function
    else .ok (.stIndexed s z r.rd r.ra r.rb r.m)
  else .ok (.ldIndexed s z r.rd r.ra r.rb r.m)

/-- The conditions of CMPIA (R39). -/
def buildCmpA (r : Raw) : Instr :=
  match (r.rd.extractLsb' 3 2).toNat with
  | 0 => .cmpEqImm (r.rd.extractLsb' 0 3) r.ra r.imm14 r.m
  | 1 => .cmpNeImm (r.rd.extractLsb' 0 3) r.ra r.imm14 r.m
  | 2 => .cmpLtImm (r.rd.extractLsb' 0 3) r.ra r.imm14 r.m
  | _ => .cmpLeImm (r.rd.extractLsb' 0 3) r.ra r.imm14 r.m

/-- The conditions of CMPIB (R39). -/
def buildCmpB (r : Raw) : Instr :=
  match (r.rd.extractLsb' 3 2).toNat with
  | 0 => .cmpGtImm (r.rd.extractLsb' 0 3) r.ra r.imm14 r.m
  | 1 => .cmpGeImm (r.rd.extractLsb' 0 3) r.ra r.imm14 r.m
  | 2 => .cmpLtuImm (r.rd.extractLsb' 0 3) r.ra r.imm14 r.m
  | _ => .cmpLeuImm (r.rd.extractLsb' 0 3) r.ra r.imm14 r.m

/-- The conditions of CMPIC (R39). -/
def buildCmpC (r : Raw) : Instr :=
  match (r.rd.extractLsb' 3 2).toNat with
  | 0 => .cmpGtuImm (r.rd.extractLsb' 0 3) r.ra r.imm14 r.m
  | 1 => .cmpGeuImm (r.rd.extractLsb' 0 3) r.ra r.imm14 r.m
  | 2 => .cmpTstImm (r.rd.extractLsb' 0 3) r.ra r.imm14 r.m
  | _ => .cmpTstzImm (r.rd.extractLsb' 0 3) r.ra r.imm14 r.m

/-- The functions of R40. -/
def buildInt (r : Raw) : Except IllegalCause Instr :=
  match r.func.toNat with
  | 0x00 => .ok (.add r.rd r.ra r.rb false r.m)
  | 0x01 => .ok (.sub r.rd r.ra r.rb false r.m)
  | 0x02 => .ok (.mul r.rd r.ra r.rb false r.m)
  | 0x03 => .ok (.mulh r.rd r.ra r.rb false r.m)
  | 0x04 => .ok (.mulhu r.rd r.ra r.rb false r.m)
  | 0x05 => .ok (.div r.rd r.ra r.rb false r.m)
  | 0x06 => .ok (.divu r.rd r.ra r.rb false r.m)
  | 0x07 => .ok (.rem r.rd r.ra r.rb false r.m)
  | 0x08 => .ok (.remu r.rd r.ra r.rb false r.m)
  | 0x09 => .ok (.and r.rd r.ra r.rb false r.m)
  | 0x0A => .ok (.or r.rd r.ra r.rb false r.m)
  | 0x0B => .ok (.xor r.rd r.ra r.rb false r.m)
  | 0x0C => .ok (.andn r.rd r.ra r.rb false r.m)
  | 0x0D => .ok (.shl r.rd r.ra r.rb false r.m)
  | 0x0E => .ok (.shr r.rd r.ra r.rb false r.m)
  | 0x0F => .ok (.sar r.rd r.ra r.rb false r.m)
  | 0x10 => .ok (.rol r.rd r.ra r.rb false r.m)
  | 0x11 => .ok (.ror r.rd r.ra r.rb false r.m)
  | 0x12 => .ok (.min r.rd r.ra r.rb false r.m)
  | 0x13 => .ok (.max r.rd r.ra r.rb false r.m)
  | 0x14 => .ok (.minu r.rd r.ra r.rb false r.m)
  | 0x15 => .ok (.maxu r.rd r.ra r.rb false r.m)
  | 0x18 => .ok (.mov r.rd r.ra r.m)
  | 0x19 => .ok (.clz r.rd r.ra r.m)
  | 0x1A => .ok (.ctz r.rd r.ra r.m)
  | 0x1B => .ok (.popc r.rd r.ra r.m)
  | 0x1C => .ok (.bswap r.rd r.ra r.m)
  | 0x1D => .ok (.sxb r.rd r.ra r.m)
  | 0x1E => .ok (.sxh r.rd r.ra r.m)
  | 0x1F => .ok (.sxw r.rd r.ra r.m)
  | 0x20 => .ok (.zxw r.rd r.ra r.m)
  | 0x24 => .ok (.bfxReg r.rd r.ra r.rb false r.m)
  | 0x25 => .ok (.bfxuReg r.rd r.ra r.rb false r.m)
  | 0x26 => .ok (.bfi r.rd r.ra r.rb false r.m)
  | 0x28 => .ok (.lea1 r.rd r.ra r.rb r.m)
  | 0x29 => .ok (.lea2 r.rd r.ra r.rb r.m)
  | 0x2A => .ok (.lea4 r.rd r.ra r.rb r.m)
  | 0x2B => .ok (.lea8 r.rd r.ra r.rb r.m)
  | 0x100 => .ok (.add r.rd r.ra r.rb true r.m)
  | 0x101 => .ok (.sub r.rd r.ra r.rb true r.m)
  | 0x102 => .ok (.mul r.rd r.ra r.rb true r.m)
  | 0x103 => .ok (.mulh r.rd r.ra r.rb true r.m)
  | 0x104 => .ok (.mulhu r.rd r.ra r.rb true r.m)
  | 0x105 => .ok (.div r.rd r.ra r.rb true r.m)
  | 0x106 => .ok (.divu r.rd r.ra r.rb true r.m)
  | 0x107 => .ok (.rem r.rd r.ra r.rb true r.m)
  | 0x108 => .ok (.remu r.rd r.ra r.rb true r.m)
  | 0x109 => .ok (.and r.rd r.ra r.rb true r.m)
  | 0x10A => .ok (.or r.rd r.ra r.rb true r.m)
  | 0x10B => .ok (.xor r.rd r.ra r.rb true r.m)
  | 0x10C => .ok (.andn r.rd r.ra r.rb true r.m)
  | 0x10D => .ok (.shl r.rd r.ra r.rb true r.m)
  | 0x10E => .ok (.shr r.rd r.ra r.rb true r.m)
  | 0x10F => .ok (.sar r.rd r.ra r.rb true r.m)
  | 0x110 => .ok (.rol r.rd r.ra r.rb true r.m)
  | 0x111 => .ok (.ror r.rd r.ra r.rb true r.m)
  | 0x112 => .ok (.min r.rd r.ra r.rb true r.m)
  | 0x113 => .ok (.max r.rd r.ra r.rb true r.m)
  | 0x114 => .ok (.minu r.rd r.ra r.rb true r.m)
  | 0x115 => .ok (.maxu r.rd r.ra r.rb true r.m)
  | 0x124 => .ok (.bfxReg r.rd r.ra r.rb true r.m)
  | 0x125 => .ok (.bfxuReg r.rd r.ra r.rb true r.m)
  | 0x126 => .ok (.bfi r.rd r.ra r.rb true r.m)
  | _ => .error .function

/-- The functions of R41. -/
def buildPred (r : Raw) : Except IllegalCause Instr :=
  match r.func.toNat with
  | 0x00 => .ok (.cmpEq (r.rd.extractLsb' 0 3) r.ra r.rb r.m)
  | 0x01 => .ok (.cmpNe (r.rd.extractLsb' 0 3) r.ra r.rb r.m)
  | 0x02 => .ok (.cmpLt (r.rd.extractLsb' 0 3) r.ra r.rb r.m)
  | 0x03 => .ok (.cmpLe (r.rd.extractLsb' 0 3) r.ra r.rb r.m)
  | 0x04 => .ok (.cmpGt (r.rd.extractLsb' 0 3) r.ra r.rb r.m)
  | 0x05 => .ok (.cmpGe (r.rd.extractLsb' 0 3) r.ra r.rb r.m)
  | 0x06 => .ok (.cmpLtu (r.rd.extractLsb' 0 3) r.ra r.rb r.m)
  | 0x07 => .ok (.cmpLeu (r.rd.extractLsb' 0 3) r.ra r.rb r.m)
  | 0x08 => .ok (.cmpGtu (r.rd.extractLsb' 0 3) r.ra r.rb r.m)
  | 0x09 => .ok (.cmpGeu (r.rd.extractLsb' 0 3) r.ra r.rb r.m)
  | 0x0A => .ok (.cmpTst (r.rd.extractLsb' 0 3) r.ra r.rb r.m)
  | 0x0B => .ok (.cmpTstz (r.rd.extractLsb' 0 3) r.ra r.rb r.m)
  | 0x10 => .ok (.pand (r.rd.extractLsb' 0 3) (r.ra.extractLsb' 0 3) (r.rb.extractLsb' 0 3) r.m)
  | 0x11 => .ok (.por (r.rd.extractLsb' 0 3) (r.ra.extractLsb' 0 3) (r.rb.extractLsb' 0 3) r.m)
  | 0x12 => .ok (.pxor (r.rd.extractLsb' 0 3) (r.ra.extractLsb' 0 3) (r.rb.extractLsb' 0 3) r.m)
  | 0x13 => .ok (.pandn (r.rd.extractLsb' 0 3) (r.ra.extractLsb' 0 3) (r.rb.extractLsb' 0 3) r.m)
  | 0x14 => .ok (.pnot (r.rd.extractLsb' 0 3) (r.ra.extractLsb' 0 3) r.m)
  | 0x15 => .ok (.pmov (r.rd.extractLsb' 0 3) (r.ra.extractLsb' 0 3) r.m)
  | 0x18 => .ok (.prd r.rd r.m)
  | 0x19 => .ok (.pwr r.ra r.m)
  | _ => .error .function

/-- The functions of R42. -/
def buildFp (r : Raw) : Except IllegalCause Instr :=
  match r.func.toNat with
  | 0x00 => .ok (.fadd false r.rd r.ra r.rb r.m)
  | 0x01 => .ok (.fsub false r.rd r.ra r.rb r.m)
  | 0x02 => .ok (.fmul false r.rd r.ra r.rb r.m)
  | 0x03 => .ok (.fdiv false r.rd r.ra r.rb r.m)
  | 0x04 => .ok (.fsqrt false r.rd r.ra r.m)
  | 0x05 => .ok (.fmin false r.rd r.ra r.rb r.m)
  | 0x06 => .ok (.fmax false r.rd r.ra r.rb r.m)
  | 0x07 => .ok (.fabs false r.rd r.ra r.m)
  | 0x08 => .ok (.fneg false r.rd r.ra r.m)
  | 0x09 => .ok (.fma false r.rd r.ra r.rb r.m)
  | 0x0A => .ok (.fnma false r.rd r.ra r.rb r.m)
  | 0x10 => .ok (.fcmpEq false (r.rd.extractLsb' 0 3) r.ra r.rb r.m)
  | 0x11 => .ok (.fcmpNe false (r.rd.extractLsb' 0 3) r.ra r.rb r.m)
  | 0x12 => .ok (.fcmpLt false (r.rd.extractLsb' 0 3) r.ra r.rb r.m)
  | 0x13 => .ok (.fcmpLe false (r.rd.extractLsb' 0 3) r.ra r.rb r.m)
  | 0x14 => .ok (.fcmpUn false (r.rd.extractLsb' 0 3) r.ra r.rb r.m)
  | 0x18 => .ok (.fclass false r.rd r.ra r.m)
  | 0x20 => .ok (.fcvt r.rd r.ra r.m)
  | 0x100 => .ok (.fadd true r.rd r.ra r.rb r.m)
  | 0x101 => .ok (.fsub true r.rd r.ra r.rb r.m)
  | 0x102 => .ok (.fmul true r.rd r.ra r.rb r.m)
  | 0x103 => .ok (.fdiv true r.rd r.ra r.rb r.m)
  | 0x104 => .ok (.fsqrt true r.rd r.ra r.m)
  | 0x105 => .ok (.fmin true r.rd r.ra r.rb r.m)
  | 0x106 => .ok (.fmax true r.rd r.ra r.rb r.m)
  | 0x107 => .ok (.fabs true r.rd r.ra r.m)
  | 0x108 => .ok (.fneg true r.rd r.ra r.m)
  | 0x109 => .ok (.fma true r.rd r.ra r.rb r.m)
  | 0x10A => .ok (.fnma true r.rd r.ra r.rb r.m)
  | 0x110 => .ok (.fcmpEq true (r.rd.extractLsb' 0 3) r.ra r.rb r.m)
  | 0x111 => .ok (.fcmpNe true (r.rd.extractLsb' 0 3) r.ra r.rb r.m)
  | 0x112 => .ok (.fcmpLt true (r.rd.extractLsb' 0 3) r.ra r.rb r.m)
  | 0x113 => .ok (.fcmpLe true (r.rd.extractLsb' 0 3) r.ra r.rb r.m)
  | 0x114 => .ok (.fcmpUn true (r.rd.extractLsb' 0 3) r.ra r.rb r.m)
  | 0x118 => .ok (.fclass true r.rd r.ra r.m)
  | _ => .error .function

/-- The functions of R43. -/
noncomputable def buildSys (r : Raw) : Except IllegalCause Instr :=
  match r.func.toNat with
  | 0x00 => .ok (.nop r.m)
  | 0x01 => buildKrd r
  | 0x02 => buildKwr r
  | 0x03 => .ok (.fence r.m)
  | 0x04 => .ok (.trap r.rb r.m)
  | 0x05 => .ok (.rft r.m)
  | 0x06 => .ok (.tlbinv r.ra r.m)
  | 0x07 => .ok (.kslz r.ra r.m)
  | 0x08 => .ok (.scrb r.ra r.m)
  | _ => .error .function

/-- The functions of R44. -/
def buildMemx (r : Raw) : Except IllegalCause Instr :=
  match r.func.toNat with
  | 0x40 => .ok (.ldlo r.rd r.ra r.m)
  | 0x41 => .ok (.stlo r.ra r.rb r.m)
  | 0x42 => .ok (.stloMd r.ra r.rb r.m)
  | _ => buildIndexed r

/-- The functions of R45. -/
def buildCtl (r : Raw) : Except IllegalCause Instr :=
  match r.func.toNat with
  | 0x00 => .ok (.callLit r.m)
  | 0x01 => .ok (.callReg r.ra r.m)
  | 0x02 => .ok (.jmp r.ra r.m)
  | 0x03 => .ok (.ret r.m)
  | 0x04 => .ok (.wflush r.m)
  | 0x05 => .ok (.wdepth r.rd r.m)
  | _ => .error .function

/-- The functions of R46. -/
def buildFam (r : Raw) : Except IllegalCause Instr :=
  match r.func.toNat with
  | 0x00 => .ok (.create r.rd r.ra r.rb r.m)
  | 0x01 => .ok (.spawn r.ra r.rb r.m)
  | 0x02 => .ok (.sync r.ra r.m)
  | 0x03 => .ok (.brk r.ra r.m)
  | 0x04 => .ok (.kill r.ra r.m)
  | 0x05 => .ok (.mig r.ra r.m)
  | 0x06 => .ok (.migS r.ra r.m)
  | 0x07 => .ok (.yield r.m)
  | 0x08 => .ok (.htest r.rd r.ra r.m)
  | 0x09 => .ok (.hwait r.ra r.m)
  | 0x0A => .ok (.hcancel r.ra r.m)
  | 0x0B => .ok (.ifence r.m)
  | _ => .error .function

/-- The functions of R47. -/
def buildAtom (r : Raw) : Except IllegalCause Instr :=
  match r.func.toNat - (r.func.extractLsb' 6 2).toNat * 64 with
  | 0x00 => .ok (.amoAdd false (r.func.extractLsb' 6 2) r.rd r.ra r.rb r.m)
  | 0x01 => .ok (.amoAnd false (r.func.extractLsb' 6 2) r.rd r.ra r.rb r.m)
  | 0x02 => .ok (.amoOr false (r.func.extractLsb' 6 2) r.rd r.ra r.rb r.m)
  | 0x03 => .ok (.amoXor false (r.func.extractLsb' 6 2) r.rd r.ra r.rb r.m)
  | 0x04 => .ok (.amoMin false (r.func.extractLsb' 6 2) r.rd r.ra r.rb r.m)
  | 0x05 => .ok (.amoMax false (r.func.extractLsb' 6 2) r.rd r.ra r.rb r.m)
  | 0x06 => .ok (.amoMinu false (r.func.extractLsb' 6 2) r.rd r.ra r.rb r.m)
  | 0x07 => .ok (.amoMaxu false (r.func.extractLsb' 6 2) r.rd r.ra r.rb r.m)
  | 0x08 => .ok (.amoXchg false (r.func.extractLsb' 6 2) r.rd r.ra r.rb r.m)
  | 0x09 => .ok (.cas false (r.func.extractLsb' 6 2) r.rd r.ra r.rb r.m)
  | 0x10 => .ok (.amoAdd true (r.func.extractLsb' 6 2) r.rd r.ra r.rb r.m)
  | 0x11 => .ok (.amoAnd true (r.func.extractLsb' 6 2) r.rd r.ra r.rb r.m)
  | 0x12 => .ok (.amoOr true (r.func.extractLsb' 6 2) r.rd r.ra r.rb r.m)
  | 0x13 => .ok (.amoXor true (r.func.extractLsb' 6 2) r.rd r.ra r.rb r.m)
  | 0x14 => .ok (.amoMin true (r.func.extractLsb' 6 2) r.rd r.ra r.rb r.m)
  | 0x15 => .ok (.amoMax true (r.func.extractLsb' 6 2) r.rd r.ra r.rb r.m)
  | 0x16 => .ok (.amoMinu true (r.func.extractLsb' 6 2) r.rd r.ra r.rb r.m)
  | 0x17 => .ok (.amoMaxu true (r.func.extractLsb' 6 2) r.rd r.ra r.rb r.m)
  | 0x18 => .ok (.amoXchg true (r.func.extractLsb' 6 2) r.rd r.ra r.rb r.m)
  | 0x19 => .ok (.cas true (r.func.extractLsb' 6 2) r.rd r.ra r.rb r.m)
  | 0x20 => .ok (.famoAdd false (r.func.extractLsb' 6 2) r.rd r.ra r.rb r.m)
  | 0x21 => .ok (.famoMin false (r.func.extractLsb' 6 2) r.rd r.ra r.rb r.m)
  | 0x22 => .ok (.famoMax false (r.func.extractLsb' 6 2) r.rd r.ra r.rb r.m)
  | 0x28 => .ok (.famoAdd true (r.func.extractLsb' 6 2) r.rd r.ra r.rb r.m)
  | 0x29 => .ok (.famoMin true (r.func.extractLsb' 6 2) r.rd r.ra r.rb r.m)
  | 0x2A => .ok (.famoMax true (r.func.extractLsb' 6 2) r.rd r.ra r.rb r.m)
  | _ => .error .function

/-- The functions of R48. -/
def buildSynco (r : Raw) : Except IllegalCause Instr :=
  match r.func.toNat with
  | 0x00 => .ok (.tkget r.rd r.ra r.m)
  | 0x01 => .ok (.tkwait r.ra r.rb r.m)
  | 0x02 => .ok (.tkadv r.ra r.m)
  | 0x08 => .ok (.waiteq r.ra r.rb r.m)
  | 0x09 => .ok (.waitne r.ra r.rb r.m)
  | 0x10 => .ok (.lkacq r.ra r.m)
  | 0x11 => .ok (.lkrel r.ra r.m)
  | 0x18 => .ok (.barJoin r.ra r.m)
  | 0x19 => .ok (.barArrive r.ra r.m)
  | 0x1A => .ok (.barDrop r.ra r.m)
  | _ => .error .function

/-- The functions of R49. -/
def buildVmem (r : Raw) : Except IllegalCause Instr :=
  match r.func.toNat with
  | 0x00 => .ok (.vldContig false false (r.rd.extractLsb' 0 3) r.ra r.m)
  | 0x01 => .ok (.vldContig true false (r.rd.extractLsb' 0 3) r.ra r.m)
  | 0x02 => .ok (.vldStrided false false (r.rd.extractLsb' 0 3) r.ra r.rb r.m)
  | 0x03 => .ok (.vldStrided true false (r.rd.extractLsb' 0 3) r.ra r.rb r.m)
  | 0x04 => .ok (.vldIndexed false false (r.rd.extractLsb' 0 3) r.ra (r.rb.extractLsb' 0 3) r.m)
  | 0x05 => .ok (.vldIndexed true false (r.rd.extractLsb' 0 3) r.ra (r.rb.extractLsb' 0 3) r.m)
  | 0x06 => .ok (.vstContig false false (r.rd.extractLsb' 0 3) r.ra r.m)
  | 0x07 => .ok (.vstContig true false (r.rd.extractLsb' 0 3) r.ra r.m)
  | 0x08 => .ok (.vstStrided false false (r.rd.extractLsb' 0 3) r.ra r.rb r.m)
  | 0x09 => .ok (.vstStrided true false (r.rd.extractLsb' 0 3) r.ra r.rb r.m)
  | 0x0A => .ok (.vstIndexed false false (r.rd.extractLsb' 0 3) r.ra (r.rb.extractLsb' 0 3) r.m)
  | 0x0B => .ok (.vstIndexed true false (r.rd.extractLsb' 0 3) r.ra (r.rb.extractLsb' 0 3) r.m)
  | 0x10 => .ok (.vldContig false true (r.rd.extractLsb' 0 3) r.ra r.m)
  | 0x11 => .ok (.vldContig true true (r.rd.extractLsb' 0 3) r.ra r.m)
  | 0x12 => .ok (.vldStrided false true (r.rd.extractLsb' 0 3) r.ra r.rb r.m)
  | 0x13 => .ok (.vldStrided true true (r.rd.extractLsb' 0 3) r.ra r.rb r.m)
  | 0x14 => .ok (.vldIndexed false true (r.rd.extractLsb' 0 3) r.ra (r.rb.extractLsb' 0 3) r.m)
  | 0x15 => .ok (.vldIndexed true true (r.rd.extractLsb' 0 3) r.ra (r.rb.extractLsb' 0 3) r.m)
  | 0x16 => .ok (.vstContig false true (r.rd.extractLsb' 0 3) r.ra r.m)
  | 0x17 => .ok (.vstContig true true (r.rd.extractLsb' 0 3) r.ra r.m)
  | 0x18 => .ok (.vstStrided false true (r.rd.extractLsb' 0 3) r.ra r.rb r.m)
  | 0x19 => .ok (.vstStrided true true (r.rd.extractLsb' 0 3) r.ra r.rb r.m)
  | 0x1A => .ok (.vstIndexed false true (r.rd.extractLsb' 0 3) r.ra (r.rb.extractLsb' 0 3) r.m)
  | 0x1B => .ok (.vstIndexed true true (r.rd.extractLsb' 0 3) r.ra (r.rb.extractLsb' 0 3) r.m)
  | _ => .error .function

/-- The functions of R50. -/
def buildVint (r : Raw) : Except IllegalCause Instr :=
  match r.func.toNat with
  | 0x00 => .ok (.vadd false (r.rd.extractLsb' 0 3) (r.ra.extractLsb' 0 3) (r.rb.extractLsb' 0 3) r.m)
  | 0x01 => .ok (.vsub false (r.rd.extractLsb' 0 3) (r.ra.extractLsb' 0 3) (r.rb.extractLsb' 0 3) r.m)
  | 0x02 => .ok (.vmul false (r.rd.extractLsb' 0 3) (r.ra.extractLsb' 0 3) (r.rb.extractLsb' 0 3) r.m)
  | 0x03 => .ok (.vmulh false (r.rd.extractLsb' 0 3) (r.ra.extractLsb' 0 3) (r.rb.extractLsb' 0 3) r.m)
  | 0x04 => .ok (.vmin false (r.rd.extractLsb' 0 3) (r.ra.extractLsb' 0 3) (r.rb.extractLsb' 0 3) r.m)
  | 0x05 => .ok (.vmax false (r.rd.extractLsb' 0 3) (r.ra.extractLsb' 0 3) (r.rb.extractLsb' 0 3) r.m)
  | 0x06 => .ok (.vminu false (r.rd.extractLsb' 0 3) (r.ra.extractLsb' 0 3) (r.rb.extractLsb' 0 3) r.m)
  | 0x07 => .ok (.vmaxu false (r.rd.extractLsb' 0 3) (r.ra.extractLsb' 0 3) (r.rb.extractLsb' 0 3) r.m)
  | 0x08 => .ok (.vand false (r.rd.extractLsb' 0 3) (r.ra.extractLsb' 0 3) (r.rb.extractLsb' 0 3) r.m)
  | 0x09 => .ok (.vor false (r.rd.extractLsb' 0 3) (r.ra.extractLsb' 0 3) (r.rb.extractLsb' 0 3) r.m)
  | 0x0A => .ok (.vxor false (r.rd.extractLsb' 0 3) (r.ra.extractLsb' 0 3) (r.rb.extractLsb' 0 3) r.m)
  | 0x0B => .ok (.vshl false (r.rd.extractLsb' 0 3) (r.ra.extractLsb' 0 3) (r.rb.extractLsb' 0 3) r.m)
  | 0x0C => .ok (.vshr false (r.rd.extractLsb' 0 3) (r.ra.extractLsb' 0 3) (r.rb.extractLsb' 0 3) r.m)
  | 0x0D => .ok (.vsar false (r.rd.extractLsb' 0 3) (r.ra.extractLsb' 0 3) (r.rb.extractLsb' 0 3) r.m)
  | 0x0E => .ok (.vadds false (r.rd.extractLsb' 0 3) (r.ra.extractLsb' 0 3) (r.rb.extractLsb' 0 3) r.m)
  | 0x0F => .ok (.vaddus false (r.rd.extractLsb' 0 3) (r.ra.extractLsb' 0 3) (r.rb.extractLsb' 0 3) r.m)
  | 0x10 => .ok (.vsubs false (r.rd.extractLsb' 0 3) (r.ra.extractLsb' 0 3) (r.rb.extractLsb' 0 3) r.m)
  | 0x11 => .ok (.vsubus false (r.rd.extractLsb' 0 3) (r.ra.extractLsb' 0 3) (r.rb.extractLsb' 0 3) r.m)
  | 0x12 => .ok (.vabs false (r.rd.extractLsb' 0 3) (r.ra.extractLsb' 0 3) r.m)
  | 0x13 => .ok (.vneg false (r.rd.extractLsb' 0 3) (r.ra.extractLsb' 0 3) r.m)
  | 0x18 => .ok (.vcmpEq false r.rd (r.ra.extractLsb' 0 3) (r.rb.extractLsb' 0 3) r.m)
  | 0x19 => .ok (.vcmpLt false r.rd (r.ra.extractLsb' 0 3) (r.rb.extractLsb' 0 3) r.m)
  | 0x1A => .ok (.vcmpLe false r.rd (r.ra.extractLsb' 0 3) (r.rb.extractLsb' 0 3) r.m)
  | 0x1B => .ok (.vcmpLtu false r.rd (r.ra.extractLsb' 0 3) (r.rb.extractLsb' 0 3) r.m)
  | 0x1C => .ok (.vcmpLeu false r.rd (r.ra.extractLsb' 0 3) (r.rb.extractLsb' 0 3) r.m)
  | 0x20 => .ok (.vmad false (r.rd.extractLsb' 0 3) (r.ra.extractLsb' 0 3) (r.rb.extractLsb' 0 3) r.m)
  | 0x100 => .ok (.vadd true (r.rd.extractLsb' 0 3) (r.ra.extractLsb' 0 3) (r.rb.extractLsb' 0 3) r.m)
  | 0x101 => .ok (.vsub true (r.rd.extractLsb' 0 3) (r.ra.extractLsb' 0 3) (r.rb.extractLsb' 0 3) r.m)
  | 0x102 => .ok (.vmul true (r.rd.extractLsb' 0 3) (r.ra.extractLsb' 0 3) (r.rb.extractLsb' 0 3) r.m)
  | 0x103 => .ok (.vmulh true (r.rd.extractLsb' 0 3) (r.ra.extractLsb' 0 3) (r.rb.extractLsb' 0 3) r.m)
  | 0x104 => .ok (.vmin true (r.rd.extractLsb' 0 3) (r.ra.extractLsb' 0 3) (r.rb.extractLsb' 0 3) r.m)
  | 0x105 => .ok (.vmax true (r.rd.extractLsb' 0 3) (r.ra.extractLsb' 0 3) (r.rb.extractLsb' 0 3) r.m)
  | 0x106 => .ok (.vminu true (r.rd.extractLsb' 0 3) (r.ra.extractLsb' 0 3) (r.rb.extractLsb' 0 3) r.m)
  | 0x107 => .ok (.vmaxu true (r.rd.extractLsb' 0 3) (r.ra.extractLsb' 0 3) (r.rb.extractLsb' 0 3) r.m)
  | 0x108 => .ok (.vand true (r.rd.extractLsb' 0 3) (r.ra.extractLsb' 0 3) (r.rb.extractLsb' 0 3) r.m)
  | 0x109 => .ok (.vor true (r.rd.extractLsb' 0 3) (r.ra.extractLsb' 0 3) (r.rb.extractLsb' 0 3) r.m)
  | 0x10A => .ok (.vxor true (r.rd.extractLsb' 0 3) (r.ra.extractLsb' 0 3) (r.rb.extractLsb' 0 3) r.m)
  | 0x10B => .ok (.vshl true (r.rd.extractLsb' 0 3) (r.ra.extractLsb' 0 3) (r.rb.extractLsb' 0 3) r.m)
  | 0x10C => .ok (.vshr true (r.rd.extractLsb' 0 3) (r.ra.extractLsb' 0 3) (r.rb.extractLsb' 0 3) r.m)
  | 0x10D => .ok (.vsar true (r.rd.extractLsb' 0 3) (r.ra.extractLsb' 0 3) (r.rb.extractLsb' 0 3) r.m)
  | 0x10E => .ok (.vadds true (r.rd.extractLsb' 0 3) (r.ra.extractLsb' 0 3) (r.rb.extractLsb' 0 3) r.m)
  | 0x10F => .ok (.vaddus true (r.rd.extractLsb' 0 3) (r.ra.extractLsb' 0 3) (r.rb.extractLsb' 0 3) r.m)
  | 0x110 => .ok (.vsubs true (r.rd.extractLsb' 0 3) (r.ra.extractLsb' 0 3) (r.rb.extractLsb' 0 3) r.m)
  | 0x111 => .ok (.vsubus true (r.rd.extractLsb' 0 3) (r.ra.extractLsb' 0 3) (r.rb.extractLsb' 0 3) r.m)
  | 0x112 => .ok (.vabs true (r.rd.extractLsb' 0 3) (r.ra.extractLsb' 0 3) r.m)
  | 0x113 => .ok (.vneg true (r.rd.extractLsb' 0 3) (r.ra.extractLsb' 0 3) r.m)
  | 0x118 => .ok (.vcmpEq true r.rd (r.ra.extractLsb' 0 3) (r.rb.extractLsb' 0 3) r.m)
  | 0x119 => .ok (.vcmpLt true r.rd (r.ra.extractLsb' 0 3) (r.rb.extractLsb' 0 3) r.m)
  | 0x11A => .ok (.vcmpLe true r.rd (r.ra.extractLsb' 0 3) (r.rb.extractLsb' 0 3) r.m)
  | 0x11B => .ok (.vcmpLtu true r.rd (r.ra.extractLsb' 0 3) (r.rb.extractLsb' 0 3) r.m)
  | 0x11C => .ok (.vcmpLeu true r.rd (r.ra.extractLsb' 0 3) (r.rb.extractLsb' 0 3) r.m)
  | 0x120 => .ok (.vmad true (r.rd.extractLsb' 0 3) (r.ra.extractLsb' 0 3) (r.rb.extractLsb' 0 3) r.m)
  | _ => .error .function

/-- The functions of R51. -/
def buildVfp (r : Raw) : Except IllegalCause Instr :=
  match r.func.toNat with
  | 0x00 => .ok (.vfadd false (r.rd.extractLsb' 0 3) (r.ra.extractLsb' 0 3) (r.rb.extractLsb' 0 3) r.m)
  | 0x01 => .ok (.vfsub false (r.rd.extractLsb' 0 3) (r.ra.extractLsb' 0 3) (r.rb.extractLsb' 0 3) r.m)
  | 0x02 => .ok (.vfmul false (r.rd.extractLsb' 0 3) (r.ra.extractLsb' 0 3) (r.rb.extractLsb' 0 3) r.m)
  | 0x03 => .ok (.vfdiv false (r.rd.extractLsb' 0 3) (r.ra.extractLsb' 0 3) (r.rb.extractLsb' 0 3) r.m)
  | 0x04 => .ok (.vfsqrt false (r.rd.extractLsb' 0 3) (r.ra.extractLsb' 0 3) r.m)
  | 0x05 => .ok (.vfmin false (r.rd.extractLsb' 0 3) (r.ra.extractLsb' 0 3) (r.rb.extractLsb' 0 3) r.m)
  | 0x06 => .ok (.vfmax false (r.rd.extractLsb' 0 3) (r.ra.extractLsb' 0 3) (r.rb.extractLsb' 0 3) r.m)
  | 0x07 => .ok (.vfabs false (r.rd.extractLsb' 0 3) (r.ra.extractLsb' 0 3) r.m)
  | 0x08 => .ok (.vfneg false (r.rd.extractLsb' 0 3) (r.ra.extractLsb' 0 3) r.m)
  | 0x09 => .ok (.vfma false (r.rd.extractLsb' 0 3) (r.ra.extractLsb' 0 3) (r.rb.extractLsb' 0 3) r.m)
  | 0x0A => .ok (.vfnma false (r.rd.extractLsb' 0 3) (r.ra.extractLsb' 0 3) (r.rb.extractLsb' 0 3) r.m)
  | 0x18 => .ok (.vfcmpEq false r.rd (r.ra.extractLsb' 0 3) (r.rb.extractLsb' 0 3) r.m)
  | 0x19 => .ok (.vfcmpLt false r.rd (r.ra.extractLsb' 0 3) (r.rb.extractLsb' 0 3) r.m)
  | 0x1A => .ok (.vfcmpLe false r.rd (r.ra.extractLsb' 0 3) (r.rb.extractLsb' 0 3) r.m)
  | 0x1B => .ok (.vfcmpUn false r.rd (r.ra.extractLsb' 0 3) (r.rb.extractLsb' 0 3) r.m)
  | 0x100 => .ok (.vfadd true (r.rd.extractLsb' 0 3) (r.ra.extractLsb' 0 3) (r.rb.extractLsb' 0 3) r.m)
  | 0x101 => .ok (.vfsub true (r.rd.extractLsb' 0 3) (r.ra.extractLsb' 0 3) (r.rb.extractLsb' 0 3) r.m)
  | 0x102 => .ok (.vfmul true (r.rd.extractLsb' 0 3) (r.ra.extractLsb' 0 3) (r.rb.extractLsb' 0 3) r.m)
  | 0x103 => .ok (.vfdiv true (r.rd.extractLsb' 0 3) (r.ra.extractLsb' 0 3) (r.rb.extractLsb' 0 3) r.m)
  | 0x104 => .ok (.vfsqrt true (r.rd.extractLsb' 0 3) (r.ra.extractLsb' 0 3) r.m)
  | 0x105 => .ok (.vfmin true (r.rd.extractLsb' 0 3) (r.ra.extractLsb' 0 3) (r.rb.extractLsb' 0 3) r.m)
  | 0x106 => .ok (.vfmax true (r.rd.extractLsb' 0 3) (r.ra.extractLsb' 0 3) (r.rb.extractLsb' 0 3) r.m)
  | 0x107 => .ok (.vfabs true (r.rd.extractLsb' 0 3) (r.ra.extractLsb' 0 3) r.m)
  | 0x108 => .ok (.vfneg true (r.rd.extractLsb' 0 3) (r.ra.extractLsb' 0 3) r.m)
  | 0x109 => .ok (.vfma true (r.rd.extractLsb' 0 3) (r.ra.extractLsb' 0 3) (r.rb.extractLsb' 0 3) r.m)
  | 0x10A => .ok (.vfnma true (r.rd.extractLsb' 0 3) (r.ra.extractLsb' 0 3) (r.rb.extractLsb' 0 3) r.m)
  | 0x118 => .ok (.vfcmpEq true r.rd (r.ra.extractLsb' 0 3) (r.rb.extractLsb' 0 3) r.m)
  | 0x119 => .ok (.vfcmpLt true r.rd (r.ra.extractLsb' 0 3) (r.rb.extractLsb' 0 3) r.m)
  | 0x11A => .ok (.vfcmpLe true r.rd (r.ra.extractLsb' 0 3) (r.rb.extractLsb' 0 3) r.m)
  | 0x11B => .ok (.vfcmpUn true r.rd (r.ra.extractLsb' 0 3) (r.rb.extractLsb' 0 3) r.m)
  | _ => .error .function

/-- The functions of R52. -/
def buildVmisc (r : Raw) : Except IllegalCause Instr :=
  match r.func.toNat with
  | 0x00 => .ok (.vmov (r.rd.extractLsb' 0 3) (r.ra.extractLsb' 0 3) r.m)
  | 0x01 => .ok (.vbcastW (r.rd.extractLsb' 0 3) r.ra r.m)
  | 0x02 => .ok (.vbcastD (r.rd.extractLsb' 0 3) r.ra r.m)
  | 0x03 => .ok (.vextW r.rd (r.ra.extractLsb' 0 3) r.rb r.m)
  | 0x04 => .ok (.vextD r.rd (r.ra.extractLsb' 0 3) r.rb r.m)
  | 0x05 => .ok (.vinsW (r.rd.extractLsb' 0 3) r.ra r.rb r.m)
  | 0x06 => .ok (.vinsD (r.rd.extractLsb' 0 3) r.ra r.rb r.m)
  | 0x08 => .ok (.vcvt (r.rd.extractLsb' 0 3) (r.ra.extractLsb' 0 3) r.m)
  | 0x10 => .ok (.nzscan false (r.rd.extractLsb' 0 3) (r.ra.extractLsb' 0 3) r.m)
  | 0x11 => .ok (.nzscan true (r.rd.extractLsb' 0 3) (r.ra.extractLsb' 0 3) r.m)
  | 0x12 => .ok (.vcompress false (r.rd.extractLsb' 0 3) (r.ra.extractLsb' 0 3) r.rb r.m)
  | 0x13 => .ok (.vcompress true (r.rd.extractLsb' 0 3) (r.ra.extractLsb' 0 3) r.rb r.m)
  | 0x14 => .ok (.vperm false (r.rd.extractLsb' 0 3) (r.ra.extractLsb' 0 3) (r.rb.extractLsb' 0 3) r.m)
  | 0x15 => .ok (.vperm true (r.rd.extractLsb' 0 3) (r.ra.extractLsb' 0 3) (r.rb.extractLsb' 0 3) r.m)
  | 0x20 => .ok (.vrel r.m)
  | 0x40 => .ok (.vredAdd 0#2 false r.rd (r.ra.extractLsb' 0 3) r.m)
  | 0x42 => .ok (.vredAdd 0#2 true r.rd (r.ra.extractLsb' 0 3) r.m)
  | 0x44 => .ok (.vredAdd 1#2 false r.rd (r.ra.extractLsb' 0 3) r.m)
  | 0x46 => .ok (.vredAdd 1#2 true r.rd (r.ra.extractLsb' 0 3) r.m)
  | 0x48 => .ok (.vredAdd 2#2 false r.rd (r.ra.extractLsb' 0 3) r.m)
  | 0x4A => .ok (.vredAdd 2#2 true r.rd (r.ra.extractLsb' 0 3) r.m)
  | 0x4C => .ok (.vredAdd 3#2 false r.rd (r.ra.extractLsb' 0 3) r.m)
  | 0x4E => .ok (.vredAdd 3#2 true r.rd (r.ra.extractLsb' 0 3) r.m)
  | 0x50 => .ok (.vredMin 0#2 false r.rd (r.ra.extractLsb' 0 3) r.m)
  | 0x52 => .ok (.vredMin 0#2 true r.rd (r.ra.extractLsb' 0 3) r.m)
  | 0x54 => .ok (.vredMin 1#2 false r.rd (r.ra.extractLsb' 0 3) r.m)
  | 0x56 => .ok (.vredMin 1#2 true r.rd (r.ra.extractLsb' 0 3) r.m)
  | 0x58 => .ok (.vredMin 2#2 false r.rd (r.ra.extractLsb' 0 3) r.m)
  | 0x5A => .ok (.vredMin 2#2 true r.rd (r.ra.extractLsb' 0 3) r.m)
  | 0x5C => .ok (.vredMin 3#2 false r.rd (r.ra.extractLsb' 0 3) r.m)
  | 0x5E => .ok (.vredMin 3#2 true r.rd (r.ra.extractLsb' 0 3) r.m)
  | 0x60 => .ok (.vredMax 0#2 false r.rd (r.ra.extractLsb' 0 3) r.m)
  | 0x62 => .ok (.vredMax 0#2 true r.rd (r.ra.extractLsb' 0 3) r.m)
  | 0x64 => .ok (.vredMax 1#2 false r.rd (r.ra.extractLsb' 0 3) r.m)
  | 0x66 => .ok (.vredMax 1#2 true r.rd (r.ra.extractLsb' 0 3) r.m)
  | 0x68 => .ok (.vredMax 2#2 false r.rd (r.ra.extractLsb' 0 3) r.m)
  | 0x6A => .ok (.vredMax 2#2 true r.rd (r.ra.extractLsb' 0 3) r.m)
  | 0x6C => .ok (.vredMax 3#2 false r.rd (r.ra.extractLsb' 0 3) r.m)
  | 0x6E => .ok (.vredMax 3#2 true r.rd (r.ra.extractLsb' 0 3) r.m)
  | 0x70 => .ok (.haccO r.rd r.ra (r.rb.extractLsb' 0 3) r.m)
  | 0x71 => .ok (.haccU r.rd r.ra (r.rb.extractLsb' 0 3) r.m)
  | _ => .error .function

/-- The functions of R53. -/
noncomputable def buildTile (r : Raw) : Except IllegalCause Instr :=
  match r.func.toNat with
  | 0x00 => .ok (.tld r.rd (r.rb.extractLsb' 0 3) r.ra r.m)
  | 0x01 => .ok (.tst r.rd (r.rb.extractLsb' 0 3) r.ra r.m)
  | 0x02 => .ok (.tzero r.rd (r.rb.extractLsb' 0 3) r.m)
  | 0x03 => .ok (.tmov r.rd (r.rb.extractLsb' 0 3) (r.ra.extractLsb' 0 3) r.m)
  | _ => .error .function

/-- The functions of R54. -/
noncomputable def buildMma (r : Raw) : Except IllegalCause Instr :=
  match (r.func.extractLsb' 0 6).toNat with
  | 0x00 => .ok (.mma (r.func.extractLsb' 6 3) r.rd (r.ra.extractLsb' 0 3) (r.rb.extractLsb' 0 3) r.m)
  | 0x01 => .ok (.mmaQ (r.func.extractLsb' 6 3) r.rd (r.ra.extractLsb' 0 3) (r.rb.extractLsb' 0 3) r.m)
  | 0x02 => .ok (.mmaSp (r.func.extractLsb' 6 3) r.rd (r.ra.extractLsb' 0 3) (r.rb.extractLsb' 0 3) r.m)
  | 0x08 => .ok (.sca (r.func.extractLsb' 6 3) r.rd (r.ra.extractLsb' 0 3) (r.rb.extractLsb' 0 3) r.m)
  | 0x10 => .ok (.prune (r.func.extractLsb' 6 3) r.rd (r.ra.extractLsb' 0 3) r.m)
  | _ => .error .function

/-- The functions of R55. -/
noncomputable def buildCopy (r : Raw) : Except IllegalCause Instr :=
  match r.func.toNat with
  | 0x00 => .ok (.cpy r.rd r.ra r.rb r.m)
  | 0x01 => .ok (.gth r.rd r.ra r.rb r.m)
  | 0x02 => .ok (.sct r.rd r.ra r.rb r.m)
  | 0x04 => .ok (.cpyrAdd false false r.rd r.ra r.rb r.m)
  | 0x05 => .ok (.cpyrAdd true false r.rd r.ra r.rb r.m)
  | 0x06 => .ok (.cpyrMin false false r.rd r.ra r.rb r.m)
  | 0x07 => .ok (.cpyrMin true false r.rd r.ra r.rb r.m)
  | 0x08 => .ok (.cpyrMax false false r.rd r.ra r.rb r.m)
  | 0x09 => .ok (.cpyrMax true false r.rd r.ra r.rb r.m)
  | 0x10 => .ok (.allredAdd false r.rd r.ra r.rb r.m)
  | 0x11 => .ok (.allredAdd true r.rd r.ra r.rb r.m)
  | 0x12 => .ok (.allredMin false r.rd r.ra r.rb r.m)
  | 0x13 => .ok (.allredMin true r.rd r.ra r.rb r.m)
  | 0x14 => .ok (.allredMax false r.rd r.ra r.rb r.m)
  | 0x15 => .ok (.allredMax true r.rd r.ra r.rb r.m)
  | 0x100 => .ok (.cpyRegSize r.rd r.ra r.rb r.m)
  | 0x104 => .ok (.cpyrAdd false true r.rd r.ra r.rb r.m)
  | 0x105 => .ok (.cpyrAdd true true r.rd r.ra r.rb r.m)
  | 0x106 => .ok (.cpyrMin false true r.rd r.ra r.rb r.m)
  | 0x107 => .ok (.cpyrMin true true r.rd r.ra r.rb r.m)
  | 0x108 => .ok (.cpyrMax false true r.rd r.ra r.rb r.m)
  | 0x109 => .ok (.cpyrMax true true r.rd r.ra r.rb r.m)
  | _ => .error .function

/-- The instruction that a major and its function name (R38 to R55). -/
noncomputable def build (r : Raw) : Except IllegalCause Instr :=
  match r.major.toNat with
  | 0x01 => buildInt r
  | 0x02 => .ok (.addi r.rd r.ra r.imm14 r.m)
  | 0x03 => .ok (.muli r.rd r.ra r.imm14 r.m)
  | 0x04 => .ok (.andi r.rd r.ra r.imm14 r.m)
  | 0x05 => .ok (.ori r.rd r.ra r.imm14 r.m)
  | 0x06 => .ok (.xori r.rd r.ra r.imm14 r.m)
  | 0x07 => .ok (buildShift r)
  | 0x08 => .ok (buildField r)
  | 0x09 => .ok (.movi r.rd r.imm14 r.m)
  | 0x0A => .ok (buildCmpA r)
  | 0x0B => .ok (buildCmpB r)
  | 0x0C => .ok (buildCmpC r)
  | 0x0D => buildPred r
  | 0x0E => buildFp r
  | 0x0F => buildSys r
  | 0x10 => .ok (.ldB r.rd r.ra r.imm14 r.m)
  | 0x11 => .ok (.ldBu r.rd r.ra r.imm14 r.m)
  | 0x12 => .ok (.ldH r.rd r.ra r.imm14 r.m)
  | 0x13 => .ok (.ldHu r.rd r.ra r.imm14 r.m)
  | 0x14 => .ok (.ldW r.rd r.ra r.imm14 r.m)
  | 0x15 => .ok (.ldWu r.rd r.ra r.imm14 r.m)
  | 0x16 => .ok (.ldD r.rd r.ra r.imm14 r.m)
  | 0x18 => .ok (.stB r.rd r.ra r.imm14 r.m)
  | 0x19 => .ok (.stH r.rd r.ra r.imm14 r.m)
  | 0x1A => .ok (.stW r.rd r.ra r.imm14 r.m)
  | 0x1B => .ok (.stD r.rd r.ra r.imm14 r.m)
  | 0x1C => .ok (.ldfe r.rd r.ra r.imm14 r.m)
  | 0x1D => .ok (.stfe r.rd r.ra r.imm14 r.m)
  | 0x1E => buildMemx r
  | 0x20 => .ok (buildBranch r)
  | 0x21 => buildCtl r
  | 0x22 => buildFam r
  | 0x24 => buildAtom r
  | 0x25 => buildSynco r
  | 0x28 => buildVmem r
  | 0x29 => buildVint r
  | 0x2A => buildVfp r
  | 0x2B => buildVmisc r
  | 0x30 => buildTile r
  | 0x31 => buildMma r
  | 0x32 => buildCopy r
  | _ => .error .major

/-- The fields of an instruction's words, from the encoding tables; `none` for a row without words. -/
def toRaw : Instr → Option Raw
  | .add d a b imm m => some ⟨0x1#6, d, a, b, (BitVec.ofBool imm ++ 0x0#8), 0#4, m⟩
  | .sub d a b imm m => some ⟨0x1#6, d, a, b, (BitVec.ofBool imm ++ 0x1#8), 0#4, m⟩
  | .mul d a b imm m => some ⟨0x1#6, d, a, b, (BitVec.ofBool imm ++ 0x2#8), 0#4, m⟩
  | .mulh d a b imm m => some ⟨0x1#6, d, a, b, (BitVec.ofBool imm ++ 0x3#8), 0#4, m⟩
  | .mulhu d a b imm m => some ⟨0x1#6, d, a, b, (BitVec.ofBool imm ++ 0x4#8), 0#4, m⟩
  | .div d a b imm m => some ⟨0x1#6, d, a, b, (BitVec.ofBool imm ++ 0x5#8), 0#4, m⟩
  | .divu d a b imm m => some ⟨0x1#6, d, a, b, (BitVec.ofBool imm ++ 0x6#8), 0#4, m⟩
  | .rem d a b imm m => some ⟨0x1#6, d, a, b, (BitVec.ofBool imm ++ 0x7#8), 0#4, m⟩
  | .remu d a b imm m => some ⟨0x1#6, d, a, b, (BitVec.ofBool imm ++ 0x8#8), 0#4, m⟩
  | .and d a b imm m => some ⟨0x1#6, d, a, b, (BitVec.ofBool imm ++ 0x9#8), 0#4, m⟩
  | .or d a b imm m => some ⟨0x1#6, d, a, b, (BitVec.ofBool imm ++ 0xA#8), 0#4, m⟩
  | .xor d a b imm m => some ⟨0x1#6, d, a, b, (BitVec.ofBool imm ++ 0xB#8), 0#4, m⟩
  | .andn d a b imm m => some ⟨0x1#6, d, a, b, (BitVec.ofBool imm ++ 0xC#8), 0#4, m⟩
  | .shl d a b imm m => some ⟨0x1#6, d, a, b, (BitVec.ofBool imm ++ 0xD#8), 0#4, m⟩
  | .shr d a b imm m => some ⟨0x1#6, d, a, b, (BitVec.ofBool imm ++ 0xE#8), 0#4, m⟩
  | .sar d a b imm m => some ⟨0x1#6, d, a, b, (BitVec.ofBool imm ++ 0xF#8), 0#4, m⟩
  | .rol d a b imm m => some ⟨0x1#6, d, a, b, (BitVec.ofBool imm ++ 0x10#8), 0#4, m⟩
  | .ror d a b imm m => some ⟨0x1#6, d, a, b, (BitVec.ofBool imm ++ 0x11#8), 0#4, m⟩
  | .min d a b imm m => some ⟨0x1#6, d, a, b, (BitVec.ofBool imm ++ 0x12#8), 0#4, m⟩
  | .max d a b imm m => some ⟨0x1#6, d, a, b, (BitVec.ofBool imm ++ 0x13#8), 0#4, m⟩
  | .minu d a b imm m => some ⟨0x1#6, d, a, b, (BitVec.ofBool imm ++ 0x14#8), 0#4, m⟩
  | .maxu d a b imm m => some ⟨0x1#6, d, a, b, (BitVec.ofBool imm ++ 0x15#8), 0#4, m⟩
  | .mov d a m => some ⟨0x1#6, d, a, 0#5, 0x18#9, 0#4, m⟩
  | .clz d a m => some ⟨0x1#6, d, a, 0#5, 0x19#9, 0#4, m⟩
  | .ctz d a m => some ⟨0x1#6, d, a, 0#5, 0x1A#9, 0#4, m⟩
  | .popc d a m => some ⟨0x1#6, d, a, 0#5, 0x1B#9, 0#4, m⟩
  | .bswap d a m => some ⟨0x1#6, d, a, 0#5, 0x1C#9, 0#4, m⟩
  | .sxb d a m => some ⟨0x1#6, d, a, 0#5, 0x1D#9, 0#4, m⟩
  | .sxh d a m => some ⟨0x1#6, d, a, 0#5, 0x1E#9, 0#4, m⟩
  | .sxw d a m => some ⟨0x1#6, d, a, 0#5, 0x1F#9, 0#4, m⟩
  | .zxw d a m => some ⟨0x1#6, d, a, 0#5, 0x20#9, 0#4, m⟩
  | .bfxReg d a b imm m => some ⟨0x1#6, d, a, b, (BitVec.ofBool imm ++ 0x24#8), 0#4, m⟩
  | .bfxuReg d a b imm m => some ⟨0x1#6, d, a, b, (BitVec.ofBool imm ++ 0x25#8), 0#4, m⟩
  | .bfi d a b imm m => some ⟨0x1#6, d, a, b, (BitVec.ofBool imm ++ 0x26#8), 0#4, m⟩
  | .lea1 d a b m => some ⟨0x1#6, d, a, b, 0x28#9, 0#4, m⟩
  | .lea2 d a b m => some ⟨0x1#6, d, a, b, 0x29#9, 0#4, m⟩
  | .lea4 d a b m => some ⟨0x1#6, d, a, b, 0x2A#9, 0#4, m⟩
  | .lea8 d a b m => some ⟨0x1#6, d, a, b, 0x2B#9, 0#4, m⟩
  | .addi d a i m => some ⟨0x2#6, d, a, (i.extractLsb' 0 5), (i.extractLsb' 5 9), 0#4, m⟩
  | .muli d a i m => some ⟨0x3#6, d, a, (i.extractLsb' 0 5), (i.extractLsb' 5 9), 0#4, m⟩
  | .andi d a i m => some ⟨0x4#6, d, a, (i.extractLsb' 0 5), (i.extractLsb' 5 9), 0#4, m⟩
  | .ori d a i m => some ⟨0x5#6, d, a, (i.extractLsb' 0 5), (i.extractLsb' 5 9), 0#4, m⟩
  | .xori d a i m => some ⟨0x6#6, d, a, (i.extractLsb' 0 5), (i.extractLsb' 5 9), 0#4, m⟩
  | .shlImm d a n m => some (immRaw 0x7#6 d a (shiftImm 0x0#3 n) m)
  | .shrImm d a n m => some (immRaw 0x7#6 d a (shiftImm 0x1#3 n) m)
  | .sarImm d a n m => some (immRaw 0x7#6 d a (shiftImm 0x2#3 n) m)
  | .rolImm d a n m => some (immRaw 0x7#6 d a (shiftImm 0x3#3 n) m)
  | .rorImm d a n m => some (immRaw 0x7#6 d a (shiftImm 0x4#3 n) m)
  | .bfxuImm d a p w m => some (immRaw 0x8#6 d a (fieldImm false p w) m)
  | .bfxImm d a p w m => some (immRaw 0x8#6 d a (fieldImm true p w) m)
  | .movi d i m => some ⟨0x9#6, d, 0#5, (i.extractLsb' 0 5), (i.extractLsb' 5 9), 0#4, m⟩
  | .cmpEqImm p a i m => some ⟨0xA#6, (0x0#2 ++ p), a, (i.extractLsb' 0 5), (i.extractLsb' 5 9), 0#4, m⟩
  | .cmpNeImm p a i m => some ⟨0xA#6, (0x1#2 ++ p), a, (i.extractLsb' 0 5), (i.extractLsb' 5 9), 0#4, m⟩
  | .cmpLtImm p a i m => some ⟨0xA#6, (0x2#2 ++ p), a, (i.extractLsb' 0 5), (i.extractLsb' 5 9), 0#4, m⟩
  | .cmpLeImm p a i m => some ⟨0xA#6, (0x3#2 ++ p), a, (i.extractLsb' 0 5), (i.extractLsb' 5 9), 0#4, m⟩
  | .cmpGtImm p a i m => some ⟨0xB#6, (0x0#2 ++ p), a, (i.extractLsb' 0 5), (i.extractLsb' 5 9), 0#4, m⟩
  | .cmpGeImm p a i m => some ⟨0xB#6, (0x1#2 ++ p), a, (i.extractLsb' 0 5), (i.extractLsb' 5 9), 0#4, m⟩
  | .cmpLtuImm p a i m => some ⟨0xB#6, (0x2#2 ++ p), a, (i.extractLsb' 0 5), (i.extractLsb' 5 9), 0#4, m⟩
  | .cmpLeuImm p a i m => some ⟨0xB#6, (0x3#2 ++ p), a, (i.extractLsb' 0 5), (i.extractLsb' 5 9), 0#4, m⟩
  | .cmpGtuImm p a i m => some ⟨0xC#6, (0x0#2 ++ p), a, (i.extractLsb' 0 5), (i.extractLsb' 5 9), 0#4, m⟩
  | .cmpGeuImm p a i m => some ⟨0xC#6, (0x1#2 ++ p), a, (i.extractLsb' 0 5), (i.extractLsb' 5 9), 0#4, m⟩
  | .cmpTstImm p a i m => some ⟨0xC#6, (0x2#2 ++ p), a, (i.extractLsb' 0 5), (i.extractLsb' 5 9), 0#4, m⟩
  | .cmpTstzImm p a i m => some ⟨0xC#6, (0x3#2 ++ p), a, (i.extractLsb' 0 5), (i.extractLsb' 5 9), 0#4, m⟩
  | .cmpEq p a b m => some ⟨0xD#6, (0#2 ++ p), a, b, 0x0#9, 0#4, m⟩
  | .cmpNe p a b m => some ⟨0xD#6, (0#2 ++ p), a, b, 0x1#9, 0#4, m⟩
  | .cmpLt p a b m => some ⟨0xD#6, (0#2 ++ p), a, b, 0x2#9, 0#4, m⟩
  | .cmpLe p a b m => some ⟨0xD#6, (0#2 ++ p), a, b, 0x3#9, 0#4, m⟩
  | .cmpGt p a b m => some ⟨0xD#6, (0#2 ++ p), a, b, 0x4#9, 0#4, m⟩
  | .cmpGe p a b m => some ⟨0xD#6, (0#2 ++ p), a, b, 0x5#9, 0#4, m⟩
  | .cmpLtu p a b m => some ⟨0xD#6, (0#2 ++ p), a, b, 0x6#9, 0#4, m⟩
  | .cmpLeu p a b m => some ⟨0xD#6, (0#2 ++ p), a, b, 0x7#9, 0#4, m⟩
  | .cmpGtu p a b m => some ⟨0xD#6, (0#2 ++ p), a, b, 0x8#9, 0#4, m⟩
  | .cmpGeu p a b m => some ⟨0xD#6, (0#2 ++ p), a, b, 0x9#9, 0#4, m⟩
  | .cmpTst p a b m => some ⟨0xD#6, (0#2 ++ p), a, b, 0xA#9, 0#4, m⟩
  | .cmpTstz p a b m => some ⟨0xD#6, (0#2 ++ p), a, b, 0xB#9, 0#4, m⟩
  | .pand d a b m => some ⟨0xD#6, (0#2 ++ d), (0#2 ++ a), (0#2 ++ b), 0x10#9, 0#4, m⟩
  | .por d a b m => some ⟨0xD#6, (0#2 ++ d), (0#2 ++ a), (0#2 ++ b), 0x11#9, 0#4, m⟩
  | .pxor d a b m => some ⟨0xD#6, (0#2 ++ d), (0#2 ++ a), (0#2 ++ b), 0x12#9, 0#4, m⟩
  | .pandn d a b m => some ⟨0xD#6, (0#2 ++ d), (0#2 ++ a), (0#2 ++ b), 0x13#9, 0#4, m⟩
  | .pnot d a m => some ⟨0xD#6, (0#2 ++ d), (0#2 ++ a), 0#5, 0x14#9, 0#4, m⟩
  | .pmov d a m => some ⟨0xD#6, (0#2 ++ d), (0#2 ++ a), 0#5, 0x15#9, 0#4, m⟩
  | .prd d m => some ⟨0xD#6, d, 0#5, 0#5, 0x18#9, 0#4, m⟩
  | .pwr a m => some ⟨0xD#6, 0#5, a, 0#5, 0x19#9, 0#4, m⟩
  | .fadd w d a b m => some ⟨0xE#6, d, a, b, (BitVec.ofBool w ++ 0x0#8), 0#4, m⟩
  | .fsub w d a b m => some ⟨0xE#6, d, a, b, (BitVec.ofBool w ++ 0x1#8), 0#4, m⟩
  | .fmul w d a b m => some ⟨0xE#6, d, a, b, (BitVec.ofBool w ++ 0x2#8), 0#4, m⟩
  | .fdiv w d a b m => some ⟨0xE#6, d, a, b, (BitVec.ofBool w ++ 0x3#8), 0#4, m⟩
  | .fsqrt w d a m => some ⟨0xE#6, d, a, 0#5, (BitVec.ofBool w ++ 0x4#8), 0#4, m⟩
  | .fmin w d a b m => some ⟨0xE#6, d, a, b, (BitVec.ofBool w ++ 0x5#8), 0#4, m⟩
  | .fmax w d a b m => some ⟨0xE#6, d, a, b, (BitVec.ofBool w ++ 0x6#8), 0#4, m⟩
  | .fabs w d a m => some ⟨0xE#6, d, a, 0#5, (BitVec.ofBool w ++ 0x7#8), 0#4, m⟩
  | .fneg w d a m => some ⟨0xE#6, d, a, 0#5, (BitVec.ofBool w ++ 0x8#8), 0#4, m⟩
  | .fma w d a b m => some ⟨0xE#6, d, a, b, (BitVec.ofBool w ++ 0x9#8), 0#4, m⟩
  | .fnma w d a b m => some ⟨0xE#6, d, a, b, (BitVec.ofBool w ++ 0xA#8), 0#4, m⟩
  | .fcmpEq w p a b m => some ⟨0xE#6, (0#2 ++ p), a, b, (BitVec.ofBool w ++ 0x10#8), 0#4, m⟩
  | .fcmpNe w p a b m => some ⟨0xE#6, (0#2 ++ p), a, b, (BitVec.ofBool w ++ 0x11#8), 0#4, m⟩
  | .fcmpLt w p a b m => some ⟨0xE#6, (0#2 ++ p), a, b, (BitVec.ofBool w ++ 0x12#8), 0#4, m⟩
  | .fcmpLe w p a b m => some ⟨0xE#6, (0#2 ++ p), a, b, (BitVec.ofBool w ++ 0x13#8), 0#4, m⟩
  | .fcmpUn w p a b m => some ⟨0xE#6, (0#2 ++ p), a, b, (BitVec.ofBool w ++ 0x14#8), 0#4, m⟩
  | .fclass w d a m => some ⟨0xE#6, d, a, 0#5, (BitVec.ofBool w ++ 0x18#8), 0#4, m⟩
  | .fcvt d a m => some ⟨0xE#6, d, a, 0#5, 0x20#9, 0#4, m⟩
  | .nop m => some ⟨0xF#6, 0#5, 0#5, 0#5, 0x0#9, 0#4, m⟩
  | .krd d k m => some ⟨0xF#6, d, (BitVec.extractLsb' 5 5 k), (BitVec.extractLsb' 0 5 k), 0x1#9, 0#4, m⟩
  | .kwr k a m => some ⟨0xF#6, (BitVec.extractLsb' 5 5 k), a, (BitVec.extractLsb' 0 5 k), 0x2#9, 0#4, m⟩
  | .krdFstat d m => some ⟨0xF#6, d, (BitVec.extractLsb' 5 5 0x002#10), (BitVec.extractLsb' 0 5 0x002#10), 0x1#9, 0#4, m⟩
  | .krdAdoptmax d m => some ⟨0xF#6, d, (BitVec.extractLsb' 5 5 0x020#10), (BitVec.extractLsb' 0 5 0x020#10), 0x1#9, 0#4, m⟩
  | .kwrFstat a m => some ⟨0xF#6, (BitVec.extractLsb' 5 5 0x002#10), a, (BitVec.extractLsb' 0 5 0x002#10), 0x2#9, 0#4, m⟩
  | .kwrTshape i a m => some ⟨0xF#6, (BitVec.extractLsb' 5 5 (2#7 ++ i)), a, (BitVec.extractLsb' 0 5 (2#7 ++ i)), 0x2#9, 0#4, m⟩
  | .kwrTmeta i a m => some ⟨0xF#6, (BitVec.extractLsb' 5 5 (3#7 ++ i)), a, (BitVec.extractLsb' 0 5 (3#7 ++ i)), 0x2#9, 0#4, m⟩
  | .kwrAssign a m => some ⟨0xF#6, (BitVec.extractLsb' 5 5 0x101#10), a, (BitVec.extractLsb' 0 5 0x101#10), 0x2#9, 0#4, m⟩
  | .keyload a m => some ⟨0xF#6, (BitVec.extractLsb' 5 5 0x112#10), a, (BitVec.extractLsb' 0 5 0x112#10), 0x2#9, 0#4, m⟩
  | .fence m => some ⟨0xF#6, 0#5, 0#5, 0#5, 0x3#9, 0#4, m⟩
  | .trap n m => some ⟨0xF#6, 0#5, 0#5, n, 0x4#9, 0#4, m⟩
  | .rft m => some ⟨0xF#6, 0#5, 0#5, 0#5, 0x5#9, 0#4, m⟩
  | .tlbinv a m => some ⟨0xF#6, 0#5, a, 0#5, 0x6#9, 0#4, m⟩
  | .kslz a m => some ⟨0xF#6, 0#5, a, 0#5, 0x7#9, 0#4, m⟩
  | .scrb a m => some ⟨0xF#6, 0#5, a, 0#5, 0x8#9, 0#4, m⟩
  | .ldB d a i m => some ⟨0x10#6, d, a, (i.extractLsb' 0 5), (i.extractLsb' 5 9), 0#4, m⟩
  | .ldBu d a i m => some ⟨0x11#6, d, a, (i.extractLsb' 0 5), (i.extractLsb' 5 9), 0#4, m⟩
  | .ldH d a i m => some ⟨0x12#6, d, a, (i.extractLsb' 0 5), (i.extractLsb' 5 9), 0#4, m⟩
  | .ldHu d a i m => some ⟨0x13#6, d, a, (i.extractLsb' 0 5), (i.extractLsb' 5 9), 0#4, m⟩
  | .ldW d a i m => some ⟨0x14#6, d, a, (i.extractLsb' 0 5), (i.extractLsb' 5 9), 0#4, m⟩
  | .ldWu d a i m => some ⟨0x15#6, d, a, (i.extractLsb' 0 5), (i.extractLsb' 5 9), 0#4, m⟩
  | .ldD d a i m => some ⟨0x16#6, d, a, (i.extractLsb' 0 5), (i.extractLsb' 5 9), 0#4, m⟩
  | .stB d a i m => some ⟨0x18#6, d, a, (i.extractLsb' 0 5), (i.extractLsb' 5 9), 0#4, m⟩
  | .stH d a i m => some ⟨0x19#6, d, a, (i.extractLsb' 0 5), (i.extractLsb' 5 9), 0#4, m⟩
  | .stW d a i m => some ⟨0x1A#6, d, a, (i.extractLsb' 0 5), (i.extractLsb' 5 9), 0#4, m⟩
  | .stD d a i m => some ⟨0x1B#6, d, a, (i.extractLsb' 0 5), (i.extractLsb' 5 9), 0#4, m⟩
  | .ldfe d a i m => some ⟨0x1C#6, d, a, (i.extractLsb' 0 5), (i.extractLsb' 5 9), 0#4, m⟩
  | .stfe d a i m => some ⟨0x1D#6, d, a, (i.extractLsb' 0 5), (i.extractLsb' 5 9), 0#4, m⟩
  | .ldIndexed s z d a b m => some ⟨0x1E#6, d, a, b, (0#3 ++ 0x0#1 ++ s ++ z), 0#4, m⟩
  | .stIndexed s z d a b m => some ⟨0x1E#6, d, a, b, (0#3 ++ 0x1#1 ++ s ++ z), 0#4, m⟩
  | .ldlo d a m => some ⟨0x1E#6, d, a, 0#5, 0x40#9, 0#4, m⟩
  | .stlo a b m => some ⟨0x1E#6, 0#5, a, b, 0x41#9, 0#4, m⟩
  | .stloMd a b m => some ⟨0x1E#6, 0#5, a, b, 0x42#9, 0#4, m⟩
  | .b o m => some (branchRaw 0#1 0#3 o m)
  | .bt p o m => some (branchRaw 0#1 p o m)
  | .bf p o m => some (branchRaw 1#1 p o m)
  | .callLit m => some ⟨0x21#6, 0#5, 0#5, 0#5, 0x0#9, 0#4, m⟩
  | .callReg a m => some ⟨0x21#6, 0#5, a, 0#5, 0x1#9, 0#4, m⟩
  | .jmp a m => some ⟨0x21#6, 0#5, a, 0#5, 0x2#9, 0#4, m⟩
  | .ret m => some ⟨0x21#6, 0#5, 0#5, 0#5, 0x3#9, 0#4, m⟩
  | .wflush m => some ⟨0x21#6, 0#5, 0#5, 0#5, 0x4#9, 0#4, m⟩
  | .wdepth d m => some ⟨0x21#6, d, 0#5, 0#5, 0x5#9, 0#4, m⟩
  | .create d a b m => some ⟨0x22#6, d, a, b, 0x0#9, 0#4, m⟩
  | .spawn a b m => some ⟨0x22#6, 0#5, a, b, 0x1#9, 0#4, m⟩
  | .sync a m => some ⟨0x22#6, 0#5, a, 0#5, 0x2#9, 0#4, m⟩
  | .brk a m => some ⟨0x22#6, 0#5, a, 0#5, 0x3#9, 0#4, m⟩
  | .kill a m => some ⟨0x22#6, 0#5, a, 0#5, 0x4#9, 0#4, m⟩
  | .mig a m => some ⟨0x22#6, 0#5, a, 0#5, 0x5#9, 0#4, m⟩
  | .migS a m => some ⟨0x22#6, 0#5, a, 0#5, 0x6#9, 0#4, m⟩
  | .yield m => some ⟨0x22#6, 0#5, 0#5, 0#5, 0x7#9, 0#4, m⟩
  | .htest d a m => some ⟨0x22#6, d, a, 0#5, 0x8#9, 0#4, m⟩
  | .hwait a m => some ⟨0x22#6, 0#5, a, 0#5, 0x9#9, 0#4, m⟩
  | .hcancel a m => some ⟨0x22#6, 0#5, a, 0#5, 0xA#9, 0#4, m⟩
  | .ifence m => some ⟨0x22#6, 0#5, 0#5, 0#5, 0xB#9, 0#4, m⟩
  | .amoAdd w o d a b m => some ⟨0x24#6, d, a, b, (0#1 ++ o ++ 0#1 ++ BitVec.ofBool w ++ 0x0#4), 0#4, m⟩
  | .amoAnd w o d a b m => some ⟨0x24#6, d, a, b, (0#1 ++ o ++ 0#1 ++ BitVec.ofBool w ++ 0x1#4), 0#4, m⟩
  | .amoOr w o d a b m => some ⟨0x24#6, d, a, b, (0#1 ++ o ++ 0#1 ++ BitVec.ofBool w ++ 0x2#4), 0#4, m⟩
  | .amoXor w o d a b m => some ⟨0x24#6, d, a, b, (0#1 ++ o ++ 0#1 ++ BitVec.ofBool w ++ 0x3#4), 0#4, m⟩
  | .amoMin w o d a b m => some ⟨0x24#6, d, a, b, (0#1 ++ o ++ 0#1 ++ BitVec.ofBool w ++ 0x4#4), 0#4, m⟩
  | .amoMax w o d a b m => some ⟨0x24#6, d, a, b, (0#1 ++ o ++ 0#1 ++ BitVec.ofBool w ++ 0x5#4), 0#4, m⟩
  | .amoMinu w o d a b m => some ⟨0x24#6, d, a, b, (0#1 ++ o ++ 0#1 ++ BitVec.ofBool w ++ 0x6#4), 0#4, m⟩
  | .amoMaxu w o d a b m => some ⟨0x24#6, d, a, b, (0#1 ++ o ++ 0#1 ++ BitVec.ofBool w ++ 0x7#4), 0#4, m⟩
  | .amoXchg w o d a b m => some ⟨0x24#6, d, a, b, (0#1 ++ o ++ 0#1 ++ BitVec.ofBool w ++ 0x8#4), 0#4, m⟩
  | .cas w o d a b m => some ⟨0x24#6, d, a, b, (0#1 ++ o ++ 0#1 ++ BitVec.ofBool w ++ 0x9#4), 0#4, m⟩
  | .famoAdd w o d a b m => some ⟨0x24#6, d, a, b, (0#1 ++ o ++ 2#2 ++ BitVec.ofBool w ++ 0x0#3), 0#4, m⟩
  | .famoMin w o d a b m => some ⟨0x24#6, d, a, b, (0#1 ++ o ++ 2#2 ++ BitVec.ofBool w ++ 0x1#3), 0#4, m⟩
  | .famoMax w o d a b m => some ⟨0x24#6, d, a, b, (0#1 ++ o ++ 2#2 ++ BitVec.ofBool w ++ 0x2#3), 0#4, m⟩
  | .tkget d a m => some ⟨0x25#6, d, a, 0#5, 0x0#9, 0#4, m⟩
  | .tkwait a b m => some ⟨0x25#6, 0#5, a, b, 0x1#9, 0#4, m⟩
  | .tkadv a m => some ⟨0x25#6, 0#5, a, 0#5, 0x2#9, 0#4, m⟩
  | .waiteq a b m => some ⟨0x25#6, 0#5, a, b, 0x8#9, 0#4, m⟩
  | .waitne a b m => some ⟨0x25#6, 0#5, a, b, 0x9#9, 0#4, m⟩
  | .lkacq a m => some ⟨0x25#6, 0#5, a, 0#5, 0x10#9, 0#4, m⟩
  | .lkrel a m => some ⟨0x25#6, 0#5, a, 0#5, 0x11#9, 0#4, m⟩
  | .barJoin a m => some ⟨0x25#6, 0#5, a, 0#5, 0x18#9, 0#4, m⟩
  | .barArrive a m => some ⟨0x25#6, 0#5, a, 0#5, 0x19#9, 0#4, m⟩
  | .barDrop a m => some ⟨0x25#6, 0#5, a, 0#5, 0x1A#9, 0#4, m⟩
  | .vldContig e k d a m => some ⟨0x28#6, (0#2 ++ d), a, 0#5, (0#4 ++ BitVec.ofBool k ++ 0x0#3 ++ BitVec.ofBool e), 0#4, m⟩
  | .vldStrided e k d a b m => some ⟨0x28#6, (0#2 ++ d), a, b, (0#4 ++ BitVec.ofBool k ++ 0x1#3 ++ BitVec.ofBool e), 0#4, m⟩
  | .vldIndexed e k d a b m => some ⟨0x28#6, (0#2 ++ d), a, (0#2 ++ b), (0#4 ++ BitVec.ofBool k ++ 0x2#3 ++ BitVec.ofBool e), 0#4, m⟩
  | .vstContig e k d a m => some ⟨0x28#6, (0#2 ++ d), a, 0#5, (0#4 ++ BitVec.ofBool k ++ 0x3#3 ++ BitVec.ofBool e), 0#4, m⟩
  | .vstStrided e k d a b m => some ⟨0x28#6, (0#2 ++ d), a, b, (0#4 ++ BitVec.ofBool k ++ 0x4#3 ++ BitVec.ofBool e), 0#4, m⟩
  | .vstIndexed e k d a b m => some ⟨0x28#6, (0#2 ++ d), a, (0#2 ++ b), (0#4 ++ BitVec.ofBool k ++ 0x5#3 ++ BitVec.ofBool e), 0#4, m⟩
  | .vadd t d a b m => some ⟨0x29#6, (0#2 ++ d), (0#2 ++ a), (0#2 ++ b), (BitVec.ofBool t ++ 0x0#8), 0#4, m⟩
  | .vsub t d a b m => some ⟨0x29#6, (0#2 ++ d), (0#2 ++ a), (0#2 ++ b), (BitVec.ofBool t ++ 0x1#8), 0#4, m⟩
  | .vmul t d a b m => some ⟨0x29#6, (0#2 ++ d), (0#2 ++ a), (0#2 ++ b), (BitVec.ofBool t ++ 0x2#8), 0#4, m⟩
  | .vmulh t d a b m => some ⟨0x29#6, (0#2 ++ d), (0#2 ++ a), (0#2 ++ b), (BitVec.ofBool t ++ 0x3#8), 0#4, m⟩
  | .vmin t d a b m => some ⟨0x29#6, (0#2 ++ d), (0#2 ++ a), (0#2 ++ b), (BitVec.ofBool t ++ 0x4#8), 0#4, m⟩
  | .vmax t d a b m => some ⟨0x29#6, (0#2 ++ d), (0#2 ++ a), (0#2 ++ b), (BitVec.ofBool t ++ 0x5#8), 0#4, m⟩
  | .vminu t d a b m => some ⟨0x29#6, (0#2 ++ d), (0#2 ++ a), (0#2 ++ b), (BitVec.ofBool t ++ 0x6#8), 0#4, m⟩
  | .vmaxu t d a b m => some ⟨0x29#6, (0#2 ++ d), (0#2 ++ a), (0#2 ++ b), (BitVec.ofBool t ++ 0x7#8), 0#4, m⟩
  | .vand t d a b m => some ⟨0x29#6, (0#2 ++ d), (0#2 ++ a), (0#2 ++ b), (BitVec.ofBool t ++ 0x8#8), 0#4, m⟩
  | .vor t d a b m => some ⟨0x29#6, (0#2 ++ d), (0#2 ++ a), (0#2 ++ b), (BitVec.ofBool t ++ 0x9#8), 0#4, m⟩
  | .vxor t d a b m => some ⟨0x29#6, (0#2 ++ d), (0#2 ++ a), (0#2 ++ b), (BitVec.ofBool t ++ 0xA#8), 0#4, m⟩
  | .vshl t d a b m => some ⟨0x29#6, (0#2 ++ d), (0#2 ++ a), (0#2 ++ b), (BitVec.ofBool t ++ 0xB#8), 0#4, m⟩
  | .vshr t d a b m => some ⟨0x29#6, (0#2 ++ d), (0#2 ++ a), (0#2 ++ b), (BitVec.ofBool t ++ 0xC#8), 0#4, m⟩
  | .vsar t d a b m => some ⟨0x29#6, (0#2 ++ d), (0#2 ++ a), (0#2 ++ b), (BitVec.ofBool t ++ 0xD#8), 0#4, m⟩
  | .vadds t d a b m => some ⟨0x29#6, (0#2 ++ d), (0#2 ++ a), (0#2 ++ b), (BitVec.ofBool t ++ 0xE#8), 0#4, m⟩
  | .vaddus t d a b m => some ⟨0x29#6, (0#2 ++ d), (0#2 ++ a), (0#2 ++ b), (BitVec.ofBool t ++ 0xF#8), 0#4, m⟩
  | .vsubs t d a b m => some ⟨0x29#6, (0#2 ++ d), (0#2 ++ a), (0#2 ++ b), (BitVec.ofBool t ++ 0x10#8), 0#4, m⟩
  | .vsubus t d a b m => some ⟨0x29#6, (0#2 ++ d), (0#2 ++ a), (0#2 ++ b), (BitVec.ofBool t ++ 0x11#8), 0#4, m⟩
  | .vabs t d a m => some ⟨0x29#6, (0#2 ++ d), (0#2 ++ a), 0#5, (BitVec.ofBool t ++ 0x12#8), 0#4, m⟩
  | .vneg t d a m => some ⟨0x29#6, (0#2 ++ d), (0#2 ++ a), 0#5, (BitVec.ofBool t ++ 0x13#8), 0#4, m⟩
  | .vcmpEq t d a b m => some ⟨0x29#6, d, (0#2 ++ a), (0#2 ++ b), (BitVec.ofBool t ++ 0x18#8), 0#4, m⟩
  | .vcmpLt t d a b m => some ⟨0x29#6, d, (0#2 ++ a), (0#2 ++ b), (BitVec.ofBool t ++ 0x19#8), 0#4, m⟩
  | .vcmpLe t d a b m => some ⟨0x29#6, d, (0#2 ++ a), (0#2 ++ b), (BitVec.ofBool t ++ 0x1A#8), 0#4, m⟩
  | .vcmpLtu t d a b m => some ⟨0x29#6, d, (0#2 ++ a), (0#2 ++ b), (BitVec.ofBool t ++ 0x1B#8), 0#4, m⟩
  | .vcmpLeu t d a b m => some ⟨0x29#6, d, (0#2 ++ a), (0#2 ++ b), (BitVec.ofBool t ++ 0x1C#8), 0#4, m⟩
  | .vmad t d a b m => some ⟨0x29#6, (0#2 ++ d), (0#2 ++ a), (0#2 ++ b), (BitVec.ofBool t ++ 0x20#8), 0#4, m⟩
  | .vfadd w d a b m => some ⟨0x2A#6, (0#2 ++ d), (0#2 ++ a), (0#2 ++ b), (BitVec.ofBool w ++ 0x0#8), 0#4, m⟩
  | .vfsub w d a b m => some ⟨0x2A#6, (0#2 ++ d), (0#2 ++ a), (0#2 ++ b), (BitVec.ofBool w ++ 0x1#8), 0#4, m⟩
  | .vfmul w d a b m => some ⟨0x2A#6, (0#2 ++ d), (0#2 ++ a), (0#2 ++ b), (BitVec.ofBool w ++ 0x2#8), 0#4, m⟩
  | .vfdiv w d a b m => some ⟨0x2A#6, (0#2 ++ d), (0#2 ++ a), (0#2 ++ b), (BitVec.ofBool w ++ 0x3#8), 0#4, m⟩
  | .vfsqrt w d a m => some ⟨0x2A#6, (0#2 ++ d), (0#2 ++ a), 0#5, (BitVec.ofBool w ++ 0x4#8), 0#4, m⟩
  | .vfmin w d a b m => some ⟨0x2A#6, (0#2 ++ d), (0#2 ++ a), (0#2 ++ b), (BitVec.ofBool w ++ 0x5#8), 0#4, m⟩
  | .vfmax w d a b m => some ⟨0x2A#6, (0#2 ++ d), (0#2 ++ a), (0#2 ++ b), (BitVec.ofBool w ++ 0x6#8), 0#4, m⟩
  | .vfabs w d a m => some ⟨0x2A#6, (0#2 ++ d), (0#2 ++ a), 0#5, (BitVec.ofBool w ++ 0x7#8), 0#4, m⟩
  | .vfneg w d a m => some ⟨0x2A#6, (0#2 ++ d), (0#2 ++ a), 0#5, (BitVec.ofBool w ++ 0x8#8), 0#4, m⟩
  | .vfma w d a b m => some ⟨0x2A#6, (0#2 ++ d), (0#2 ++ a), (0#2 ++ b), (BitVec.ofBool w ++ 0x9#8), 0#4, m⟩
  | .vfnma w d a b m => some ⟨0x2A#6, (0#2 ++ d), (0#2 ++ a), (0#2 ++ b), (BitVec.ofBool w ++ 0xA#8), 0#4, m⟩
  | .vfcmpEq w d a b m => some ⟨0x2A#6, d, (0#2 ++ a), (0#2 ++ b), (BitVec.ofBool w ++ 0x18#8), 0#4, m⟩
  | .vfcmpLt w d a b m => some ⟨0x2A#6, d, (0#2 ++ a), (0#2 ++ b), (BitVec.ofBool w ++ 0x19#8), 0#4, m⟩
  | .vfcmpLe w d a b m => some ⟨0x2A#6, d, (0#2 ++ a), (0#2 ++ b), (BitVec.ofBool w ++ 0x1A#8), 0#4, m⟩
  | .vfcmpUn w d a b m => some ⟨0x2A#6, d, (0#2 ++ a), (0#2 ++ b), (BitVec.ofBool w ++ 0x1B#8), 0#4, m⟩
  | .vmov d a m => some ⟨0x2B#6, (0#2 ++ d), (0#2 ++ a), 0#5, 0x0#9, 0#4, m⟩
  | .vbcastW d a m => some ⟨0x2B#6, (0#2 ++ d), a, 0#5, 0x1#9, 0#4, m⟩
  | .vbcastD d a m => some ⟨0x2B#6, (0#2 ++ d), a, 0#5, 0x2#9, 0#4, m⟩
  | .vextW d a b m => some ⟨0x2B#6, d, (0#2 ++ a), b, 0x3#9, 0#4, m⟩
  | .vextD d a b m => some ⟨0x2B#6, d, (0#2 ++ a), b, 0x4#9, 0#4, m⟩
  | .vinsW d a b m => some ⟨0x2B#6, (0#2 ++ d), a, b, 0x5#9, 0#4, m⟩
  | .vinsD d a b m => some ⟨0x2B#6, (0#2 ++ d), a, b, 0x6#9, 0#4, m⟩
  | .vcvt d a m => some ⟨0x2B#6, (0#2 ++ d), (0#2 ++ a), 0#5, 0x8#9, 0#4, m⟩
  | .nzscan e d a m => some ⟨0x2B#6, (0#2 ++ d), (0#2 ++ a), 0#5, (0x8#8 ++ BitVec.ofBool e), 0#4, m⟩
  | .vcompress e d a b m => some ⟨0x2B#6, (0#2 ++ d), (0#2 ++ a), b, (0x9#8 ++ BitVec.ofBool e), 0#4, m⟩
  | .vperm e d a b m => some ⟨0x2B#6, (0#2 ++ d), (0#2 ++ a), (0#2 ++ b), (0xA#8 ++ BitVec.ofBool e), 0#4, m⟩
  | .vrel m => some ⟨0x2B#6, 0#5, 0#5, 0#5, 0x20#9, 0#4, m⟩
  | .vredAdd t o d a m => some ⟨0x2B#6, d, (0#2 ++ a), 0#5, (0#1 ++ 0x4#4 ++ t ++ BitVec.ofBool o ++ 0#1), 0#4, m⟩
  | .vredMin t o d a m => some ⟨0x2B#6, d, (0#2 ++ a), 0#5, (0#1 ++ 0x5#4 ++ t ++ BitVec.ofBool o ++ 0#1), 0#4, m⟩
  | .vredMax t o d a m => some ⟨0x2B#6, d, (0#2 ++ a), 0#5, (0#1 ++ 0x6#4 ++ t ++ BitVec.ofBool o ++ 0#1), 0#4, m⟩
  | .haccO d a b m => some ⟨0x2B#6, d, a, (0#2 ++ b), 0x70#9, 0#4, m⟩
  | .haccU d a b m => some ⟨0x2B#6, d, a, (0#2 ++ b), 0x71#9, 0#4, m⟩
  | .tld d t a m => some ⟨0x30#6, d, a, (0#2 ++ t), 0x0#9, 0#4, m⟩
  | .tst d t a m => some ⟨0x30#6, d, a, (0#2 ++ t), 0x1#9, 0#4, m⟩
  | .tzero d t m => some ⟨0x30#6, d, 0#5, (0#2 ++ t), 0x2#9, 0#4, m⟩
  | .tmov d t s m => some ⟨0x30#6, d, (0#2 ++ s), (0#2 ++ t), 0x3#9, 0#4, m⟩
  | .mma D d a b m => some ⟨0x31#6, d, (0#2 ++ a), (0#2 ++ b), (D ++ 0x0#6), 0#4, m⟩
  | .mmaQ D d a b m => some ⟨0x31#6, d, (0#2 ++ a), (0#2 ++ b), (D ++ 0x1#6), 0#4, m⟩
  | .mmaSp D d a b m => some ⟨0x31#6, d, (0#2 ++ a), (0#2 ++ b), (D ++ 0x2#6), 0#4, m⟩
  | .sca D d a b m => some ⟨0x31#6, d, (0#2 ++ a), (0#2 ++ b), (D ++ 0x8#6), 0#4, m⟩
  | .prune D d a m => some ⟨0x31#6, d, (0#2 ++ a), 0#5, (D ++ 0x10#6), 0#4, m⟩
  | .cpy d a b m => some ⟨0x32#6, d, a, b, 0x0#9, 0#4, m⟩
  | .cpyRegSize d a b m => some ⟨0x32#6, d, a, b, 0x100#9, 0#4, m⟩
  | .gth d a b m => some ⟨0x32#6, d, a, b, 0x1#9, 0#4, m⟩
  | .sct d a b m => some ⟨0x32#6, d, a, b, 0x2#9, 0#4, m⟩
  | .cpyrAdd u rs d a b m => some ⟨0x32#6, d, a, b, (BitVec.ofBool rs ++ 0x2#7 ++ BitVec.ofBool u), 0#4, m⟩
  | .cpyrMin u rs d a b m => some ⟨0x32#6, d, a, b, (BitVec.ofBool rs ++ 0x3#7 ++ BitVec.ofBool u), 0#4, m⟩
  | .cpyrMax u rs d a b m => some ⟨0x32#6, d, a, b, (BitVec.ofBool rs ++ 0x4#7 ++ BitVec.ofBool u), 0#4, m⟩
  | .allredAdd u d a b m => some ⟨0x32#6, d, a, b, (0x8#8 ++ BitVec.ofBool u), 0#4, m⟩
  | .allredMin u d a b m => some ⟨0x32#6, d, a, b, (0x9#8 ++ BitVec.ofBool u), 0#4, m⟩
  | .allredMax u d a b m => some ⟨0x32#6, d, a, b, (0xA#8 ++ BitVec.ofBool u), 0#4, m⟩
  | .preemptRemove | .preemptRestore | .preemptSaveImage | .preemptLoadImage | .idleTurn _
  | .rotationBoundary _ | .replyLands _ | .storeAcknowledged _ | .divideResultLands _ | .codeFetchLands _
  | .loadAtHome _ | .storeAtHome _ | .egressLoad _ | .ingressRelease _ | .atomicAtHome _
  | .combinerGroupClose _ | .predictorEntryDrop _ _ | .ldfeAtHome _ | .stfeAtHome _ | .tkgetAtHome _
  | .tkwaitAtHome _ | .tkadvAtHome _ | .waitAtHome _ | .lkacqAtHome _ | .lkrelAtHome _ | .barJoinAtHome _
  | .barArriveAtHome _ | .barDropAtHome _ | .haccAtHome _ | .armedReplyLands _ | .servedAnswerLands _
  | .ldloAtHome _ | .stloAtHome _ | .ldloReplyLands _ | .latestOnlyAckLands _ | .inTransitDiscard _
  | .translationWalk _ | .walkResultLands _ | .claimAtHome _ | .coreClaim _ | .steal _ | .claimLands _
  | .claimAckAtHome _ | .leaseExpiry _ | .dependentFillLands _ | .passThroughForward _ | .stubResend _
  | .endReportAtHome _ | .familyFillLands _ | .hwaitAnswerLands _ | .breakAtHome _ | .killAtHome _
  | .killReachesMember _ | .migrationArrival _ | .copyFork _ _ _ | .copyChunkCheck _ _ _
  | .copyChunkWrite _ _ _ | .copyComplete _ _ | .engineHandleFillLands _ | .jobStart _ _
  | .tileRowTransfer _ _ _ | .jobEnd _ _ | .jobHandleFill _ _ | .snowploughStep _ | .level2ReplyRelease _
  | .faultRecordClaim _ | .pagingService _ | .answerAtHolder _ | .answerDoorbell _ _ | .queueDoorbell _ _ _
  | .queueControlWrite _ _ _ | .packetReadLands _ _ _ | .launch _ _ _ | .admissionWake _ _ _
  | .localSectionCopyLands _ _ _ | .copy _ _ _ | .signal _ _ _ | .waitSeq _ _ _ | .waitSeqAnswer _
  | .setDet _ _ _ | .setDetDrained _ | .fencePacket _ _ _ | .fencePacketComplete _ _ _ | .scrubRegionDone
  | .scrubgo _ | .coreStop _ _ | .repair _ | .slotq _ | .spill _ | .assign _ | .managementWrite _ _
  | .hostMemoryAccess _ _ _ _ | .gangctlArm _ _ | .prepared _ _ _ | .refused _ _ _ | .commit _ _
  | .abort _ _ _ _ | .gangTimeout _ | .allredMessage _ _ _ _ _ _ _ _ _ _ _ | .rankLost _ | .keepalive _ _
  | .peerPortDown _ | .ucieModuleFailure _ | .cxlLinkDown _ | .cxlLinkRetrain _ | .start _ _ _ | .bootclr _
  | .attest _ | .dutyWrite _ _ | .dutyDrainEnd _ | .throttle _ _ _ | .thermalTrip _ | .withdrawalAtHome _
  | .withdrawalAckLands _ | .hwaitArmAtHome _ | .peerAdmit _ | .scaleOutPortUp _ | .firmwareImageWrite _ _ _ _
  | .gatingRequest _ | .throttleEnd _ _ _ => none

/-- Word 0 (R20). -/
def Raw.word0 (r : Raw) : IWord := r.func ++ r.rb ++ r.ra ++ r.rd ++ r.major ++ r.m.len

/-- Word 1 of the extended forms (R23). -/
def Raw.word1 (r : Raw) : IWord :=
  r.rsv ++ r.m.fmtB ++ r.m.fmtA ++ r.m.round ++ r.m.scope ++ BitVec.ofBool r.m.gsense ++ r.m.gpred ++
    BitVec.ofBool r.m.consC ++ BitVec.ofBool r.m.consB ++ BitVec.ofBool r.m.consA ++ r.m.rc

/-- The words of an instruction, first word first (R17, R18). -/
def Raw.words (r : Raw) : List IWord :=
  match r.m.len.toNat with
  | 0 => [r.word0]
  | 1 => [r.word0, r.word1, r.m.w2]
  | 2 => [r.word0, r.m.lit.extractLsb' 0 32, r.m.lit.extractLsb' 32 32]
  | _ => [r.word0, r.word1, r.m.w2, r.m.lit.extractLsb' 0 32, r.m.lit.extractLsb' 32 32]

/-- The fields of word 1, word 2 and the literal, as a length code selects them. -/
def modsOf (len : BitVec 2) (w1 w2 : IWord) (lit : Word) : Mods :=
  ⟨len, w1.extractLsb' 8 3, w1.getLsbD 11, w1.getLsbD 5, w1.getLsbD 6, w1.getLsbD 7, w1.extractLsb' 0 5,
    w1.extractLsb' 12 3, w1.extractLsb' 15 3, w1.extractLsb' 18 5, w1.extractLsb' 23 5, w2, lit⟩

/-- The fields of an instruction from its words; a word the length does not hold counts as zero. -/
def rawOf (w0 w1 w2 : IWord) (lit : Word) : Raw :=
  ⟨w0.extractLsb' 2 6, w0.extractLsb' 8 5, w0.extractLsb' 13 5, w0.extractLsb' 18 5, w0.extractLsb' 23 9,
    w1.extractLsb' 28 4, modsOf (w0.extractLsb' 0 2) w1 w2 lit⟩

/-- Splits the first instruction's fields off a list of words, by the length field of the first (R17, R18). -/
def splitWords : List IWord → Option (Raw × List IWord)
  | [] => none
  | w0 :: ws =>
    match (w0.extractLsb' 0 2).toNat, ws with
    | 0, ws => some (rawOf w0 0#32 0#32 0#64, ws)
    | 1, w1 :: w2 :: ws => some (rawOf w0 w1 w2 0#64, ws)
    | 2, lo :: hi :: ws => some (rawOf w0 0#32 0#32 (hi ++ lo), ws)
    | 3, w1 :: w2 :: lo :: hi :: ws => some (rawOf w0 w1 w2 (hi ++ lo), ws)
    | _, _ => none

/-- The instruction that fields stand for, or the cause of its ILLEGAL fault (R56). -/
noncomputable def decodeRaw (r : Raw) : Except IllegalCause Instr :=
  match build r with
  | .error c => .error c
  | .ok i =>
    match fieldFault i r with
    | some c => .error c
    | none => .ok i

/-- Decodes the first instruction of a list of words and gives the words after it. (DEDUCED, log entry 13) -/
noncomputable def decodeWords (ws : List IWord) : Except DecodeError (Instr × List IWord) :=
  match splitWords ws with
  | none => .error .truncated
  | some (r, rest) =>
    match decodeRaw r with
    | .error c => .error (.illegal c)
    | .ok i => .ok (i, rest)

/-- Little-endian words of a list of bytes (R4); up to three bytes at the end that make no word are dropped. -/
def wordsOfBytes : List Byte → List IWord
  | b0 :: b1 :: b2 :: b3 :: bs => (b3 ++ b2 ++ b1 ++ b0) :: wordsOfBytes bs
  | _ => []

/-- The four bytes of a word, lowest address first (R4). -/
def bytesOfWord (w : IWord) : List Byte :=
  [w.extractLsb' 0 8, w.extractLsb' 8 8, w.extractLsb' 16 8, w.extractLsb' 24 8]

/-- Decodes the first instruction that bytes hold. -/
noncomputable def decodeBytes (bs : List Byte) : Except DecodeError Instr :=
  match decodeWords (wordsOfBytes bs) with
  | .error e => .error e
  | .ok (i, _) => .ok i

/-- The words of an instruction; a row without words has none. -/
def encode (i : Instr) : List IWord :=
  match toRaw i with
  | none => []
  | some r => r.words

/-- The bytes of an instruction as they stand in memory (R4, R18). -/
def encodeBytes (i : Instr) : List Byte := (encode i).flatMap bytesOfWord

/-- The bytes of an instruction whose bits are `w`, numbered from the first word's least significant bit; the
twenty bytes of the longest length, zero beyond `nbits`. -/
def tableBytes (nbits w : Nat) : List Byte :=
  (List.range 20).map (fun k => BitVec.ofNat 8 ((w % 2 ^ nbits) / 2 ^ (8 * k)))

/-- The instruction that the decoder reads from an instruction whose bits are `w`. -/
noncomputable def decodeTableWord (nbits w : Nat) : Option Instr :=
  match decodeBytes (tableBytes nbits w) with
  | .ok i => some i
  | .error _ => none

end Sys2Proof
end

