-- ==== Sys2Proof/Machine/Bits.lean ====
section
/-! DEFINITION. Bit fields and byte order: reading and writing a field of a number, sign extension, lanes of a
vector register, and the little-endian order of R4. -/

namespace Sys2Proof.Machine

/-- Bits [lo + len - 1 : lo] of a number. -/
def bitsOf (n lo len : Nat) : Nat := n / 2 ^ lo % 2 ^ len

/-- Bit `i` of a number. -/
def bitOf (n i : Nat) : Bool := n / 2 ^ i % 2 == 1

/-- A number with bits [lo + len - 1 : lo] replaced by the low bits of `v`. -/
def putBits (n lo len v : Nat) : Nat :=
  n / 2 ^ (lo + len) * 2 ^ (lo + len) + v % 2 ^ len * 2 ^ lo + n % 2 ^ lo

/-- Bits [lo + len - 1 : lo] of a word, as a number. -/
def fieldOf (w : Word) (lo len : Nat) : Nat := bitsOf w.toNat lo len

/-- A number as a word, modulo 2^64. -/
def word (n : Nat) : Word := BitVec.ofNat 64 n

/-- An integer as a word, modulo 2^64. -/
def wordOfInt (n : Int) : Word := BitVec.ofInt 64 n

/-- sext(n, 64) of the low `w` bits of a number. -/
def sextN (w n : Nat) : Word := (BitVec.ofNat w n).signExtend 64

/-- The low `w` bits of a number, read as signed. -/
def signedN (w n : Nat) : Int := (BitVec.ofNat w n).toInt

/-- An integer's low `w` bits, as a number. -/
def lowBits (w : Nat) (n : Int) : Nat := (n % (2 ^ w : Int)).toNat

/-- Lane `i` of `w` bits of a vector register (R168). -/
def lane (w : Nat) (v : VWord) (i : Nat) : Nat := bitsOf v.toNat (w * i) w

/-- A vector register from its lanes of `w` bits, lane 0 lowest. -/
def ofLanes (w : Nat) (xs : List Nat) : VWord :=
  BitVec.ofNat 512 (xs.foldr (fun x acc => x % 2 ^ w + 2 ^ w * acc) 0)

/-- The lanes of `w` bits of a vector register, lane 0 first. -/
def lanes (w : Nat) (v : VWord) : List Nat := (List.range (512 / w)).map (lane w v)

/-- The number that bytes hold, lowest address first (R4). -/
def ofBytes : List Byte → Nat
  | [] => 0
  | b :: bs => b.toNat + 256 * ofBytes bs

/-- A number's `n` low bytes, lowest address first (R4). -/
def toBytes : Nat → Nat → List Byte
  | 0, _ => []
  | n + 1, v => BitVec.ofNat 8 v :: toBytes n (v / 256)

/-- Rounds a number up to a multiple. -/
def ceilDiv (n d : Nat) : Nat := (n + d - 1) / d

/-- Is the address a multiple of `n`? -/
def alignedTo (n a : Nat) : Bool := a % n == 0

end Sys2Proof.Machine
end

