-- ==== Sys2Proof/Machine/Float.lean ====
section
/-! DEFINITION. The number formats of chapter 13 and their arithmetic: exact values, rounding in the five modes
(R131, R233, R234), the float operations (R132 to R136), the stochastic generator (R236) and the block scaling of
R238 and R239. A format's nonnegative values are numbered by their codes, in ascending order, and rounding picks one
of two neighbouring codes. -/

namespace Sys2Proof.Machine

/-- How a float format spends its top codes (R227 to R230). -/
inductive Specials where
  /-- An all-ones exponent holds the infinities and NaNs: f16, bf16, f32, f64, e5m2. -/
  | ieee
  /-- R227: 0x80 is the NaN; the extended variant has infinities at 0x7F and 0xFF. -/
  | p3109 (ext : Bool)
  /-- R228: no sign, 0xFF is the NaN. -/
  | unsigned
  /-- R229: 0x7F and 0xFF are NaN, no infinity. -/
  | e4m3
  deriving DecidableEq, Repr

/-- A float format: its width, trailing bits, bias and special codes. -/
structure FloatFmt where
  width : Nat
  tbits : Nat
  bias  : Nat
  spec  : Specials
  deriving DecidableEq, Repr

/-- What a format code names (R28). -/
inductive Fmt where
  | float (f : FloatFmt)
  | int (signed : Bool) (width : Nat)
  | reserved
  deriving DecidableEq, Repr

def f16 : FloatFmt := ⟨16, 10, 15, .ieee⟩
def bf16 : FloatFmt := ⟨16, 7, 127, .ieee⟩
def f32 : FloatFmt := ⟨32, 23, 127, .ieee⟩
def f64 : FloatFmt := ⟨64, 52, 1023, .ieee⟩
def e4m3 : FloatFmt := ⟨8, 3, 7, .e4m3⟩
def e5m2 : FloatFmt := ⟨8, 2, 15, .ieee⟩
def b8p4n : FloatFmt := ⟨8, 3, 16, .unsigned⟩

/-- The format of a code (R28, R227 to R231). -/
def fmtOf (code : Nat) : Fmt :=
  if code < 0x07 then .float ⟨8, code, 2 ^ (6 - code), .p3109 false⟩
  else if code < 0x0E then .float ⟨8, code - 7, 2 ^ (13 - code), .p3109 true⟩
  else match code with
    | 0x0E => .float ⟨8, 2, 32, .unsigned⟩
    | 0x0F => .float b8p4n
    | 0x10 => .float e4m3
    | 0x11 => .float e5m2
    | 0x12 => .float f16
    | 0x13 => .float bf16
    | 0x14 => .float f32
    | 0x15 => .int true 8
    | 0x16 => .int false 8
    | 0x17 => .int true 4
    | 0x18 => .float f64
    | 0x19 => .int true 16
    | 0x1A => .int true 32
    | 0x1B => .int true 64
    | 0x1C => .int false 16
    | 0x1D => .int false 32
    | 0x1E => .int false 64
    | _ => .reserved

/-- A format's width in bits. -/
def Fmt.width : Fmt → Nat
  | .float f => f.width
  | .int _ w => w
  | .reserved => 8

/-- An element's bytes in memory (R203, R234): a nibble counts as one byte. -/
def Fmt.bytes (f : Fmt) : Nat := max 1 (f.width / 8)

/-- Does the format hold integers? -/
def Fmt.isInt : Fmt → Bool
  | .int _ _ => true
  | _ => false

/-- The float formats of 8 bits, 18 of them (R218). -/
def isFloat8 (code : Nat) : Bool := code ≤ 0x11

/-- The float formats that R136 converts among: f16, bf16, f32 and f64. -/
def FloatFmt.isWide (f : FloatFmt) : Bool := f.width != 8

/-- An exact value, or what stands in its place. A finite value is (-1)^neg × m × 2^e. -/
inductive FVal where
  | nan (signalling : Bool)
  | inf (neg : Bool)
  | fin (neg : Bool) (m : Nat) (e : Int)
  deriving DecidableEq, Repr

def FVal.isNan : FVal → Bool
  | .nan _ => true
  | _ => false

def FVal.isSnan : FVal → Bool
  | .nan s => s
  | _ => false

def FVal.isInf : FVal → Bool
  | .inf _ => true
  | _ => false

def FVal.isFin : FVal → Bool
  | .fin _ _ _ => true
  | _ => false
def FVal.isZero : FVal → Bool
  | .fin _ m _ => m == 0
  | _ => false

def FVal.neg : FVal → Bool
  | .nan _ => false
  | .inf n => n
  | .fin n _ _ => n

def FVal.flip : FVal → FVal
  | .nan s => .nan s
  | .inf n => .inf (!n)
  | .fin n m e => .fin (!n) m e

/-- The sign bit's weight, or the code space of an unsigned format. -/
def FloatFmt.signBit (f : FloatFmt) : Nat :=
  match f.spec with
  | .unsigned => 2 ^ f.width
  | _ => 2 ^ (f.width - 1)

/-- The largest finite magnitude's code. -/
def FloatFmt.maxCode (f : FloatFmt) : Nat :=
  match f.spec with
  | .ieee => f.signBit - 2 ^ f.tbits - 1
  | .p3109 ext => if ext then 0x7E else 0x7F
  | .unsigned => 0xFE
  | .e4m3 => 0x7E

/-- The magnitude that a nonnegative code stands for: (m, e) of m × 2^e (R227). -/
def FloatFmt.mag (f : FloatFmt) (code : Nat) : Nat × Int :=
  let ex := code / 2 ^ f.tbits
  let t := code % 2 ^ f.tbits
  if ex = 0 then (t, 1 - f.bias - f.tbits) else (2 ^ f.tbits + t, (ex : Int) - f.bias - f.tbits)

/-- The NaN that an operation produces in a format (R132, R227 to R229). -/
def FloatFmt.nanCode (f : FloatFmt) : Nat :=
  match f.spec with
  | .ieee => f.maxCode + 1 + 2 ^ (f.tbits - 1)
  | .p3109 _ => 0x80
  | .unsigned => 0xFF
  | .e4m3 => 0x7F

/-- Has the format infinities (R233)? -/
def FloatFmt.hasInf (f : FloatFmt) : Bool :=
  match f.spec with
  | .ieee => true
  | .p3109 ext => ext
  | _ => false

/-- The value that a format's bits hold (R227 to R230, R232). -/
def FloatFmt.decode (f : FloatFmt) (bits : Nat) : FVal :=
  let n := bits % 2 ^ f.width
  let neg := f.signBit ≤ n
  let code := n % f.signBit
  let finite := FVal.fin neg (f.mag code).1 (f.mag code).2
  match f.spec with
  | .ieee =>
    if code ≤ f.maxCode then finite
    else if code = f.maxCode + 1 then .inf neg
    else .nan (code < f.maxCode + 1 + 2 ^ (f.tbits - 1))
  | .p3109 ext =>
    if n = 0x80 then .nan false
    else if ext && code == 0x7F then .inf neg
    else finite
  | .unsigned => if n = 0xFF then .nan false else finite
  | .e4m3 => if code = 0x7F then .nan false else finite

/-- The value of an element of any format. -/
def Fmt.decode (f : Fmt) (bits : Nat) : FVal :=
  match f with
  | .float g => g.decode bits
  | .int true w => .fin (signedN w bits < 0) (signedN w bits).natAbs 0
  | .int false w => .fin false (bits % 2 ^ w) 0
  | .reserved => .nan false

/-- Is a finite nonzero value below the format's smallest normal magnitude 2^(1 - bias)? -/
def FloatFmt.subnormal (f : FloatFmt) : FVal → Bool
  | .fin _ m e => m != 0 && (Nat.log2 m : Int) + e < 1 - f.bias
  | _ => false

/-- FCTL.daz: a subnormal operand read as zero of its sign (R128). -/
def FloatFmt.daz (f : FloatFmt) (on : Bool) (v : FVal) : FVal :=
  if on && f.subnormal v then .fin v.neg 0 0 else v

/-- FSTAT's flags (R129): nv, dz, of, uf, nx in bits 4 to 0. -/
abbrev Flags := BitVec 5

def nv : Flags := 0x10#5
def dz : Flags := 0x08#5
def of : Flags := 0x04#5
def uf : Flags := 0x02#5
def nx : Flags := 0x01#5

/-- A flag when a condition holds. -/
def flagIf (c : Bool) (f : Flags) : Flags := if c then f else 0#5

/-- What an instruction rounds with: the effective mode's code (R27, R131), FCTL's daz and ftz, and the draw of R236. -/
structure FEnv where
  mode : Nat
  daz  : Bool
  ftz  : Bool
  draw : Nat
  deriving DecidableEq, Repr

/-- Rounding to nearest-even with daz and ftz off. -/
def FEnv.nearest : FEnv := ⟨1, false, false, 0⟩

/-- Is the upper of two neighbours chosen? `rest`/`whole` is the exact distance above the lower as a fraction of
the gap, `sticky` says that a little more follows, `odd` that the lower's code is odd (R131, R233). -/
def roundsUp (mode : Nat) (neg odd sticky : Bool) (rest whole draw : Nat) : Bool :=
  match mode with
  | 2 => false
  | 3 => !neg && (rest != 0 || sticky)
  | 4 => neg && (rest != 0 || sticky)
  | 5 => draw < rest * 2 ^ 32 / whole
  | _ => whole < 2 * rest || (2 * rest == whole && (sticky || odd))

/-- An exact magnitude m × 2^e, or, with `sticky`, one strictly between m × 2^e and (m + 1) × 2^e. -/
structure Mag where
  m : Nat
  e : Int
  sticky : Bool
  deriving DecidableEq, Repr

/-- The floor of a magnitude on the grid of 2^q, and what is above it as (rest, whole). -/
def Mag.onGrid (v : Mag) (q : Int) : Nat × Nat × Nat :=
  if q ≤ v.e then (v.m * 2 ^ (v.e - q).toNat, 0, 1)
  else
    let whole := 2 ^ (q - v.e).toNat
    (v.m / whole, v.m % whole, whole)

/-- Is m × 2^e at most the magnitude? -/
def Mag.atLeast (v : Mag) (m : Nat) (e : Int) : Bool :=
  let d := min v.e e
  m * 2 ^ (e - d).toNat ≤ v.m * 2 ^ (v.e - d).toNat

/-- R233's rounding of a magnitude to a code, with whether it is inexact. A code above `maxCode` is "beyond". -/
def FloatFmt.roundCode (f : FloatFmt) (env : FEnv) (neg : Bool) (v : Mag) : Nat × Bool :=
  if v.m = 0 then (0, v.sticky)
  else
    let top := f.mag f.maxCode
    let below := f.mag (f.maxCode - 1)
    -- the spacing just below the largest finite magnitude, in the unit of the one below it
    let unit := below.2
    let topM := top.1 * 2 ^ (top.2 - unit).toNat
    let gap := topM - below.1
    if v.atLeast (topM + gap) unit then (f.maxCode + 1, true)
    else if v.atLeast topM unit then
      let d := min v.e unit
      let rest := v.m * 2 ^ (v.e - d).toNat - topM * 2 ^ (unit - d).toNat
      let whole := gap * 2 ^ (unit - d).toNat
      (if roundsUp env.mode neg (f.maxCode % 2 == 1) v.sticky rest whole env.draw then f.maxCode + 1 else f.maxCode,
        rest != 0 || v.sticky)
    else
      let ex : Int := max ((Nat.log2 v.m : Int) + v.e) (1 - f.bias)
      let g := v.onGrid (ex - f.tbits)
      let lower := if g.1 < 2 ^ f.tbits then g.1 else (ex + f.bias).toNat * 2 ^ f.tbits + (g.1 - 2 ^ f.tbits)
      (if roundsUp env.mode neg (lower % 2 == 1) v.sticky g.2.1 g.2.2 env.draw then lower + 1 else lower,
        g.2.1 != 0 || v.sticky)

/-- Is the magnitude, rounded to the format's precision with an unbounded exponent, below the smallest normal
(R131: tininess is detected after rounding)? (DEDUCED, log entry 14) -/
def FloatFmt.tiny (f : FloatFmt) (env : FEnv) (neg : Bool) (v : Mag) : Bool :=
  let ex : Int := (Nat.log2 v.m : Int) + v.e
  let g := v.onGrid (ex - f.tbits)
  let n := if roundsUp env.mode neg (g.1 % 2 == 1) v.sticky g.2.1 g.2.2 env.draw then g.1 + 1 else g.1
  v.m != 0 && (ex + 1 < 1 - f.bias || (ex < 1 - f.bias && n < 2 ^ (f.tbits + 1)))

/-- Bits of a float format with their flags. -/
abbrev FRes := Nat × Flags

/-- The bits of a signed code; a signed P3109 zero is 0x00 (R233). -/
def FloatFmt.signed (f : FloatFmt) (neg : Bool) (code : Nat) : Nat :=
  match f.spec with
  | .unsigned => code
  | .p3109 _ => if code = 0 then 0 else if neg then f.signBit + code else code
  | _ => if neg then f.signBit + code else code

/-- The canonical NaN with flags. -/
def FloatFmt.nanRes (f : FloatFmt) (fl : Flags) : FRes := (f.nanCode, fl)

/-- The infinity of a sign, in a format that has one. -/
def FloatFmt.infRes (f : FloatFmt) (neg : Bool) : FRes := (f.signed neg (f.maxCode + 1), 0#5)

/-- R131 and R234: a finite exact magnitude rounded into f16, bf16, f32 or f64. (DEDUCED, log entry 14) -/
def FloatFmt.roundWide (f : FloatFmt) (env : FEnv) (neg : Bool) (v : Mag) : FRes :=
  let (code, inexact) := f.roundCode env neg v
  if f.maxCode < code then
    let toInf := match env.mode with
      | 2 => false
      | 3 => !neg
      | 4 => neg
      | _ => true
    (f.signed neg (if toInf then f.maxCode + 1 else f.maxCode), of ||| nx)
  else if env.ftz && 0 < code && code < 2 ^ f.tbits then (f.signed neg 0, uf ||| nx)
  else (f.signed neg code, flagIf inexact (if f.tiny env neg v then uf ||| nx else nx))

/-- R233: a finite exact magnitude rounded into an 8-bit float format. -/
def FloatFmt.roundNarrow (f : FloatFmt) (env : FEnv) (neg : Bool) (v : Mag) : FRes :=
  if v.m = 0 then (f.signed neg 0, 0#5)
  else if f.spec == .unsigned && neg then (0, nv)
  else
    let (code, inexact) := f.roundCode env neg v
    if f.maxCode < code then (f.signed neg f.maxCode, of ||| nx)
    else
      let small := (Nat.log2 v.m : Int) + v.e < 1 - f.bias
      (f.signed neg code, flagIf inexact (if small then uf ||| nx else nx))

/-- Rounds an exact value that may be special into a float format (R131 to R133, R233). -/
def FloatFmt.ofVal (f : FloatFmt) (env : FEnv) (v : FVal) : FRes :=
  match v with
  | .nan s => f.nanRes (flagIf s nv)
  | .inf neg =>
    if f.spec == .unsigned && neg then (0, nv)
    else if f.hasInf then f.infRes neg
    else (f.signed neg f.maxCode, nx)
  | .fin neg m e => if f.isWide then f.roundWide env neg ⟨m, e, false⟩ else f.roundNarrow env neg ⟨m, e, false⟩

/-- A magnitude rounded to an integer, with whether it is inexact. -/
def roundInt (env : FEnv) (neg : Bool) (v : Mag) : Nat × Bool :=
  let g := v.onGrid 0
  (if roundsUp env.mode neg (g.1 % 2 == 1) v.sticky g.2.1 g.2.2 env.draw then g.1 + 1 else g.1,
    g.2.1 != 0 || v.sticky)

/-- The largest magnitude of an integer format on one side of zero. -/
def intLimit (signed : Bool) (w : Nat) (neg : Bool) : Nat :=
  if signed then (if neg then 2 ^ (w - 1) else 2 ^ (w - 1) - 1) else (if neg then 0 else 2 ^ w - 1)

/-- The two's complement bits of a signed magnitude. -/
def intBits (w : Nat) (neg : Bool) (m : Nat) : Nat := if neg then (2 ^ w - m % 2 ^ w) % 2 ^ w else m % 2 ^ w

/-- A float value into an integer format: R136 for 32 and 64 bits, R233 for the narrower ones. -/
def intOfVal (signed : Bool) (w : Nat) (env : FEnv) (v : FVal) : FRes :=
  match v with
  | .nan _ => (0, nv)
  | .inf neg => (intBits w neg (intLimit signed w neg), nv)
  | .fin neg m e =>
    if !signed && neg && m != 0 && w < 32 then (0, nv)
    else
      let (n, inexact) := roundInt env neg ⟨m, e, false⟩
      if intLimit signed w neg < n then (intBits w neg (intLimit signed w neg), nv)
      else (intBits w neg n, flagIf inexact nx)

/-- The daz that a source takes: it applies to f16, bf16, f32 and f64 alone (R232). -/
def Fmt.dazed (f : Fmt) (on : Bool) (v : FVal) : FVal :=
  match f with
  | .float g => if g.isWide then g.daz on v else v
  | _ => v

/-- One element converted between two formats (R136, R178, R233). -/
def convert (src dst : Fmt) (env : FEnv) (bits : Nat) : FRes :=
  let v := src.dazed env.daz (src.decode bits)
  match dst with
  | .float g => g.ofVal env v
  | .int s w =>
    match src, v with
    | .int _ _, .fin neg m _ =>
      if intLimit s w neg < m then (intBits w neg (intLimit s w neg), nv) else (intBits w neg m, 0#5)
    | _, v => intOfVal s w env v
  | .reserved => (0, 0#5)

/-- The exact sum of two finite values; an exact zero of opposite signs is +0, or -0 in the down mode (R131). -/
def addFin (mode : Nat) (n1 : Bool) (m1 : Nat) (e1 : Int) (n2 : Bool) (m2 : Nat) (e2 : Int) : FVal :=
  let e := min e1 e2
  let a : Int := (m1 * 2 ^ (e1 - e).toNat : Nat)
  let b : Int := (m2 * 2 ^ (e2 - e).toNat : Nat)
  let s := (if n1 then -a else a) + (if n2 then -b else b)
  if s = 0 then .fin (if n1 == n2 then n1 else mode == 4) 0 0
  else .fin (s < 0) s.natAbs e

/-- The exact sum of two values; infinities of opposite signs give a NaN. -/
def addVal (mode : Nat) (x y : FVal) : FVal :=
  match x, y with
  | .nan s, _ => .nan s
  | _, .nan s => .nan s
  | .inf a, .inf b => if a == b then .inf a else .nan false
  | .inf a, _ => .inf a
  | _, .inf b => .inf b
  | .fin n1 m1 e1, .fin n2 m2 e2 => addFin mode n1 m1 e1 n2 m2 e2

/-- The exact product of two values; zero times infinity gives a NaN. -/
def mulVal (x y : FVal) : FVal :=
  match x, y with
  | .nan s, _ => .nan s
  | _, .nan s => .nan s
  | .inf a, .inf b => .inf (a != b)
  | .inf a, .fin b m _ => if m = 0 then .nan false else .inf (a != b)
  | .fin a m _, .inf b => if m = 0 then .nan false else .inf (a != b)
  | .fin n1 m1 e1, .fin n2 m2 e2 => .fin (n1 != n2) (m1 * m2) (e1 + e2)

/-- The floor of a square root, bit by bit. -/
def isqrt (n : Nat) : Nat → Nat → Nat
  | 0, r => r
  | k + 1, r => isqrt n k (if (r + 2 ^ k) * (r + 2 ^ k) ≤ n then r + 2 ^ k else r)

/-- A quotient's magnitude to 128 bits and more, with what is left as sticky. -/
def divMag (m1 : Nat) (e1 : Int) (m2 : Nat) (e2 : Int) : Mag :=
  let k := 128 + Nat.log2 m2
  let n := m1 * 2 ^ k
  ⟨n / m2, e1 - e2 - k, n % m2 != 0⟩

/-- A square root's magnitude to 100 bits and more, with what is left as sticky. -/
def sqrtMag (m : Nat) (e : Int) : Mag :=
  let e' := if e % 2 = 0 then e else e - 1
  let n := (if e % 2 = 0 then m else 2 * m) * 2 ^ 200
  let r := isqrt n 160 0
  ⟨r, e' / 2 - 100, r * r != n⟩

/-- A NaN operand's result: the canonical NaN, nv when one of the operands is signalling (R132). -/
def FloatFmt.nanOf (f : FloatFmt) (xs : List FVal) : FRes := f.nanRes (flagIf (xs.any FVal.isSnan) nv)

/-- x + y rounded (R133). -/
def FloatFmt.add (f : FloatFmt) (env : FEnv) (x y : FVal) : FRes :=
  if x.isNan || y.isNan then f.nanOf [x, y]
  else match addVal env.mode x y with
    | .nan _ => f.nanRes nv
    | v => f.ofVal env v

/-- x × y rounded (R133). -/
def FloatFmt.mul (f : FloatFmt) (env : FEnv) (x y : FVal) : FRes :=
  if x.isNan || y.isNan then f.nanOf [x, y]
  else match mulVal x y with
    | .nan _ => f.nanRes nv
    | v => f.ofVal env v

/-- x / y rounded (R133). -/
def FloatFmt.div (f : FloatFmt) (env : FEnv) (x y : FVal) : FRes :=
  let neg := x.neg != y.neg
  if x.isNan || y.isNan then f.nanOf [x, y]
  else match x, y with
    | .inf _, .inf _ => f.nanRes nv
    | .inf _, _ => f.infRes neg
    | .fin _ _ _, .inf _ => (f.signed neg 0, 0#5)
    | .fin _ m1 e1, .fin _ m2 e2 =>
      if m2 = 0 then
        if m1 = 0 then f.nanRes nv else (f.signed neg (f.maxCode + 1), dz)
      else if m1 = 0 then (f.signed neg 0, 0#5)
      else f.roundWide env neg (divMag m1 e1 m2 e2)
    | _, _ => f.nanRes nv

/-- sqrt(x) rounded (R133). -/
def FloatFmt.sqrt (f : FloatFmt) (env : FEnv) (x : FVal) : FRes :=
  match x with
  | .nan s => f.nanRes (flagIf s nv)
  | .inf neg => if neg then f.nanRes nv else f.infRes false
  | .fin neg m e =>
    if m = 0 then (f.signed neg 0, 0#5)
    else if neg then f.nanRes nv
    else f.roundWide env false (sqrtMag m e)

/-- ±(x × y) + c rounded once (R133). -/
def FloatFmt.fma (f : FloatFmt) (env : FEnv) (negate : Bool) (x y c : FVal) : FRes :=
  let zeroInf := (x.isZero && y.isInf) || (x.isInf && y.isZero)
  if x.isNan || y.isNan || c.isNan then f.nanRes (flagIf (zeroInf || [x, y, c].any FVal.isSnan) nv)
  else if zeroInf then f.nanRes nv
  else
    let p := if negate then (mulVal x y).flip else mulVal x y
    match addVal env.mode p c with
    | .nan _ => f.nanRes nv
    | v => f.ofVal env v

/-- Is x below y, for values that are no NaN; -0 and +0 are equal. -/
def FVal.lt (x y : FVal) : Bool :=
  match x, y with
  | .inf a, .inf b => a && !b
  | .inf a, _ => a
  | _, .inf b => !b
  | .fin n1 m1 e1, .fin n2 m2 e2 =>
    let e := min e1 e2
    let a : Int := (m1 * 2 ^ (e1 - e).toNat : Nat)
    let b : Int := (m2 * 2 ^ (e2 - e).toNat : Nat)
    (if n1 then -a else a) < (if n2 then -b else b)
  | _, _ => false

/-- Are two values equal as numbers; -0 and +0 are equal. -/
def FVal.eqNum (x y : FVal) : Bool := !x.isNan && !y.isNan && !x.lt y && !y.lt x

/-- Is x less than y in the order of minimumNumber, where -0 is less than +0 (R134)? -/
def FVal.below (x y : FVal) : Bool :=
  x.lt y || (x.isZero && y.isZero && x.neg && !y.neg)

/-- An operand's bits as daz leaves them (R134). -/
def FloatFmt.dazBits (f : FloatFmt) (on : Bool) (bits : Nat) : Nat :=
  let v := f.decode bits
  if on && f.subnormal v then f.signed v.neg 0 else bits % 2 ^ f.width

/-- minimumNumber, or with `isMax` maximumNumber, of two operands' bits (R134). -/
def FloatFmt.minMax (f : FloatFmt) (isMax on : Bool) (bx by' : Nat) : FRes :=
  let xb := f.dazBits on bx
  let yb := f.dazBits on by'
  let x := f.decode xb
  let y := f.decode yb
  let fl := flagIf (x.isSnan || y.isSnan) nv
  if x.isNan && y.isNan then f.nanRes fl
  else if x.isNan then (yb, fl)
  else if y.isNan then (xb, fl)
  else if isMax then (if x.below y then yb else xb, fl)
  else (if y.below x then yb else xb, fl)

/-- The comparisons of `fcmp` (R135), by function code: 0 eq, 1 ne, 2 lt, 3 le, 4 un; with their flag. -/
def fcmp (cc : Nat) (x y : FVal) : Bool × Flags :=
  let un := x.isNan || y.isNan
  let quiet := flagIf (x.isSnan || y.isSnan) nv
  match cc with
  | 0 => (x.eqNum y, quiet)
  | 1 => (!x.eqNum y, quiet)
  | 2 => (!un && x.lt y, flagIf un nv)
  | 3 => (!un && !y.lt x, flagIf un nv)
  | _ => (un, quiet)

/-- The one-hot class mask of `fclass` (R135). -/
def FloatFmt.classOf (f : FloatFmt) (bits : Nat) : Nat :=
  let v := f.decode bits
  match v with
  | .inf n => if n then 2 ^ 0 else 2 ^ 7
  | .nan s => if s then 2 ^ 8 else 2 ^ 9
  | .fin n m _ =>
    if m = 0 then (if n then 2 ^ 3 else 2 ^ 4)
    else if f.subnormal v then (if n then 2 ^ 2 else 2 ^ 5)
    else (if n then 2 ^ 1 else 2 ^ 6)

/-- The generator of R236. -/
def draw64 (s d : Nat) : Nat :=
  let x := (s + (d + 1) * 0x9E3779B97F4A7C15) % 2 ^ 64
  let x := ((x ^^^ (x >>> 30)) * 0xBF58476D1CE4E5B9) % 2 ^ 64
  let x := ((x ^^^ (x >>> 27)) * 0x94D049BB133111EB) % 2 ^ 64
  x ^^^ (x >>> 31)

/-- Draw d of an instruction that captured the seed s (R236). (DESIGN CHOICE, log entry 71) -/
def drawOf (s d : Nat) : Nat := draw64 s d / 2 ^ 32

/-- A block's 32 sums requantised into a scale byte and 32 e4m3 elements (R239, step 3). -/
def requantise (sums : List FVal) : Nat × List Nat :=
  if sums.any (fun v => v.isNan || v.isInf) then (0xFF, sums.map (fun _ => 0x7F))
  else
    let big := sums.foldl (fun acc v => if acc.lt (absV v) then absV v else acc) (.fin false 0 0)
    let x : Int := match big with
      | .fin _ m e => if m = 0 then 127 else scale m e
      | _ => 127
    (x.toNat, sums.map fun v =>
      match v with
      | .fin n m e => (e4m3.ofVal FEnv.nearest (.fin n m (e - (x - 127)))).1
      | _ => 0x7F)
where
  absV : FVal → FVal
    | .fin _ m e => .fin false m e
    | v => v
  /-- clamp(ceil(log2(m × 2^e / 448)) + 127, 0, 254): 448 is 7 × 2^6. -/
  scale (m : Nat) (e : Int) : Int :=
    let k := Nat.log2 m
    -- the least c with m × 2^e ≤ 7 × 2^(c + 6)
    let c0 : Int := (k : Int) + e - 9
    let fits (c : Int) : Bool := FVal.lt (.fin false m e) (.fin false 7 (c + 6)) || FVal.eqNum (.fin false m e) (.fin false 7 (c + 6))
    let c := if fits c0 then c0 else if fits (c0 + 1) then c0 + 1 else c0 + 2
    max 0 (min 254 (c + 127))

/-- An MXFP8 element widened to f32: e4m3 times 2^(X - 127), rounded to nearest-even (R238, R239, step 1). -/
def widenMx (x q : Nat) : FVal :=
  if x = 0xFF then .nan false
  else match e4m3.decode q with
    | .fin n m e => f32.decode (f32.ofVal FEnv.nearest (.fin n m (e + (x : Int) - 127))).1
    | v => v

end Sys2Proof.Machine
end

