-- ==== Sys2Proof/Config.lean ====
section
/-! DEFINITION. What is fixed for the machine (R1 to R3, R148) and the free values: results that the spec leaves to
the hardware. A free value has no body, so nothing can be proved of what it is. -/

namespace Sys2Proof.Config

/-- Dies of a package (R1). -/
def dies : Nat := 16
/-- Clusters of a die, less its spares (R1, R3). -/
def clusters : Nat := 64
/-- Cores of a cluster (R1). -/
def cores : Nat := 8
/-- Slots of a core (R1). -/
def slots : Nat := 16
/-- Cores of a package. -/
def coreCount : Nat := dies * clusters * cores
/-- Virtual functions of a package (R324). -/
def functions : Nat := 64
/-- Reservations of a core (R156). -/
def reservations : Nat := 32
/-- Entries of a cluster's copy table (R186). -/
def copyEntries : Nat := 256
/-- Entries of a cluster's job queue (R208). -/
def jobEntries : Nat := 32
/-- Populated bytes of one HBM stack (R148). -/
def hbmBytes : Nat := 64000000000
/-- Populated bytes of one CXL port in the standard fit (R148). (PRESUMED, log entry 75) -/
def cxlBytes : Nat := 192000000000
/-- The package ID of the running package in a port group before one is given. (PRESUMED, log entry 75) -/
def packageId : Nat := 0

/-- The value of draw `n` of the Lodestar's random source (R116). (DESIGN CHOICE, log entry 7) -/
opaque frameKey : Nat → BitVec 64
/-- Byte `i` of contents that the spec leaves open, at draw `n`: a family's work area as a load sees it (R66), and what a
repair leaves in a stopped core's stores (R365). (DESIGN CHOICE, log entry 8) -/
opaque openByte : Nat → Nat → BitVec 8
/-- The low 32 bits of a home's cycle count at which the lease of claim `n` expires (R76, R84). (DESIGN CHOICE, log entry
78) -/
opaque leaseExpiry : Nat → BitVec 32
/-- The order in which a `.u` reduction or combination `n` pairs its inputs: a choice of index at each step (R180,
R183, R194, R269, R376). (DESIGN CHOICE, log entry 9) -/
opaque pairing : Nat → Nat → Nat
/-- What element `e` of the collective operation `n` draws under stochastic rounding, at every rank alike (R376). (DESIGN
CHOICE, log entry 31) -/
opaque groupDraw : Nat → Nat → BitVec 32
/-- The boot record's bytes, from its entries' results and counts (R401). (DESIGN CHOICE, log entry 8) -/
opaque bootBytes : List (Nat × Nat) → List (BitVec 8)
/-- The plain key pair in a KEYLOAD blob under the device's identity key, or none when its SM3 check fails (R364). (DESIGN
CHOICE, log entry 10) -/
opaque sm2Decrypt : List (BitVec 8) → Option (BitVec 128 × BitVec 128)
/-- The 64 bytes of the signature of an attestation report under the device's identity key (R401). -/
opaque sm2Sign : List (BitVec 8) → BitVec 512
/-- Whether a firmware image's signature verifies under the root key (R400). (DESIGN CHOICE, log entry 10) -/
opaque sm2Verify : List (BitVec 8) → Bool
/-- The package that a scale-out port leads to (R372). (DESIGN CHOICE, log entry 65) -/
opaque portPeer : Nat → Nat
/-- The offset of the package ID in function 0's management page (R372). (DESIGN CHOICE, log entry 65) -/
opaque packageIdOffset : Nat

end Sys2Proof.Config
end

