-- ==== Sys2Proof/Machine/Tab.lean ====
section
/-! DEFINITION. Tables: sparse data by key as a list of pairs in one canonical form (keys strictly rising), the form
of memory and of every indexed store of the machine. A table with a default lists no entry equal to the default. -/

namespace Sys2Proof.Machine

/-- A table: pairs of key and value, keys strictly rising. -/
abbrev Tab (α : Type) := List (Nat × α)

/-- The entry at a key. -/
def Tab.find? {α : Type} : Tab α → Nat → Option α
  | [], _ => none
  | (k, v) :: t, n => if n = k then some v else Tab.find? t n

/-- The table with an entry added or replaced. -/
def Tab.put {α : Type} : Tab α → Nat → α → Tab α
  | [], n, x => [(n, x)]
  | (k, v) :: t, n, x =>
    if n < k then (n, x) :: (k, v) :: t else if n = k then (n, x) :: t else (k, v) :: Tab.put t n x

/-- The table without the entry at a key. -/
def Tab.del {α : Type} (t : Tab α) (n : Nat) : Tab α := t.filter (fun e => e.1 != n)

/-- The value at a key; an unlisted key reads as the default `d`. -/
def Tab.get {α : Type} (t : Tab α) (d : α) (n : Nat) : α := (Tab.find? t n).getD d

/-- The table with a key's value replaced; writing the default removes the entry. -/
def Tab.set {α : Type} [DecidableEq α] (t : Tab α) (d : α) (n : Nat) (x : α) : Tab α :=
  if x = d then Tab.del t n else Tab.put t n x

/-- Are the keys strictly rising, all above a bound (`none` for no bound)? -/
def Tab.rising {α : Type} : Option Nat → Tab α → Bool
  | _, [] => true
  | lo, (k, _) :: t => (match lo with | none => true | some l => l < k) && Tab.rising (some k) t

/-- The canonical form of a table with a default: keys strictly rising, no entry equal to the default. -/
def Tab.wf {α : Type} [DecidableEq α] (t : Tab α) (d : α) : Bool :=
  Tab.rising none t && t.all (fun e => e.2 != d)

/-- The values of a table, in the order of their keys. -/
def Tab.vals {α : Type} (t : Tab α) : List α := t.map Prod.snd

/-- The keys of a table, rising. -/
def Tab.keys {α : Type} (t : Tab α) : List Nat := t.map Prod.fst

/-- Memory: bytes by storage address, in the canonical form; an unlisted address reads 0 (notes/assumptions/1.md). -/
abbrev Memory := Tab (BitVec 8)

/-- The canonical form of memory. (DESIGN CHOICE, log entry 1) -/
def Memory.wf (m : Memory) : Bool := Tab.wf m 0#8

end Sys2Proof.Machine
end

