-- ==== Sys2Proof/Machine/State.lean ====
section
/-! DEFINITION. The state of one Narryn N16 package as plain data: threads, slots, cores, clusters, dies, functions,
families, operations and messages in flight, memory, and the package's own registers; and the state after reset. -/

namespace Sys2Proof.Machine

/-- What will fill an empty register (R34, R85, R86). -/
inductive Fill where
  /-- A load in flight, by its request. -/
  | load (req : Nat)
  /-- An `ldfe`, by its request; `va` is the word's address (R167). -/
  | ldfe (req : Nat) (va : Word)
  /-- The end of a family, into the handle register; the handle value. -/
  | family (h : Word)
  /-- The end of a family, into link local k. -/
  | link (h : Word) (k : Nat)
  /-- The completion of an engine operation; the handle value. -/
  | engine (h : Word)
  /-- The core's divide unit. -/
  | divide
  /-- The predecessor's shared (R77). -/
  | pred
  deriving DecidableEq, Repr

/-- A register's full/empty state (R34). -/
inductive Fe where
  | full
  | pending (f : Fill)
  | empty
  deriving DecidableEq, Repr

/-- A full/empty register: its value while full, and its state. -/
structure FReg where
  val : Word
  st  : Fe
  deriving DecidableEq, Repr

/-- A full register that holds zero: a local at member start (R33). -/
def FReg.zero : FReg := ⟨0#64, .full⟩

/-- A window frame (R110): l0 to l9, lk, the return address and p1 to p7. -/
structure Frame where
  locals : Tab FReg
  lk     : Word
  ret    : Word
  pred   : BitVec 8
  deriving DecidableEq, Repr

/-- Where a thread is (R84, R87, R90, R91, R301). -/
inductive Loc where
  /-- Running or suspended in slot q. -/
  | slot (q : Nat)
  /-- Chained beneath a task in slot q (R301). -/
  | chain (q : Nat)
  /-- In the slot image of slot q, spilled or held in a saved context (R359, R361). -/
  | spilled (q : Nat)
  /-- A record on its way to a core (R90). -/
  | moving (core : Nat)
  /-- A record in a core's run queue. -/
  | runq (core : Nat)
  /-- A record in a core's serial queue. -/
  | serialq (core : Nat)
  /-- A record in its family's parking list; `held` until its queue is restored (R357). -/
  | parked (core : Nat) (held : Bool)
  /-- Claimed and not yet landed at a core (R76). -/
  | claimed (core : Nat)
  /-- Ended, its end report not yet at the family's home (R81). -/
  | ended
  deriving DecidableEq, Repr

/-- Why a slot is not ready (R92), beyond its re-issue distance. -/
inductive Wait where
  | none
  /-- Empty with a fill pending. -/
  | reg (r : Nat)
  /-- A pending vector register (R168). -/
  | vec (v : Nat)
  /-- `n` reservations (R157). -/
  | resv (n : Nat)
  /-- The divide unit (R137). -/
  | divide
  /-- Every load of the thread landed (R86, R107, R112). -/
  | loads
  /-- The release conditions of R164. -/
  | release
  /-- Every store of the thread acknowledged (R107). -/
  | stores
  /-- Every store that the slot issued acknowledged (R118). -/
  | slotStores
  /-- Every earlier instruction of the thread complete, before a fault is taken (R10). -/
  | settle
  /-- The outcome of the acknowledgement of the claim that brought the thread here (R76). -/
  | lease
  /-- An outstanding acquire of the thread (R164). -/
  | acquire
  /-- Every divide-unit operation of the thread landed (R139). -/
  | divided
  /-- Every `stlo.md` of the thread acknowledged (R298). -/
  | markers
  /-- A translation walk (R342). -/
  | walk (w : Nat)
  /-- A code fetch, by its name and the word's address (R19, R154). -/
  | fetch (id : Nat) (va : Word)
  /-- One of the core's two fetch entries (R154). -/
  | fetchEntry
  /-- Tile locks: tiles written and tiles read (R207). -/
  | lock (writes reads : List Nat)
  /-- An entry of the cluster's job queue (R208). -/
  | job
  /-- An entry of the cluster's copy table (R186). -/
  | copy
  /-- Every vector register of the slot landed (R170). -/
  | vectors
  /-- The copies of the thread that read registers v to v + 3 have forked (R220). -/
  | vecRead (v : Nat)
  /-- The home's reply or the answer to an armed wait, by its request (R253, R274, R277, R280). -/
  | reply (req : Nat)
  /-- A wait armed at a family's home (R106). -/
  | family (h : Word)
  /-- A wait armed on an engine operation (R106). -/
  | engine (h : Word)
  /-- The answer to a fault record or a trap (R346, R351). -/
  | answer (record : Nat)
  /-- An act of the package that a `kwr` or `scrb` waits for (R328, R330, R355, R364). -/
  | act
  /-- Frame writes or reads in flight (R112, R113, R115). -/
  | frames
  /-- The core's writes to a descriptor, and its die's egress, are at their home (R375). -/
  | descriptor (a : Nat)
  /-- An entry of the slot's read table without an `ldlo` outstanding (R297). -/
  | readTable
  /-- A helper's claim, by its message (R89). -/
  | claim (id : Nat)
  /-- The withdrawal of a request, before WAITCYCLE with this cause (R303). -/
  | withdraw (req cause : Nat)
  /-- A scrub that runs in the package (R330). -/
  | scrub
  /-- Nothing outstanding at all: a fence of this scope (R260). -/
  | fence (scope : Nat)
  deriving DecidableEq, Repr

/-- How a thread ended. -/
inductive Ended where
  | ret
  /-- `brk`, with its value's low 56 bits (R101). -/
  | brk (v : Nat)
  /-- A fault, by its code and cause (R81). -/
  | fault (code cause : Nat)
  | killed
  deriving DecidableEq, Repr

/-- A thread: a member of a family, with everything that its continuation record and entry header hold (R84). -/
structure Thread where
  vf      : Nat
  queue   : Nat
  /-- The family it belongs to, by the number fk = function × 2^24 + family identifier. -/
  fam     : Nat
  /-- Its position k in the family's range. -/
  k       : Nat
  /-- l0 to l9, sh0 to sh3, dp0 to dp3, by register number; an unlisted one is full and zero. -/
  regs    : Tab FReg
  globals : Tab Word
  ix      : Word
  fh      : Word
  lk      : Word
  pc      : Word
  /-- p7 to p1 in bits [7:1]; bit 0 is not read. -/
  pred    : BitVec 8
  fctl    : BitVec 5
  fstat   : BitVec 5
  srseed  : Word
  adoptMax : Nat
  mdsup   : Bool
  vfsel   : Nat
  ansrec  : Word
  ansval  : Word
  setl0   : Bool
  ansact  : Nat
  ansres  : Nat
  assignRes : Nat
  serial  : Bool
  /-- Pinned by a vector write (R169). -/
  vpin    : Bool
  /-- Its own window depth (R111). -/
  depth   : Nat
  loc     : Loc
  wait    : Wait
  /-- A kill has reached it (R61). -/
  killed  : Bool
  /-- Set when it has ended. -/
  ended   : Option Ended
  /-- The egress boundary of its last fence or acquire at package scope: message numbers below it lie before (R262). -/
  boundary : Nat
  /-- The families it created that have not ended (R83), by handle. -/
  made    : List Word
  /-- The threads that it ran to their end as a helper (R81). -/
  helped  : List Nat
  /-- The lock or full/empty request that it helps for, by its request (R302). -/
  helpReq : Option Nat
  /-- Its last claim as a helper came to nothing: the instruction waits now (R171, R300). -/
  noHelp  : Bool
  /-- Fills that landed while it was at a nonzero depth, newest first: the fill, the register and the value (R86, R113). -/
  landed  : List (Fill × Nat × Word)
  /-- For each of its frames, newest first, the next name at the call: what the frame waits on has a lower one (R113). -/
  calls   : List Nat
  /-- Stores of its core's other slots that it has read from the data cache and that their homes have not yet
  acknowledged, by their requests (R259, R261). -/
  seen    : List Nat
  /-- An `hwait` waits for the operation that fills its own register (R106). -/
  ownWait : Bool
  /-- Registers that an `hwait` on a handle value empties once its wait is over (R106). -/
  owes    : List Nat
  /-- The data cache is to be emptied when it resumes (R153). -/
  emptyCache : Bool
  /-- The address at which its record or vectors could not be read back: it meets MACHINE(3) at its next turn (R346). -/
  lost    : Option Nat
  deriving DecidableEq, Repr

/-- A thread that does not exist; a member starts from it. -/
def Thread.blank : Thread where
  vf := 0
  queue := 0
  fam := 0
  k := 0
  regs := []
  globals := []
  ix := 0#64
  fh := 0#64
  lk := 0#64
  pc := 0#64
  pred := 0#8
  fctl := 1#5
  fstat := 0#5
  srseed := 0#64
  adoptMax := 4
  mdsup := false
  vfsel := 0
  ansrec := 0#64
  ansval := 0#64
  setl0 := false
  ansact := 0
  ansres := 0
  assignRes := 0
  serial := false
  vpin := false
  depth := 0
  loc := .ended
  wait := .none
  killed := false
  ended := none
  boundary := 0
  made := []
  helped := []
  helpReq := none
  noHelp := false
  landed := []
  calls := []
  seen := []
  ownWait := false
  owes := []
  emptyCache := false
  lost := none

/-- An entry of a slot's read table (R297). -/
structure ReadEntry where
  cell : Nat
  num  : Nat
  deriving DecidableEq, Repr

/-- A slot of a core (R92 to R95). -/
structure Slot where
  occ      : Option Nat
  /-- The helpers chained beneath the occupant, nearest first (R301). -/
  chain    : List Nat
  vecs     : Tab VWord
  /-- How many lines or results each pending vector register still waits for (R168). -/
  vpend    : Tab Nat
  /-- Most recently used first (R297). -/
  readTab  : List ReadEntry
  qowner   : Nat
  frameKey : Word
  /-- Resident frames, newest first, at most 8 (R111). -/
  frames   : List Frame
  /-- How many of them, from the oldest, are being written to their spill places (R112, R115). -/
  flushing : Nat
  /-- An idle-turn spill met a fault: none further until the next call or `ret` (R155). -/
  noSpill  : Bool
  /-- Removed from the rotation for pre-emption (R356). -/
  removed  : Bool
  nextAt   : Nat
  /-- The instruction buffer: its base and eight words (R117). -/
  ibuf     : Option (Nat × List (BitVec 32))
  /-- A member on its way to this slot (R71, R76). -/
  reserved : Option Nat
  deriving DecidableEq, Repr

/-- An empty slot. -/
def Slot.blank : Slot where
  occ := none
  chain := []
  vecs := []
  vpend := []
  readTab := []
  qowner := 0
  frameKey := 0#64
  frames := []
  flushing := 0
  noSpill := false
  removed := false
  nextAt := 0
  ibuf := none
  reserved := none

/-- A line of a cache: the storage address of its 64 bytes, and the bytes, lowest address lowest. -/
structure Line where
  tag  : Nat
  data : VWord
  deriving DecidableEq, Repr

/-- A cache of lines by set × ways + way, with each set's pseudo-LRU tree bits (R150, R154). -/
structure Cache where
  lines : Tab Line
  plru  : Tab Nat
  deriving DecidableEq, Repr

def Cache.empty : Cache := ⟨[], []⟩

/-- A translation held in a TLB (R341): function, virtual base, size, physical base, what it allows, and its marks. -/
structure Trans where
  vf   : Nat
  va   : Nat
  size : Nat
  pa   : Nat
  r    : Bool
  w    : Bool
  x    : Bool
  lo   : Bool
  enc  : Bool
  key  : Nat
  deriving DecidableEq, Repr

/-- A TLB by entry, or set × ways + way, with its pseudo-LRU trees (R341). -/
structure Tlb where
  entries : Tab Trans
  plru    : Tab Nat
  deriving DecidableEq, Repr

def Tlb.empty : Tlb := ⟨[], []⟩

/-- The operation in a core's divide unit (R137): its thread, destination, result and flags. -/
structure DivOp where
  thread : Nat
  slot   : Nat
  /-- A general register, or a vector register when `vec`. -/
  rd     : Nat
  vec    : Bool
  val    : VWord
  flags  : BitVec 5
  deriving DecidableEq, Repr

/-- A family entry of a deque (R74): the handle and the insertion age. -/
structure DqEntry where
  h   : Word
  fam : Nat
  age : Nat
  deriving DecidableEq, Repr

/-- A store of the latest-only store queue (R288). -/
structure LoStore where
  cell   : Nat
  va     : Word
  val    : Word
  num    : Nat
  md     : Bool
  /-- The key slot of its page. -/
  key    : Option Nat
  thread : Nat
  slot   : Nat
  /-- The threads whose older stores to the cell it superseded in the queue: what they have written waits for it (R266). -/
  also   : List Nat := []
  /-- Its place in issue order among the machine's names. -/
  queued : Nat
  /-- The request that carries it, once sent. -/
  sent   : Option Nat
  pc     : Word
  deriving DecidableEq, Repr

/-- A core: what its slots share. -/
structure Core where
  tshape : Tab Word
  tmeta  : Tab Word
  /-- Write locks and reader counts of t0 to t7 (R207). -/
  wlock  : Tab Nat
  readers : Tab Nat
  dcache : Cache
  icache : Cache
  utlb   : Tlb
  div    : Option DivOp
  /-- Slots that wait for the divide unit, in issue order (R137). -/
  divWait : List Nat
  deque  : List DqEntry
  runq   : List Nat
  serialq : List Nat
  last   : Nat
  cycle  : Nat
  loq    : List LoStore
  /-- Pass value of each queue in the slot arbiter, by function × 16 + queue (R314), and the queues with demand. -/
  pass   : Tab Nat
  demand : List Nat
  /-- Slots that wait for reservations, first short first (R157). -/
  resvWait : List Nat
  /-- Removed slots that the spill engine is to spill in idle turns (R357). -/
  spillDue : List Nat
  /-- Free slots that the spill engine took from a removed queue (R357). -/
  lent     : List Nat
  stopped : Bool
  gated   : Bool
  /-- A gating request waits (R76). -/
  gateReq : Bool
  deriving DecidableEq, Repr

/-- A core at reset. (DESIGN CHOICE, log entry 2) -/
def Core.blank : Core where
  tshape := []
  tmeta := []
  wlock := []
  readers := []
  dcache := Cache.empty
  icache := Cache.empty
  utlb := Tlb.empty
  div := none
  divWait := []
  deque := []
  runq := []
  serialq := []
  last := 15
  cycle := 0
  loq := []
  pass := []
  demand := []
  resvWait := []
  spillDue := []
  lent := []
  stopped := false
  gated := false
  gateReq := false

/-- A fault of a chunk or row (R195, R212): code, cause, failed address, side, chunk. -/
structure ChunkFault where
  code  : Nat
  cause : Nat
  va    : Word
  dest  : Bool
  level : Nat
  deriving DecidableEq, Repr

/-- A chunk or row of an engine operation, once it has passed its check phase (R190, R212): where its destination bytes
go, as runs of storage address, count, virtual address and key slot, and the bytes read. -/
structure Chunk where
  runs : List (Nat × Nat × Word × Option Nat)
  data : List Byte
  /-- It has begun its write phase; how many of its bytes have been written. -/
  begun : Bool := false
  done : Nat := 0
  deriving DecidableEq, Repr

/-- The collective group that an `allred` captured (R374, R375): descriptor, gid, sequence, ranks, rank and map. -/
structure Group where
  desc  : Word
  gid   : Nat
  seq   : Nat
  ranks : Nat
  rank  : Nat
  map   : List Nat
  deriving DecidableEq, Repr

/-- An operation of the copy unit (R186 to R201) or a collective (R375 to R379), with everything captured at issue. -/
structure CopyOp where
  h      : Word
  /-- func[7:0]. -/
  op     : Nat
  vf     : Nat
  queue  : Nat
  level  : Nat
  core   : Nat
  thread : Nat
  issuer : Word
  dst    : Word
  src    : Word
  /-- The size, or the row size. -/
  size   : Nat
  /-- A row operation's index vector: its register and what it held at issue. -/
  vreg   : Nat
  idx    : VWord
  fmt    : Nat
  mode   : Nat
  daz    : Bool
  ftz    : Bool
  seed   : Nat
  forked : Bool
  /-- Requests of the thread with numbers below this one came before it (R199); of a launch's copy, its place in the order
  of admissions (R394). -/
  before : Nat
  /-- The clock of its die, and its thread's egress boundary, at the fork (R262 to R264). -/
  clock  : List Nat := []
  bound  : Nat := 0
  /-- Requests of other `.u` operations that carry its elements (R194), each with the chunk that they are of. -/
  carried : List (Nat × Nat) := []
  /-- Chunks checked and not yet written, by chunk or lane number. -/
  chunks : Tab Chunk
  /-- The lowest chunk or live lane that has not begun its write phase (R191). -/
  cursor : Nat
  /-- The lowest chunk that met a fault; of a lost rank, the cursor (R379). -/
  fault  : Option (Nat × ChunkFault)
  /-- The record whose answer a suspended operation awaits. -/
  record : Option Nat
  /-- 0 running; 2 cancelled; 3 aborted: the status that it ends with (R189). -/
  stop   : Nat
  rd     : Nat
  waiters : List Nat
  group  : Option Group
  /-- The packet that it runs for: queue and number (R309). -/
  packet : Option (Nat × Nat)
  deriving DecidableEq, Repr

/-- What a tile or matrix job does (R214 to R226). -/
inductive JobKind where
  | tld | tst | tzero | tmov | mma | mmaQ | sca | mmaSp | prune
  deriving DecidableEq, Repr

/-- A tile or matrix job (R206 to R213), with everything captured at admission. -/
structure Job where
  h      : Word
  kind   : JobKind
  /-- The tile numbers of its fields D, A and B, and its option bits. -/
  d      : Nat
  a      : Nat
  b      : Nat
  opt    : Nat
  vf     : Nat
  queue  : Nat
  level  : Nat
  core   : Nat
  thread : Nat
  issuer : Word
  slot   : Nat
  rd     : Nat
  /-- It runs on the array lane; else on the tile-transfer lane. -/
  array  : Bool
  writes : List Nat
  reads  : List Nat
  shapes : Tab Word
  metas  : Tab Word
  base   : Word
  stride : Word
  mode   : Nat
  daz    : Bool
  ftz    : Bool
  seed   : Nat
  scale  : Word
  /-- v0 to v3 of an `mma.q`'s column corrections. -/
  colsum : List VWord
  forked : Bool
  /-- Requests of the thread with numbers below this one came before it (R210). -/
  before : Nat
  /-- The clock of its die, and its thread's egress boundary, at the fork (R262 to R264). -/
  clock  : List Nat := []
  bound  : Nat := 0
  /-- Its place among the die's array jobs in the order in which they were ready to start (R321). -/
  ready  : Option Nat := none
  started : Bool
  rows   : Tab Chunk
  cursor : Nat
  fault  : Option (Nat × ChunkFault)
  record : Option Nat
  stop   : Nat
  /-- Once it has ended on its lane: its completion word. -/
  ended  : Option Word
  waiters : List Nat
  deriving DecidableEq, Repr

/-- A group of the cluster's atomic combiner (R271): the location, operation, width and members. -/
structure Combine where
  addr : Nat
  reqs : List Nat
  deriving DecidableEq, Repr

/-- A cluster: its copy unit, matrix engine, TLB and combiner. -/
structure Cluster where
  copies  : Tab CopyOp
  copyGen : Tab Nat
  copyWait : List Nat
  jobs    : List (Nat × Job)
  jobGen  : Tab Nat
  jobWait : List Nat
  tlb     : Tlb
  groups  : List Combine
  predictor : List (Nat × Nat)
  /-- Removed from the rotation under repair, and the spare mapped in (R365). -/
  removed : Bool
  spare   : Option Nat
  deriving DecidableEq, Repr

/-- A cluster at reset. -/
def Cluster.blank : Cluster where
  copies := []
  copyGen := []
  copyWait := []
  jobs := []
  jobGen := []
  jobWait := []
  tlb := Tlb.empty
  groups := []
  predictor := []
  removed := false
  spare := none

/-- A die: its vector clock (R263), Snowplough (R321), and the spare clusters not in use (R3). -/
structure Die where
  clock   : List Nat
  /-- The clusters whose array lane runs a filler (R322). -/
  fillers : List Nat
  /-- How many lanes may still fall, and array jobs start, in this step of four cycles. -/
  falls   : Nat
  grants  : Nat
  /-- How many array jobs have been ready to start so far (R321). -/
  readied : Nat
  spares  : List Nat
  deriving DecidableEq, Repr

/-- A die at reset. -/
def Die.blank : Die where
  clock := List.replicate 16 0
  fillers := []
  falls := 1
  grants := 1
  readied := 0
  spares := [64, 65]

/-- What a request asks of a home (R156, R162, R166, R182, R251, R268, R274, R277, R280, R287, R309). -/
inductive ReqKind where
  /-- A scalar load of the line that holds its bytes. -/
  | load
  /-- A line for a pending vector register. -/
  | vload
  | store
  /-- An atomic, by its func[5:0] (R267). -/
  | atom (op : Nat)
  | ldfe
  | stfe
  | tkget
  | tkwait
  | tkadv
  /-- `waiteq` (true) or `waitne`. -/
  | wait (eq : Bool)
  | lkacq
  | lkrel
  | barJoin
  | barArrive
  | barDrop
  /-- `hacc`: `.u` or `.o`, and f32 or i32. -/
  | hacc (u f : Bool)
  | ldlo
  /-- `stlo`, or `stlo.md`. -/
  | stlo (md : Bool)
  /-- A WAIT_SEQ of queue `q`: W ≥ v (true) or W = v (R309). -/
  | waitSeq (q : Nat) (ge : Bool)
  /-- A window frame on its way to its spill place, or back (R112, R113, R115). -/
  | frameWrite
  | frameRead
  /-- One element of a reducing copy: its format, its ⊕, and whether it may be combined on its way (R194). -/
  | red (fmt oper : Nat) (free : Bool)
  deriving DecidableEq, Repr

/-- Where a request is on its way. -/
inductive Phase where
  /-- A load on its way to its die's egress (R262), an atomic in the combiner (R271), or an `ldlo` held by its core
  (R296). -/
  | egress
  /-- At the ingress of its home die, held while its clock names an unapplied write (R263). -/
  | ingress
  /-- At its home, to be served. -/
  | home
  /-- Armed or queued at its home; the "armed" reply is on its way. -/
  | arming
  /-- Armed or queued at its home; the "armed" reply has landed. -/
  | armed
  /-- Withdrawn at its home; the acknowledgement is on its way (R303). -/
  | withdrawn
  /-- Its reply, acknowledgement or answer is on its way. -/
  | replied
  /-- Its reply brought a fault; it stands until the record is answered, and its thread issues it again (R346, R350). -/
  | faulted (record : Nat)
  deriving DecidableEq, Repr

/-- A request in flight, from its issue until its reply or acknowledgement has landed. -/
structure Req where
  kind   : ReqKind
  phase  : Phase
  vf     : Nat
  /-- The issuing core, and the slot it issued from. -/
  core   : Nat
  slot   : Nat
  thread : Option Nat
  /-- The storage address and virtual address of its bytes, and how many they are. -/
  addr   : Nat
  va     : Word
  size   : Nat
  /-- It reached a latest-only page. -/
  lo     : Bool
  key    : Option Nat
  /-- A reply fills the data cache unless `stale`. -/
  install : Bool
  stale  : Bool
  resv   : Bool
  /-- Destination registers: a general one, or a vector register; and the C register of `ldlo`, or the chunk or row of an
  engine's write. -/
  rd     : Nat
  rc     : Nat
  signed : Bool
  /-- Operand B (or v, or the owner tag) and operand C. -/
  opB    : Word
  opC    : Word
  keys   : VWord
  vals   : VWord
  scope  : Nat
  acq    : Bool
  rel    : Bool
  mode   : Nat
  seed   : Word
  /-- Lanes of a vector load: byte offset in the register, byte offset in the line, width. -/
  lanes  : List (Nat × Nat × Nat)
  /-- A store's bytes; a reply's bytes. -/
  data   : List Byte
  /-- Bytes that the egress laid over the reply, by offset in the line (R262). -/
  laid   : Tab Byte
  flags  : BitVec 5
  err    : Option (Nat × Nat)
  /-- A latest-only number; the outcome of a latest-only store (0 applied, 1 superseded, 2 out of window). -/
  num    : Nat
  outcome : Nat
  /-- The write's place among its die's inter-die writes, and the clock it carries (R263). -/
  place  : Nat
  clock  : List Nat
  /-- The places of the writes that were discarded for it in transit, by die (R266, R295). -/
  absorbed : List (Nat × Nat)
  /-- The engine operation whose write it is, by its handle (R262, R264). -/
  engine : Option Word
  /-- Writes with numbers below this lie before the thread's package-scope boundary (R262). -/
  bound  : Nat
  /-- When it was armed. -/
  order  : Nat
  pc     : Word
  /-- The combiner group it joined (R271). -/
  group  : Option Nat
  /-- A reply of a level-2 launch whose fixed time has come (R320). -/
  freed  : Bool
  /-- Its place in issue order where it left later than it issued: held in the core (R288, R296), or issued again (R350);
  0 where its own name is that place. -/
  born   : Nat
  /-- What the wait, lock or barrier instruction consumed, by register (R10, R24). -/
  undo   : List (Nat × Word)
  deriving DecidableEq, Repr

/-- A request with every field zero. -/
def Req.blank : Req where
  kind := .load
  phase := .home
  vf := 0
  core := 0
  slot := 0
  thread := none
  addr := 0
  va := 0#64
  size := 0
  lo := false
  key := none
  install := false
  stale := false
  resv := false
  rd := 27
  rc := 27
  signed := false
  opB := 0#64
  opC := 0#64
  keys := 0#512
  vals := 0#512
  scope := 0
  acq := false
  rel := false
  mode := 0
  seed := 0#64
  lanes := []
  data := []
  laid := []
  flags := 0#5
  err := none
  num := 0
  outcome := 0
  place := 0
  clock := []
  absorbed := []
  engine := none
  bound := 0
  order := 0
  pc := 0#64
  group := none
  freed := false
  born := 0
  undo := []

/-- Messages of the families' homes, of the cores' start logic and of the handles. -/
inductive Msg where
  /-- A claim on its way to the family's home: by a core for a free slot, or by a helper; a tag's member. -/
  | claim (fam core slot : Nat) (helper want : Option Nat)
  /-- A claimed record on its way to a slot (R76). -/
  | landing (thread core slot : Nat) (helper : Option Nat)
  /-- The acknowledgement of a claim, by the claim's name. -/
  | ack (fam thread claim : Nat)
  /-- A value for dp i of member k, or the news that it stays empty (R77, R79); the core it comes from. -/
  | dep (fam k i : Nat) (v : Option Word) (core : Nat)
  /-- The filling act of a family's end at its creator (R59). -/
  | fill (h : Word) (thread : Nat)
  /-- A wait armed by `hwait` on its way to the family's home (R106). -/
  | arm (h : Word) (thread : Nat)
  /-- The answer to such a wait. -/
  | answer (h : Word) (thread : Nat)
  /-- A break or fault of member k (R60, R81). -/
  | brk (fam k : Nat) (how : Ended)
  /-- A kill on its way to a family's home (R82). -/
  | kill (fam gen : Nat)
  /-- A kill on its way to a thread (R61). -/
  | killThread (thread : Nat)
  /-- An end report (R81). -/
  | report (fam thread : Nat)
  /-- A migrating record (R90). -/
  | move (thread core : Nat) (serial : Bool)
  /-- The fill of an engine handle (R200), with its completion word. -/
  | engine (h : Word) (word : Word) (thread rd : Nat)
  /-- An answer on its way to a record's holder (R350): action, setl0 and the value. -/
  | reply (record action : Nat) (setl0 : Bool) (val : Word)
  deriving DecidableEq, Repr

/-- A barrier's state at its home, by its phase word's storage address (R279): tags with their leads. -/
structure Barrier where
  addr    : Nat
  leads   : List (Word × Nat)
  arrived : Nat
  early1  : Nat
  early2  : Nat
  deriving DecidableEq, Repr

/-- To whom a family's end is delivered (R59, R98, R313). -/
inductive Deliver where
  /-- To no one. -/
  | nobody
  /-- To the creator: its thread, handle register and link registers by link number. -/
  | thread (uid rd : Nat) (links : List (Nat × Nat))
  /-- To packet n of queue q. -/
  | packet (q n : Nat)
  deriving DecidableEq, Repr

/-- A claim not yet acknowledged (R76): its name, the core, the claim's slot and helper, the parked record as it rested,
and the low 32 bits of the home's cycle count at which the lease expires (R84). -/
structure Claim where
  id     : Nat
  core   : Nat
  slot   : Nat
  helper : Option Nat
  record : Option Thread
  expiry : Nat
  deriving DecidableEq, Repr

/-- A family: its descriptor and work area (R66 to R69, R75). -/
structure Family where
  alloc   : Bool
  gen     : Nat
  vf      : Nat
  queue   : Nat
  level   : Nat
  globals : List Word
  first   : Nat
  count   : Nat
  step    : Nat
  body    : Word
  config  : Word
  creator : Word
  progress : Nat
  /-- The lowest k that broke or faulted, and how. -/
  broken  : Option (Nat × Ended)
  killed  : Bool
  /-- The fixed end: the completion word (R82). -/
  fixed   : Option Word
  filled  : Bool
  /-- Link results, once the end is fixed. -/
  results : List Word
  /-- The core that the place is taken from, the resolved place and the block size. -/
  origin  : Nat
  place   : Nat
  block   : Nat
  /-- Dependents of members not yet landed (R75), by 4 × k + i. -/
  work    : Tab FReg
  /-- Shareds as they landed at the home, by 4 × k + i; `none` stays empty. -/
  shared  : Tab (Option Word)
  /-- Pass-through stubs (R79), by 4 × k + i, with their core. -/
  stubs   : Tab Nat
  returned : List Nat
  /-- Claims not yet acknowledged (R76), by thread. -/
  claims  : Tab Claim
  /-- Parked members, ascending k (R300). -/
  parked  : List Nat
  /-- Members that count as ended (R81). -/
  endedK  : List Nat
  /-- Armed `hwait`s. -/
  waiters : List Nat
  deliver : Deliver
  fctl    : BitVec 5
  srseed  : Word
  adoptMax : Nat
  links   : List Nat
  /-- The image of its launch (R316): base and length. -/
  image   : Nat × Nat
  /-- The family of its launch, by fk (R319). -/
  launch  : Nat
  /-- The clock that the family's home has learned from what reached it (R263, R264). -/
  clock   : List Nat
  deriving DecidableEq, Repr

/-- An arena entry that has never been allocated. -/
def Family.blank : Family where
  alloc := false
  gen := 0
  vf := 0
  queue := 0
  level := 0
  globals := []
  first := 0
  count := 0
  step := 0
  body := 0#64
  config := 0#64
  creator := 0#64
  progress := 0
  broken := none
  killed := false
  fixed := none
  filled := false
  results := []
  origin := 0
  place := 0
  block := 0
  work := []
  shared := []
  stubs := []
  returned := []
  claims := []
  parked := []
  endedK := []
  waiters := []
  deliver := .nobody
  fctl := 1#5
  srseed := 0#64
  adoptMax := 4
  links := []
  image := (0, 0)
  launch := 0
  clock := []

/-- A packet read from a ring and not complete (R308, R309). -/
structure Packet where
  words : List Word
  /-- 0 read requested, 1 landed, 2 started, 3 complete. -/
  stage : Nat
  /-- The steps of an admission that are done (R312); a gang launch's stage (R381). -/
  admission : Nat
  /-- A LAUNCH's record as it was read, and its launch core (R311, R312). -/
  record : List Byte
  core  : Nat
  fam   : Option Nat
  copy  : Option (Nat × Nat)
  /-- The packets that a FENCE waits for, by queue and number (R309). -/
  after : List (Nat × Nat)
  deriving DecidableEq, Repr

/-- A launch queue (R306, R307). -/
structure Queue where
  base     : Word
  control  : Word
  tail     : Word
  head     : Word
  done     : Word
  doneaddr : Word
  error    : Word
  packets  : Tab Packet
  deriving DecidableEq, Repr

/-- A launch queue at reset. -/
def Queue.blank : Queue := ⟨0#64, 0x80#64, 0#64, 0#64, 0#64, 0#64, 0#64, []⟩

/-- What a saved context holds beside memory images (R361): held slots, cores' records, copies and jobs. -/
structure Saved where
  slots   : Tab Slot
  cores   : Tab Core
  copies  : Tab (Tab CopyOp)
  jobs    : Tab (List (Nat × Job))
  deriving DecidableEq, Repr

/-- A virtual function's context (R306, R315, R335, R336, R370, R380). -/
structure Func where
  prot    : Bool
  enable  : Bool
  det     : Nat
  ctxroot : Word
  arena   : Word
  slotarea : Word
  fqbase  : Word
  fqctl   : Word
  fqhead  : Word
  fqtail  : Word
  frames  : Word
  ctximg  : Word
  keyResult : Nat
  queues  : Tab Queue
  /-- Promises, most recently used first: image base, length, promise (R315). -/
  promises : List (Nat × Nat × Nat)
  /-- The SET_DETs in progress, oldest first: queue and packet (R318). -/
  setDet  : List (Nat × Nat)
  ansrec  : Word
  ansval  : Word
  ansres  : Nat
  notify  : Word
  gangdesc : Word
  gangctl : Word
  gangstat : Word
  /-- The gang launch under way: queue and packet (R381). -/
  gang    : Option (Nat × Nat)
  /-- PREPARED and REFUSED messages received at the coordinator: gid, rank, and the packages that were lost then. -/
  gangIn  : List (Nat × Nat × List Nat)
  gangNo  : List (Nat × Nat × List Nat)
  /-- Aborts received before the launch: gid, named rank and package, and the packages that were lost then. -/
  aborts  : List (Nat × Nat × Nat × List Nat)
  /-- Group numbers of the coordinator's aborted launches, until it is armed again. -/
  gangDead : List Nat
  /-- Queues removed from the rotation (R356). -/
  removed : List Nat
  /-- Slots whose images lie in their slot areas, to return when their queue does (R359). -/
  spills  : Tab Slot
  /-- Slots that a context image brought back, each to return once its slot is free (R361). -/
  loaded  : Tab Slot
  saved   : Option Saved
  deriving DecidableEq, Repr

/-- A function's context at reset (R336). -/
def Func.blank : Func where
  prot := false
  enable := false
  det := 0
  ctxroot := 0#64
  arena := 0#64
  slotarea := 0#64
  fqbase := 0#64
  fqctl := 6#64
  fqhead := 0#64
  fqtail := 0#64
  frames := 0#64
  ctximg := 0#64
  keyResult := 0
  queues := []
  promises := []
  setDet := []
  ansrec := 0#64
  ansval := 0#64
  ansres := 0
  notify := 0#64
  gangdesc := 0#64
  gangctl := 0#64
  gangstat := 0#64
  gang := none
  gangIn := []
  gangNo := []
  aborts := []
  gangDead := []
  removed := []
  spills := []
  loaded := []
  saved := none

/-- What an access needs of a page (R340). -/
inductive Acc where
  | load
  | store
  /-- An atomic, `ldfe`, `stfe`, wait, ticket, lock or barrier operation. -/
  | both
  | fetch
  deriving DecidableEq, Repr

/-- What a walk found (R339). -/
inductive Found where
  /-- A leaf; with the ACCESS cause of a later check that it fails, if any. -/
  | leaf (t : Trans) (refused : Option Nat)
  | fault (code cause level : Nat)
  deriving DecidableEq, Repr

/-- A walk in flight (R342): function, page, the joined threads with their accesses and addresses, and the result. -/
structure Walk where
  vf     : Nat
  page   : Nat
  die    : Nat
  /-- The cluster whose miss it is. -/
  cluster : Nat
  joined : List (Nat × Acc × Word)
  /-- A `tlbinv` matched it: it installs nothing (R345). -/
  drop   : Bool
  result : Option Found
  deriving DecidableEq, Repr

/-- A code fetch in one of a core's two fetch entries (R154). -/
structure Fetch where
  core : Nat
  addr : Nat
  vf   : Nat
  key  : Option Nat
  deriving DecidableEq, Repr

/-- Who holds a fault record's answer (R350). -/
inductive Holder where
  | none
  | thread (uid : Nat)
  | copy (cluster entry : Nat)
  | job (cluster entry : Nat)
  deriving DecidableEq, Repr

/-- Where a fault record stands. -/
inductive Stage where
  /-- Before the hardware paging service (R354). -/
  | service
  /-- Held while the page-fault duty drains (R403). -/
  | held
  /-- Waiting to be claimed (R349). -/
  | unclaimed
  /-- Written with its sequence number; awaits an answer. -/
  | written (seq : Nat)
  /-- Answered; the answer is on its way. -/
  | answered (seq : Nat)
  deriving DecidableEq, Repr

/-- A fault record (R347): the function whose queue it enters, and its fields. -/
structure Record where
  queue  : Nat
  src    : Nat
  kind   : Nat
  die    : Nat
  body   : List Word
  /-- Its place among its die's counted events, and the die's clock (R263, R349). -/
  place  : Nat := 0
  clock  : List Nat := []
  holder : Holder
  awaits : Bool
  stage  : Stage
  /-- The page that a PAGE(2) met: its address and level. -/
  page   : Nat
  level  : Nat
  deriving DecidableEq, Repr

/-- An entry of the resource table (R327). -/
structure Res where
  owner : Option Nat
  clean : Bool
  deriving DecidableEq, Repr

/-- A resource that nothing owns. -/
def Res.free : Res := ⟨none, true⟩

/-- A region of a scrub descriptor: entry i's two dwords (R329). -/
structure ScrubRegion where
  map  : Word
  base : Word
  deriving DecidableEq, Repr

/-- The boot-record scrub entry (R330), with the completion word's storage address. -/
structure Scrub where
  vf      : Nat
  count   : Nat
  done    : Option (Nat × Option Nat)
  regions : List ScrubRegion
  next    : Nat
  /-- The bytes of the current region that the engine has passed. -/
  passed  : Nat
  owed    : Bool
  /-- It came while the duty drained, and waits for the new mode (R403). -/
  held    : Bool
  /-- The boot record kept it through a reset, and step 5 of the start is to take it up (R334). -/
  kept    : Bool
  deriving DecidableEq, Repr

/-- An action of `kwr PREEMPT` under way (R355): the writing thread, and what it does. -/
structure Preempt where
  thread : Nat
  vf     : Nat
  queues : List Nat
  action : Nat
  /-- The address of the thread's `kwr` (R346). -/
  pc     : Word
  deriving DecidableEq, Repr

/-- A duty register (R402). -/
structure Duty where
  draining : Bool
  cur      : Bool
  req      : Bool
  deriving DecidableEq, Repr

/-- A peer package (R372). -/
structure Peer where
  lost       : Bool
  unanswered : Nat
  deriving DecidableEq, Repr

/-- What this rank knows of one chunk of a collective operation (R376): contributions by logical rank, each with its
operation, format, size and mode, and whether this rank's has gone up the tree. -/
structure CollPart where
  op   : Nat
  fmt  : Nat
  size : Nat
  mode : Nat
  data : List Byte
  deriving DecidableEq, Repr
structure CollChunk where
  parts  : Tab CollPart
  sent   : Bool
  /-- The combined contribution that went up the tree, and the result that the destination takes. -/
  up     : List Byte
  result : Option (List Byte)
  deriving DecidableEq, Repr

/-- A repair under way (R365, R402): the stopped core, and what the Lodestar waits for. -/
structure Repair where
  core  : Nat
  /-- The slots whose state fails its checks, and how many threads have ended. -/
  bad   : Nat
  ended : Nat
  /-- It came while the duty drained, and waits for the new mode (R403). -/
  held  : Bool
  /-- Its record is written, and it waits for the host's choice (R402). -/
  asked : Bool
  deriving DecidableEq, Repr

/-- An access of the host that die 0 applies in its order (R369): a write of device memory or of its own, or of a field of
the management space. -/
inductive HostAct where
  /-- `len` bytes of `v` at an address. -/
  | memory (wr : Bool) (addr len v : Nat)
  | management (off : Nat) (w : Word)
  | answer (vf : Nat) (w : Word)
  | tail (vf q : Nat) (w : Word)
  | control (vf q : Nat) (w : Word)
  | gangctl (vf : Nat) (w : Word)
  | duty (n : Nat) (w : Word)
  | assign (w : Word)
  | slotq (w : Word)
  | spill (w : Word)
  | scrubGo (w : Word)
  | repair (w : Word)
  | bootclr (w : Word)
  | attest (w : Word)
  | peerAdmit (pkg : Nat)
  | image (len v sig version : Nat)
  deriving DecidableEq, Repr

/-- The package's own registers, stores and agents. -/
structure Package where
  res      : Tab Res
  keys     : Tab (BitVec 256)
  preempt  : Option Preempt
  pstat    : Word
  scrub    : Option Scrub
  scrubPos : Word
  /-- Result and attempts of each start step (R398). -/
  boot     : Tab (Nat × Nat)
  /-- The next start step; 15 when the start is done. -/
  bootNext : Nat
  halt     : Bool
  haltStep : Nat
  starts   : Nat
  trips    : Nat
  duties   : List Duty
  pwrcap   : Nat
  pwrstat  : Word
  throttle : Bool
  image    : List Byte
  signature : List Byte
  version  : Nat
  fuse     : Nat
  assignRes : Nat
  ucie     : List Bool
  cxl      : List Bool
  /-- CXL ports whose aperture is populated. -/
  cxlFit   : List Bool
  ports    : List Bool
  pkgId    : Nat
  peers    : Tab Peer
  /-- Collective chunks, by group × 2^96 + sequence × 2^32 + chunk. -/
  coll     : Tab CollChunk
  repairs  : List Repair
  /-- Regions that the host has reported zeroed (R402), and cores named for spill. -/
  scrubGo  : List Nat
  spillGo  : List Nat
  /-- Writes to `slotq` and `spill` that wait for their duty's new mode (R403): the duty and the word. -/
  heldWork : List (Nat × Word)
  /-- Contributions to collectives that wait for duty 5's new mode (R403): group, sequence, chunk and rank. -/
  heldColl : List (Nat × Nat × Nat × Nat × CollPart)
  /-- Accesses of the host behind a write that a CXL link holds, in its order (R369, R371). -/
  hostHeld : List HostAct
  deriving DecidableEq, Repr

/-- The package at reset. (PRESUMED, log entry 67) -/
def Package.blank : Package where
  res := []
  keys := []
  preempt := none
  pstat := 0#64
  scrub := none
  scrubPos := 0#64
  boot := []
  bootNext := 0
  halt := false
  haltStep := 0xFF
  starts := 0
  trips := 0
  duties := List.replicate 6 ⟨false, false, false⟩
  pwrcap := 5200
  pwrstat := 0#64
  throttle := false
  image := []
  signature := []
  version := 0
  fuse := 0
  assignRes := 0
  ucie := List.replicate 4 true
  cxl := List.replicate 8 true
  cxlFit := List.replicate 8 true
  ports := List.replicate 18 true
  pkgId := Config.packageId
  peers := []
  coll := []
  repairs := []
  scrubGo := []
  spillGo := []
  heldWork := []
  heldColl := []
  hostHeld := []

/-- A page that is, or was, mapped latest-only (R290): function, virtual base and size; the frame that holds it, or `none`
while it is away, with the numbers that it left with, by offset. -/
structure LatestPage where
  vf   : Nat
  va   : Nat
  size : Nat
  pa   : Option Nat
  nums : Tab Nat
  deriving DecidableEq, Repr

/-- A coming move: an issue turn of a core, or an event or input. -/
inductive Move where
  | turn (core : Nat)
  | event (i : Instr)
  /-- A part of an event alone: one unit of a chunk's write phase (R190) or of a scrub (R331). -/
  | part (i : Instr)
  /-- An uncorrectable error arises in a 64-byte unit (R346), by address ÷ 64. -/
  | upset (unit : Nat)
  deriving DecidableEq, Repr

/-- The machine. (DESIGN CHOICE, log entry 73) -/
structure State where
  /-- Memory's bytes by storage address; an unlisted one reads 0. -/
  mem      : Memory
  /-- Latest-only sequence numbers by cell; an unlisted one is 0 (R290). -/
  nums     : Tab Nat
  /-- The latest-only pages (R290). -/
  latest   : List LatestPage
  /-- Units in which an uncorrectable error stands (R346), by address ÷ 64. -/
  bad      : List Nat
  /-- Dirty local-store regions (R363), by 2^40 + core × 4 + region, and vault granules, by
  (die × 64 + cluster) × 64 + granule. -/
  dirty    : Tab Bool
  threads  : Tab Thread
  slots    : Tab Slot
  cores    : Tab Core
  clusters : Tab Cluster
  dies     : Tab Die
  reqs     : Tab Req
  msgs     : Tab Msg
  /-- The core that a fill on its way is bound for, by its message (R87). -/
  bound    : Tab Nat
  /-- The clock that a message carries (R263, R264), by the message. -/
  carried  : Tab (List Nat)
  barriers : List Barrier
  families : Tab Family
  funcs    : Tab Func
  walks    : Tab Walk
  fetches  : Tab Fetch
  records  : Tab Record
  pkg      : Package
  /-- The model's own: the order of coming moves. -/
  agenda   : List Move
  /-- The model's own: the slot whose thread executes. -/
  me       : Nat
  /-- The model's own: the count of free values drawn. -/
  fresh    : Nat
  /-- The model's own: the next name of a thread, request or message. -/
  nextId   : Nat
  deriving DecidableEq, Repr

/-- Reasons for which the machine stops. -/
inductive Fault where
  /-- An instruction was to execute and the slot holds no thread: raised by `exec` alone, never by `step`. Safe. -/
  | noThread
  deriving DecidableEq, Repr

/-- Reasons for which the model gives no meaning. -/
inductive Refusal where
  /-- An instruction that is not modelled yet, by its mnemonic: raised by `exec`. Safe. -/
  | notModelled (mnemonic : String)
  deriving DecidableEq, Repr

/-- The machine right after reset: nothing has started, and no start step has run (R397). (DESIGN CHOICE, log entry 2)
(DEDUCED, log entry 4) (DESIGN CHOICE, log entry 73) -/
def State.reset : State where
  mem := []
  nums := []
  latest := []
  bad := []
  dirty := []
  threads := []
  slots := []
  cores := []
  clusters := []
  dies := []
  reqs := []
  msgs := []
  bound := []
  carried := []
  barriers := []
  families := []
  funcs := []
  walks := []
  fetches := []
  records := []
  pkg := Package.blank
  agenda := []
  me := 0
  fresh := 0
  nextId := 1

end Sys2Proof.Machine
end

