-- ==== Sys2Proof/Machine/Access.lean ====
section
/-! DEFINITION. Access to the parts of the state: threads, slots, cores, clusters, dies, functions, queues, families,
requests and messages, each with the one way of replacing it. -/

namespace Sys2Proof.Machine

/-- The outcome of an instruction or step. -/
abbrev Out := Host.Outcome State Fault Refusal

/-- A core's number within the package: die × 512 + cluster × 8 + core. -/
def coreOfSlot (q : Nat) : Nat := q / 16
def slotOfSlot (q : Nat) : Nat := q % 16
def clusterOfCore (c : Nat) : Nat := c / 8
def dieOfCore (c : Nat) : Nat := c / 512
def dieOfCluster (c : Nat) : Nat := c / 64

def State.threadAt (s : State) (u : Nat) : Thread := s.threads.get Thread.blank u
def State.putThread (s : State) (u : Nat) (t : Thread) : State := { s with threads := s.threads.put u t }
def State.modThread (s : State) (u : Nat) (f : Thread → Thread) : State := s.putThread u (f (s.threadAt u))

def State.slotAt (s : State) (q : Nat) : Slot := s.slots.get Slot.blank q
def State.putSlot (s : State) (q : Nat) (x : Slot) : State := { s with slots := s.slots.put q x }
def State.modSlot (s : State) (q : Nat) (f : Slot → Slot) : State := s.putSlot q (f (s.slotAt q))

def State.coreAt (s : State) (c : Nat) : Core := s.cores.get Core.blank c
def State.putCore (s : State) (c : Nat) (x : Core) : State := { s with cores := s.cores.put c x }
def State.modCore (s : State) (c : Nat) (f : Core → Core) : State := s.putCore c (f (s.coreAt c))

def State.clusterAt (s : State) (c : Nat) : Cluster := s.clusters.get Cluster.blank c
def State.modCluster (s : State) (c : Nat) (f : Cluster → Cluster) : State :=
  { s with clusters := s.clusters.put c (f (s.clusterAt c)) }

def State.dieAt (s : State) (d : Nat) : Die := s.dies.get Die.blank d
def State.modDie (s : State) (d : Nat) (f : Die → Die) : State := { s with dies := s.dies.put d (f (s.dieAt d)) }

def State.funcAt (s : State) (f : Nat) : Func := s.funcs.get Func.blank f
def State.modFunc (s : State) (n : Nat) (f : Func → Func) : State :=
  { s with funcs := s.funcs.put n (f (s.funcAt n)) }

def Func.queueAt (f : Func) (q : Nat) : Queue := f.queues.get Queue.blank q
def State.queueAt (s : State) (vf q : Nat) : Queue := (s.funcAt vf).queueAt q
def State.modQueue (s : State) (vf q : Nat) (f : Queue → Queue) : State :=
  s.modFunc vf (fun x => { x with queues := x.queues.put q (f (x.queueAt q)) })

/-- A family by its number: function × 2^24 + identifier. -/
def State.famAt (s : State) (fk : Nat) : Family := s.families.get Family.blank fk
def State.modFam (s : State) (fk : Nat) (f : Family → Family) : State :=
  { s with families := s.families.put fk (f (s.famAt fk)) }

def State.modPkg (s : State) (f : Package → Package) : State := { s with pkg := f s.pkg }

def State.reqAt? (s : State) (id : Nat) : Option Req := s.reqs.find? id
def State.putReq (s : State) (id : Nat) (r : Req) : State := { s with reqs := s.reqs.put id r }
def State.modReq (s : State) (id : Nat) (f : Req → Req) : State :=
  match s.reqs.find? id with
  | some r => s.putReq id (f r)
  | none => s
def State.delReq (s : State) (id : Nat) : State := { s with reqs := s.reqs.del id }
/-- A new request, under the next name. -/
def State.addReq (s : State) (r : Req) : State := { s.putReq s.nextId r with nextId := s.nextId + 1 }
/-- Replaces every request. -/
def State.mapReqs (s : State) (f : Req → Req) : State := { s with reqs := s.reqs.map (fun e => (e.1, f e.2)) }

def State.msgAt? (s : State) (id : Nat) : Option Msg := s.msgs.find? id
/-- A new message, under the next name. -/
def State.send (s : State) (m : Msg) : State := { s with msgs := s.msgs.put s.nextId m, nextId := s.nextId + 1 }
/-- A new message that carries a clock (R263, R264). -/
def State.sendWith (s : State) (c : List Nat) (m : Msg) : State := { s.send m with carried := s.carried.put s.nextId c }
def State.sendAll (s : State) (ms : List Msg) : State := ms.foldl State.send s
def State.putMsg (s : State) (id : Nat) (m : Msg) : State := { s with msgs := s.msgs.put id m }
def State.delMsg (s : State) (id : Nat) : State := { s with msgs := s.msgs.del id, bound := s.bound.del id, carried := s.carried.del id }
/-- The clock that a message carries. -/
def State.carriedBy (s : State) (id : Nat) : List Nat := s.carried.get [] id

def State.clockOf (s : State) (die : Nat) : List Nat := (s.dieAt die).clock
/-- Counts a write through a die's egress, or a record's event: its place among the die's inter-die writes (R263). -/
def State.countWrite (s : State) (die : Nat) : State × Nat :=
  let n := (s.clockOf die).getD die 0 + 1
  (s.modDie die (fun d => { d with clock := d.clock.set die n }), n)
/-- A new fault record, under the next name, with its event's place in the causal order (R349). -/
def State.addRecord (s : State) (r : Record) : State :=
  let c := s.countWrite r.die
  { c.1 with records := s.records.put s.nextId { r with place := c.2, clock := c.1.clockOf r.die }, nextId := s.nextId + 1 }
def State.modRecord (s : State) (id : Nat) (f : Record → Record) : State :=
  match s.records.find? id with
  | some r => { s with records := s.records.put id (f r) }
  | none => s

/-- The thread that executes. -/
def State.uid? (s : State) : Option Nat := (s.slotAt s.me).occ
def State.uid (s : State) : Nat := s.uid?.getD 0
def State.cur (s : State) : Thread := s.threadAt s.uid
def State.modCur (s : State) (f : Thread → Thread) : State := s.modThread s.uid f
/-- The core, cluster and die on which it executes. -/
def State.myCore (s : State) : Nat := coreOfSlot s.me
def State.myCluster (s : State) : Nat := clusterOfCore s.myCore
def State.myDie (s : State) : Nat := dieOfCore s.myCore
def State.mySlot (s : State) : Slot := s.slotAt s.me

/-- Draws the number of a free value. (DESIGN CHOICE, log entry 7) -/
def State.draw (s : State) : State := { s with fresh := s.fresh + 1 }

/-- The slot that a thread is in or chained beneath, or none. -/
def Thread.slot? (t : Thread) : Option Nat :=
  match t.loc with
  | .slot q => some q
  | .chain q => some q
  | _ => none

/-- The core where a thread is, or was claimed for; 0 for one parked or ended. -/
def Thread.core (t : Thread) : Nat :=
  match t.loc with
  | .slot q => coreOfSlot q
  | .chain q => coreOfSlot q
  | .moving c => c
  | .runq c => c
  | .serialq c => c
  | .claimed c => c
  | .parked c _ => c
  | .spilled q => coreOfSlot q
  | .ended => 0

/-- The window depths of every thread in a slot (R111). -/
def State.slotDepth (s : State) (q : Nat) : Nat :=
  let x := s.slotAt q
  ((x.occ.toList ++ x.chain).map (fun u => (s.threadAt u).depth)).sum

/-- Is a core out of every place for good: stopped, with no repair to come (R365)? -/
def State.coreGone (s : State) (c : Nat) : Bool := (s.coreAt c).stopped && !(s.clusterAt (clusterOfCore c)).removed
/-- Is a core stopped and under repair? -/
def State.coreMending (s : State) (c : Nat) : Bool := (s.coreAt c).stopped && (s.clusterAt (clusterOfCore c)).removed

/-- Helpers chained beneath the occupant (R298). -/
def State.chainDepth (s : State) (q : Nat) : Nat := (s.slotAt q).chain.length

/-- SLOTID.pinned (R95): at a nonzero window depth (R111), or by a vector write (R169). -/
def Thread.pinned (t : Thread) : Bool := t.depth != 0 || t.vpin

/-- A thread's family number splits into function and identifier (R84). -/
def famIdOf (fk : Nat) : Nat := fk % 2 ^ 24
/-- The identity dword: family identifier and member index (R84, R347). -/
def Thread.identity (t : Thread) : Word := word (famIdOf t.fam * 2 ^ 40 + t.ix.toNat % 2 ^ 40)
/-- The owner tag: family identifier and k + 1 (R276). -/
def Thread.tag (t : Thread) : Word := word (famIdOf t.fam * 2 ^ 40 + (t.k + 1) % 2 ^ 40)

/-- A location dword: die, cluster, core and slot (R66). -/
def locationWord (q : Nat) : Word := word (q % 2 ^ 17)

end Sys2Proof.Machine
end

