-- ==== Sys2Proof/Machine/Crypto.lean ====
section
/-! DEFINITION. The named standards that the spec uses: the SM3 hash (frame keys R116, launch records R311,
attestation R401) and SM4-XTS line encryption (R364). Their algorithms are PRESUMED: the spec names the standards
and does not restate them. -/

namespace Sys2Proof.Machine

/-- A 32-bit number rotated left. -/
def rotl32 (x n : Nat) : Nat := (x * 2 ^ (n % 32) ||| x / 2 ^ (32 - n % 32)) % 2 ^ 32

/-- Big-endian 32-bit words of a list of bytes given as numbers. -/
def beWords : List Nat → List Nat
  | a :: b :: c :: d :: rest => (a * 2 ^ 24 + b * 2 ^ 16 + c * 2 ^ 8 + d) :: beWords rest
  | _ => []

/-- The four bytes of a 32-bit word, most significant first. -/
def beBytes (x : Nat) : List Nat := [x / 2 ^ 24 % 256, x / 2 ^ 16 % 256, x / 2 ^ 8 % 256, x % 256]

/-- A message of SM3 with its padding. -/
def sm3Pad (msg : List Nat) : List Nat :=
  let n := msg.length
  msg ++ [0x80] ++ List.replicate ((119 - n % 64) % 64) 0 ++
    beBytes (8 * n / 2 ^ 32) ++ beBytes (8 * n % 2 ^ 32)

/-- The permutation P0 of SM3. -/
def sm3P0 (x : Nat) : Nat := x ^^^ rotl32 x 9 ^^^ rotl32 x 17

/-- The permutation P1 of SM3. -/
def sm3P1 (x : Nat) : Nat := x ^^^ rotl32 x 15 ^^^ rotl32 x 23

/-- The message expansion of SM3: `k` further words. -/
def sm3Expand : Nat → List Nat → List Nat
  | 0, w => w
  | k + 1, w =>
    let n := w.length
    let g (i : Nat) : Nat := w.getD (n - i) 0
    sm3Expand k (w ++ [sm3P1 (g 16 ^^^ g 9 ^^^ rotl32 (g 3) 15) ^^^ rotl32 (g 13) 7 ^^^ g 6])

/-- One round of SM3's compression. -/
def sm3Round (w : List Nat) (j : Nat) (v : List Nat) : List Nat :=
  match v with
  | [a, b, c, d, e, f, g, h] =>
    let t := if j < 16 then 0x79CC4519 else 0x7A879D8A
    let ss1 := rotl32 ((rotl32 a 12 + e + rotl32 t j) % 2 ^ 32) 7
    let ss2 := ss1 ^^^ rotl32 a 12
    let ff := if j < 16 then a ^^^ b ^^^ c else (a &&& b) ||| (a &&& c) ||| (b &&& c)
    let gg := if j < 16 then e ^^^ f ^^^ g else (e &&& f) ||| ((2 ^ 32 - 1 - e) &&& g)
    let tt1 := (ff + d + ss2 + (w.getD j 0 ^^^ w.getD (j + 4) 0)) % 2 ^ 32
    let tt2 := (gg + h + ss1 + w.getD j 0) % 2 ^ 32
    [tt1, a, rotl32 b 9, c, sm3P0 tt2, e, rotl32 f 19, g]
  | v => v

/-- The rounds of SM3's compression from round `j` on. -/
def sm3Rounds (w : List Nat) : Nat → Nat → List Nat → List Nat
  | 0, _, v => v
  | k + 1, j, v => sm3Rounds w k (j + 1) (sm3Round w j v)

/-- SM3's compression of `k` blocks of 16 words. -/
def sm3Blocks : Nat → List Nat → List Nat → List Nat
  | 0, _, v => v
  | k + 1, ws, v =>
    let w := sm3Expand 52 (ws.take 16)
    sm3Blocks k (ws.drop 16) (List.zipWith (· ^^^ ·) v (sm3Rounds w 64 0 v))

/-- SM3 of a list of bytes: 32 bytes, first byte first. (PRESUMED, log entry 11) -/
def sm3 (msg : List Byte) : List Byte :=
  let padded := sm3Pad (msg.map BitVec.toNat)
  let iv := [0x7380166F, 0x4914B2B9, 0x172442D7, 0xDA8A0600, 0xA96F30BC, 0x163138AA, 0xE38DEE4D, 0xB0FB0E4E]
  ((sm3Blocks (padded.length / 64) (beWords padded) iv).flatMap beBytes).map (BitVec.ofNat 8)

/-- SM4's substitution table. -/
def sm4Sbox : List Nat :=
  [0xD6, 0x90, 0xE9, 0xFE, 0xCC, 0xE1, 0x3D, 0xB7, 0x16, 0xB6, 0x14, 0xC2, 0x28, 0xFB, 0x2C, 0x05] ++
  [0x2B, 0x67, 0x9A, 0x76, 0x2A, 0xBE, 0x04, 0xC3, 0xAA, 0x44, 0x13, 0x26, 0x49, 0x86, 0x06, 0x99] ++
  [0x9C, 0x42, 0x50, 0xF4, 0x91, 0xEF, 0x98, 0x7A, 0x33, 0x54, 0x0B, 0x43, 0xED, 0xCF, 0xAC, 0x62] ++
  [0xE4, 0xB3, 0x1C, 0xA9, 0xC9, 0x08, 0xE8, 0x95, 0x80, 0xDF, 0x94, 0xFA, 0x75, 0x8F, 0x3F, 0xA6] ++
  [0x47, 0x07, 0xA7, 0xFC, 0xF3, 0x73, 0x17, 0xBA, 0x83, 0x59, 0x3C, 0x19, 0xE6, 0x85, 0x4F, 0xA8] ++
  [0x68, 0x6B, 0x81, 0xB2, 0x71, 0x64, 0xDA, 0x8B, 0xF8, 0xEB, 0x0F, 0x4B, 0x70, 0x56, 0x9D, 0x35] ++
  [0x1E, 0x24, 0x0E, 0x5E, 0x63, 0x58, 0xD1, 0xA2, 0x25, 0x22, 0x7C, 0x3B, 0x01, 0x21, 0x78, 0x87] ++
  [0xD4, 0x00, 0x46, 0x57, 0x9F, 0xD3, 0x27, 0x52, 0x4C, 0x36, 0x02, 0xE7, 0xA0, 0xC4, 0xC8, 0x9E] ++
  [0xEA, 0xBF, 0x8A, 0xD2, 0x40, 0xC7, 0x38, 0xB5, 0xA3, 0xF7, 0xF2, 0xCE, 0xF9, 0x61, 0x15, 0xA1] ++
  [0xE0, 0xAE, 0x5D, 0xA4, 0x9B, 0x34, 0x1A, 0x55, 0xAD, 0x93, 0x32, 0x30, 0xF5, 0x8C, 0xB1, 0xE3] ++
  [0x1D, 0xF6, 0xE2, 0x2E, 0x82, 0x66, 0xCA, 0x60, 0xC0, 0x29, 0x23, 0xAB, 0x0D, 0x53, 0x4E, 0x6F] ++
  [0xD5, 0xDB, 0x37, 0x45, 0xDE, 0xFD, 0x8E, 0x2F, 0x03, 0xFF, 0x6A, 0x72, 0x6D, 0x6C, 0x5B, 0x51] ++
  [0x8D, 0x1B, 0xAF, 0x92, 0xBB, 0xDD, 0xBC, 0x7F, 0x11, 0xD9, 0x5C, 0x41, 0x1F, 0x10, 0x5A, 0xD8] ++
  [0x0A, 0xC1, 0x31, 0x88, 0xA5, 0xCD, 0x7B, 0xBD, 0x2D, 0x74, 0xD0, 0x12, 0xB8, 0xE5, 0xB4, 0xB0] ++
  [0x89, 0x69, 0x97, 0x4A, 0x0C, 0x96, 0x77, 0x7E, 0x65, 0xB9, 0xF1, 0x09, 0xC5, 0x6E, 0xC6, 0x84] ++
  [0x18, 0xF0, 0x7D, 0xEC, 0x3A, 0xDC, 0x4D, 0x20, 0x79, 0xEE, 0x5F, 0x3E, 0xD7, 0xCB, 0x39, 0x48]

/-- SM4's nonlinear map of a 32-bit word. -/
def sm4Tau (x : Nat) : Nat :=
  let s (i : Nat) : Nat := sm4Sbox.getD (x / 2 ^ (8 * i) % 256) 0
  s 3 * 2 ^ 24 + s 2 * 2 ^ 16 + s 1 * 2 ^ 8 + s 0

/-- SM4's key schedule: `n` further round keys, newest word last in `k`. -/
def sm4Keys : Nat → Nat → List Nat → List Nat
  | 0, _, _ => []
  | n + 1, i, k =>
    let ck (j : Nat) : Nat := (4 * i + j) * 7 % 256
    let c := ck 0 * 2 ^ 24 + ck 1 * 2 ^ 16 + ck 2 * 2 ^ 8 + ck 3
    let b := sm4Tau (k.getD 1 0 ^^^ k.getD 2 0 ^^^ k.getD 3 0 ^^^ c)
    let r := k.getD 0 0 ^^^ b ^^^ rotl32 b 13 ^^^ rotl32 b 23
    r :: sm4Keys n (i + 1) (k.drop 1 ++ [r])

/-- The 32 round keys of a 16-byte key. -/
def sm4RoundKeys (key : List Nat) : List Nat :=
  sm4Keys 32 0 (List.zipWith (· ^^^ ·) (beWords key) [0xA3B1BAC6, 0x56AA3350, 0x677D9197, 0xB27022DC])

/-- SM4 on one block of 16 bytes; the round keys are given in the order of use. (PRESUMED, log entry 11) -/
def sm4Block (keys : List Nat) (block : List Nat) : List Nat :=
  let out := keys.foldl (fun x rk =>
    let b := sm4Tau (x.getD 1 0 ^^^ x.getD 2 0 ^^^ x.getD 3 0 ^^^ rk)
    x.drop 1 ++ [x.getD 0 0 ^^^ b ^^^ rotl32 b 2 ^^^ rotl32 b 10 ^^^ rotl32 b 18 ^^^ rotl32 b 24]) (beWords block)
  out.reverse.flatMap beBytes

/-- A 128-bit little-endian tweak multiplied by α. -/
def xtsDouble (t : Nat) : Nat := if t < 2 ^ 127 then 2 * t else (2 * t - 2 ^ 128) ^^^ 0x87

/-- A number's 16 bytes, little-endian. -/
def bytes16 (n : Nat) : List Nat := (List.range 16).map (fun i => n / 2 ^ (8 * i) % 256)

/-- The number that bytes hold, little-endian. -/
def leNat : List Nat → Nat
  | [] => 0
  | b :: bs => b + 256 * leNat bs

/-- The blocks of one data unit under SM4-XTS, from the tweak `t` on. -/
def xtsBlocks (keys : List Nat) : Nat → Nat → List Nat → List Nat
  | 0, _, _ => []
  | k + 1, t, bs =>
    let tb := bytes16 t
    let mask := List.zipWith (· ^^^ ·) tb
    mask (sm4Block keys (mask (bs.take 16))) ++ xtsBlocks keys k (xtsDouble t) (bs.drop 16)

/-- R364: one 64-byte line at a physical address under a slot's key pair (K1, K2), enciphered or deciphered. -/
def xtsLine (encipher : Bool) (k1 k2 : BitVec 128) (pa : Nat) (line : List Byte) : List Byte :=
  let keys := sm4RoundKeys (bytes16 k1.toNat)
  let t := leNat (sm4Block (sm4RoundKeys (bytes16 k2.toNat)) (bytes16 (pa / 64)))
  (xtsBlocks (if encipher then keys else keys.reverse) 4 t (line.map BitVec.toNat)).map (BitVec.ofNat 8)

end Sys2Proof.Machine
end

