-- ==== Sys2Proof/Machine/Mem.lean ====
section
/-! DEFINITION. Memory: storage addresses and the physical map (R144 to R149), reading and writing bytes in one canonical
form, encrypted lines (R364), dirty bits (R363), homes, and a write at a home, which answers the waits armed on its
words (R251, R274, R309) and empties the barrier that it names (R279). -/

namespace Sys2Proof.Machine

/-! Storage addresses: a physical address, a vault-window address, or one of the two ranges beyond 2^57. -/

/-- The first byte of the vault window (R144). -/
def vaultBase : Nat := 0x1FFFFFE00000000
/-- The first byte of the local-store window (R144). -/
def localBase : Nat := 0x1FFFFFFFFFD0000
/-- The first byte of the window area (R144). -/
def windowBase : Nat := 0x1FFFFFFFFFFC000
/-- The storage address of a core's local store. (DEDUCED, log entry 3) -/
def localStore (core : Nat) : Nat := 2 ^ 60 + core * 2 ^ 18
/-- The storage address of a core's tile partition (R203). (DEDUCED, log entry 3) -/
def tileStore (core : Nat) : Nat := 2 ^ 61 + core * 2 ^ 17
/-- The storage address of row `r` of tile `t` of a core (R203). -/
def tileRow (core t r : Nat) : Nat := tileStore core + 16384 * t + 256 * r

/-- HBM's populated bytes (R148). -/
def isHbm (pa : Nat) : Bool := pa < 2 ^ 40 && pa % 2 ^ 36 < Config.hbmBytes
/-- The CXL port of an address of the second tier (R148). -/
def cxlPort (pa : Nat) : Nat := pa / 2 ^ 38 % 8
/-- The second tier's range. -/
def inTier2 (pa : Nat) : Bool := 0x20000000000 ≤ pa && pa < 0x40000000000
/-- The second tier's populated bytes (R148, R397): a port whose start step failed has none. -/
def State.isTier2 (s : State) (pa : Nat) : Bool :=
  inTier2 pa && pa % 2 ^ 38 < Config.cxlBytes && s.pkg.cxlFit.getD (cxlPort pa) false
/-- Host memory's range (R148). -/
def isHost (pa : Nat) : Bool := 2 ^ 51 ≤ pa && pa < 2 ^ 52
/-- A populated physical address (R148). -/
def State.populated (s : State) (pa : Nat) : Bool := isHbm pa || s.isTier2 pa || isHost pa
/-- Is every byte of a page populated? -/
def State.pagePopulated (s : State) (pa size : Nat) : Bool :=
  (isHbm pa && isHbm (pa + size - 1) && pa / 2 ^ 36 == (pa + size - 1) / 2 ^ 36) ||
  (s.isTier2 pa && s.isTier2 (pa + size - 1) && cxlPort pa == cxlPort (pa + size - 1)) ||
  (isHost pa && isHost (pa + size - 1))

/-- A storage address in a vault (R147). -/
def isVault (a : Nat) : Bool := vaultBase ≤ a && a < vaultBase + 2 ^ 32
def isLocalStore (a : Nat) : Bool := 2 ^ 60 ≤ a && a < 2 ^ 61
/-- The die, cluster and offset of a vault address (R147). -/
def vaultDie (a : Nat) : Nat := bitsOf a 28 4
def vaultCluster (a : Nat) : Nat := bitsOf a 22 6
def vaultOffset (a : Nat) : Nat := bitsOf a 0 22

/-- The die of a storage address's home (R149). -/
def homeDie (a : Nat) : Nat :=
  if 2 ^ 61 ≤ a then (a - 2 ^ 61) / 2 ^ 17 / 512
  else if 2 ^ 60 ≤ a then (a - 2 ^ 60) / 2 ^ 18 / 512
  else if isVault a then vaultDie a
  else if a < 2 ^ 40 then a / 2 ^ 36
  else if inTier2 a then 2 * cxlPort a
  else 0

/-- A name for the home of a storage address (R149): a vault bank, a streamer, a port streamer, the host protocol, or
a core's local store. -/
def homeOf (a : Nat) : Nat :=
  if 2 ^ 60 ≤ a then 2 ^ 40 + (a - 2 ^ 60) / 2 ^ 18
  else if isVault a then 2 ^ 20 + (vaultDie a * 64 + vaultCluster a) * 8 + bitsOf a 6 3
  else if a < 2 ^ 40 then 2 ^ 32 + a / 2 ^ 36 * 16 + bitsOf a 12 4
  else if inTier2 a then 2 ^ 36 + cxlPort a
  else 2 ^ 38

/-- The line that holds a byte. -/
def lineOf (a : Nat) : Nat := a - a % 64

/-! Bytes. -/

/-- One byte of memory. (DESIGN CHOICE, log entry 1) -/
def State.byteAt (s : State) (a : Nat) : Byte := s.mem.get 0#8 a
/-- `n` bytes of memory from `a` upward. -/
def State.peek (s : State) (a n : Nat) : List Byte := (List.range n).map (fun i => s.byteAt (a + i))
/-- Bytes written into memory from `a` upward. -/
def pokeMem : Tab Byte → Nat → List Byte → Tab Byte
  | m, _, [] => m
  | m, a, b :: bs => pokeMem (m.set 0#8 a b) (a + 1) bs

/-- The dirty bit of an address (R363): a local-store region of 64 KiB, or a vault granule. -/
def dirtyKey (a : Nat) : Option Nat :=
  if isLocalStore a then some (2 ^ 40 + (a - 2 ^ 60) / 2 ^ 18 * 4 + (a - 2 ^ 60) % 2 ^ 18 / 65536)
  else if isVault a then some ((vaultDie a * 64 + vaultCluster a) * 64 + vaultOffset a / 65536)
  else none
/-- Sets the dirty bit of an address. -/
def State.markDirty (s : State) (a : Nat) : State :=
  match dirtyKey a with
  | some k => { s with dirty := s.dirty.set false k true }
  | none => s
/-- Sets the dirty bit of every region that a range touches. -/
def State.markRange (s : State) (a n : Nat) : State :=
  ((List.range (n / 65536)).foldl (fun (s : State) i => s.markDirty (a + 65536 * i)) s).markDirty (a + n - 1)
/-- Writes bytes from `a` upward, setting dirty bits. -/
def State.poke (s : State) (a : Nat) (bs : List Byte) : State :=
  if bs.isEmpty then s else ({ s with mem := pokeMem s.mem a bs }.markDirty a).markRange a bs.length

/-- The plain bytes of a line: a page with `enc` is kept as ciphertext (R364); none when its key slot is empty. -/
def State.readLine (s : State) (key : Option Nat) (l : Nat) : Option (List Byte) :=
  match key with
  | none => some (s.peek l 64)
  | some k => (s.pkg.keys.find? k).map (fun p =>
      xtsLine false (p.extractLsb' 0 128) (p.extractLsb' 128 128) l (s.peek l 64))

/-- A line with bytes replaced, at an offset. -/
def spliceBytes (l : List Byte) (off : Nat) (bs : List Byte) : List Byte :=
  l.take off ++ bs ++ l.drop (off + bs.length)

/-- The runs of a range within single lines: address and length. -/
def lineRuns : Nat → Nat → Nat → List (Nat × Nat)
  | 0, _, _ => []
  | fuel + 1, a, n =>
    if n = 0 then []
    else
      let k := min n (64 - a % 64)
      (a, k) :: lineRuns fuel (a + k) (n - k)
/-- A range cut at line boundaries. -/
def runsOf (a n : Nat) : List (Nat × Nat) := lineRuns (n / 64 + 2) a n

/-- Bytes of a range through the memory controller; none when a key slot is empty. -/
def State.readBytes (s : State) (key : Option Nat) (a n : Nat) : Option (List Byte) :=
  match key with
  | none => some (s.peek a n)
  | some _ => (runsOf a n).foldr (fun r acc =>
      match s.readLine key (lineOf r.1), acc with
      | some l, some rest => some ((l.drop (r.1 % 64)).take r.2 ++ rest)
      | _, _ => none) (some [])

/-- Bytes written within one line through the memory controller. -/
def State.writeRun (s : State) (key : Option Nat) (a : Nat) (bs : List Byte) : State :=
  match key with
  | none => s.poke a bs
  | some k =>
    match s.pkg.keys.find? k, s.readLine key (lineOf a) with
    | some p, some l =>
      s.poke (lineOf a) (xtsLine true (p.extractLsb' 0 128) (p.extractLsb' 128 128) (lineOf a)
        (spliceBytes l (a % 64) bs))
    | _, _ => s

/-- Bytes written through the memory controller, line by line. -/
def State.writeBytes (s : State) (key : Option Nat) (a : Nat) (bs : List Byte) : State :=
  match key with
  | none => s.poke a bs
  | some _ => (runsOf a bs.length).foldl
      (fun (t : State) r => t.writeRun key r.1 ((bs.drop (r.1 - a)).take r.2)) s

/-- Is the page's key slot, if it has one, filled at its controller (R326, R364)? (DEDUCED, log entry 19) -/
def State.keyReady (s : State) (key : Option Nat) : Bool :=
  match key with
  | none => true
  | some k => (s.pkg.keys.find? k).isSome

/-- A dword of a home, plain. -/
def State.dword (s : State) (key : Option Nat) (a : Nat) : Word := word (ofBytes ((s.readBytes key a 8).getD []))
/-- A dword at a physical address outside encrypted pages. -/
def State.dwordAt (s : State) (a : Nat) : Word := word (ofBytes (s.peek a 8))

/-- Does an uncorrectable error stand in a range (R346)? -/
def State.badBytes (s : State) (a n : Nat) : Bool := s.bad.any (fun u => a / 64 ≤ u && u ≤ (a + n - 1) / 64)
/-- An uncorrectable error stands in a range (R346), or a port's link is down (R371). (DESIGN CHOICE, log entry 16) -/
def State.poisoned (s : State) (a n : Nat) : Bool :=
  s.badBytes a n || (inTier2 a && !s.pkg.cxl.getD (cxlPort a) true)

/-! Requests, and the vector clocks of the dies (R263). -/

/-- Does a request of this kind write its word (R254)? -/
def ReqKind.writes : ReqKind → Bool
  | .load => false
  | .vload => false
  | .ldlo => false
  | .wait _ => false
  | .tkwait => false
  | .waitSeq _ _ => false
  | .frameRead => false
  | _ => true
/-- Is a request not yet served at its home? -/
def Req.unserved (r : Req) : Bool := r.phase == .egress || r.phase == .ingress || r.phase == .home
def Req.die (r : Req) : Nat := dieOfCore r.core
/-- Does the request cross dies (R262)? -/
def Req.crosses (r : Req) : Bool := homeDie r.addr != r.die

/-- Vector clocks (R263): the later of two, entry by entry. -/
def joinClocks : List Nat → List Nat → List Nat
  | [], ys => ys
  | xs, [] => xs
  | x :: xs, y :: ys => max x y :: joinClocks xs ys
def State.tellDie (s : State) (die : Nat) (c : List Nat) : State :=
  s.modDie die (fun d => { d with clock := joinClocks d.clock c })
/-- Does a write that has not been applied, or one that was discarded for it in transit, stand in a clock (R263, R295)? -/
def Req.named (r : Req) (clock : List Nat) : Bool :=
  (r.place != 0 && r.place ≤ clock.getD r.die 0) || r.absorbed.any (fun p => p.2 ≤ clock.getD p.1 0)
/-- Has every inter-die write addressed to a die that a clock names been applied, those that `skip` selects apart (R263)? -/
def State.caughtUp (s : State) (die : Nat) (clock : List Nat) (skip : Nat → Req → Bool) : Bool :=
  !s.reqs.any (fun e => !skip e.1 e.2 && e.2.unserved && e.2.kind.writes && homeDie e.2.addr == die && e.2.named clock)
/-- Is it a store that the egress of a die holds, one that its home has not applied? -/
def Req.held (r : Req) (die : Nat) : Bool := r.kind == .store && r.die == die && r.crosses && r.unserved
/-- Has the home of a range that a core reads there applied what the core and its die's egress hold of it, and every write
that the die's clock names (R118, R263)? -/
def State.gathered (s : State) (core a n : Nat) : Bool :=
  s.caughtUp (homeDie a) (s.clockOf (dieOfCore core)) (fun _ _ => false) &&
  !s.reqs.any (fun e => e.2.unserved && e.2.kind.writes && (e.2.core == core || e.2.held (dieOfCore core)) &&
    e.2.addr < a + n && a < e.2.addr + max 1 e.2.size)

/-! A write at a home. -/

/-- Does a wait armed with this request end when the word holds `w` (R251, R274, R309)? -/
def Req.served (r : Req) (w : Word) : Bool :=
  match r.kind with
  | .wait true => w == r.opB
  | .wait false => w != r.opB
  | .tkwait => fieldOf w 0 32 == fieldOf r.opB 0 32
  | .waitSeq _ true => r.opB.toNat ≤ w.toNat
  | .waitSeq _ false => w == r.opB
  | _ => false

/-- Is the request armed at its home? -/
def Req.isArmed (r : Req) : Bool := r.phase == .arming || r.phase == .armed

/-- The waits armed on a dword are answered when its new value satisfies them; `always` answers every `waitne` and
`waiteq` (R289). The answer carries the clock that the home die has then (R263). -/
def State.answerWaits (s : State) (a : Nat) (always : Bool) : State :=
  s.mapReqs (fun r =>
    if r.isArmed && r.addr == a &&
      (r.served (s.dword r.key a) || (always && (r.kind == .wait true || r.kind == .wait false)))
    then { r with phase := .replied, clock := s.clockOf (homeDie a) } else r)

/-- The aligned dwords that a range touches. -/
def dwordsOf (a n : Nat) : List Nat :=
  if n = 0 then [] else (List.range ((a + n - 1) / 8 - a / 8 + 1)).map (fun i => (a / 8 + i) * 8)

/-- The barrier whose phase word a write touches is emptied (R279). -/
def State.emptyBarriers (s : State) (a n : Nat) : State :=
  { s with barriers := s.barriers.filter (fun b => b.addr + 8 ≤ a || a + n ≤ b.addr) }

/-- A record of a store that met an uncorrectable error (R346, R347, kind 0x05). (DESIGN CHOICE, log entry 16) -/
def State.storeError (s : State) (vf : Nat) (va : Word) (a : Nat) : State :=
  s.addRecord { queue := vf, src := vf, kind := 5, die := homeDie a, holder := .none, awaits := false,
                stage := .unclaimed, page := 0, level := 0,
                body := [0#64, word (0x04 + 0x100 + 1 * 2 ^ 18), va, 0#64, word (homeOf a), 0#64] }

/-- A home applies a write: the bytes land, waits are answered in the same step, barriers are emptied, and a unit with
an uncorrectable error is written whole (R152, R251, R274, R279, R346). -/
def State.homeWrite (s : State) (vf : Nat) (va : Word) (key : Option Nat) (a : Nat) (bs : List Byte) : State :=
  let hit := s.bad.any (fun u => a / 64 ≤ u && u ≤ (a + bs.length - 1) / 64)
  let s := if hit then
      let us := s.bad.filter (fun u => a / 64 ≤ u && u ≤ (a + bs.length - 1) / 64)
      (us.foldl (fun (t : State) u => t.poke (u * 64) (List.replicate 64 0#8))
        { s with bad := s.bad.filter (fun u => !us.contains u) }).storeError vf va a
    else s
  let s := (s.writeBytes key a bs).emptyBarriers a bs.length
  (dwordsOf a bs.length).foldl (fun (t : State) d => t.answerWaits d false) s

/-- A write by a barrier instruction to its phase word (R279, R280): waits are answered, the state stays. -/
def State.phaseWrite (s : State) (key : Option Nat) (a : Nat) (w : Word) : State :=
  (s.writeBytes key a (toBytes 8 w.toNat)).answerWaits a false

/-! Writes of the device's own agents. -/

/-- Is the link of a second-tier address's port down (R371)? -/
def State.linkDown (s : State) (a : Nat) : Bool := inTier2 a && !s.pkg.cxl.getD (cxlPort a) true
/-- The name under which writes of the device's own agents stand while a link holds them. -/
def agentName : Word := 0#64
/-- A write of an agent of the device at a home: applied at once, or held behind a link that is down, in order (R371). -/
def State.agentStore (s : State) (vf : Nat) (va : Word) (key : Option Nat) (a : Nat) (bs : List Byte) : State :=
  if s.linkDown a || s.reqs.any (fun e => e.2.engine == some agentName && e.2.unserved && homeOf e.2.addr == homeOf a) then
    s.addReq { Req.blank with
      kind := .store, vf := vf, core := 512 * homeDie a, slot := 16 * 512 * homeDie a, addr := a, va := va, size := bs.length
      key := key, data := bs, engine := some agentName }
  else s.homeWrite vf va key a bs

end Sys2Proof.Machine
end

