-- ==== Sys2Proof/Machine/Cache.lean ====
section
/-! DEFINITION. Caches and TLBs: tree pseudo-LRU, the data cache (R150 to R153), the instruction cache (R154) and the
two levels of TLB (R341). -/

namespace Sys2Proof.Machine

/-! Tree pseudo-LRU over 2^k ways: node 1 is the root, node i has the children 2i and 2i + 1, and a node's bit names
the half that holds the victim. -/

/-- The tree after way `w` has been used. -/
def plruTouch : Nat → Nat → Nat → Nat → Nat
  | 0, _, _, tree => tree
  | k + 1, node, w, tree =>
    let b := bitsOf w k 1
    plruTouch k (2 * node + b) w (putBits tree node 1 (1 - b))
/-- The way that the tree names. -/
def plruVictim : Nat → Nat → Nat → Nat
  | 0, _, _ => 0
  | k + 1, node, tree =>
    let b := bitsOf tree node 1
    b * 2 ^ k + plruVictim k (2 * node + b) tree

/-- The set of a line in 128 sets: address bits [12:6] (R150, R154). -/
def setOf (line : Nat) : Nat := bitsOf line 6 7

/-- The way that holds a line, among `2^k` ways. -/
def Cache.way? (c : Cache) (k line : Nat) : Option Nat :=
  (List.range (2 ^ k)).find? (fun w =>
    match c.lines.find? (setOf line * 2 ^ k + w) with
    | some l => l.tag == line
    | none => false)
/-- A line held, with the tree updated by the hit. (DESIGN CHOICE, log entry 69) -/
def Cache.hit? (c : Cache) (k line : Nat) : Option (VWord × Cache) :=
  match c.way? k line with
  | none => none
  | some w =>
    match c.lines.find? (setOf line * 2 ^ k + w) with
    | none => none
    | some l => some (l.data, { c with plru := c.plru.set 0 (setOf line) (plruTouch k 1 w (c.plru.get 0 (setOf line))) })
/-- A fill: the way that holds the line, else the lowest invalid way, else the victim. (DESIGN CHOICE, log entry 82) -/
def Cache.fill (c : Cache) (k line : Nat) (data : VWord) : Cache :=
  let set := setOf line
  let tree := c.plru.get 0 set
  let w := (c.way? k line).getD
    (((List.range (2 ^ k)).find? (fun w => (c.lines.find? (set * 2 ^ k + w)).isNone)).getD (plruVictim k 1 tree))
  { lines := c.lines.put (set * 2 ^ k + w) ⟨line, data⟩, plru := c.plru.set 0 set (plruTouch k 1 w tree) }
/-- A line becomes invalid. -/
def Cache.drop (c : Cache) (k line : Nat) : Cache :=
  match c.way? k line with
  | some w => { c with lines := c.lines.del (setOf line * 2 ^ k + w) }
  | none => c
/-- Every line becomes invalid. -/
def Cache.clear (c : Cache) : Cache := { c with lines := [] }
/-- Bytes of a valid line are replaced (R152); the tree is not updated. (DESIGN CHOICE, log entry 82) -/
def Cache.update (c : Cache) (k a : Nat) (bs : List Byte) : Cache :=
  match c.way? k (lineOf a) with
  | none => c
  | some w =>
    match c.lines.find? (setOf (lineOf a) * 2 ^ k + w) with
    | none => c
    | some l =>
      let l' : Line := ⟨l.tag, BitVec.ofNat 512 (ofBytes (spliceBytes (toBytes 64 l.data.toNat) (a % 64) bs))⟩
      { c with lines := c.lines.put (setOf (lineOf a) * 2 ^ k + w) l' }

/-- Log2 of the data cache's ways and of the instruction cache's (R150, R154). -/
def dWays : Nat := 3
def iWays : Nat := 2

/-- Every pending fill of a core becomes stale, those that `p` selects (R152, R153, R258). -/
def State.staleFills (s : State) (core : Nat) (p : Req → Bool) : State :=
  s.mapReqs (fun r => if r.core == core && r.install && p r then { r with stale := true } else r)

/-- The core's data cache becomes empty, and its pending fills stale (R153). -/
def State.emptyCache (s : State) (core : Nat) : State :=
  (s.modCore core (fun c => { c with dcache := c.dcache.clear })).staleFills core (fun _ => true)

/-- A line becomes invalid in the core's data cache, and its pending fills stale (R152). -/
def State.dropLine (s : State) (core a : Nat) : State :=
  (s.modCore core (fun c => { c with dcache := c.dcache.drop dWays (lineOf a) })).staleFills core
    (fun r => lineOf r.addr == lineOf a)

/-- A store updates its line where valid, and makes its pending fills stale (R152). -/
def State.storeLine (s : State) (core a : Nat) (bs : List Byte) : State :=
  (s.modCore core (fun c => { c with dcache := c.dcache.update dWays a bs })).staleFills core
    (fun r => lineOf r.addr == lineOf a)

/-! TLBs (R341). -/

/-- Does a translation cover an address of a function and allow the access (R340)? -/
def Trans.covers (t : Trans) (vf va : Nat) : Bool := t.vf == vf && t.va ≤ va && va < t.va + t.size
def Trans.allows (t : Trans) (a : Acc) : Bool :=
  match a with
  | .load => t.r
  | .store => t.w
  | .both => t.r && t.w
  | .fetch => t.x

/-- A hit in the micro-TLB, with its tree updated: 64 entries, fully associative. -/
def Tlb.micro? (t : Tlb) (vf va : Nat) (a : Acc) : Option (Trans × Tlb) :=
  match List.find? (fun e => e.2.covers vf va && e.2.allows a) t.entries with
  | some (i, x) => some (x, { t with plru := t.plru.set 0 0 (plruTouch 6 1 i (t.plru.get 0 0)) })
  | none => none
/-- A fill among the entries from `base`: the lowest invalid one, else the one that the tree names. -/
def Tlb.fillAt (t : Tlb) (k base set : Nat) (x : Trans) : Tlb :=
  let tree := t.plru.get 0 set
  let free := (List.range (2 ^ k)).find? (fun w => (t.entries.find? (base + w)).isNone)
  let w := free.getD (plruVictim k 1 tree)
  { entries := t.entries.put (base + w) x, plru := t.plru.set 0 set (plruTouch k 1 w tree) }
def Tlb.fillMicro (t : Tlb) (x : Trans) : Tlb := t.fillAt 6 0 0 x

/-- The page sizes of R341. -/
def pageSizes : List Nat := [2 ^ 12, 2 ^ 16, 2 ^ 21, 2 ^ 25, 2 ^ 30]
/-- A hit in the cluster TLB: the set (VA ÷ S) mod 256 of each page size S is probed once. -/
def Tlb.cluster? (t : Tlb) (vf va : Nat) (a : Acc) : Option (Trans × Tlb) :=
  let hits := pageSizes.filterMap (fun sz =>
    let set := va / sz % 256
    (List.find? (fun e => e.1 / 8 == set && e.2.size == sz && e.2.covers vf va && e.2.allows a) t.entries).map
      (fun e => (e.2, { t with plru := t.plru.set 0 set (plruTouch 3 1 (e.1 % 8) (t.plru.get 0 set)) })))
  hits.head?
def Tlb.fillCluster (t : Tlb) (x : Trans) : Tlb :=
  let set := x.va / x.size % 256
  t.fillAt 3 (8 * set) set x
/-- Translations are removed. -/
def Tlb.remove (t : Tlb) (p : Trans → Bool) : Tlb := { t with entries := t.entries.filter (fun e => !p e.2) }

end Sys2Proof.Machine
end

