-- ==== Sys2Proof/Machine/Trans.lean ====
section
/-! DEFINITION. The check of an address (R144, R145, R160) and its translation (R338 to R342). -/

namespace Sys2Proof.Machine

/-! Fault codes (R347). -/
def fPAGE : Nat := 0x01
def fACCESS : Nat := 0x02
def fALIGN : Nat := 0x03
def fMACHINE : Nat := 0x04
def fILLEGAL : Nat := 0x05
def fPRIV : Nat := 0x06
def fLINK : Nat := 0x07
def fSHAPE : Nat := 0x08
def fMETA : Nat := 0x09
def fCOPY : Nat := 0x0A
def fFAMILY : Nat := 0x0B
def fDETERM : Nat := 0x0C
def fWAITCYCLE : Nat := 0x0D
def fSEQ : Nat := 0x0E
def fBARRIER : Nat := 0x0F
def fTRAP : Nat := 0x10

/-! The resource table's keys (R327). -/
def resCore (c : Nat) : Nat := c
def resGranule (die cluster g : Nat) : Nat := 2 ^ 20 + (die * 64 + cluster) * 64 + g
def resKey (n : Nat) : Nat := 2 ^ 24 + n
def State.resAt (s : State) (k : Nat) : Res := s.pkg.res.get Res.free k
def State.owns (s : State) (vf k : Nat) : Bool := (s.resAt k).owner == some vf

/-- The regions that an access may reach (R144). -/
inductive Region where
  | space
  | vault
  | store
  deriving DecidableEq, Repr

/-- ARENA's fields (R336): the base, and the bytes of the arena. -/
def Func.arenaBase (f : Func) : Nat := bitsOf f.arena.toNat 8 49 * 256
def Func.arenaEntries (f : Func) : Nat := 2 ^ bitsOf f.arena.toNat 0 5
/-- Does an address lie in a function's descriptor arena (R66, R160)? -/
def State.inArena (s : State) (vf va : Nat) : Bool :=
  let f := s.funcAt vf
  f.arenaBase != 0 && f.arenaBase ≤ va && va < f.arenaBase + 256 * f.arenaEntries

/-- The region of an address of 57 bits, or the ACCESS cause that it meets (R144, R145, R147). -/
def State.region (s : State) (vf va : Nat) : Except (Nat × Nat) Region :=
  if va < 0x1FF000000000000 then .ok .space
  else if isVault va then
    if vaultOffset va ≥ 0x3F0000 then .error (fACCESS, 3)
    else if s.owns vf (resGranule (vaultDie va) (vaultCluster va) (vaultOffset va / 65536)) then .ok .vault
    else .error (fACCESS, 4)
  else if va ≥ windowBase then .error (fACCESS, 3)
  else if va ≥ localBase then .ok .store
  else .error (fACCESS, 2)

/-- Does the access need w (R340)? -/
def Acc.writes : Acc → Bool
  | .store => true
  | .both => true
  | _ => false

/-- Steps 1 to 3 of R160. (DEDUCED, log entry 12) -/
def State.checkVa (s : State) (vf : Nat) (acc : Acc) (align : Nat) (va : Word) : Except (Nat × Nat) Region :=
  if va.toNat ≥ 2 ^ 57 then .error (fACCESS, 1)
  else if va.toNat % align != 0 then .error (fALIGN, 0)
  else
    match s.region vf va.toNat with
    | .error e => .error e
    | .ok r => if acc.writes && s.inArena vf va.toNat then .error (fACCESS, 15) else .ok r

/-- The ACCESS cause of a leaf after its r, w and x (R340). -/
def State.leafRefused (s : State) (vf pa size : Nat) (lo enc : Bool) (key : Nat) : Option Nat :=
  if !s.pagePopulated pa size then some 11
  else if (isHost pa && (lo || enc)) || (!isHost pa && !enc && (s.funcAt vf).prot) then some 12
  else if enc && !s.owns vf (resKey key) then some 13
  else none

/-- The size of a leaf's page (R339). -/
def leafSize (lv : Nat) (span : Bool) : Nat :=
  if lv = 0 then (if span then 2 ^ 16 else 2 ^ 12) else if lv = 1 then (if span then 2 ^ 25 else 2 ^ 21) else 2 ^ 30

/-- The walk from the table `tb` of level `n - 1` down (R339). `write` tells that a joined access needs w
alone, and `both` that one needs r and w; a leaf that passes every check of such an access has d set (R340). -/
def State.walkFrom (s : State) (vf va : Nat) (write both : Bool) : Nat → Nat → State × Found
  | 0, _ => (s, .fault fACCESS 14 0)
  | lv + 1, tb =>
    let at' := tb + 8 * bitsOf va (12 + 9 * lv) 9
    if s.poisoned at' 8 then (s, .fault fMACHINE 1 0) else
    let e := (s.dwordAt at').toNat
    let addr := bitsOf e 12 40 * 4096
    let leaf := bitOf e 1
    let span := bitOf e 7
    let size := leafSize lv span
    if !bitOf e 0 then (s, .fault fPAGE (if bitOf e 9 then 2 else 1) lv)
    else if bitsOf e 59 5 != 0 || bitsOf e 10 2 != 0 || (leaf && lv ≥ 3) || (!leaf && lv == 0) then
      (s, .fault fACCESS 14 0)
    else if leaf then
      if addr % size != 0 then (s, .fault fACCESS 14 0)
      else
        let bad := s.leafRefused vf addr size (bitOf e 5) (bitOf e 6) (bitsOf e 52 7)
        let d := bitOf e 8 || ((write || (both && bitOf e 2)) && bitOf e 3 && bad.isNone)
        let s' := if d && !bitOf e 8 then s.poke at' (toBytes 8 (putBits e 8 1 1)) else s
        (s', .leaf { vf := vf, va := va - va % size, size := size, pa := addr, r := bitOf e 2,
                     w := bitOf e 3 && (d || bad.isSome), x := bitOf e 4, lo := bitOf e 5, enc := bitOf e 6, key := bitsOf e 52 7 } bad)
    else if !isHbm addr then (s, .fault fACCESS 16 0)
    else s.walkFrom vf va write both lv addr

/-! Latest-only pages (R290). -/

/-- Does a latest-only page meet a range of a function's addresses? -/
def LatestPage.meets (e : LatestPage) (vf va n : Nat) : Bool := e.vf == vf && e.va < va + n && va < e.va + e.size
/-- Does its frame meet a range of physical addresses? -/
def LatestPage.inFrame (e : LatestPage) (a n : Nat) : Bool := e.pa.any (fun p => p < a + n && a < p + e.size)
/-- The numbers of the cells of a range, by offset. -/
def State.numsIn (s : State) (a n : Nat) : Tab Nat :=
  (s.nums.filter (fun e => a ≤ e.1 && e.1 < a + n)).map (fun e => (e.1 - a, e.2))
/-- Gives the cells of a range these numbers, by offset, and every other 0. -/
def State.setNums (s : State) (a n : Nat) (t : Tab Nat) : State :=
  { s with nums := t.foldl (fun (m : Tab Nat) e => m.set 0 (a + e.1) e.2) (s.nums.filter (fun e => e.1 < a || a + n ≤ e.1)) }
/-- A latest-only page stands in a frame; its cells take numbers `t` where the frame holds no other latest-only page. -/
def State.latestMapped (s : State) (x : Trans) (t : Tab Nat) : State :=
  let rest := s.latest.filter (fun e => !e.meets x.vf x.va x.size)
  let s := if rest.any (fun e => e.inFrame x.pa x.size) then s else s.setNums x.pa x.size t
  { s with latest := rest ++ [⟨x.vf, x.va, x.size, some x.pa, []⟩] }
/-- A walk finds a page mapped latest-only. Where its frame holds no latest-only page yet, its cells take the numbers that
the page left with, or 0 at its first mapping (R290). (DESIGN CHOICE, log entry 85) -/
def State.latestFound (s : State) (x : Trans) : State :=
  match s.latest.find? (fun e => e.vf == x.vf && e.va == x.va && e.size == x.size) with
  | some e =>
    if e.pa == some x.pa then s
    else
      let t := match e.pa with
        | some p => s.numsIn p e.size
        | none => e.nums
      s.latestMapped x t
  | none => s.latestMapped x []
/-- What a walk's result tells of latest-only pages: one is mapped; or a page is no longer one, for it is mapped without the
attribute, or not mapped and not saved (R290). (DESIGN CHOICE, log entry 85) -/
def State.noteWalk (s : State) (vf va : Nat) (f : Found) : State :=
  match f with
  | .leaf x _ => if x.lo then s.latestFound x else { s with latest := s.latest.filter (fun e => !e.meets vf x.va x.size) }
  | .fault c k _ =>
    if c = fPAGE ∧ k = 1 then { s with latest := s.latest.filter (fun e => e.pa.isSome || !e.meets vf va 1) } else s

/-- A walk for a function and address (R339). (DESIGN CHOICE, log entry 23) -/
def State.walk (s : State) (vf va : Nat) (write both : Bool) : State × Found :=
  match s.walkFrom vf va write both 5 (bitsOf (s.funcAt vf).ctxroot.toNat 12 40 * 4096) with
  | (s, f) => (s.noteWalk vf va f, f)
/-- A latest-only page that its table no longer maps is away, with its numbers (R290). (DESIGN CHOICE, log entry 85) -/
def State.latestLeaves (s : State) (e : LatestPage) : State :=
  match e.pa with
  | none => s
  | some p =>
    let mapped := match (s.walkFrom e.vf e.va false false 5 (bitsOf (s.funcAt e.vf).ctxroot.toNat 12 40 * 4096)).2 with
      | .leaf x _ => x.lo && x.pa == p
      | .fault .. => false
    if mapped then s
    else
      let rest := s.latest.filter (· != e)
      let s' := { s with latest := rest ++ [{ e with pa := none, nums := s.numsIn p e.size }] }
      if rest.any (fun x => x.inFrame p e.size) then s' else s'.setNums p e.size []

/-- What an access makes of a walk's result (R340): the translation, or the fault with its level. -/
def Found.forAcc (f : Found) (acc : Acc) : Except (Nat × Nat × Nat) Trans :=
  match f with
  | .fault c k lv => .error (c, k, lv)
  | .leaf t bad =>
    let needR := acc == .load || acc == .both
    if needR && !t.r then .error (fACCESS, 8, 0)
    else if acc.writes && !t.w then .error (fACCESS, 9, 0)
    else if acc == .fetch && !t.x then .error (fACCESS, 10, 0)
    else
      match bad with
      | some k => .error (fACCESS, k, 0)
      | none => .ok t

/-- Where an access goes: the storage address, whether its page is latest-only, its key slot, and whether the data cache
may hold its line (R144, R150). -/
structure Place where
  addr   : Nat
  lo     : Bool
  key    : Option Nat
  cached : Bool
  deriving DecidableEq, Repr

def Place.isLocal (p : Place) : Bool := isLocalStore p.addr

/-- The place of an address under a translation. -/
def State.placeOf (s : State) (vf va : Nat) (t : Trans) : Place :=
  { addr := t.pa + (va - t.va), lo := t.lo, key := if t.enc then some t.key else none,
    cached := !t.lo && !s.inArena vf va }
def vaultPlace (va : Nat) : Place := ⟨va, false, none, true⟩
def localPlace (core va : Nat) : Place := ⟨localStore core + (va - localBase), false, none, false⟩

/-- A lookup in the micro-TLB and then the cluster TLB of a core (R341). -/
def State.lookup (s : State) (core vf va : Nat) (acc : Acc) : State × Option Trans :=
  match (s.coreAt core).utlb.micro? vf va acc with
  | some (t, tlb) => (s.modCore core (fun c => { c with utlb := tlb }), some t)
  | none =>
    match (s.clusterAt (clusterOfCore core)).tlb.cluster? vf va acc with
    | some (t, tlb) =>
      (((s.modCluster (clusterOfCore core) (fun c => { c with tlb := tlb })).modCore core
        (fun c => { c with utlb := c.utlb.fillMicro t })), some t)
    | none => (s, none)

/-- A thread joins the walk in flight for its page, or starts one (R342). -/
def State.joinWalk (s : State) (u core vf va : Nat) (acc : Acc) : State × Nat :=
  match List.find? (fun e => e.2.vf == vf && e.2.page == va / 4096 && e.2.result.isNone && e.2.die == dieOfCore core)
      s.walks with
  | some (id, w) => ({ s with walks := s.walks.put id { w with joined := w.joined ++ [(u, acc, word va)] } }, id)
  | none =>
    ({ s with walks := s.walks.put s.nextId
                { vf := vf, page := va / 4096, die := dieOfCore core, cluster := clusterOfCore core
                  joined := [(u, acc, word va)], drop := false, result := none },
              nextId := s.nextId + 1 }, s.nextId)

/-- The result of checking and translating an address for a thread. -/
inductive Reach where
  | ok (s : State) (p : Place)
  | miss (s : State) (walk : Nat)
  | fault (code cause : Nat)

/-- The check of R160 and the translation of an access by thread `u` on a core. -/
def State.reach (s : State) (u core vf : Nat) (acc : Acc) (align : Nat) (va : Word) : Reach :=
  match s.checkVa vf acc align va with
  | .error (c, k) => .fault c k
  | .ok .vault => .ok s (vaultPlace va.toNat)
  | .ok .store => .ok s (localPlace core va.toNat)
  | .ok .space =>
    match s.lookup core vf va.toNat acc with
    | (s, some t) => .ok s (s.placeOf vf va.toNat t)
    | (s, none) =>
      match s.joinWalk u core vf va.toNat acc with
      | (s, w) => .miss s w

/-- The check and translation by an engine's agent, through its die's walkers (R184, R190). -/
def State.engineReach (s : State) (core vf : Nat) (acc : Acc) (align : Nat) (va : Word) :
    State × Except (Nat × Nat × Nat) Place :=
  match s.checkVa vf acc align va with
  | .error (c, k) => (s, .error (c, k, 0))
  | .ok .vault => (s, .ok (vaultPlace va.toNat))
  | .ok .store => (s, .ok (localPlace core va.toNat))
  | .ok .space =>
    match s.walk vf va.toNat (acc == .store) (acc == .both) with
    | (s, f) =>
      match f.forAcc acc with
      | .error e => (s, .error e)
      | .ok t => (s, .ok (s.placeOf vf va.toNat t))

end Sys2Proof.Machine
end

