-- ==== Sys2Proof/Machine/Ops.lean ====
section
/-! DEFINITION. The named operations over registers and threads: reading and writing registers, the conditions that
waits stand for, records (R84), a thread's start, end, parking and pop, taking a fault and returning from one. -/

namespace Sys2Proof.Machine

/-! Registers. -/

/-- A full/empty register of a thread (R34). -/
def Thread.reg (t : Thread) (r : Nat) : FReg := t.regs.get FReg.zero r
def Thread.setReg (t : Thread) (r : Nat) (f : FReg) : Thread := { t with regs := t.regs.set FReg.zero r f }
/-- Has the register a full/empty bit (R33)? -/
def hasFe (r : Nat) : Bool := r < 10 || (18 ≤ r && r < 26)
/-- A general register's full/empty state; a register without the bit is full. -/
def Thread.fe (t : Thread) (r : Nat) : Fe := if hasFe r then (t.reg r).st else .full
/-- ws (R33, R111, R146). -/
def wsOf (q depth : Nat) : Word := word (windowBase + 1024 * (slotOfSlot q + 1) - 128 * depth)
/-- A general register's value, for a thread in slot `q` (R33). -/
def Thread.gpr (t : Thread) (q r : Nat) : Word :=
  if hasFe r then (t.reg r).val
  else if r < 18 then t.globals.get 0#64 r
  else if r = 26 then t.ix
  else if r = 28 then t.fh
  else if r = 29 then t.lk
  else if r = 30 then wsOf q t.depth
  else if r = 31 then t.pc
  else 0#64
/-- A general register of the executing thread. -/
def State.gpr (s : State) (r : BitVec 5) : Word := s.cur.gpr s.me r.toNat

/-- Writes a local, full (R34). -/
def State.setLocal (s : State) (u r : Nat) (v : Word) : State := s.modThread u (fun t => t.setReg r ⟨v, .full⟩)
/-- A family's handle (R68). -/
def State.handleOf (s : State) (fk : Nat) : Word :=
  word ((s.funcAt (fk / 2 ^ 24)).arenaBase + 256 * famIdOf fk + (s.famAt fk).gen % 256)
/-- The live member `k` of a family, once it has been claimed. -/
def State.memberAt (s : State) (fk k : Nat) : Option Nat :=
  (List.find? (fun e => e.2.fam == fk && e.2.k == k && e.2.ended.isNone && e.2.fh == s.handleOf fk) s.threads).map
    Prod.fst
/-- A fill leaves, with a clock, for the core where its thread is (R87, R264). -/
def State.sendFill (s : State) (c : List Nat) (u : Nat) (m : Msg) : State :=
  { s.sendWith c m with bound := s.bound.put s.nextId (s.threadAt u).core }
/-- The clock that what a thread sends carries: its die's, and every die's together once it has ended and is nowhere
(R263, R264). -/
def State.clockFrom (s : State) (t : Thread) : List Nat :=
  if t.loc = .ended then s.dies.foldl (fun c d => joinClocks c d.2.clock) [] else s.clockOf (dieOfCore t.core)
/-- A shared's value, or the news that it stays empty, leaves for member `k`: to its slot once it has started, and to the
work area before (R75). A thread whose family has gone sends nothing. -/
def State.sendDep (s : State) (t : Thread) (i : Nat) (v : Option Word) : State :=
  if t.fh != s.handleOf t.fam then s
  else
    match s.memberAt t.fam (t.k + 1) with
    | some u => s.sendFill (s.clockFrom t) u (.dep t.fam (t.k + 1) i v t.core)
    | none => s.sendWith (s.clockFrom t) (.dep t.fam (t.k + 1) i v t.core)

/-- Writes register `n` of thread `u`: a local or shared becomes full, a shared's value leaves for the successor
(R75, R77), lk takes it, z discards it (R33, R34). -/
def State.landGpr (s : State) (u n : Nat) (v : Word) : State :=
  if n < 10 then s.modThread u (fun t => t.setReg n ⟨v, .full⟩)
  else if 18 ≤ n ∧ n < 22 then
    let t := s.threadAt u
    (s.modThread u (fun t => t.setReg n ⟨v, .full⟩)).sendDep t (n - 18) (some v)
  else if n = 29 then s.modThread u (fun t => { t with lk := v })
  else s
/-- Writes a destination of the executing thread. -/
def State.writeGpr (s : State) (r : BitVec 5) (v : Word) : State := s.landGpr s.uid r.toNat v
/-- A local or shared becomes empty with a fill pending; any other register is left (R34). -/
def State.pendGpr (s : State) (r : BitVec 5) (f : Fill) : State :=
  if hasFe r.toNat then s.modCur (fun t => t.setReg r.toNat ⟨0#64, .pending f⟩) else s
/-- A register becomes empty with no fill pending: a consume (R24). -/
def State.emptyGpr (s : State) (r : BitVec 5) : State :=
  if r.toNat < 10 then s.modCur (fun t => t.setReg r.toNat ⟨0#64, .empty⟩) else s

/-- Predicate `p`; p0 reads true (R36). -/
def Thread.getPred (t : Thread) (p : BitVec 3) : Bool := p == 0#3 || t.pred.getLsbD p.toNat
def State.setPred (s : State) (p : BitVec 3) (b : Bool) : State :=
  s.modCur (fun t => { t with pred := BitVec.ofNat 8 (putBits t.pred.toNat p.toNat 1 b.toNat) })

/-- A vector register of the executing slot (R168). -/
def State.vec (s : State) (v : BitVec 5) : VWord := s.mySlot.vecs.get 0#512 v.toNat
/-- Writes a vector register of a slot. -/
def State.putVec (s : State) (q v : Nat) (x : VWord) : State :=
  s.modSlot q (fun l => { l with vecs := l.vecs.set 0#512 v x })
/-- A vector write by the executing thread, which pins it (R169). -/
def State.writeVec (s : State) (v : BitVec 5) (x : VWord) : State :=
  (s.putVec s.me v.toNat x).modCur (fun t => { t with vpin := true })

/-! What a thread has outstanding. -/

/-- A request that a load-like instruction waits for with a register (R86, R112). -/
def ReqKind.isLoad : ReqKind → Bool
  | .load => true
  | .vload => true
  | .atom _ => true
  | .ldfe => true
  | .tkget => true
  | .hacc _ _ => true
  | .ldlo => true
  | _ => false

/-- Has a thread a request in flight that `p` selects? -/
def State.hasReq (s : State) (u : Nat) (p : Req → Bool) : Bool :=
  s.reqs.any (fun e => e.2.thread == some u && p e.2)
/-- Where a request stands in issue order. -/
def Req.issued (id : Nat) (r : Req) : Nat := if r.born = 0 then id else r.born
/-- Has a thread a latest-only store in its core's queue, or one that stands for a store of its own (R266, R288)? -/
def State.hasHeldStore (s : State) (u : Nat) : Bool :=
  s.cores.any (fun e => e.2.loq.any (fun x => x.thread == u || x.also.contains u))
/-- Is it a window frame's request (R112, R113)? -/
def ReqKind.isFrame : ReqKind → Bool
  | .frameWrite => true
  | .frameRead => true
  | _ => false
/-- Has a slot a frame's write or read outstanding? -/
def State.framesOut (s : State) (q : Nat) : Bool := s.reqs.any (fun e => e.2.slot == q && e.2.kind.isFrame)
/-- Every load of the thread has landed; a queued `ldfe` counts as landed (R86, R112, R167). -/
def State.loadsLanded (s : State) (u : Nat) : Bool := !s.hasReq u (fun r => r.kind.isLoad && r.phase != .armed)
/-- Every store of the thread has been acknowledged by its home (R107, R118). -/
def State.storesAcked (s : State) (u : Nat) : Bool :=
  !s.hasReq u (fun r => !r.kind.isLoad && (r.phase != .armed || r.kind == .stfe)) && !s.hasHeldStore u
/-- Is it a write whose acknowledgement a member's end report waits for (R81)? -/
def ReqKind.isWrite : ReqKind → Bool
  | .store => true
  | .atom _ => true
  | .stfe => true
  | .tkget => true
  | .tkadv => true
  | .lkrel => true
  | .hacc _ _ => true
  | .stlo _ => true
  | _ => false
/-- Every store, atomic, `stfe`, `tkadv` and latest-only store of the thread has been acknowledged by its home (R81). -/
def State.writesAcked (s : State) (u : Nat) : Bool := !s.hasReq u (fun r => r.kind.isWrite) && !s.hasHeldStore u
/-- Every store that a slot issued has been acknowledged by its home, whichever thread of it issued the store (R118). -/
def State.slotStoresAcked (s : State) (q : Nat) : Bool :=
  !s.reqs.any (fun e => e.2.slot == q && e.2.thread.isSome && !e.2.kind.isLoad && (e.2.phase != .armed || e.2.kind == .stfe)) &&
  !(s.coreAt (coreOfSlot q)).loq.any (fun x => x.slot == q)
/-- Every store of the core's other slots that the thread has read from the data cache has been acknowledged (R259,
R261). (DEDUCED, log entry 79) -/
def State.seenAcked (s : State) (u : Nat) : Bool :=
  (s.threadAt u).seen.all (fun id => match s.reqs.find? id with
    | some r => !r.unserved
    | none => true)
/-- A thread has seen writes that their homes have not applied, by their requests (R259, R261, R266). (DEDUCED, log entry
79) -/
def State.sees (s : State) (u : Nat) (new : List Nat) : State :=
  s.modThread u (fun t => { t with seen := (t.seen.filter (fun id => (s.reqs.find? id).isSome && !new.contains id)) ++ new })
/-- The release conditions (R164, R259): earlier loads landed, earlier stores, atomics, `ldfe`, `stfe` and waits
acknowledged, and what the thread has seen applied. -/
def State.releaseReady (s : State) (u : Nat) : Bool :=
  !s.hasReq u (fun r => r.phase != .armed || r.kind == .stfe) && !s.hasHeldStore u && s.seenAcked u
/-- Nothing at all is outstanding (R260). -/
def State.fenceReady (s : State) (u : Nat) : Bool :=
  !s.hasReq u (fun _ => true) && !s.hasHeldStore u && s.seenAcked u
/-- An acquire of the thread is outstanding (R164). -/
def State.acquiring (s : State) (u : Nat) : Bool := s.hasReq u (fun r => r.acq)
/-- An acquire at cluster scope or wider of the core is outstanding, or a fence of such a scope waits there (R258). -/
def State.coreAcquiring (s : State) (core : Nat) : Bool :=
  s.reqs.any (fun e => e.2.core == core && e.2.acq && 2 ≤ e.2.scope) ||
  (List.range 16).any (fun i => match (s.slotAt (16 * core + i)).occ with
    | some u => (match (s.threadAt u).wait with
      | .fence sc => 2 ≤ sc
      | _ => false)
    | none => false)
/-- A divide-unit operation of the thread has not landed (R139). -/
def State.dividing (s : State) (u : Nat) : Bool :=
  s.cores.any (fun e => match e.2.div with | some d => d.thread == u | none => false)
/-- A `stlo.md` of the thread has not been acknowledged (R298). -/
def State.markersOut (s : State) (u : Nat) : Bool :=
  s.hasReq u (fun r => r.kind == .stlo true) ||
  s.cores.any (fun e => e.2.loq.any (fun x => x.thread == u && x.md))
/-- Does a request stand with its fault until its record is answered, or its thread has issued it again (R346)? -/
def Phase.isFaulted : Phase → Bool
  | .faulted _ => true
  | _ => false
/-- Everything that the thread issued before the name `n` has completed, request `id` apart, so that what it meets there
is precise (R10); a queued `ldfe`, `stfe` or wait has done what it does by itself. (DEDUCED, log entry 80) -/
def State.earlierDone (s : State) (u n id : Nat) : Bool :=
  !s.reqs.any (fun e => e.1 != id && e.2.thread == some u && e.2.phase != .armed && e.2.issued e.1 < n) &&
  !s.cores.any (fun e => e.2.loq.any (fun x => x.thread == u && x.queued < n && x.sent.isNone)) && !s.dividing u
/-- Every earlier instruction of the thread has completed, so that it may take a fault precisely (R10); what it is to issue
again is no earlier one. (DEDUCED, log entry 80) -/
def State.settled (s : State) (u : Nat) : Bool :=
  !s.hasReq u (fun r => r.phase != .armed && !r.phase.isFaulted) && !s.hasHeldStore u && !s.dividing u
/-- What a thread waits for before its record may leave its slot (R86, R107, R255, R265). -/
def State.moveWait (s : State) (u : Nat) : Wait :=
  if !s.loadsLanded u then .loads
  else if s.dividing u then .divided
  else if !s.storesAcked u then .stores
  else if !s.seenAcked u then .release
  else .none

/-- Reservations of a core in use: requests that hold one, held latest-only stores, and accesses that wait on a walk
(R156, R287, R342). -/
def State.reserved (s : State) (core : Nat) : Nat :=
  ((s.coreAt core).loq.filter (fun x => x.sent.isNone)).length +
  (s.reqs.filter (fun e => e.2.core == core && e.2.resv)).length +
  (s.walks.map (fun e => (e.2.joined.filter (fun j =>
    (s.threadAt j.1).core == core && j.2.1 != .fetch)).length)).sum
/-- Is slot `q` next in an order of waiting slots? Slots taken out of the rotation are passed over. (DEDUCED, log entry
36) -/
def State.nextIn (s : State) (q : Nat) (qs : List Nat) : Bool :=
  match qs.find? (fun h => h == q || !(s.slotAt h).removed) with
  | some h => h == q
  | none => true
/-- May a slot take `n` reservations now? Those that first found the pool short go first (R157). -/
def State.resvFree (s : State) (q n : Nat) : Bool :=
  n == 0 ||
  (s.reserved (coreOfSlot q) + n ≤ Config.reservations && s.nextIn q (s.coreAt (coreOfSlot q)).resvWait)

/-- Are the tile locks of a job clear for it (R207)? -/
def Core.locksClear (c : Core) (writes reads : List Nat) : Bool :=
  writes.all (fun t => c.wlock.get 0 t == 0 && c.readers.get 0 t == 0) && reads.all (fun t => c.wlock.get 0 t == 0)

/-- May slot `q` take an entry of its cluster's copy table, or of its job queue (R186, R208)? -/
def State.copyFree (s : State) (q : Nat) : Bool :=
  let c := s.clusterAt (clusterOfCore (coreOfSlot q))
  c.copies.length < Config.copyEntries && s.nextIn q c.copyWait
def State.jobFree (s : State) (q : Nat) : Bool :=
  let c := s.clusterAt (clusterOfCore (coreOfSlot q))
  c.jobs.length < Config.jobEntries && s.nextIn q c.jobWait
/-- May slot `q` start a divide-unit operation (R137)? -/
def State.divFree (s : State) (q : Nat) : Bool :=
  let c := s.coreAt (coreOfSlot q)
  c.div.isNone && s.nextIn q c.divWait

/-- Does a copy of thread `u` that has not forked read a register of v to v + 3 (R220)? -/
def State.readsVectors (s : State) (u v : Nat) : Bool :=
  s.clusters.any (fun e => e.2.copies.any (fun c =>
    c.2.thread == u && c.2.packet.isNone && !c.2.forked && (c.2.op == 1 || c.2.op == 2) && v ≤ c.2.vreg && c.2.vreg < v + 4))
/-- How many cells a slot has an `ldlo` outstanding on (R297). -/
def State.readOut (s : State) (q : Nat) : Nat :=
  ((s.reqs.filterMap (fun e => if e.2.slot == q && e.2.kind == .ldlo then some e.2.addr else none)).eraseDups).length

/-- A record that awaits no more answer, or none. -/
def State.answeredRecord (s : State) (id : Nat) : Bool := (s.records.find? id).isNone

/-- Has what a thread waits on come about (R92)? A record's answer makes the thread ready itself (R350). -/
def State.waitOver (s : State) (u : Nat) : Wait → Bool
  | .none => true
  | .reg r => match (s.threadAt u).fe r with | .pending _ => false | _ => true
  | .vec v => match (s.threadAt u).slot? with
    | some q => (s.slotAt q).vpend.get 0 v == 0
    | none => true
  | .resv n => match (s.threadAt u).slot? with
    | some q => s.resvFree q n
    | none => true
  | .divide => match (s.threadAt u).slot? with
    | some q => s.divFree q
    | none => true
  | .loads => s.loadsLanded u
  | .release => s.releaseReady u
  | .stores => s.storesAcked u
  | .slotStores => s.seenAcked u && (match (s.threadAt u).slot? with
    | some q => s.slotStoresAcked q
    | none => true)
  | .settle => s.settled u
  | .lease => false
  | .fence _ => s.fenceReady u
  | .acquire => !s.acquiring u
  | .divided => !s.dividing u
  | .markers => !s.markersOut u
  | .walk w => match s.walks.find? w with
    | some x => !x.joined.any (fun j => j.1 == u)
    | none => true
  | .fetch f _ => (s.fetches.find? f).isNone
  | .fetchEntry => (s.fetches.filter (fun e => e.2.core == (s.threadAt u).core)).length < 2
  | .descriptor a => s.gathered (s.threadAt u).core a 128
  | .lock ws rs => (s.coreAt (s.threadAt u).core).locksClear ws rs
  | .job => match (s.threadAt u).slot? with
    | some q => s.jobFree q
    | none => true
  | .copy => match (s.threadAt u).slot? with
    | some q => s.copyFree q
    | none => true
  | .vectors => match (s.threadAt u).slot? with
    | some q => (s.slotAt q).vpend == []
    | none => true
  | .vecRead v => !s.readsVectors u v
  | .reply r => (s.reqs.find? r).isNone
  | .family _ => false
  | .engine _ => false
  | .answer _ => false
  | .act => s.pkg.preempt.isNone
  | .frames => match (s.threadAt u).slot? with
    | some q => !s.framesOut q
    | none => true
  | .readTable => match (s.threadAt u).slot? with
    | some q => s.readOut q < 16
    | none => true
  | .claim id => (s.msgs.find? id).isNone
  | .withdraw r _ => (s.reqs.find? r).isNone
  | .scrub => s.pkg.scrub.isNone

/-- Does a wait stand for something that a task cannot help with and that may not come by itself (R301): a handle, a
link, a predecessor, an armed wait, a record's answer? -/
def State.blocking (s : State) (u : Nat) : Wait → Bool
  | .reg r => match (s.threadAt u).fe r with
    | .pending (.family _) => true
    | .pending (.link _ _) => true
    | .pending (.engine _) => true
    | .pending .pred => true
    | .pending (.ldfe id _) => match s.reqs.find? id with
      | some r => r.phase == .armed
      | none => false
    | _ => false
  | .reply id => match s.reqs.find? id with
    | some r => r.phase == .armed
    | none => false
  | .family _ => true
  | .engine _ => true
  | .answer _ => true
  | _ => false

/-- Does the thread wait for this request's reply before its next instruction (R253, R274, R277, R280)? -/
def ReqKind.isReply : ReqKind → Bool
  | .tkwait => true
  | .wait _ => true
  | .lkacq => true
  | .barJoin => true
  | .barArrive => true
  | .barDrop => true
  | _ => false
/-- What a thread waits for when nothing else holds it: the reply of its wait, lock or barrier instruction. -/
def State.rewait (s : State) (u : Nat) : Wait :=
  match List.find? (fun e => e.2.thread == some u && e.2.kind.isReply) s.reqs with
  | some (id, _) => .reply id
  | none => .none

/-- A helper whose claim came to nothing waits as its instruction states. -/
def State.helperWaits (s : State) (h : Nat) : State :=
  s.modThread h (fun t => { t with wait := s.rewait h, noHelp := s.rewait h == .none })
/-- A claim that took nothing, or that has been dropped, lets its slot go. -/
def State.dropClaim (s : State) (id slot : Nat) (helper : Option Nat) : State :=
  let s := s.delMsg id
  match helper with
  | some h => if (s.threadAt h).wait == .claim id then s.helperWaits h else s
  | none => s.modSlot slot (fun x => { x with reserved := if x.reserved == some id then none else x.reserved })

/-! Families: the parts that a thread's life touches. -/

/-- The family that a handle names in a function's arena. -/
def State.famOfHandle (s : State) (vf : Nat) (h : Word) : Nat :=
  vf * 2 ^ 24 + (h.toNat / 256 * 256 - (s.funcAt vf).arenaBase) / 256

/-- Does a place code, taken from core `o`, include core `c` (R70)? -/
def inPlace (code o c : Nat) : Bool :=
  if code = 0 then c == o
  else if code = 1 then c / 8 == o / 8
  else if code = 2 then c / 128 == o / 128
  else if code = 3 then c / 512 == o / 512
  else true
/-- The cores that a function owns, rising, less those out of every place (R365). -/
def State.ownedCores (s : State) (vf : Nat) : List Nat :=
  ((s.pkg.res.filter (fun e => e.1 < Config.coreCount && e.2.owner == some vf)).map Prod.fst).filter (fun c =>
    !s.coreGone c)
/-- Is a family that of a launch at level 2 that has not ended? -/
def Family.launch2 (f : Family) : Bool :=
  f.alloc && f.level == 2 && f.fixed.isNone && (match f.deliver with
    | .packet _ _ => true
    | _ => false)
/-- Does a place of function `vf` hold a core of a cluster? -/
def State.placeHolds (s : State) (vf code o cl : Nat) : Bool :=
  (List.range 8).any (fun i => inPlace code o (cl * 8 + i) && s.owns vf (resCore (cl * 8 + i)))
/-- The level-2 launch that holds a cluster, by its family (R319). -/
def State.launchAt (s : State) (cl : Nat) : Option Nat :=
  (List.find? (fun e => e.2.launch2 && s.placeHolds e.2.vf e.2.place e.2.origin cl) s.families).map Prod.fst
/-- Does a launch at level 2 hold a cluster (R319)? -/
def State.bound2 (s : State) (cl : Nat) : Bool := (s.launchAt cl).isSome
/-- Does an admission at level 2 hold a cluster (R319): its packet brings the lanes on, or has its entry and is not yet
dealt? -/
def State.taking (s : State) (cl : Nat) : Bool :=
  s.funcs.any (fun f => f.2.queues.any (fun q => q.2.packets.any (fun p =>
    p.2.stage == 1 && (p.2.admission == 7 || (match p.2.fam with
      | some fk => (s.famAt fk).level == 2
      | none => false)) &&
    s.placeHolds f.1 (min 4 ((p.2.record.getD 0x20 0#8).toNat % 8)) p.2.core cl)))
/-- Does a die hold a launch at level 2 (R320)? -/
def State.level2Die (s : State) (die : Nat) : Bool := (List.range Config.clusters).any (fun i => s.bound2 (die * 64 + i))
/-- Is a core a place of a family: in its place, its function's, not out of every place, and not held by a level-2
launch that the family does not belong to (R70, R319, R365)? -/
def State.inFamily (s : State) (fk c : Nat) : Bool :=
  let f := s.famAt fk
  inPlace f.place f.origin c && s.owns f.vf (resCore c) && !s.coreGone c && !s.taking (clusterOfCore c) &&
  (match s.launchAt (clusterOfCore c) with
   | some l => l == f.launch
   | none => true)

/-- The member that the next claim takes: a returned k first (R73, R76); none once the family is broken or killed,
but for a returned k below the break. -/
def Family.nextK (f : Family) : Option Nat :=
  if !f.alloc || f.killed || f.fixed.isSome then none
  else
    let lim := match f.broken with
      | some (k, _) => k
      | none => f.count
    match f.returned.filter (· < lim) with
    | k :: ks => some (ks.foldl min k)
    | [] => if f.broken.isNone && f.progress < f.count then some f.progress else none

/-- A parked member that is ready (R300): nothing it waits on is pending, and it is not held. -/
def State.parkedReady (s : State) (u : Nat) : Bool :=
  let t := s.threadAt u
  (match t.loc with | .parked _ held => !held | _ => false) && s.waitOver u t.wait && t.ended.isNone

/-- May thread `u` help family `fk` (R300)? -/
def State.mayHelp (s : State) (u fk : Nat) : Bool :=
  let t := s.threadAt u
  match t.loc with
  | .slot q =>
    (s.famAt fk).alloc && fk / 2 ^ 24 == t.vf && s.inFamily fk (coreOfSlot q) && s.chainDepth q < t.adoptMax && !t.noHelp
  | _ => false
/-- May a helper take a parked member: one that is ready, and not serial, for that holds slot 15 of the core where it
parked (R91, R300)? (DEDUCED, log entry 35) -/
def State.adoptable (s : State) (u : Nat) : Bool := s.parkedReady u && !(s.threadAt u).serial
/-- Has family `fk` a task for a helper: an unclaimed member, or a parked one that is ready (R300)? -/
def State.hasTask (s : State) (fk : Nat) : Bool :=
  (s.famAt fk).nextK.isSome || (s.famAt fk).parked.any (fun u => s.adoptable u)
/-- Has the tag {f, k + 1} a task: members up to k unclaimed, or k parked and ready (R300)? -/
def State.hasTagTask (s : State) (fk k : Nat) : Bool :=
  let f := s.famAt fk
  k < f.count &&
  ((match f.nextK with
    | some _ => f.progress ≤ k || f.returned.contains k
    | none => false) ||
   f.parked.any (fun u => (s.threadAt u).k == k && s.adoptable u))
/-- A helper's claim leaves for the family's home (R89, R300). -/
def State.sendHelp (s : State) (u fk : Nat) (want : Option Nat) : State :=
  match (s.threadAt u).loc with
  | .slot q =>
    (s.send (.claim fk (coreOfSlot q) q (some u) want)).modThread u (fun t => { t with wait := .claim s.nextId })
  | _ => s

/-- The WAITCYCLE cause of a waiter whose owner is the family of a thread chained beneath it (R303). -/
def State.cycleChain (s : State) (u fk : Nat) : Option Nat :=
  match (s.threadAt u).loc with
  | .slot q => if (s.slotAt q).chain.any (fun h => (s.threadAt h).fam == fk) then some 3 else none
  | _ => none
/-- The WAITCYCLE cause of a waiter on a family handle, under `sync` or `hwait`: its own family first (R303). -/
def State.cycleFamily (s : State) (u fk : Nat) : Option Nat :=
  match (s.threadAt u).loc with
  | .slot _ => if fk == (s.threadAt u).fam then some 1 else s.cycleChain u fk
  | _ => none
/-- The WAITCYCLE cause of a waiter whose owner is a tag; cause 3 is not looked for here, but at handles and `ldfe` bodies
alone. (DESIGN CHOICE, log entry 83) -/
def State.cycleTag (s : State) (u : Nat) (tag : Word) : Option Nat :=
  match (s.threadAt u).loc with
  | .slot q =>
    if tag == (s.threadAt u).tag then some 1
    else if (s.slotAt q).chain.any (fun h => (s.threadAt h).tag == tag) then some 2
    else none
  | _ => none
/-- What a waiter whose request is armed does (R299 to R303): it withdraws before WAITCYCLE, helps the owner that the
"armed" reply named, or waits. -/
def State.helpArmed (s : State) (u id : Nat) : State :=
  let vf := (s.threadAt u).vf
  match s.reqs.find? id with
  | none => s.modThread u (fun t => { t with helpReq := none })
  | some r =>
    if r.phase != .armed || (s.coreAt (s.threadAt u).core).stopped then s
    else
      match r.kind with
      | .lkacq =>
        let fk := vf * 2 ^ 24 + fieldOf r.opC 40 24
        let k := fieldOf r.opC 0 40 - 1
        match s.cycleTag u r.opC with
        | some c => s.modThread u (fun t => { t with wait := .withdraw id c })
        | none =>
          if r.opC != 0#64 && s.mayHelp u fk && s.hasTagTask fk k then
            (s.modThread u (fun t => { t with helpReq := some id })).sendHelp u fk (some k)
          else s
      | .ldfe =>
        let fk := s.famOfHandle vf r.opC
        if r.opC == 0#64 || !s.inArena vf (r.opC.toNat / 256 * 256) || s.handleOf fk != r.opC then s
        else
          match s.cycleChain u fk with
          | some c => s.modThread u (fun t => { t with wait := .withdraw id c })
          | none =>
            if s.mayHelp u fk && s.hasTask fk then
              (s.modThread u (fun t => { t with helpReq := some id })).sendHelp u fk none
            else s
      | _ => s

/-! Continuation records (R84). -/

/-- The field of a register that waits: its fill's source (R86, R167). -/
def FReg.saved (f : FReg) : Word :=
  match f.st with
  | .full => f.val
  | .pending (.family h) => h
  | .pending (.link h _) => h
  | .pending (.engine h) => h
  | .pending (.ldfe _ va) => 0x4000000000000000#64 + va
  | _ => 0#64
/-- A register's code in the register-state word (R85). -/
def FReg.code (f : FReg) : Nat :=
  match f.st with
  | .full => 0
  | .pending _ => 1
  | .empty => 2
/-- The register-state word (R85). -/
def Thread.stateWord (t : Thread) : Word :=
  let rs := List.range 10 ++ (List.range 8).map (· + 18)
  word (rs.foldr (fun r acc => (t.reg r).code + 4 * acc) 0)
/-- The wait field of a thread that waits for a request (R167, R253, R275, R278, R283). -/
def Req.waitWord (r : Req) : Word :=
  match r.kind with
  | .tkwait => 0x2000000000000000#64 + r.va
  | .lkacq => 0x0800000000000000#64 + r.va
  | .barArrive => 0x0400000000000000#64 + r.va
  | .ldfe => 0x4000000000000000#64 + r.va
  | _ => 0x1000000000000000#64 + r.va
/-- The task above a helper in its slot. -/
def State.above? (s : State) (u : Nat) : Option Nat :=
  match (s.threadAt u).loc with
  | .chain q =>
    let x := s.slotAt q
    match x.chain.findIdx (· == u) with
    | 0 => x.occ
    | i + 1 => x.chain[i]?
  | _ => none
/-- What a helper waits on (R84, R302): its armed request, or else the family that its task is of. -/
def State.helpWord (s : State) (u : Nat) (task : Option Nat) : Word :=
  match (s.threadAt u).helpReq with
  | some id => match s.reqs.find? id with
    | some r => if r.isArmed then r.waitWord else 0#64
    | none => 0#64
  | none => match task with
    | some v => (s.threadAt v).fh
    | none => 0#64
/-- The wait field (R84, R253, R275, R278, R283). -/
def State.waitField (s : State) (u : Nat) : Word :=
  let t := s.threadAt u
  match t.wait with
  | .reg r => (t.reg r).saved
  | .family h => h
  | .engine h => h
  | .reply id => match s.reqs.find? id with
    | some r => r.waitWord
    | none => 0#64
  | .claim id => s.helpWord u (match s.msgs.find? id with
    | some (.landing v _ _ _) => some v
    | _ => none)
  | .none => match s.above? u with
    | some v => s.helpWord u (some v)
    | none => 0#64
  | _ => 0#64
/-- ADOPTMAX, with `depth` helpers beneath the thread (R298). -/
def Thread.adoptWord (t : Thread) (depth : Nat) : Word := word (t.mdsup.toNat * 2 ^ 32 + depth % 8 * 2 ^ 8 + t.adoptMax)
/-- Is a thread in a slot, or chained beneath its occupant? -/
def Slot.holds (x : Slot) (u : Nat) : Bool := x.occ == some u || x.chain.contains u
/-- The slot contents that hold a thread whose state a slot image keeps: spilled, brought back by a context image, or in a
saved context (R359, R361). -/
def State.awaySlot (s : State) (u q : Nat) : Slot :=
  let f := s.funcAt (s.threadAt u).vf
  let kept := f.spills.find? q :: f.loaded.find? q :: [f.saved.bind (fun x => x.slots.find? q)]
  ((kept.filterMap id).find? (fun x => x.holds u)).getD Slot.blank
/-- Helpers beneath a thread in a slot's contents (R298). -/
def Slot.beneath (x : Slot) (u : Nat) : Nat :=
  if x.occ == some u then x.chain.length else x.chain.length - 1 - x.chain.findIdx (· == u)
/-- Helpers beneath a thread in its slot (R298). -/
def State.depthOf (s : State) (u : Nat) : Nat :=
  match (s.threadAt u).loc with
  | .slot q => (s.slotAt q).beneath u
  | .chain q => (s.slotAt q).beneath u
  | .spilled q => (s.awaySlot u q).beneath u
  | _ => 0
/-- The claim dword (R84): of a record whose claim has not been acknowledged, the claimer's location and the lease's end. -/
def State.claimWord (s : State) (u : Nat) : Word :=
  match (s.famAt (s.threadAt u).fam).claims.find? u with
  | some c => word (1 + (c.core * 16 + c.slot % 16) % 2 ^ 17 * 2 + c.expiry % 2 ^ 32 * 2 ^ 18)
  | none => 0#64
/-- ANSACT (R352). -/
def Thread.ansactWord (t : Thread) : Word := word (t.ansres * 2 ^ 62 + t.setl0.toNat * 4 + t.ansact)
/-- The record and entry header of a thread: 32 dwords (R84). -/
def State.recordOf (s : State) (u : Nat) (chained : Bool) : List Word :=
  let t := s.threadAt u
  (List.range 10).map (fun r => (t.reg r).saved) ++
  (List.range 4).map (fun i => (t.reg (18 + i)).saved) ++
  [word (t.pc.toNat / 4 * 2 ^ 9 + t.pred.toNat / 2 * 4 + t.serial.toNat * 2 + chained.toNat), t.identity] ++
  [word (t.fstat.toNat * 2 ^ 32 + t.fctl.toNat), t.srseed, t.adoptWord (s.depthOf u), t.stateWord, s.waitField u] ++
  (List.range 4).map (fun i => (t.reg (22 + i)).saved) ++
  [s.claimWord u, word t.vfsel, t.ansrec, t.ansval, t.ansactWord, word (t.assignRes * 2 ^ 62), 0#64]
/-- Dwords as bytes. -/
def wordBytes (ws : List Word) : List Byte := ws.flatMap (fun w => toBytes 8 w.toNat)


/-- A frame written to the window area, the last 16 KiB of its core's local store, makes that region dirty (R146, R363). -/
def State.markFrame (s : State) (q : Nat) : State := s.markDirty (localStore (coreOfSlot q) + 131072)

/-! The slot area (R337). -/

/-- The virtual address of a slot's area of function `vf`. -/
def State.slotArea (s : State) (vf q : Nat) : Nat := (s.funcAt vf).slotarea.toNat % 2 ^ 57 + 0x12000 * q
def State.spillPlace (s : State) (vf q d : Nat) : Nat := s.slotArea vf q + 128 * (d - 1)
def State.saveLevel (s : State) (vf q d : Nat) : Nat := s.slotArea vf q + 0x10000 + 512 * d
def State.chainLevel (s : State) (vf q e : Nat) : Nat := s.slotArea vf q + 0x11000 + 256 * (e - 1)
def State.imagePlace (s : State) (vf q : Nat) : Nat := s.slotArea vf q + 0x11800

/-- An access by a core to its slot areas, or to a frame's place, for a thread at determinism level `level`: the place,
translated by the core's own walk, or the fault that it meets. A latest-only page takes none (R291), and a launch at
level 2 reaches no home in the second tier or the host (R407). -/
def State.areaReach (s : State) (core vf level : Nat) (acc : Acc) (va : Nat) : Except (Nat × Nat × Nat) (State × Place) :=
  match s.engineReach core vf acc (if acc.writes then 8 else 1) (word va) with
  | (_, .error e) => .error e
  | (s, .ok p) =>
    if acc.writes && p.lo then .error (fACCESS, 6, 0)
    else if level == 2 && (inTier2 p.addr || isHost p.addr) then .error (fDETERM, 3, 0)
    else .ok (s, p)
/-- The determinism level of the launch that a slot's occupant belongs to. -/
def State.slotLevel (s : State) (q : Nat) : Nat :=
  match (s.slotAt q).occ with
  | some u => (s.famAt (s.threadAt u).fam).level
  | none => 0
/-- The core where a thread resumes empties its data cache, or its own core does now (R153). -/
def State.emptyFor (s : State) (u : Nat) : State :=
  match (s.threadAt u).slot? with
  | some q => s.emptyCache (coreOfSlot q)
  | none => s.modThread u (fun t => { t with emptyCache := true })
/-- What a message carries reaches the die where its thread is (R263, R264). -/
def State.learnAt (s : State) (u : Nat) (c : List Nat) : State :=
  if (s.threadAt u).loc = .ended then s else s.tellDie (dieOfCore (s.threadAt u).core) c
/-- A landing that is an acquire at package scope or wider: a handle's fill, the answer to an `hwait`, or a dependent of a
family whose place is the package (R153, R262, R264). -/
def State.acquireFor (s : State) (u : Nat) : State :=
  (s.emptyFor u).modThread u (fun t => { t with boundary := s.nextId })
/-- Writes bytes at a virtual address of a slot area, behind a link that is down (R371); the fault when it meets one. -/
def State.areaWrite (s : State) (q vf va : Nat) (bs : List Byte) : Except (Nat × Nat × Nat) State :=
  match s.areaReach (coreOfSlot q) vf (s.slotLevel q) .store va with
  | .error e => .error e
  | .ok (s, p) =>
    if s.keyReady p.key then .ok (s.agentStore vf (word va) p.key p.addr bs) else .error (fACCESS, 13, 0)
/-- Reads bytes within one page at a virtual address of a function; an uncorrectable error gives MACHINE(`cause`). -/
def State.vaRead (s : State) (core vf va n cause : Nat) : Except (Nat × Nat × Nat) (List Byte) :=
  match s.engineReach core vf .load 1 (word va) with
  | (_, .error e) => .error e
  | (s, .ok p) =>
    if s.poisoned p.addr n then .error (fMACHINE, cause, 0)
    else match s.readBytes p.key p.addr n with
      | some bs => .ok bs
      | none => .error (fACCESS, 13, 0)
/-- Reads bytes of a slot area. -/
def State.areaRead (s : State) (q vf va n : Nat) : Except (Nat × Nat × Nat) (List Byte) :=
  match s.areaReach (coreOfSlot q) vf (s.slotLevel q) .load va with
  | .error e => .error e
  | .ok _ => s.vaRead (coreOfSlot q) vf va n 3

/-! Records in memory (R84, R301, R302, R359). -/

/-- Where the record of a thread that is chained, or that a slot image holds, rests: its slot and the address (R301,
R359). -/
def State.recordPlace (s : State) (u : Nat) : Option (Nat × Nat) :=
  let t := s.threadAt u
  let level (q : Nat) (x : Slot) : Option (Nat × Nat) :=
    if x.chain.contains u then some (q, s.chainLevel t.vf q (x.chain.length - x.chain.findIdx (· == u))) else none
  match t.loc with
  | .chain q => level q (s.slotAt q)
  | .spilled q =>
    match (s.funcAt t.vf).spills.find? q with
    | some x => if x.occ == some u then some (q, s.imagePlace t.vf q) else level q x
    | none => none
  | _ => none
/-- What has landed at a thread whose record rests in memory is written into that record (R87, R302). (DEDUCED, log entry
57) -/
def State.syncRecord (s : State) (u : Nat) : State :=
  match s.recordPlace u with
  | none => s
  | some (q, va) =>
    let chained := match (s.threadAt u).loc with
      | .chain _ => true
      | _ => match (s.funcAt (s.threadAt u).vf).spills.find? q with
        | some x => !x.chain.isEmpty
        | none => false
    match s.areaWrite q (s.threadAt u).vf va (wordBytes (s.recordOf u chained)) with
    | .ok s => s
    | .error _ => s
/-- A handle's or a queued load's fill lands in a register that waits for it, and any other register discards it (R34,
R113); a thread at a nonzero depth notes it for the frames that wait on it too (R86). (DEDUCED, log entry 25) -/
def State.landFill (s : State) (u n : Nat) (f : Fill) (v : Word) : State :=
  let t := s.threadAt u
  let s := if t.depth = 0 then s else s.modThread u (fun t => { t with landed := (f, n, v) :: t.landed })
  if !hasFe n || (t.reg n).st == .pending f then (s.landGpr u n v).syncRecord u else s
/-- The dwords of a byte string. -/
def dwords (bs : List Byte) : List Word :=
  (List.range (bs.length / 8)).map (fun i => word (ofBytes ((bs.drop (8 * i)).take 8)))
/-- A register read back from a record: its code and field (R84 to R86). A register that
waits in the record is full when its fill has landed meanwhile; else it keeps the fill that it waits for where the field
still names it, and waits on the handle that the field names otherwise. -/
def FReg.reload (old : FReg) (code : Nat) (v : Word) : FReg :=
  if code = 0 then ⟨v, .full⟩
  else if code = 2 then ⟨0#64, .empty⟩
  else if old.code = 0 || (old.code = 1 && old.saved == v) then old
  else if bitOf v.toNat 63 then ⟨0#64, .pending (.engine v)⟩
  else if bitOf v.toNat 62 then ⟨0#64, .pending (.ldfe 0 (v - 0x4000000000000000#64))⟩
  else ⟨0#64, .pending (.family v)⟩
/-- A thread as its record and entry header in memory give it (R84); what the record does not hold stays. -/
def Thread.reload (t : Thread) (bs : List Byte) : Thread :=
  let w (i : Nat) : Word := (dwords bs).getD i 0#64
  let f (i lo len : Nat) : Nat := bitsOf (w i).toNat lo len
  let place (r : Nat) : Nat := if r < 10 then r else if r < 22 then r - 8 else r - 1
  let code (r : Nat) : Nat := f 19 (2 * (if r < 10 then r else r - 8)) 2
  let rs := List.range 10 ++ (List.range 8).map (· + 18)
  { t with
    regs := rs.foldl (fun (g : Tab FReg) r => g.set FReg.zero r ((t.reg r).reload (code r) (w (place r)))) t.regs
    pc := word (f 14 9 55 * 4), pred := BitVec.ofNat 8 (f 14 2 7 * 2), serial := f 14 1 1 == 1
    ix := word (f 15 0 40)
    fctl := BitVec.ofNat 5 (f 16 0 5), fstat := BitVec.ofNat 5 (f 16 32 5), srseed := w 17
    adoptMax := f 18 0 3, mdsup := f 18 32 1 == 1
    vfsel := f 26 0 6, ansrec := w 27, ansval := w 28
    ansact := f 29 0 2, setl0 := f 29 2 1 == 1, ansres := f 29 62 2, assignRes := f 30 62 2 }

/-! A thread's start, end, parking and pop. -/

/-- Is slot 15 of a core reserved for serial threads (R91)? -/
def State.serialReserved (s : State) (c : Nat) : Bool :=
  !(s.coreAt c).serialq.isEmpty ||
  (match (s.slotAt (16 * c + 15)).occ with
   | some u => (s.threadAt u).serial ||
      (s.slotAt (16 * c + 15)).chain.any (fun h => (s.threadAt h).serial)
   | none => false) ||
  s.threads.any (fun e => e.2.serial && match e.2.loc with
    | .parked x _ => x == c
    | .claimed x => x == c
    | .spilled q => q == 16 * c + 15
    | _ => false)
/-- The lowest free slot of a core that queue `qu` of function `vf` owns (R72, R94). -/
def State.freeSlots (s : State) (c vf qu : Nat) : List Nat :=
  if !s.owns vf (resCore c) || (s.coreAt c).stopped then [] else
  ((List.range 16).filter (fun i =>
    let x := s.slotAt (16 * c + i)
    x.occ.isNone && x.reserved.isNone && x.qowner == qu && (i != 15 || !s.serialReserved c))).map (16 * c + ·)

/-- A gated core that is to hold a thread is gated no longer (R76). (DESIGN CHOICE, log entry 83) -/
def State.wake (s : State) (core : Nat) : State :=
  if (s.coreAt core).gated then s.modCore core (fun c => { c with gated := false }) else s
/-- What a handle that a local waits on has come to, once the family's end has been delivered (R59, R86). -/
def State.endedValue (s : State) (vf : Nat) : Fill → Option Word
  | .family h => let f := s.famAt (s.famOfHandle vf h)
    if f.filled && s.handleOf (s.famOfHandle vf h) == h then f.fixed else none
  | .link h k => let f := s.famAt (s.famOfHandle vf h)
    if f.filled && s.handleOf (s.famOfHandle vf h) == h then some (f.results.getD k 0#64) else none
  | _ => none
/-- As a thread resumes, the locals that wait on a handle which has completed are filled from the completion; the others
stay armed (R86). -/
def State.checkHandles (s : State) (u : Nat) : State :=
  (List.range 10).foldl (fun (s : State) r =>
    match ((s.threadAt u).reg r).st with
    | .pending f => match s.endedValue (s.threadAt u).vf f with
      | some v => s.setLocal u r v
      | none => s
    | _ => s) s
/-- A thread starts, or resumes from its record, in a slot at chain depth 0: the vectors are zero, the read table is
cleared and a frame key is drawn (R116, R168, R297); a filled handle that landed while it was away, and a move from another
core, empty the data cache (R153, R265); the handles that its locals wait on are looked at (R86). A gated core wakes. -/
def State.enterSlot (s : State) (u q : Nat) : State :=
  let s := ((s.wake (coreOfSlot q)).modSlot q (fun x => { x with
    occ := some u, chain := [], vecs := [], vpend := [], readTab := [], frames := [], flushing := 0, noSpill := false,
    frameKey := Config.frameKey s.fresh, ibuf := none, reserved := none })).draw
  let s := if (s.threadAt u).emptyCache then s.emptyCache (coreOfSlot q) else s
  (s.modThread u (fun t => { t with loc := .slot q, emptyCache := false, wait := s.rewait u })).checkHandles u

/-- A slot becomes free: its vectors become zero and its frames are discarded (R101, R169). -/
def State.freeSlot (s : State) (q : Nat) : State :=
  s.modSlot q (fun x => { x with
    occ := none, chain := [], vecs := [], vpend := [], readTab := [], frames := [], flushing := 0, ibuf := none })

/-- The eight vector registers from 512 bytes. -/
def vectorsOf (bs : List Byte) : Tab VWord :=
  (List.range 8).foldl (fun (t : Tab VWord) v => t.set 0#512 v (BitVec.ofNat 512 (ofBytes ((bs.drop (64 * v)).take 64)))) []
/-- A helper's record is read back from its level of the chain area, and a pinned one's vectors from the save area
(R171, R301, R302). What cannot be read back is lost. (DESIGN CHOICE, log entry 81) -/
def State.readHelper (s : State) (h q d : Nat) : State :=
  let t := s.threadAt h
  let lose (s : State) (va : Nat) : State := s.modThread h (fun t => { t with lost := some va })
  let s := match s.areaRead q t.vf (s.chainLevel t.vf q (d + 1)) 256 with
    | .ok bs => s.modThread h (fun t => t.reload bs)
    | .error _ => lose s (s.chainLevel t.vf q (d + 1))
  if !t.pinned then s
  else
    match s.areaRead q t.vf (s.saveLevel t.vf q d) 512 with
    | .ok bs => s.modSlot q (fun x => { x with vecs := vectorsOf bs })
    | .error _ => lose s (s.saveLevel t.vf q d)
/-- The helper beneath the occupant pops back: its record and vectors come back (R171, R301), and it looks again for what
it waits on (R89, R302). -/
def State.popHelper (s : State) (q : Nat) : State :=
  let x := s.slotAt q
  match x.chain with
  | [] => s.freeSlot q
  | h :: rest =>
    let keep := x.frames.drop (s.threadAt (x.occ.getD 0)).depth
    let s := s.putSlot q { x with
      occ := some h, chain := rest, vecs := [], vpend := [], ibuf := none, frames := keep
      flushing := min x.flushing keep.length }
    let s := ((s.modThread h (fun t => { t with loc := .slot q })).readHelper h q rest.length).checkHandles h
    let s := s.modThread h (fun t => { t with wait := s.rewait h })
    match (s.threadAt h).helpReq with
    | none => s
    | some id =>
      match s.reqs.find? id with
      | none => s.modThread h (fun t => { t with helpReq := none })
      | some _ => s.helpArmed h id

/-- Takes a slot out of an order of waiting slots. -/
def dropSlot (q : Nat) (qs : List Nat) : List Nat := qs.filter (· != q)
/-- A slot waits no longer for a reservation, the divide unit or an engine's entry. -/
def State.dropWaits (s : State) (q : Nat) : State :=
  (s.modCore (coreOfSlot q) (fun c => { c with
    resvWait := dropSlot q c.resvWait, divWait := dropSlot q c.divWait })).modCluster (clusterOfCore (coreOfSlot q))
    (fun x => { x with copyWait := dropSlot q x.copyWait, jobWait := dropSlot q x.jobWait })
/-- The slot's occupant leaves it: its helper pops, or the slot becomes free. -/
def State.leaveSlot (s : State) (u : Nat) : State :=
  match (s.threadAt u).loc with
  | .slot q => if (s.slotAt q).occ == some u then (s.dropWaits q).popHelper q else s
  | .parked _ _ => s.modFam (s.threadAt u).fam (fun f => { f with parked := f.parked.filter (· != u) })
  | .runq c => s.modCore c (fun x => { x with runq := x.runq.filter (· != u) })
  | .serialq c => s.modCore c (fun x => { x with serialq := x.serialq.filter (· != u) })
  | _ => s

/-- A thread joins its family's parking list, in ascending k (R300). -/
def insertByK (s : State) (u : Nat) : List Nat → List Nat
  | [] => [u]
  | v :: vs => if (s.threadAt u).k < (s.threadAt v).k then u :: v :: vs else v :: insertByK s u vs
/-- A thread is parked (R301, R346, R357). -/
def State.park (s : State) (u : Nat) (held : Bool) : State :=
  let t := s.threadAt u
  let c := t.core
  let s := (s.leaveSlot u).modThread u (fun t => { t with loc := .parked c held })
  s.modFam t.fam (fun f => { f with
    parked := insertByK s u (f.parked.filter (· != u)), clock := joinClocks f.clock (s.clockOf (dieOfCore c)) })

/-- Is a fill that of a result on its way, which counts as written (R34, R138)? -/
def Fe.written : Fe → Bool
  | .full => true
  | .pending _ => true
  | .empty => false
/-- What a member that ends passes on for each shared that it left unwritten (R79); one whose result is on its way takes
it when it lands (R60, R138). -/
def State.passThrough (s : State) (u : Nat) : State :=
  let t := s.threadAt u
  (List.range 4).foldl (fun (s : State) i =>
    if (t.reg (18 + i)).st.written then s
    else
      match (t.reg (22 + i)).st with
      | .full => s.sendDep t i (some (t.reg (22 + i)).val)
      | .pending _ =>
        if t.fh != s.handleOf t.fam then s
        else s.modFam t.fam (fun f => { f with stubs := f.stubs.put (4 * t.k + i) t.core })
      | .empty => s.sendDep t i none) s

/-- What a killed member's shareds were sending reaches no one (R61). -/
def State.dropShared (s : State) (u : Nat) : State :=
  let t := s.threadAt u
  if t.fh != s.handleOf t.fam then s
  else
    { s with msgs := s.msgs.filter (fun e =>
        match e.2 with
        | .dep fam k _ _ _ => !(fam == t.fam && k == t.k + 1)
        | _ => true) }
/-- The loads of a killed thread whose replies brought faults are gone with it (R61). -/
def State.dropFaulted (s : State) (u : Nat) : State :=
  { s with reqs := s.reqs.filter (fun e => !(e.2.thread == some u && e.2.kind.isLoad &&
      (match e.2.phase with
       | .faulted _ => true
       | _ => false))) }

/-- A thread ends (R61, R79, R81, R83, R101): its unwritten shareds pass through unless it is killed; a break or fault
goes to the family's home, and its end report; a kill goes to the families that it made and that have not ended. Its
slot frees, or its helper pops. -/
def State.endThread (s : State) (u : Nat) (how : Ended) : State :=
  let t := s.threadAt u
  if t.ended.isSome then s
  else
    let s := match how with
      | .killed => (s.dropShared u).dropFaulted u
      | _ => s.passThrough u
    let s := match how with
      | .ret => s
      | .killed => t.made.foldl (fun (s : State) (h : Word) =>
          let fk := s.famOfHandle t.vf h
          if s.handleOf fk == h && (s.famAt fk).alloc then s.send (.kill fk (h.toNat % 256)) else s) s
      | _ => if t.fh == s.handleOf t.fam then s.send (.brk t.fam t.k how) else s
    let helper := match t.loc with
      | .slot q => (s.slotAt q).chain.head?
      | _ => none
    let s := match helper with
      | some h => s.modThread h (fun x => { x with helped := x.helped ++ [u] })
      | none => s
    let s := (s.leaveSlot u).modThread u (fun x => { x with
      ended := some how, loc := .ended, wait := .none, depth := 0, killed := false })
    s.sendWith (s.clockFrom t) (.report t.fam u)

/-! Taking a fault, and returning from one. -/

/-- Does a fault park its thread (R346)? MACHINE(1) does on a load or a fetch. -/
def faultParks (code cause type : Nat) : Bool :=
  code == fPAGE || (code == fACCESS && 8 ≤ cause && cause ≤ 16 && cause != 15) ||
  (code == fMACHINE && cause == 1 && type % 2 == 0)

/-- The fault word of a thread's record (R347). -/
def faultWord (code cause type level : Nat) : Word :=
  word (code + cause * 2 ^ 8 + (faultParks code cause type).toNat * 2 ^ 16 + type * 2 ^ 18 + level * 2 ^ 20)

/-- Where a record goes first: a PAGE(2) to the hardware paging service when that is the duty's mode, and held while the
duty drains (R353, R354, R403). -/
def State.firstStage (s : State) (code cause : Nat) : Stage :=
  let d := s.pkg.duties.getD 0 ⟨false, false, false⟩
  if code == fPAGE && cause == 2 then (if d.draining then .held else if d.cur then .unclaimed else .service)
  else .unclaimed

/-- A thread meets a fault (R346, R347) at `pc`: a record is made for its function's queue, with its identity, the fault
word, the address, the pc and its location; a parking fault makes the thread wait for the record's answer (R350), and
every other ends it under R81. `type` is 0 for a load, 1 a store, 2 a fetch, 3 other; `level` a walk's level. (DEDUCED,
log entry 32) -/
def State.raiseAt (s : State) (u : Nat) (pc : Word) (code cause : Nat) (addr : Word) (type level : Nat) : State :=
  let t := s.threadAt u
  let q := match t.loc with
    | .slot q => q
    | .chain q => q
    | .spilled q => q
    | _ => 16 * t.core
  let parks := faultParks code cause type
  let s' := s.addRecord
    { queue := t.vf, src := t.vf, kind := if parks then 1 else 2, die := dieOfCore (coreOfSlot q),
      body := [t.identity, faultWord code cause type level, addr, pc, locationWord q, 0#64],
      holder := if parks then .thread u else .none, awaits := parks,
      stage := s.firstStage code cause,
      page := addr.toNat, level := level }
  if parks then (s'.dropWaits q).modThread u (fun t => { t with wait := .answer s.nextId })
  else s'.endThread u (.fault code cause)
/-- A thread meets a fault at its own pc. -/
def State.raiseFor (s : State) (u code cause : Nat) (addr : Word) (type level : Nat) : State :=
  s.raiseAt u (s.threadAt u).pc code cause addr type level

/-- The executing thread meets a fault of its instruction, precisely: once every earlier instruction of it has completed,
and until then its slot waits and issues the instruction again (R10). (DEDUCED, log entry 80) -/
def State.raiseNow (s : State) (code cause : Nat) (addr : Word) (type level : Nat) : State :=
  if s.settled s.uid then s.raiseFor s.uid code cause addr type level
  else s.modCur (fun t => { t with wait := .settle })
def State.raise (s : State) (code cause : Nat) (addr : Word) (type : Nat) : State := s.raiseNow code cause addr type 0

/-- The access that a request needs of its page (R340). -/
def ReqKind.acc : ReqKind → Acc
  | .load => .load
  | .vload => .load
  | .ldlo => .load
  | .store => .store
  | .stlo _ => .store
  | .frameRead => .load
  | .frameWrite => .store
  | _ => .both
/-- The type field of a fault word (R347): what both loads and stores is neither. -/
def Acc.type : Acc → Nat
  | .load => 0
  | .store => 1
  | .fetch => 2
  | .both => 3
/-! Latest-only stores in their core's queue (R288, R296). -/

/-- A store of the core's queue, as a request to the home. -/
def LoStore.req (x : LoStore) (s : State) (core : Nat) (place : Nat) (c : List Nat) : Req :=
  { Req.blank with
    kind := .stlo x.md, phase := if homeDie x.cell == dieOfCore core then .home else .ingress,
    vf := (s.threadAt x.thread).vf, core := core, slot := x.slot, thread := some x.thread, addr := x.cell, va := x.va,
    size := 8, lo := true, key := x.key, resv := true, born := x.queued, opB := x.val, num := x.num, pc := x.pc, place := place, clock := c }
/-- Is a store of the queue in flight to a cell? -/
def Core.loFlying (c : Core) (cell : Nat) : Bool := c.loq.any (fun x => x.cell == cell && x.sent.isSome)
/-- The oldest held store to a cell is sent when none is in flight (R288); it counts as an inter-die write as it goes. -/
def State.sendHeld (s : State) (core cell : Nat) : State :=
  let c := s.coreAt core
  if c.loFlying cell then s
  else
    match List.find? (fun x => x.cell == cell && x.sent.isNone) c.loq with
    | none => s
    | some x =>
      let cross := homeDie cell != dieOfCore core
      let k := if cross then s.countWrite (dieOfCore core) else (s, 0)
      let r := x.req k.1 core k.2 (s.clockOf (dieOfCore core))
      let id := k.1.nextId
      (k.1.addReq r).modCore core (fun c => { c with loq := replaceFirst x { x with sent := some id } c.loq })
where
  replaceFirst (x y : LoStore) : List LoStore → List LoStore
    | [] => []
    | z :: zs => if z = x then y :: zs else z :: replaceFirst x y zs
/-- A pending register waits on a load under its new name. -/
def Thread.renameFill (t : Thread) (old new : Nat) : Thread :=
  { t with regs := t.regs.map (fun e => (e.1, { e.2 with st := match e.2.st with
      | .pending (.load i) => .pending (.load (if i = old then new else i))
      | .pending (.ldfe i va) => .pending (.ldfe (if i = old then new else i) va)
      | x => x })) }
/-- A request leaves under a new name, and what stood for it follows: the registers that wait on it and the entry of the
store queue. It keeps its place in issue order. -/
def State.rename (s : State) (id : Nat) (r : Req) : State :=
  let n := s.nextId
  let s := (s.delReq id).addReq { r with born := r.issued id }
  let s := s.modCore r.core (fun c => { c with
    loq := c.loq.map (fun x => if x.sent == some id then { x with sent := some n } else x) })
  match r.thread with
  | some u => s.modThread u (fun t => t.renameFill id n)
  | none => s
/-- The `ldlo`s of a core that wait behind its held stores to a cell are sent, each once none of those that were held at
its issue is (R296). (DEDUCED, log entry 21) -/
def State.releaseLdlo (s : State) (core cell : Nat) : State :=
  (s.reqs.filter (fun e => e.2.core == core && e.2.kind == .ldlo && e.2.phase == .egress && e.2.addr == cell &&
      !(s.coreAt core).loq.any (fun x => x.cell == cell && x.sent.isNone && x.queued < e.2.issued e.1))).foldl
      (fun (s : State) e => s.rename e.1
        { e.2 with phase := if e.2.crosses then .ingress else .home, clock := s.clockOf e.2.die }) s
/-- A latest-only store's acknowledgement, or its end, lets the next one to the cell go (R288). -/
def State.leaveQueue (s : State) (id core cell : Nat) : State :=
  let s := s.modCore core (fun c => { c with loq := c.loq.filter (fun x => x.sent != some id) })
  (s.sendHeld core cell).releaseLdlo core cell

/-! Issuing again what a fault's record held (R346, R350). -/

/-- Is it a latest-only store? -/
def ReqKind.isStlo : ReqKind → Bool
  | .stlo _ => true
  | _ => false
/-- A request goes for good; a latest-only store leaves its core's queue. -/
def State.dropReq (s : State) (id : Nat) (r : Req) : State :=
  if r.kind.isStlo then (s.delReq id).leaveQueue id r.core r.addr else s.delReq id
/-- A fault of a request, precisely (R10, R346): it stands until the record is answered when the fault parks its thread,
and goes otherwise. -/
def State.faultReq (s : State) (u id : Nat) (r : Req) (code cause level : Nat) : State :=
  let type := if code == fBARRIER then 3 else r.kind.acc.type
  if faultParks code cause type then
    (s.putReq id { r with phase := .faulted s.nextId, resv := false }).raiseAt u r.pc code cause r.va type level
  else (s.dropReq id r).raiseAt u r.pc code cause r.va type level
/-- The request of a thread that it is to issue again: its record has been answered (R350). -/
def State.reissues (s : State) (u : Nat) : Option (Nat × Req) :=
  List.find? (fun e => e.2.thread == some u && (match e.2.phase with
    | .faulted rec => s.answeredRecord rec
    | _ => false)) s.reqs
/-- The pc at which a thread meets a fault of what it issues: that of a request that it issues again, or its own. -/
def State.faultPc (s : State) (u : Nat) : Word :=
  match s.reissues u with
  | some (_, r) => r.pc
  | none => (s.threadAt u).pc
/-- A held request leaves again for a place, under a new name and with an entry of its own (R156, R350). -/
def State.issueAgain (s : State) (id : Nat) (r : Req) (p : Place) : State :=
  let die := dieOfCore r.core
  let s := if r.kind == .load || r.kind == .vload || r.kind == .store then s else s.dropLine r.core p.addr
  let cross := homeDie p.addr != die
  let c := s.clockOf die
  let k := if cross && r.kind.writes then s.countWrite die else (s, 0)
  k.1.rename id { r with
    phase := if !cross then .home else if (r.kind == .load || r.kind == .vload) && !p.lo then .egress else .ingress
    addr := p.addr, key := p.key, resv := !p.isLocal, install := r.install && p.cached, stale := r.stale || s.coreAcquiring r.core
    err := none, freed := false, laid := [], group := none, place := k.2, clock := c, absorbed := [] }
/-- A request that a fault's record held of a thread that has ended meanwhile goes out again (R61, R350), or is lost with the
fault that it meets. -/
def State.resend (s : State) (id : Nat) (r : Req) : State :=
  match s.engineReach r.core r.vf r.kind.acc 1 r.va with
  | (t, .ok p) =>
    if p.lo != r.lo || ((s.famAt (s.threadAt (r.thread.getD 0)).fam).level == 2 && (inTier2 p.addr || isHost p.addr)) then
      s.dropReq id r
    else t.issueAgain id r p
  | (_, .error _) => s.dropReq id r

/-- The return from a fault or trap (R350, R351): replay or resume makes the thread ready, with l0 := `val` when a
trap's answer sets it, and it issues again at its next turn what the fault held; abort ends it with the recorded fault. Of
a thread that has ended meanwhile, a held store completes all the same (R61). -/
def State.resumeThread (s : State) (u id : Nat) (rec : Record) (action : Nat) (setl0 : Bool) (val : Word) : State :=
  let held := s.reqs.filter (fun e => e.2.phase == .faulted id)
  if (s.threadAt u).ended.isSome then
    held.foldl (fun (s : State) e => if action == 1 || e.2.kind.isLoad then s.dropReq e.1 e.2 else s.resend e.1 e.2) s
  else if action == 1 then
    let w := (rec.body.getD 1 0#64).toNat
    (held.foldl (fun (s : State) e => s.dropReq e.1 e.2) s).endThread u
      (if rec.kind == 4 then .fault fTRAP 0 else .fault (bitsOf w 0 8) (bitsOf w 8 8))
  else
    let s := if rec.kind == 4 && setl0 then s.setLocal u 0 val else s
    s.modThread u (fun t => { t with wait := s.rewait u })

end Sys2Proof.Machine
end

