-- ==== Sys2Proof/Machine/Arena.lean ====
section
/-! DEFINITION. A family's descriptor as loads see it (R66, R67). -/

namespace Sys2Proof.Machine

/-- The first 128 bytes of an arena entry (R66): globals, or link results and the completion word once the end is fixed,
then the range, body, config, creator, progress and state. The slot of a link that is not used shows 0 after the end.
(DESIGN CHOICE, log entry 77) (DEDUCED, log entry 33) -/
def State.descriptor (s : State) (fk : Nat) : List Word :=
  let f := s.famAt fk
  let head : List Word :=
    match f.fixed with
    | none => (List.range 8).map (fun i => f.globals.getD i 0#64)
    | some w => (List.range 4).map (fun i => f.results.getD i 0#64) ++ [w] ++
        (List.range 3).map (fun i => f.globals.getD (5 + i) 0#64)
  let status := match f.fixed with
    | none => 0xFF
    | some w => fieldOf w 0 8
  let low := match f.broken with
    | none => 2 ^ 40 - 1
    | some (k, _) => k
  head ++ [word (famIdOf fk * 2 ^ 40 + f.first % 2 ^ 40), word f.count, word f.step, f.body, f.config, f.creator,
    word f.progress, word (low * 2 ^ 8 + status)]

/-- The bytes of a function's arena entry that holds an address, as a load finds them: the descriptor, then the work
area, whose contents the spec does not show a program. An entry never allocated is plain memory. (DEDUCED, log entry 33) -/
def State.arenaLine (s : State) (vf va : Nat) (key : Option Nat) (a : Nat) : Option (List Byte) :=
  let fk := vf * 2 ^ 24 + (va - (s.funcAt vf).arenaBase) / 256
  let off := va % 256 - va % 64
  match s.families.find? fk with
  | none => s.readLine key (lineOf a)
  | some _ =>
    if off < 128 then some ((wordBytes (s.descriptor fk)).drop off |>.take 64)
    else some ((List.range 64).map (Config.openByte s.fresh))

/-- The frame in which a function's arena holds a family's entry, as its page table leads there (R66). -/
def State.entryFrame? (s : State) (fk : Nat) : Option Place :=
  let vf := fk / 2 ^ 24
  (s.engineReach 0 vf .load 1 (word ((s.funcAt vf).arenaBase + fk % 2 ^ 24 * 256))).2.toOption
/-- Memory with a family's arena entry as it stands there: its descriptor, and a work area whose form is open (R66). -/
def State.entryShown (s : State) (fk : Nat) : State :=
  match s.entryFrame? fk with
  | some p => s.writeBytes p.key p.addr (wordBytes (s.descriptor fk) ++ (List.range 128).map (Config.openByte s.fresh))
  | none => s
/-- The allocated entry whose 256 bytes in HBM hold a physical address: arenas are aligned to pages, so one frame is asked
for each 16 entries. -/
def State.entryAt? (s : State) (a : Nat) : Option Nat :=
  ((s.families.map (fun e => e.1 / 16)).eraseDups).findSome? (fun g =>
    match s.entryFrame? (16 * g) with
    | none => none
    | some p =>
      let fk := 16 * g + a % 4096 / 256
      if p.addr / 4096 = a / 4096 && (s.families.find? fk).isSome then some fk else none)
/-- The bytes of a line as its home holds them for a load (R66, R149): an arena entry's bytes stand in its frame, whichever
address leads there. (DEDUCED, log entry 33) -/
def State.homeLine (s : State) (vf va : Nat) (key : Option Nat) (a : Nat) : Option (List Byte) :=
  if s.inArena vf va then s.arenaLine vf va key a
  else match s.entryAt? (lineOf a) with
    | some fk => (s.entryShown fk).readLine key (lineOf a)
    | none => s.readLine key (lineOf a)

end Sys2Proof.Machine
end

