-- ==== Sys2Proof/Machine/Operands.lean ====
section
/-! DEFINITION. The operand forms (R30, R31, R44) and the issue of an instruction: guard, privilege, readiness, consume
and advance (R16, R24, R34, R35, R57). -/

namespace Sys2Proof.Machine

/-! Operand forms. -/

/-- The bytes of an instruction (R17). -/
def lenBytes (m : Mods) : Nat := match m.len with
  | 0#2 => 4
  | 3#2 => 20
  | _ => 12
/-- The immediate of an I32 major (R30). -/
def imm32 (i : BitVec 14) (m : Mods) : Word := match m.len with
  | 0#2 => i.signExtend 64
  | 1#2 => m.w2.signExtend 64
  | _ => m.lit
/-- Operand B of the INT group (R31). -/
def State.opB (s : State) (b : BitVec 5) (imm : Bool) (m : Mods) : Word :=
  if imm then (if m.len = 1#2 then m.w2.signExtend 64 else m.lit) else s.gpr b
/-- The general sources of an INT function. -/
def intSources (a b : BitVec 5) (imm : Bool) : List (BitVec 5) := if imm then [a] else [a, b]
/-- The displacement of a form that takes it from word 2 in X96 and has none otherwise (R40, R44, R172, R267). -/
def disp (m : Mods) : Word := m.w2.signExtend 64
/-- A three-bit tile or vector number as a register field. -/
def reg3 (t : BitVec 3) : BitVec 5 := t.setWidth 5

/-! Issue. -/

/-- The registers that an instruction reads and writes, for its readiness (R34, R168): general sources in order, vector
registers, general destinations. -/
structure Need where
  src : List (BitVec 5) := []
  vec : List (BitVec 5) := []
  dst : List (BitVec 5) := []

/-- What stands in an instruction's way. -/
inductive Block where
  | none
  | link (cause : Nat)
  | read (r : Nat)
  | wait (w : Wait)
  deriving DecidableEq, Repr

/-- The first source that is not full decides: one that waits for a fill suspends the slot, and one that nothing will fill
faults LINK(1), whatever the later ones are (R34, R57). (DESIGN CHOICE, log entry 77) -/
def Thread.blockSrc (t : Thread) : List (BitVec 5) → Block
  | [] => .none
  | r :: rs => match t.fe r.toNat with
    | .full => Thread.blockSrc t rs
    | .pending _ => .read r.toNat
    | .empty => .link 1
/-- The first vector register that is pending. -/
def State.blockVec (s : State) : List (BitVec 5) → Block
  | [] => .none
  | v :: vs => if s.mySlot.vpend.get 0 v.toNat == 0 then s.blockVec vs else .wait (.vec v.toNat)
/-- The first destination that is pending; a shared that has been written (R78); a shared whose write is a release of
cluster scope or wider (R264). -/
def State.blockDst (s : State) : List (BitVec 5) → Block
  | [] => .none
  | r :: rs =>
    match s.cur.fe r.toNat with
    | .pending _ => .wait (.reg r.toNat)
    | x =>
      if 18 ≤ r.toNat ∧ r.toNat < 22 then
        if x == .full then .link 2
        else if (s.famAt s.cur.fam).place != 0 && !s.releaseReady s.uid then .wait .release
        else s.blockDst rs
      else s.blockDst rs
/-- The readiness of an instruction (R34). -/
def State.block (s : State) (n : Need) : Block :=
  match s.cur.blockSrc n.src with
  | .none => match s.blockVec n.vec with
    | .none => s.blockDst n.dst
    | x => x
  | x => x

/-- The slot suspends (R92). -/
def State.suspend (s : State) (w : Wait) : State := s.modCur (fun t => { t with wait := w, noHelp := false })
def State.await (s : State) (w : Wait) : Out := .next (s.suspend w)

/-- A read of a register that is empty with a fill pending: a waiter on a family, or on an `ldfe` whose owner its armed
reply named, looks for a task first (R89, R299 to R303). -/
def State.blockOn (s : State) (r : Nat) : State :=
  match s.cur.fe r with
  | .pending (.family h) =>
    let fk := s.famOfHandle s.cur.vf h
    match s.cycleFamily s.uid fk with
    | some c => s.raise fWAITCYCLE c h 3
    | none =>
      if s.mayHelp s.uid fk && s.hasTask fk then s.sendHelp s.uid fk none else s.suspend (.reg r)
  | .pending (.ldfe id _) =>
    let t := s.helpArmed s.uid id
    if t.cur.wait == .none then t.suspend (.reg r) else t
  | _ => s.suspend (.reg r)

/-- The next instruction's address. -/
def State.advance (s : State) (m : Mods) : State := s.modCur (fun t => { t with pc := t.pc + word (lenBytes m) })

/-- The registers that the set consume bits name become empty (R24, R35). -/
def State.consume (s : State) (m : Mods) (a b : BitVec 5) : State :=
  let s := if m.consA then s.emptyGpr a else s
  let s := if m.consB then s.emptyGpr b else s
  if m.consC then s.emptyGpr m.rc else s

/-- What the set consume bits take from the registers that they name, by register (R10, R24). -/
def State.spent (s : State) (m : Mods) (a b : BitVec 5) : List (Nat × Word) :=
  let one (c : Bool) (r : BitVec 5) : List (Nat × Word) := if c && r.toNat < 10 then [(r.toNat, s.gpr r)] else []
  one m.consA a ++ one m.consB b ++ one m.consC m.rc

/-- Does the guard hold (R25)? -/
def State.guardHolds (s : State) (m : Mods) : Bool := s.cur.getPred m.gpred != m.gsense

/-- Is the executing thread privileged (R324)? -/
def State.privileged (s : State) : Bool := s.cur.vf == 0

/-- The issue of an instruction whose encoding is legal (R57): a failed guard only advances (R16), a privileged
instruction or register at user level faults PRIV with its cause `priv`, an operand that is not ready suspends the slot or
faults LINK (R34); else the body decides. (DESIGN CHOICE, log entry 72) -/
def State.issue (s : State) (m : Mods) (priv : Nat) (n : Need) (body : Out) : Out :=
  match s.uid? with
  | none => .fault .noThread
  | some _ =>
    if !s.guardHolds m then .next (s.advance m)
    else if priv != 0 && !s.privileged then .next (s.raise fPRIV priv 0#64 3)
    else match s.block n with
      | .none => body
      | .link c => .next (s.raise fLINK c 0#64 3)
      | .read r => .next (s.blockOn r)
      | .wait w => s.await w

/-- The instruction completes: its consumes, the next instruction's address, and its effect (R35). -/
def State.finish (s : State) (m : Mods) (a b : BitVec 5) (f : State → State) : Out :=
  .next (f ((s.consume m a b).advance m))

/-- The instruction waits, and has issued: its next instruction's address, and its effect; what its consume bits name is
emptied once the wait is over (R106). -/
def State.finishOwing (s : State) (m : Mods) (a : BitVec 5) (f : State → State) : Out :=
  .next (f ((s.modCur (fun t => { t with owes := if m.consA && a.toNat < 10 then [a.toNat] else [] })).advance m))

/-- A fault of the executing instruction, as an outcome. -/
def State.fail (s : State) (code cause : Nat) (addr : Word) (type : Nat) : Out := .next (s.raise code cause addr type)

/-! Reservations, and the waits that hold an instruction before it reaches memory. -/

/-- Puts a slot at the end of an order of waiting slots, once. -/
def joinSlots (q : Nat) (qs : List Nat) : List Nat := if qs.contains q then qs else qs ++ [q]

/-- An instruction that needs `n` reservations: it takes them, or waits in the order of R157. -/
def State.withResv (s : State) (n : Nat) (body : State → Out) : Out :=
  if s.resvFree s.me n then
    body (s.modCore s.myCore (fun c => { c with resvWait := dropSlot s.me c.resvWait }))
  else
    (s.modCore s.myCore (fun c => { c with resvWait := joinSlots s.me c.resvWait })).await (.resv n)

/-- A memory instruction: it waits while an acquire of the thread is outstanding (R164), and, as a release, under the
release conditions. (DEDUCED, log entry 36) -/
def State.ordered (s : State) (rel : Bool) (body : Out) : Out :=
  if s.acquiring s.uid then s.await .acquire
  else if rel && !s.releaseReady s.uid then s.await .release
  else body

/-- The check and translation of an access by the executing thread (R160): its fault, its wait for a walk, DETERM(3)
at level 2 (R407), or the place. An access that waits on a walk holds an entry, and waits for one first (R156, R342). -/
def State.access (s : State) (acc : Acc) (align : Nat) (va : Word) (body : State → Place → Out) : Out :=
  let type := acc.type
  match s.reach s.uid s.myCore s.cur.vf acc align va with
  | .fault c k => s.fail c k va type
  | .miss s' w =>
    if s.resvFree s.me 1 then
      (s'.modCore s.myCore (fun c => { c with resvWait := dropSlot s.me c.resvWait })).await (.walk w)
    else (s.modCore s.myCore (fun c => { c with resvWait := joinSlots s.me c.resvWait })).await (.resv 1)
  | .ok s' p =>
    if (s.famAt s.cur.fam).level == 2 && (inTier2 p.addr || isHost p.addr) then s'.fail fDETERM 3 va type
    else body s' p

/-! The divide unit (R137, R138, R176). -/

/-- An operation on the core's divide unit: it waits for the unit in issue order, captures its result and flags at
issue, and leaves its destination pending. A vector destination is `vec`, and pins the thread. (DEDUCED, log entry 17) -/
def State.divide (s : State) (m : Mods) (a b d : BitVec 5) (vec : Bool) (val : VWord) (flags : BitVec 5)
    (more : State → State) : Out :=
  if s.divFree s.me then
    s.finish m a b (fun t => more
      (let t := t.modCore t.myCore (fun c => { c with
          divWait := dropSlot t.me c.divWait
          div := some { thread := t.uid, slot := t.me, rd := d.toNat, vec := vec, val := val, flags := flags } })
       if vec then (t.modSlot t.me (fun x => { x with vpend := x.vpend.put d.toNat 1 })).modCur
          (fun x => { x with vpin := true })
       else t.pendGpr d .divide))
  else (s.modCore s.myCore (fun c => { c with divWait := joinSlots s.me c.divWait })).await .divide

end Sys2Proof.Machine
end

