-- ==== Sys2Proof/Machine/Flags.lean ====
section
/-! DEFINITION. FSTAT, the effective rounding mode and the stochastic seed (R27, R128, R129, R235, R236). -/

namespace Sys2Proof.Machine

/-- Flags enter a thread's FSTAT; they are sticky (R129). -/
def State.orFlags (s : State) (u : Nat) (fl : Flags) : State := s.modThread u (fun t => { t with fstat := t.fstat ||| fl })

/-- FCTL's fields (R128). -/
def Thread.rmode (t : Thread) : Nat := bitsOf t.fctl.toNat 0 3
def Thread.ftz (t : Thread) : Bool := bitOf t.fctl.toNat 3
def Thread.daz (t : Thread) : Bool := bitOf t.fctl.toNat 4

/-- The effective rounding mode (R27, R131): the round field, or FCTL.rmode when it is zero. -/
def State.mode (s : State) (m : Mods) : Nat := if m.round = 0#3 then s.cur.rmode else m.round.toNat

/-- What lane or combination `d` of an instruction rounds with (R236). -/
def State.fenv (s : State) (m : Mods) (d : Nat) : FEnv :=
  { mode := s.mode m, daz := s.cur.daz, ftz := s.cur.ftz,
    draw := if s.mode m == 5 then drawOf s.cur.srseed.toNat d else 0 }

/-- An instruction that rounds stochastically adds 1 to SRSEED (R236). (DEDUCED, log entry 15) -/
def State.bumpSeed (s : State) (stochastic : Bool) : State :=
  if stochastic then s.modCur (fun t => { t with srseed := t.srseed + 1#64 }) else s

/-- A float result: its flags enter FSTAT, and a stochastic instruction captures its seed. -/
def State.floatDone (s : State) (m : Mods) (rounds : Bool) (fl : Flags) : State :=
  (s.orFlags s.uid fl).bumpSeed (rounds && s.mode m == 5)

end Sys2Proof.Machine
end

