-- ==== Sys2Proof/Machine/Home.lean ====
section
/-! DEFINITION. What homes do with requests: the order of service (R152, R158, R263), loads, stores, atomics (R268,
R269, R271), full/empty words (R166), tickets (R251), waits (R274), locks (R277), barriers (R280), hash accumulation
(R182, R183) and latest-only cells (R287 to R293). -/

namespace Sys2Proof.Machine

/-! The order of service. -/

/-- The home die lets a request pass once every write addressed to the die that its clock names has been applied (R263):
one from another die waits at the ingress, one from the die itself at its home. A core's own local store takes no write
from another die. The members of one combined request do not wait for each other (R271). (DEDUCED, log entry 20) -/
def State.ingressClear (s : State) (id : Nat) (r : Req) : Bool :=
  isLocalStore r.addr || s.caughtUp (homeDie r.addr) r.clock (fun j q => j == id || (r.group.isSome && q.group == r.group))
/-- Requests of one core to one home are served in issue order (R152), and so are the writes of one engine operation;
those of one combined request go together, and an `ldlo` that its core still holds is in no one's way (R296). -/
def State.inTurn (s : State) (id : Nat) (r : Req) : Bool :=
  !s.reqs.any (fun e => e.1 < id && e.2.core == r.core && e.2.engine == r.engine && e.2.unserved &&
    homeOf e.2.addr == homeOf r.addr && !(e.2.group.isSome && e.2.group == r.group) &&
    !(e.2.kind == .ldlo && e.2.phase == .egress))
/-- Writes over a CXL link that is down are held (R371). -/
def State.linkHeld (s : State) (r : Req) : Bool := r.kind.writes && s.linkDown r.addr
/-- A request to the vault of a cluster under repair stalls (R365, R366). -/
def State.vaultHeld (s : State) (r : Req) : Bool :=
  isVault r.addr && (s.clusterAt (vaultDie r.addr * 64 + vaultCluster r.addr)).removed
/-- May a home serve a request now? -/
def State.readyAtHome (s : State) (id : Nat) (r : Req) : Bool :=
  (r.phase == .home || r.phase == .ingress) && s.ingressClear id r && s.inTurn id r && !s.linkHeld r && !s.vaultHeld r
/-- The request that a home may serve now, when its kind is one that `p` selects; a combined request stands for all its
members (R271). -/
def State.atHome? (s : State) (id : Nat) (p : ReqKind → Bool) : Option Req :=
  match s.reqs.find? id with
  | none => none
  | some r =>
    if p r.kind && s.readyAtHome id r &&
      (r.group.isNone || s.reqs.all (fun e => e.2.group != r.group || s.readyAtHome e.1 e.2))
    then some r else none

/-- A home die learns a request's clock, with the places of the write itself and of those discarded for it (R263, R295). -/
def State.learn (s : State) (r : Req) : State :=
  let note (c : List Nat) (p : Nat × Nat) : List Nat := c.set p.1 (max p.2 (c.getD p.1 0))
  if r.crosses || !r.absorbed.isEmpty then
    s.tellDie (homeDie r.addr) (r.absorbed.foldl note (if r.place = 0 then r.clock else note r.clock (r.die, r.place)))
  else s
/-- A request becomes what its home makes of it; the reply carries the home die's clock (R263). -/
def State.homeDone (s : State) (id : Nat) (r r' : Req) : State :=
  let s := s.learn r
  s.putReq id { r' with clock := s.clockOf (homeDie r.addr) }
/-- Its reply or acknowledgement leaves. -/
def State.reply (s : State) (id : Nat) (r : Req) (data : List Byte) : State :=
  s.homeDone id r { r with phase := .replied, data := data }
/-- Its reply brings a fault. -/
def State.replyErr (s : State) (id : Nat) (r : Req) (code cause : Nat) : State :=
  s.homeDone id r { r with phase := .replied, err := some (code, cause) }
/-- It is armed or queued, and the "armed" reply leaves with the word's value (R167, R253, R275). -/
def State.armReq (s : State) (id : Nat) (r : Req) (w : Word) : State :=
  let t := s.homeDone id r { r with phase := .arming, opC := w, order := s.nextId }
  { t with nextId := s.nextId + 1 }

/-- A home's first checks: the key slot at its controller (R326), and an error in what the request reads (R346). (DEDUCED,
log entry 19) -/
def State.homeFault (s : State) (r : Req) (reads : Bool) : Option (Nat × Nat) :=
  if !s.keyReady r.key then some (fACCESS, 13)
  else if reads && s.poisoned r.addr (max r.size 1) then some (fMACHINE, 1)
  else none
/-- Serves a request whose checks pass; the home die has learned its clock before anything is answered (R263). -/
def State.serve (s : State) (id : Nat) (r : Req) (reads : Bool) (f : State → State) : State :=
  match s.homeFault r reads with
  | some (c, k) => s.replyErr id r c k
  | none => f (s.learn r)

/-! The egress (R262). -/

/-- The newest write that the egress of a die holds to a byte, of those that `p` selects, by its request. (DEDUCED, log
entry 20) -/
def State.heldAt (s : State) (die a : Nat) (p : Nat → Req → Bool) : Option (Nat × Byte) :=
  (s.reqs.filterMap (fun e =>
    if e.2.held die && e.2.addr ≤ a && a < e.2.addr + e.2.data.length && p e.1 e.2
    then some (e.1, e.2.data.getD (a - e.2.addr) 0#8) else none)).getLast?

/-! Loads and stores. -/

/-- A load is served with the line that holds its bytes (R149, R151). -/
def State.serveLoad (s : State) (id : Nat) (r : Req) : State :=
  s.serve id r true (fun s => (s.reply id r ((s.homeLine r.vf r.va.toNat r.key r.addr).getD [])).draw)
/-- Does a write of an engine operation meet an uncorrectable error at its home? Nothing is written then, and the operation
stops (R195). -/
def State.engineError (s : State) (r : Req) : Bool :=
  r.engine.isSome && r.engine != some agentName && s.badBytes r.addr r.size
/-- A store is applied (R152). -/
def State.serveStore (s : State) (id : Nat) (r : Req) : State :=
  s.serve id r false (fun s =>
    if s.engineError r then s.replyErr id r fMACHINE 1
    else (s.homeWrite r.vf r.va r.key r.addr r.data).reply id r [])

/-! Elements of reducing copies (R194). -/

/-- One element combined: destination or left operand `x`, source or right operand `y` (R194, R239, R376). -/
def combineElem (fmt oper : Nat) (env : FEnv) (x y : Nat) : Nat :=
  match fmtOf fmt with
  | .float f =>
    if oper = 0 then (f.add env (f.daz env.daz (f.decode x)) (f.daz env.daz (f.decode y))).1
    else (f.minMax (oper == 2) env.daz x y).1
  | .int sg w =>
    if oper = 0 then (x + y) % 2 ^ w
    else
      let less := if sg then signedN w y < signedN w x else y < x
      if oper = 1 then (if less then y else x) else (if less then x else if x = y then x else y)
  | .reserved => x
/-- What an element's request rounds with. -/
def Req.redEnv (r : Req) : FEnv := { mode := r.mode, daz := bitOf r.num 1, ftz := bitOf r.num 0, draw := r.seed.toNat }
/-- A copy's element is combined with its destination's at the home. -/
def State.serveRed (s : State) (id fmt oper : Nat) (r : Req) : State :=
  s.serve id r false (fun s =>
    if s.engineError r then s.replyErr id r fMACHINE 1
    else
    let old := ofBytes ((s.readBytes r.key r.addr r.size).getD [])
    (s.homeWrite r.vf r.va r.key r.addr (toBytes r.size (combineElem fmt oper r.redEnv old (ofBytes r.data)))).reply id r [])

/-! Window frames (R112, R113, R116). -/

/-- A frame is written at its spill place. -/
def State.serveFrameWrite (s : State) (id : Nat) (r : Req) : State := s.serveStore id r
/-- A frame is read back; an uncorrectable error in it gives MACHINE(3). -/
def State.serveFrameRead (s : State) (id : Nat) (r : Req) : State :=
  s.serve id r false (fun s =>
    if s.poisoned r.addr r.size then s.replyErr id r fMACHINE 3
    else s.reply id r ((s.readBytes r.key r.addr r.size).getD []))

/-! Atomics. -/

/-- The bytes and the float format, if any, of an atomic's func[5:0] (R267). -/
def atomBytes (op : Nat) : Nat := if op < 0x10 then 8 else if op < 0x20 then 4 else if op < 0x28 then 4 else 8
def atomFloat (op : Nat) : Option FloatFmt := if op < 0x20 then none else if op < 0x28 then some f32 else some f64
/-- An integer atomic's new value (R268). -/
def intAtom (op old b c : Nat) : Nat :=
  let w := 8 * atomBytes op
  match op % 16 with
  | 0 => (old + b) % 2 ^ w
  | 1 => old &&& b
  | 2 => old ||| b
  | 3 => old ^^^ b
  | 4 => if signedN w b < signedN w old then b else old
  | 5 => if signedN w old < signedN w b then b else old
  | 6 => min old b
  | 7 => max old b
  | 8 => b
  | _ => if old = b then c else old
/-- A float atomic's new value and flags (R269); daz and ftz do not apply. -/
def floatAtom (f : FloatFmt) (op mode draw old b : Nat) : FRes :=
  match op % 8 with
  | 0 => f.add { mode := mode, daz := false, ftz := false, draw := draw } (f.decode old) (f.decode b)
  | 1 => f.minMax false false old b
  | _ => f.minMax true false old b
/-- ⊕ of an atomic (R268, R269, R271). -/
def atomOp (op mode draw old b c : Nat) : FRes :=
  match atomFloat op with
  | some f => floatAtom f op mode draw old b
  | none => (intAtom op old b c, 0#5)
def Req.atomArg (r : Req) (w : Word) : Nat := fieldOf w 0 (8 * r.size)
def Req.atomDraw (r : Req) : Nat := if r.mode == 5 then drawOf r.seed.toNat 0 else 0

/-- The members of a closed combiner group, in the order in which they reached the combiner. -/
def State.groupOf (s : State) (id : Nat) (r : Req) : List Nat :=
  match List.find? (fun g => g.reqs.contains id) (s.clusterAt (clusterOfCore r.core)).groups with
  | some g => g.reqs
  | none => [id]
/-- v1 ⊕ … ⊕ vm with the flags of every step (R271). -/
def combined (op mode draw : Nat) : List Nat → FRes
  | [] => (0, 0#5)
  | v :: vs => vs.foldl (fun (acc : FRes) x =>
      let y := atomOp op mode draw acc.1 x 0
      (y.1, acc.2 ||| y.2)) (v, 0#5)
/-- An atomic, or a closed group of them, is applied in one step at the home (R268, R269, R271): the i-th of a group
receives o ⊕ v1 ⊕ … ⊕ v(i-1), and every one the flags of every step. -/
def State.serveAtom (s : State) (id op : Nat) (r : Req) : State :=
  s.serve id r true (fun s =>
    let n := r.size
    let old := ofBytes ((s.readBytes r.key r.addr n).getD [])
    match s.groupOf id r with
    | [] => s
    | [_] =>
      let y := atomOp op r.mode r.atomDraw old (r.atomArg r.opB) (r.atomArg r.opC)
      (s.homeWrite r.vf r.va r.key r.addr (toBytes n y.1)).reply id { r with flags := y.2 } (toBytes n old)
    | ids =>
      let arg (j : Nat) : Nat := match s.reqs.find? j with
        | some q => q.atomArg q.opB
        | none => 0
      let vs := ids.map arg
      let v := combined op r.mode r.atomDraw vs
      let y := atomOp op r.mode r.atomDraw old v.1 0
      let firsts := (List.range ids.length).map (fun i => combined op r.mode r.atomDraw (old :: vs.take i))
      let fl := firsts.foldl (fun acc x => acc ||| x.2) (v.2 ||| y.2)
      let s := s.homeWrite r.vf r.va r.key r.addr (toBytes n y.1)
      let s := s.modCluster (clusterOfCore r.core) (fun c => { c with
        groups := c.groups.filter (fun g => !g.reqs.contains id) })
      (ids.zip firsts).foldl (fun (s : State) e =>
        match s.reqs.find? e.1 with
        | some q => s.reply e.1 { q with flags := fl } (toBytes n e.2.1)
        | none => s) s)

/-! Full/empty words (R165, R166). -/

/-- The request that has been armed longest on a word, of those that `p` selects. -/
def State.oldestArmed (s : State) (a : Nat) (p : ReqKind → Bool) : Option (Nat × Req) :=
  (s.reqs.filter (fun e => e.2.isArmed && e.2.addr == a && p e.2.kind)).foldl
    (fun (acc : Option (Nat × Req)) e => match acc with
      | none => some e
      | some x => if e.2.order < x.2.order then some e else some x) none
/-- An armed request is answered, with the clock that the home die has then (R263). -/
def State.answerReq (s : State) (id : Nat) (data : List Byte) : State :=
  s.modReq id (fun r => { r with phase := .replied, data := data, clock := s.clockOf (homeDie r.addr) })
/-- A dword at a request's home, and a write of it that is no barrier instruction's. -/
def State.wordOf (s : State) (r : Req) : Word := s.dword r.key r.addr
def State.writeWord (s : State) (r : Req) (w : Word) : State := s.homeWrite r.vf r.va r.key r.addr (toBytes 8 w.toNat)

/-- The full word of a body (R165). -/
def fullWord (v : Word) : Word := word (2 ^ 63 + fieldOf v 0 63)
/-- `ldfe` at the home: a full word's body is replied, the word refilled from its oldest filler or emptied; on an empty
word the request is queued. -/
def State.serveLdfe (s : State) (id : Nat) (r : Req) : State :=
  s.serve id r true (fun s =>
    let w := s.wordOf r
    if bitOf w.toNat 63 then
      let body := toBytes 8 (fieldOf w 0 63)
      match s.oldestArmed r.addr (· == .stfe) with
      | some (j, q) => ((s.writeWord r (fullWord q.opB)).answerReq j []).reply id r body
      | none => (s.writeWord r 0#64).reply id r body
    else s.armReq id r w)
/-- `stfe` at the home: the oldest waiter takes the value, or an empty word is filled, or the request is queued. -/
def State.serveStfe (s : State) (id : Nat) (r : Req) : State :=
  s.serve id r true (fun s =>
    match s.oldestArmed r.addr (· == .ldfe) with
    | some (j, _) => ((s.writeWord r 0#64).answerReq j (toBytes 8 (fieldOf r.opB 0 63))).reply id r []
    | none =>
      if bitOf (s.wordOf r).toNat 63 then s.armReq id r (s.wordOf r)
      else (s.writeWord r (fullWord r.opB)).reply id r [])

/-! Tickets (R251) and waits (R274, R289). -/

def State.serveTkget (s : State) (id : Nat) (r : Req) : State :=
  s.serve id r true (fun s =>
    let w := s.wordOf r
    let t := fieldOf w 32 32
    (s.writeWord r (word ((t + 1) % 2 ^ 32 * 2 ^ 32 + fieldOf w 0 32))).reply id r (toBytes 8 t))
def State.serveTkadv (s : State) (id : Nat) (r : Req) : State :=
  s.serve id r true (fun s =>
    let w := s.wordOf r
    (s.writeWord r (word (fieldOf w 32 32 * 2 ^ 32 + (fieldOf w 0 32 + 1) % 2 ^ 32))).reply id r [])
/-- `tkwait`, `waiteq`, `waitne` and WAIT_SEQ: served at once, or armed, in one step with the comparison. -/
def State.serveWait (s : State) (id : Nat) (r : Req) : State :=
  s.serve id r true (fun s => if r.served (s.wordOf r) then s.reply id r [] else s.armReq id r (s.wordOf r))

/-! Locks (R277). -/

def State.serveLkacq (s : State) (id : Nat) (r : Req) : State :=
  s.serve id r true (fun s =>
    let w := s.wordOf r
    if w = 0#64 then (s.writeWord r r.opB).reply id r [] else s.armReq id r w)
def State.serveLkrel (s : State) (id : Nat) (r : Req) : State :=
  s.serve id r true (fun s =>
    match s.oldestArmed r.addr (· == .lkacq) with
    | some (j, q) => ((s.writeWord r q.opB).answerReq j []).reply id r []
    | none => (s.writeWord r 0#64).reply id r [])

/-! Barriers (R279 to R281). -/

/-- A barrier's state at its home; an empty one where nothing is kept. -/
def State.barrierAt (s : State) (a : Nat) : Barrier :=
  (List.find? (fun b => b.addr == a) s.barriers).getD ⟨a, [], 0, 0, 0⟩
def State.putBarrier (s : State) (b : Barrier) : State :=
  { s with barriers := s.barriers.filter (fun x => x.addr != b.addr) ++ [b] }
def Barrier.lead? (b : Barrier) (tag : Word) : Option Nat := (List.find? (fun e => e.1 == tag) b.leads).map Prod.snd
/-- An arrival is counted (R280). -/
def Barrier.count (b : Barrier) (tag : Word) : Barrier :=
  match b.lead? tag with
  | none => b
  | some n =>
    { b with
      arrived := if n = 0 then b.arrived + 1 else b.arrived
      early1 := if n = 1 then b.early1 + 1 else b.early1
      early2 := if n = 2 then b.early2 + 1 else b.early2
      leads := b.leads.map (fun e => if e.1 == tag then (e.1, n + 1) else e) }
/-- A phase completes: the early arrivals move up and every lead falls. -/
def Barrier.next (b : Barrier) : Barrier :=
  { b with arrived := b.early1, early1 := b.early2, early2 := 0, leads := b.leads.map (fun e => (e.1, e.2 - 1)) }
/-- The armed arrivals at a barrier, oldest first. -/
def State.armedArrivals (s : State) (a : Nat) : List (Nat × Req) :=
  (s.reqs.filter (fun e => e.2.isArmed && e.2.addr == a && e.2.kind == .barArrive)).mergeSort
    (fun x y => x.2.order ≤ y.2.order)
/-- complete() of R280; `n` bounds the phases, each of which uses up an arrival. -/
def State.completePhases (s : State) (r : Req) (a : Nat) : Nat → State
  | 0 => s
  | n + 1 =>
    let b := s.barrierAt a
    if b.leads.isEmpty || b.arrived != b.leads.length then s
    else
      let s := s.phaseWrite r.key a (s.dword r.key a + 1#64)
      let armed := s.armedArrivals a
      let s := s.putBarrier (armed.foldl (fun (b : Barrier) e => b.count e.2.opB) b.next)
      (armed.foldl (fun (s : State) e => s.answerReq e.1 []) s).completePhases r a n
/-- Arrivals that a barrier can still use up. -/
def State.arrivalsLeft (s : State) (a : Nat) : Nat :=
  ((s.barrierAt a).leads.map Prod.snd).sum + (s.armedArrivals a).length + 1
def State.completeAll (s : State) (r : Req) : State := s.completePhases r r.addr (s.arrivalsLeft r.addr)

def State.serveJoin (s : State) (id : Nat) (r : Req) : State :=
  s.serve id r true (fun s =>
    let b := s.barrierAt r.addr
    if (b.lead? r.opB).isSome then s.reply id r []
    else if 2 ^ 32 - 1 ≤ b.leads.length then s.replyErr id r fBARRIER 3
    else (s.putBarrier { b with leads := b.leads ++ [(r.opB, 0)] }).reply id r [])
def State.serveDrop (s : State) (id : Nat) (r : Req) : State :=
  s.serve id r true (fun s =>
    let b := s.barrierAt r.addr
    match b.lead? r.opB with
    | none => s.replyErr id r fBARRIER 2
    | some n =>
      ((s.putBarrier { b with
        arrived := if 1 ≤ n then b.arrived - 1 else b.arrived
        early1 := if 2 ≤ n then b.early1 - 1 else b.early1
        early2 := if n = 3 then b.early2 - 1 else b.early2
        leads := b.leads.filter (fun e => e.1 != r.opB) }).completeAll r).reply id r [])
def State.serveArrive (s : State) (id : Nat) (r : Req) : State :=
  s.serve id r true (fun s =>
    let b := s.barrierAt r.addr
    match b.lead? r.opB with
    | none => s.replyErr id r fBARRIER 1
    | some n =>
      if n = 3 then s.armReq id r (s.wordOf r)
      else ((s.putBarrier (b.count r.opB)).completeAll r).reply id r [])

/-! Hash accumulation (R181 to R183). -/

/-- Entry `e` of the table at `va`: its place, translated by the home; a launch at level 2 reaches no home in the second
tier or the host (R407). -/
def State.haccPlace (s : State) (r : Req) (e : Nat) : State × Except (Nat × Nat × Nat) Place :=
  match s.engineReach r.core r.vf .both 8 (r.va + word (64 + 8 * e)) with
  | (t, .error f) => (t, .error f)
  | (t, .ok p) =>
    if (s.famAt (s.threadAt (r.thread.getD 0)).fam).level == 2 && (inTier2 p.addr || isHost p.addr) then (t, .error (fDETERM, 3, 0))
    else (t, .ok p)
/-- One lane's probes from `j` on (R182): the state and whether it was applied, or the fault that a page meets. -/
def State.haccProbe (s : State) (r : Req) (f : Bool) (env : FEnv) (cap h key val : Nat) :
    Nat → Nat → Except (Nat × Nat) (State × Bool × Flags)
  | 0, _ => .ok (s, false, 0#5)
  | n + 1, j =>
    match s.haccPlace r ((h + j) % cap) with
    | (_, .error e) => .error (e.1, e.2.1)
    | (s, .ok p) =>
      let w := (s.dword p.key p.addr).toNat
      if w % 2 ^ 32 = key then
        let y : FRes := if f then f32.add env (f32.daz env.daz (f32.decode (w / 2 ^ 32))) (f32.daz env.daz (f32.decode val))
          else ((w / 2 ^ 32 + val) % 2 ^ 32, 0#5)
        .ok (s.homeWrite r.vf r.va p.key p.addr (toBytes 8 (y.1 * 2 ^ 32 + key)), true, y.2)
      else if w % 2 ^ 32 = 2 ^ 32 - 1 then
        let s := s.homeWrite r.vf r.va p.key p.addr (toBytes 8 (val * 2 ^ 32 + key))
        let hd := (s.wordOf r).toNat
        .ok (s.writeWord r (word (putBits hd 32 32 (hd / 2 ^ 32 + 1))), true, 0#5)
      else s.haccProbe r f env cap h key val n (j + 1)

/-- The mask of lanes that are not null (R182), from a lane on. -/
def liveFrom (i : Nat) (ps : List (Nat × Nat × Nat)) : Nat :=
  (ps.filter (fun p => i ≤ p.1 && p.2.1 != 2 ^ 32 - 1)).foldl (fun acc p => acc + 2 ^ p.1) 0
/-- The modes in which a lane of `hacc.f32` is added, with its draw (R183, R236). -/
def Req.laneEnv (r : Req) (i : Nat) : FEnv :=
  { mode := r.mode, daz := bitOf r.num 1, ftz := bitOf r.num 0, draw := if r.mode == 5 then drawOf r.seed.toNat i else 0 }
/-- Lanes (number, key, value) applied in order, with the stop rule: the state, the unapplied mask and the flags.
(DEDUCED, log entry 51) -/
def State.haccLanes (s : State) (r : Req) (f : Bool) (cap probe lg : Nat) (all : List (Nat × Nat × Nat)) :
    List (Nat × Nat × Nat) → Flags → Except (Nat × Nat) (State × Nat × Flags)
  | [], fl => .ok (s, 0, fl)
  | p :: ps, fl =>
    if p.2.1 = 2 ^ 32 - 1 then s.haccLanes r f cap probe lg all ps fl
    else
      let env := r.laneEnv p.1
      let h := p.2.1 * 0x9E3779B1 % 2 ^ 32 / 2 ^ (32 - lg)
      match s.haccProbe r f env cap h p.2.1 p.2.2 (min probe cap) 0 with
      | .error e => .error e
      | .ok (s, true, g) => s.haccLanes r f cap probe lg all ps (fl ||| g)
      | .ok (s, false, _) => .ok (s, liveFrom p.1 all, fl)

/-- `.u` may first combine the lanes that share a key (R183): whether it does, and in which order the values are added,
is a free choice; the sum stands at the lowest lane, and the others count as applied. The addition that brings in a
lane's value has that lane's draw (R236). (DEDUCED, log entry 51) -/
def foldKey (f : Bool) (env : Nat → FEnv) : List (Nat × Nat) → FRes
  | [] => (0, 0#5)
  | v :: vs => vs.foldl (fun (acc : FRes) x =>
      if f then
        let e := env x.1
        let y := f32.add e (f32.daz e.daz (f32.decode acc.1)) (f32.daz e.daz (f32.decode x.2))
        (y.1, acc.2 ||| y.2)
      else ((acc.1 + x.2) % 2 ^ 32, acc.2)) (v.2, 0#5)
/-- Removes the element at an index, cyclically, from a list. -/
def pickAt {α : Type} (i : Nat) (xs : List α) : Option (α × List α) :=
  match xs[i % xs.length]? with
  | some x => some (x, xs.eraseIdx (i % xs.length))
  | none => none
/-- A list in the order that choices name. -/
def reorder {α : Type} (choice : Nat → Nat) : Nat → List α → List α
  | 0, xs => xs
  | n + 1, xs =>
    match pickAt (choice n) xs with
    | some (x, rest) => x :: reorder choice n rest
    | none => xs
def combineKeys (f : Bool) (env : Nat → FEnv) (choice : Nat → Nat) : Nat → List (Nat × Nat × Nat) →
    List (Nat × Nat × Nat) × Flags
  | 0, ps => (ps, 0#5)
  | _, [] => ([], 0#5)
  | n + 1, p :: ps =>
    let same := ps.filter (fun q => q.2.1 == p.2.1)
    let y := if p.2.1 = 2 ^ 32 - 1 ∨ same.isEmpty then (p.2.2, 0#5)
      else foldKey f env (reorder choice (same.length + 1) ((p.1, p.2.2) :: same.map (fun q => (q.1, q.2.2))))
    let rest := if p.2.1 = 2 ^ 32 - 1 then ps else ps.filter (fun q => q.2.1 != p.2.1)
    let z := combineKeys f env choice n rest
    ((p.1, p.2.1, y.1) :: z.1, y.2 ||| z.2)

/-- `hacc` at the table's home. A page that faults leaves the table as it was, and the reply brings the fault. (DEDUCED,
log entry 51) -/
def State.serveHacc (s : State) (id : Nat) (u f : Bool) (r : Req) : State :=
  s.serve id r true (fun s =>
    let hd := (s.wordOf r).toNat
    let ps := (List.range 16).map (fun i => (i, lane 32 r.keys i, lane 32 r.vals i))
    let lg := bitsOf hd 0 5
    let probe := bitsOf hd 8 8
    if lg < 4 ∨ 24 < lg ∨ probe < 1 ∨ 64 < probe ∨ bitsOf hd 16 16 ≠ 0 ∨ bitsOf hd 5 3 ≠ 0 then
      s.reply id r (toBytes 8 (2 ^ 16 + liveFrom 0 ps))
    else
      let joins := u && Config.pairing s.fresh 0 % 2 == 1
      let c := if joins then combineKeys f r.laneEnv (fun i => Config.pairing s.fresh (i + 1)) 16 ps else (ps, 0#5)
      match s.haccLanes r f (2 ^ lg) probe lg c.1 c.1 c.2 with
      | .error (c, k) => s.replyErr id r c k
      | .ok (s, un, fl) => (s.reply id { r with flags := fl } (toBytes 8 un)).draw)

/-! Latest-only cells (R285, R287, R289, R292, R293). -/

/-- The class of a number against another (R292): 0 equal, 1 newer, 2 outside the window, 3 older. -/
def seqClass (s c : Nat) : Nat :=
  let d := (s + 2 ^ 32 - c % 2 ^ 32) % 2 ^ 32
  if d = 0 then 0 else if d < 2 ^ 31 then 1 else if d = 2 ^ 31 then 2 else 3
def State.numOf (s : State) (a : Nat) : Nat := s.nums.get 0 a

def State.serveLdlo (s : State) (id : Nat) (r : Req) : State :=
  s.serve id r true (fun s => s.reply id { r with num := s.numOf r.addr } (toBytes 8 (s.wordOf r).toNat))
/-- The record of SEQ(2) (R293). -/
def State.seqRecord (s : State) (r : Req) (md : Bool) : State :=
  let t := s.threadAt (r.thread.getD 0)
  s.addRecord { queue := r.vf, src := r.vf, kind := 6, die := homeDie r.addr, holder := .none, awaits := false,
                stage := .unclaimed, page := 0, level := 0,
                body := [r.va, word (r.num * 2 ^ 32 + s.numOf r.addr), r.opB, t.identity, word md.toNat, 0#64] }
def State.serveStlo (s : State) (id : Nat) (md : Bool) (r : Req) : State :=
  s.serve id r false (fun s =>
    let k := seqClass r.num (s.numOf r.addr)
    let s := if k = 1 then { s.writeWord r r.opB with nums := s.nums.set 0 r.addr (r.num % 2 ^ 32) }
      else if k = 2 then s.seqRecord r md else s
    let s := if md && k != 2 then s.answerWaits r.addr true else s
    s.reply id { r with outcome := if k = 1 then 0 else if k = 2 then 2 else 1 } [])

/-- A request leaves; one that writes on another die is counted through the egress (R263). -/
def State.dispatch (s : State) (r : Req) : State :=
  if r.crosses && r.kind.writes then
    let c := s.countWrite r.die
    c.1.addReq { r with place := c.2 }
  else s.addReq r

/-- A home serves a request, by its kind. -/
def State.serveReq (s : State) (id : Nat) (r : Req) : State :=
  match r.kind with
  | .load => s.serveLoad id r
  | .vload => s.serveLoad id r
  | .store => s.serveStore id r
  | .atom op => s.serveAtom id op r
  | .ldfe => s.serveLdfe id r
  | .stfe => s.serveStfe id r
  | .tkget => s.serveTkget id r
  | .tkwait => s.serveWait id r
  | .tkadv => s.serveTkadv id r
  | .wait _ => s.serveWait id r
  | .lkacq => s.serveLkacq id r
  | .lkrel => s.serveLkrel id r
  | .barJoin => s.serveJoin id r
  | .barArrive => s.serveArrive id r
  | .barDrop => s.serveDrop id r
  | .hacc u f => s.serveHacc id u f r
  | .ldlo => s.serveLdlo id r
  | .stlo md => s.serveStlo id md r
  | .waitSeq _ _ => s.serveWait id r
  | .frameWrite => s.serveFrameWrite id r
  | .frameRead => s.serveFrameRead id r
  | .red fmt oper _ => s.serveRed id fmt oper r
/-- A home serves a request that has come to its turn, when its kind is one that `p` selects. (DESIGN CHOICE, log entry 6) -/
def State.serveAtHome (s : State) (id : Nat) (p : ReqKind → Bool) : State :=
  match s.atHome? id p with
  | some r => s.serveReq id r
  | none => s

end Sys2Proof.Machine
end

