-- ==== Sys2Proof/Machine/Frame.lean ====
section
/-! DEFINITION. Window frames in memory (R110 to R116, R155): their form and seal, their way to the spill place and back
as requests, and what lands. -/

namespace Sys2Proof.Machine

/-! Frames. -/

/-- The frame's state word (R110). -/
def Frame.stateWord (f : Frame) : Word :=
  word (f.pred.toNat / 2 % 128 * 2 ^ 20 + (List.range 10).foldr (fun r acc => (f.locals.get FReg.zero r).code + 4 * acc) 0)
/-- Bytes 0x00 to 0x67 of a frame. -/
def Frame.bytes (f : Frame) : List Byte :=
  wordBytes ((List.range 10).map (fun r => (f.locals.get FReg.zero r).saved) ++ [f.lk, f.ret, f.stateWord])
/-- The check word of a frame's bytes 0x00 to 0x67 (R116): the low dword of the digest, whose first byte is the most
significant. (DEDUCED, log entry 25) -/
def frameCheck (bs : List Byte) (va : Nat) (key : Word) : Word :=
  word (ofBytes ((sm3 (bs ++ toBytes 8 va ++ toBytes 8 key.toNat)).drop 24).reverse)
/-- A frame as it is spilled: sealed, 128 bytes. -/
def Frame.sealed (f : Frame) (va : Nat) (key : Word) : List Byte :=
  f.bytes ++ toBytes 8 (frameCheck f.bytes va key).toNat ++ List.replicate 16 0#8
/-- The oldest resident frame of a slot, its depth over the slot's chain, and the rest. -/
def State.oldestFrame (s : State) (q : Nat) : Option (Frame × Nat) :=
  let x := s.slotAt q
  x.frames.getLast?.map (fun f => (f, s.slotDepth q - x.frames.length + 1))
/-- The function whose slot area a slot's frames go to. -/
def State.slotVf (s : State) (q : Nat) : Nat :=
  match (s.slotAt q).occ with
  | some u => (s.threadAt u).vf
  | none => 0
/-- Writes the oldest resident frame of a slot to its spill place (R111), or the fault that this meets, with the
place. -/
def State.spillOldest (s : State) (q : Nat) : Except (Nat × Nat × Nat × Nat) State :=
  match s.oldestFrame q with
  | none => .ok s
  | some (f, d) =>
    let va := s.spillPlace (s.slotVf q) q d
    match s.areaWrite q (s.slotVf q) va (f.sealed va (s.slotAt q).frameKey) with
    | .error e => .error (e.1, e.2.1, e.2.2, va)
    | .ok t => .ok (t.modSlot q (fun x => { x with frames := x.frames.dropLast }))
/-- Writes every resident frame of a slot to its spill place, oldest first. -/
def State.spillAll (s : State) (q : Nat) : Nat → Except (Nat × Nat × Nat × Nat) State
  | 0 => .ok s
  | n + 1 =>
    match s.spillOldest q with
    | .error e => .error e
    | .ok t => t.spillAll q n
/-! Frames as requests. -/

/-- The oldest resident frame of a slot that is not yet on its way to its spill place leaves for it: sealed, as one
request with an entry of its own, for thread `u` or, in an idle turn, for none; or the fault that its check meets, with
the place (R112, R115, R155, R156). It passes the core's data cache by. (DESIGN CHOICE, log entry 82) -/
def State.sendFrame (s : State) (q : Nat) (u : Option Nat) : Except (Nat × Nat × Nat × Nat) State :=
  let x := s.slotAt q
  let n := x.frames.length - x.flushing
  match x.frames[n - 1]? with
  | none => .ok s
  | some f =>
    let core := coreOfSlot q
    let va := s.spillPlace (s.slotVf q) q (s.slotDepth q + 1 - n)
    match s.areaReach core (s.slotVf q) (s.slotLevel q) .store va with
    | .error e => .error (e.1, e.2.1, e.2.2, va)
    | .ok (t, p) =>
      .ok ((t.dispatch { Req.blank with
        kind := .frameWrite, phase := if homeDie p.addr = dieOfCore core then .home else .ingress, vf := s.slotVf q
        core := core, slot := q, thread := u, addr := p.addr, va := word va, size := 128, key := p.key, resv := true
        data := f.sealed va x.frameKey, clock := s.clockOf (dieOfCore core)
        pc := (s.threadAt (u.getD 0)).pc }).modSlot q (fun x => { x with flushing := x.flushing + 1 }))
/-- The `n` oldest of them leave. -/
def State.sendFrames (s : State) (q : Nat) (u : Option Nat) : Nat → Except (Nat × Nat × Nat × Nat) State
  | 0 => .ok s
  | n + 1 =>
    match s.sendFrame q u with
    | .error e => .error e
    | .ok t => t.sendFrames q u n
/-- The executing thread's top frame is asked for from its spill place (R113); or the fault that this meets. -/
def State.askFrame (s : State) : Except (Nat × Nat × Nat × Nat) State :=
  let va := s.spillPlace s.cur.vf s.me (s.slotDepth s.me)
  match s.areaReach s.myCore s.cur.vf (s.slotLevel s.me) .load va with
  | .error e => .error (e.1, e.2.1, e.2.2, va)
  | .ok (t, p) =>
    .ok (t.dispatch { Req.blank with
      kind := .frameRead, phase := if homeDie p.addr = s.myDie then .home else .ingress, vf := s.cur.vf, core := s.myCore
      slot := s.me, thread := some s.uid, addr := p.addr, va := word va, size := 128, key := p.key, resv := true
      clock := s.clockOf s.myDie, pc := s.cur.pc })

/-! A frame read back. -/

/-- The newest `ldfe` of a thread that names a register and a word's address and that issued before the frame was made:
among its requests in flight and its fills that have landed (R86, R113). -/
def State.frameLdfe (s : State) (u r : Nat) (va : Word) : Nat :=
  let t := s.threadAt u
  let bound := t.calls.headD 0
  let out := (s.reqs.filter (fun e => e.2.thread == some u && e.2.kind == .ldfe && e.2.rd == r && e.2.va == va)).map Prod.fst
  let in' := t.landed.filterMap (fun e => match e.1 with
    | .ldfe id a => if a == va && e.2.1 == r then some id else none
    | _ => none)
  ((out ++ in').filter (· < bound)).foldl max 0
/-- A local that a frame read back from memory holds (R86, R110): its state's code, and what it waits on, as the thread's
fills that have landed since, whose family's entry may have passed to another, and its outstanding operations show it. -/
def State.frameLocal (s : State) (u r code : Nat) (v : Word) : FReg :=
  if code = 0 then ⟨v, .full⟩
  else if code = 2 then ⟨0#64, .empty⟩
  else
    let t := s.threadAt u
    let landed := t.landed.find? (fun e => e.2.1 == r && (match e.1 with
      | .family h => h == v
      | .link h _ => h == v
      | _ => false))
    if bitOf v.toNat 63 then ⟨0#64, .pending (.engine v)⟩
    else if bitOf v.toNat 62 then
      ⟨0#64, .pending (.ldfe (s.frameLdfe u r (v - 0x4000000000000000#64)) (v - 0x4000000000000000#64))⟩
    else
      match landed, (s.famAt (s.famOfHandle t.vf v)).deliver with
      | some e, _ => ⟨0#64, .pending e.1⟩
      | none, .thread _ _ links =>
        match List.find? (fun l => l.2 == r) links with
        | some (k, _) => ⟨0#64, .pending (.link v k)⟩
        | none => ⟨0#64, .pending (.family v)⟩
      | none, _ => ⟨0#64, .pending (.family v)⟩
/-- A frame from its bytes. -/
def State.frameOf (s : State) (u : Nat) (bs : List Byte) : Frame :=
  let w := dwords bs
  let st := (w.getD 12 0#64).toNat
  { locals := (List.range 10).foldl (fun (l : Tab FReg) r =>
      l.set FReg.zero r (s.frameLocal u r (bitsOf st (2 * r) 2) (w.getD r 0#64))) []
    lk := w.getD 10 0#64
    ret := w.getD 11 0#64
    pred := BitVec.ofNat 8 (2 * bitsOf st 20 7) }
/-- The checks of a frame read back (R116). -/
def frameGood (bs : List Byte) (va : Nat) (key : Word) : Bool :=
  let w := dwords bs
  let st := (w.getD 12 0#64).toNat
  w.getD 13 0#64 == frameCheck (bs.take 104) va key && st / 2 ^ 27 == 0 &&
  (List.range 10).all (fun r => bitsOf st (2 * r) 2 != 3) && (w.getD 11 0#64).toNat % 4 == 0

end Sys2Proof.Machine
end

