-- ==== Sys2Proof/Machine/Land.lean ====
section
/-! DEFINITION. What a core does with the replies, acknowledgements and answers that land (R34, R61, R86, R152, R253,
R258, R288, R297). -/

namespace Sys2Proof.Machine

/-- Has the thread that a landing is for been killed, so that it is discarded (R61)? -/
def State.discards (s : State) (r : Req) : Bool :=
  match r.thread with
  | some u => (s.threadAt u).ended == some .killed
  | none => false
/-- Has the thread ended by itself? What it loaded still fills its line, and a shared that it wrote goes on (R60, R151). -/
def State.gone (s : State) (u : Nat) : Bool := (s.threadAt u).ended.isSome

/-- The reply's bytes with the egress's held bytes over them (R262). -/
def Req.bytes (r : Req) : List Byte :=
  (List.range r.data.length).map (fun i => r.laid.get (r.data.getD i 0#8) i)
/-- The value that a load's line gives (R161, R162). -/
def Req.loaded (r : Req) : Word :=
  let n := ofBytes ((r.bytes.drop (r.addr % 64)).take r.size)
  if r.signed then sextN (8 * r.size) n else word n
/-- A value of a small reply: zero-extended, or sign-extended from its size. -/
def Req.value (r : Req) : Word := if r.signed then sextN (8 * r.size) (ofBytes r.data) else word (ofBytes r.data)

/-- A landing: the die learns the reply's clock (R263); an acquire makes the fills sent before it stale (R258), and at
package scope or wider marks the thread's boundary at its die's egress (R262). -/
def State.landed (s : State) (r : Req) : State :=
  let s := if r.crosses then s.tellDie r.die r.clock else s
  let s := if r.acq && 2 ≤ r.scope then s.staleFills r.core (fun _ => true) else s
  if r.acq && 4 ≤ r.scope then
    match r.thread with
    | some u => s.modThread u (fun t => { t with boundary := s.nextId })
    | none => s
  else s

/-- The fills of a line that a core asked for before request `id` do not follow what that request has brought (R255). -/
def State.staleOlder (s : State) (id : Nat) (r : Req) : State :=
  { s with reqs := s.reqs.map (fun e =>
      (e.1, if e.1 < id && e.2.core == r.core && lineOf e.2.addr == lineOf r.addr then { e.2 with stale := true } else e.2)) }
/-- A fill enters the data cache unless it is stale (R151, R152); one that comes from an egress alone leaves no line there,
for an older one would hide what the thread has seen (R255, R262). (DESIGN CHOICE, log entry 69) -/
def State.installLine (s : State) (id : Nat) (r : Req) : State :=
  let s := s.staleOlder id r
  if r.install && !r.stale then
    s.modCore r.core (fun c => { c with dcache := c.dcache.fill dWays (lineOf r.addr) (BitVec.ofNat 512 (ofBytes r.bytes)) })
  else if r.laid.isEmpty then s
  else s.modCore r.core (fun c => { c with dcache := c.dcache.drop dWays (lineOf r.addr) })

/-- Bytes of a vector register replaced. -/
def laneBytes (v : VWord) (ls : List (Nat × Nat × Nat)) (line : List Byte) : VWord :=
  ls.foldl (fun (v : VWord) l =>
    BitVec.ofNat 512 (putBits v.toNat (8 * l.1) (8 * l.2.2) (ofBytes ((line.drop l.2.1).take l.2.2)))) v
/-- A line lands in a pending vector register (R168). -/
def State.landVector (s : State) (q v : Nat) (ls : List (Nat × Nat × Nat)) (line : List Byte) : State :=
  s.modSlot q (fun x => { x with
    vecs := x.vecs.set 0#512 v (laneBytes (x.vecs.get 0#512 v) ls line)
    vpend := x.vpend.set 0 v (x.vpend.get 0 v - 1) })

/-- A reply that brings a fault: the wait, lock or barrier instruction takes it as its own, precisely; any other request
stands until the record is answered, or goes with its thread. It lands once everything that the thread issued before it
has completed (R10), and what a wait, lock or barrier instruction consumed is back; a thread that has ended takes no
fault, and a shared that waited for the value stays empty.
(DEDUCED, log entry 80) -/
def State.landErr (s : State) (id : Nat) (r : Req) (code cause : Nat) : State :=
  match r.thread with
  | none => s.delReq id
  | some u =>
    let type := if code == fBARRIER then 3 else r.kind.acc.type
    if s.gone u then
      let s := s.delReq id
      if r.kind.isLoad && 18 ≤ r.rd && r.rd < 22 then s.sendDep (s.threadAt u) (r.rd - 18) none else s
    else if !s.earlierDone u (r.issued id) id then s
    else if r.kind.isReply then
      ((s.delReq id).modThread u (fun t => r.undo.foldl (fun (t : Thread) e => t.setReg e.1 ⟨e.2, .full⟩)
        { t with pc := r.pc })).raiseFor u code cause r.va type 0
    else s.faultReq u id r code cause 0

/-- A reply that fills registers lands (R34, R162, R166, R168, R182, R251, R268). -/
def State.landData (s : State) (id : Nat) (r : Req) : State :=
  let u := r.thread.getD 0
  let s := (s.delReq id).landed r
  match r.kind with
  | .load => (s.installLine id r).landGpr u r.rd r.loaded
  | .vload => if s.gone u then s.installLine id r else (s.installLine id r).landVector r.slot r.rd r.lanes r.bytes
  | .atom _ => (s.landGpr u r.rd r.value).orFlags u r.flags
  | .hacc _ _ => (s.landGpr u r.rd r.value).orFlags u r.flags
  | _ => s.landGpr u r.rd r.value

/-- Is a reply of a level-2 launch held until its fixed time (R320)? (DESIGN CHOICE, log entry 45) -/
def State.timed (s : State) (r : Req) : Bool :=
  !r.freed && (match r.thread with
    | some u => (s.famAt (s.threadAt u).fam).level == 2
    | none => false)
/-- LEVEL2_REPLY_RELEASE: the fixed time of a reply has come (R320). (DESIGN CHOICE, log entry 45) -/
def State.releaseReply (s : State) (id : Nat) : State :=
  match s.reqs.find? id with
  | some r => if r.phase == .replied then s.putReq id { r with freed := true } else s
  | none => s
/-- A reply, acknowledgement or answer lands, when its request is one that `p` selects: discarded for a thread that was
killed, a fault, or `f`. -/
def State.land (s : State) (id : Nat) (p : ReqKind → Bool) (f : State → Req → State) : State :=
  match s.reqs.find? id with
  | none => s
  | some r =>
    if !p r.kind || r.phase != .replied || s.timed r then s
    else if s.discards r then (s.delReq id).landed r
    else
      match r.err with
      | some (c, k) => s.landErr id r c k
      | none => f s r

/-- The fault that a frame's reply brings, if any: the home's, or that of a frame read back which fails its check (R113,
R116). -/
def State.frameFault (s : State) (r : Req) : Option (Nat × Nat) :=
  match r.err with
  | some e => some e
  | none =>
    if r.kind == .frameRead && !frameGood r.data r.va.toNat (s.slotAt r.slot).frameKey then some (fMACHINE, 5) else none
/-- A frame's request lands. Once nothing of the slot's frames is on its way, those written are resident no longer (R112,
R115); a frame read back is resident when it passes its check (R113, R116). A fault leaves the frames resident: the
thread takes it at its instruction, once every earlier one has completed (R10), and an idle turn's spill is given up with
no further one (R155). (DEDUCED, log entry 80) -/
def State.landFrame (s : State) (id : Nat) (r : Req) : State :=
  if r.phase != .replied || s.timed r then s
  else
    let live := r.thread.filter (fun u => !s.gone u)
    match s.frameFault r, live with
    | some (c, k), some u =>
      if !s.earlierDone u id id then s
      else (((s.delReq id).landed r).modSlot r.slot (fun x => { x with flushing := 0 })).raiseAt u r.pc c k r.va r.kind.acc.type 0
    | some _, none =>
      ((s.delReq id).landed r).modSlot r.slot (fun x => { x with
        flushing := 0, noSpill := x.noSpill || r.thread.isNone })
    | none, u =>
      let s := (s.delReq id).landed r
      if r.kind == .frameWrite then
        if s.framesOut r.slot then s
        else s.modSlot r.slot (fun x => { x with frames := x.frames.take (x.frames.length - x.flushing), flushing := 0 })
      else
        match u with
        | some u => (s.markFrame r.slot).modSlot r.slot (fun x => { x with frames := [s.frameOf u r.data] })
        | none => s
/-- Is it a request whose reply fills registers at once (REPLY_LANDS)? -/
def ReqKind.fills : ReqKind → Bool
  | .load => true
  | .vload => true
  | .atom _ => true
  | .tkget => true
  | .hacc _ _ => true
  | _ => false
/-- Is it a request that is only acknowledged (STORE_ACKNOWLEDGED)? -/
def ReqKind.acked : ReqKind → Bool
  | .store => true
  | .tkadv => true
  | .lkrel => true
  | .red _ _ _ => true
  | _ => false
/-- Is it a request that a served, acquired, counted or fill answer ends (SERVED_ANSWER_LANDS)? -/
def ReqKind.answered : ReqKind → Bool
  | .ldfe => true
  | .stfe => true
  | k => k.isReply

/-- REPLY_LANDS: registers fill, or a frame comes back. -/
def State.landReply (s : State) (id : Nat) : State :=
  match s.reqs.find? id with
  | some r => if r.kind == .frameRead then s.landFrame id r else s.land id ReqKind.fills (fun s r => s.landData id r)
  | none => s
/-- STORE_ACKNOWLEDGED: a store is complete, or a frame is in its spill place. -/
def State.landAck (s : State) (id : Nat) : State :=
  match s.reqs.find? id with
  | some r => if r.kind == .frameWrite then s.landFrame id r else s.land id ReqKind.acked (fun s r => (s.delReq id).landed r)
  | none => s
/-- An answer lands: an acquire empties the data cache of the core where its thread is, or resumes (R153, R252, R275,
R278), and a full/empty load takes its value; one whose thread has moved meanwhile acquires where it is now. The record of
a waiter that rests in memory takes it too: the value, or that its wait is over (R302). -/
def State.landAnswer (s : State) (id : Nat) : State :=
  s.land id ReqKind.answered (fun s r =>
    let s := (s.delReq id).landed r
    let u := r.thread.getD 0
    let moved := (s.threadAt u).slot?.map coreOfSlot != some r.core
    let s := if (r.kind.isReply || moved) && r.acq && 2 ≤ r.scope then s.emptyFor u else s
    if r.kind == .ldfe then s.landFill u r.rd (.ldfe id r.va) (word (ofBytes r.data))
    else if r.kind.isReply then s.syncRecord u else s)

/-- An "armed" reply lands: the reservation is free (R167, R253, R275), and a waiter that the reply names an owner to
looks for a task (R299 to R303). -/
def State.landArmed (s : State) (id : Nat) : State :=
  match s.reqs.find? id with
  | none => s
  | some r =>
    if r.phase != .arming then s
    else
      let s := s.putReq id { r with phase := .armed, resv := false }
      let s := if r.crosses then s.tellDie r.die r.clock else s
      match r.thread with
      | none => s
      | some u =>
        let t := s.threadAt u
        if t.ended.isNone && (t.wait == .reply id || (r.kind == .ldfe && t.wait == .reg r.rd)) then s.helpArmed u id
        else s

/-! Latest-only cells at the core (R288, R296, R297). -/

/-- A superseded or out-of-window `stlo.md` is noted in its thread's ADOPTMAX (R298). -/
def State.noteMarker (s : State) (u outcome : Nat) (md : Bool) : State :=
  if md && outcome != 0 then s.modThread u (fun t => { t with mdsup := true }) else s
/-- A latest-only acknowledgement lands: the store leaves the queue, and the next held one is sent (R287, R288). A fault
comes once every earlier instruction of the thread has completed, and one that parks the thread keeps the store in flight
until it is issued again (R10, R346). (DEDUCED, log entry 80) -/
def State.landLatest (s : State) (id : Nat) : State :=
  match s.reqs.find? id with
  | none => s
  | some r =>
    match r.kind with
    | .stlo md =>
      if r.phase != .replied || s.timed r then s
      else
        let u := r.thread.getD 0
        match r.err with
        | some (c, k) =>
          if s.gone u then (s.landed r).dropReq id r
          else if !s.earlierDone u (r.issued id) id then s
          else (s.landed r).faultReq u id r c k 0
        | none => (((s.delReq id).landed r).noteMarker u r.outcome md).leaveQueue id r.core r.addr
    | _ => s

/-- The slot's read table after a cell has been read with a number: most recently used first, at most 16 (R297). -/
def readTouch (tab : List ReadEntry) (cell num : Nat) (busy : Nat → Bool) : List ReadEntry :=
  let others := tab.filter (fun e => e.cell != cell)
  if tab.length < 16 || tab.any (fun e => e.cell == cell) then ⟨cell, num⟩ :: others
  else
    match (tab.reverse.find? (fun e => !busy e.cell)) with
    | some v => ⟨cell, num⟩ :: tab.filter (fun e => e.cell != v.cell)
    | none => tab
/-- The number that a slot's read table holds for a cell. -/
def Slot.readNum? (x : Slot) (cell : Nat) : Option Nat :=
  (List.find? (fun e => e.cell == cell) x.readTab).map ReadEntry.num
/-- An `ldlo` reply lands (R297): one older than the read table's entry is asked for again, as a new request; any other is
written, and takes the cell's entry of the read table then (DESIGN CHOICE, log entry 83). -/
def State.landLdlo (s : State) (id : Nat) : State :=
  s.land id (· == .ldlo) (fun s r =>
    let x := s.slotAt r.slot
    let older := match x.readNum? r.addr with
      | some n => seqClass r.num n != 0 && seqClass r.num n != 1
      | none => false
    if older then
      s.rename id { r with phase := if r.crosses then .ingress else .home, clock := s.clockOf r.die, freed := false }
    else
      let u := r.thread.getD 0
      let s := (s.delReq id).landed r
      let busy (c : Nat) : Bool := s.hasReq u (fun q => q.kind == .ldlo && q.addr == c)
      let s := if s.gone u then s
        else s.modSlot r.slot (fun x => { x with readTab := readTouch x.readTab r.addr r.num busy })
      (s.landGpr u r.rd r.value).landGpr u r.rc (word r.num))

end Sys2Proof.Machine
end

