-- ==== Sys2Proof/Machine/Memory.lean ====
section
/-! DEFINITION. The scalar memory instructions as they issue: loads and stores (R161 to R164), `ldfe` and `stfe` (R166),
latest-only accesses (R286 to R297) and `fence` (R260). -/

namespace Sys2Proof.Machine

/-! Requests. -/

/-- What a memory instruction asks for: kind, bytes, scope code, and whether it is an acquire or a release. -/
structure Ask where
  kind  : ReqKind
  size  : Nat
  scope : Nat := 0
  acq   : Bool := false
  rel   : Bool := false
  deriving DecidableEq, Repr

/-- Is it an acquire at cluster scope or wider (R153)? -/
def Ask.wide (k : Ask) : Bool := k.acq && 2 ≤ k.scope

/-- The executing thread's request for a place (R156, R258, R262, R263). The line that an acquire at cluster scope or wider
asks for is stale itself. (DESIGN CHOICE, log entry 69) -/
def State.request (s : State) (k : Ask) (p : Place) (va : Word) : Req :=
  { Req.blank with
    kind := k.kind
    phase := if homeDie p.addr = s.myDie then .home
      else if (k.kind == .load || k.kind == .vload) && !p.lo then .egress else .ingress
    vf := s.cur.vf, core := s.myCore, slot := s.me, thread := some s.uid, addr := p.addr, va := va, size := k.size
    lo := p.lo, key := p.key, resv := !p.isLocal, stale := k.wide || s.coreAcquiring s.myCore
    scope := k.scope, acq := k.acq, rel := k.rel, clock := s.clockOf s.myDie, bound := s.cur.boundary, pc := s.cur.pc }

/-- A request leaves. One to the core's own local store is applied by the core at once (R146, R270), but for those whose
thread waits for the reply, which are applied at once and answered later. (DESIGN CHOICE, log entry 74) -/
def State.post (s : State) (r : Req) : State :=
  let id := s.nextId
  let t := s.dispatch r
  if !isLocalStore r.addr then t
  else
    let t := t.serveAtHome id (fun _ => true)
    if r.kind.isReply then t else (((t.landReply id).landAck id).landAnswer id).landArmed id

/-- The issue of an acquire at cluster scope or wider empties the core's data cache (R153). -/
def State.acquireIssue (s : State) (wide : Bool) : State := if wide then s.emptyCache s.myCore else s
/-- The line of an atomic, full/empty, wait, ticket, lock or barrier operation becomes invalid at its issue (R152). -/
def State.dropPlace (s : State) (p : Place) : State := if p.isLocal then s else s.dropLine s.myCore p.addr

/-- An operation at a word's home that no latest-only page takes (R251, R268, R274, R291). -/
def State.homeAccess (s : State) (rel : Bool) (size : Nat) (ea : Word) (body : State → Place → Out) : Out :=
  s.ordered rel (s.access .both size ea (fun s p =>
    if p.lo then s.fail fACCESS 6 ea 1
    else s.withResv (if p.isLocal then 0 else 1) (fun s => body s p)))

/-! Loads. -/

/-- A hit in the data cache: the slot waits for no reservation any longer (R157), and the thread has seen the stores of
its core's other slots to the bytes that their homes have not yet applied (R259, R261). (DEDUCED, log entry 79) -/
def State.noteHit (s : State) (a n : Nat) : State :=
  (s.modCore s.myCore (fun c => { c with resvWait := dropSlot s.me c.resvWait })).sees s.uid
    ((s.reqs.filter (fun e => e.2.core == s.myCore && e.2.kind == .store && e.2.unserved && e.2.thread != some s.uid &&
      e.2.addr < a + n && a < e.2.addr + e.2.data.length)).map Prod.fst)

/-- The bytes of a line in the data cache, from an address. -/
def lineBytes (l : VWord) (a n : Nat) : List Byte := ((toBytes 64 l.toNat).drop (a % 64)).take n
def extend (signed : Bool) (bs : List Byte) : Word :=
  if signed then sextN (8 * bs.length) (ofBytes bs) else word (ofBytes bs)

/-- A load of an address by the form that read it (R162): from the local store or the data cache at once, or by a request
to the home. -/
def State.load (s : State) (m : Mods) (src : List (BitVec 5)) (a b d : BitVec 5) (ea : Word) (size : Nat)
    (signed : Bool) : Out :=
  let k : Ask := { kind := .load, size := size, scope := m.scope.toNat, acq := m.scope != 0#3 }
  s.issue m 0 { src := src, dst := [d] }
    (s.ordered false (s.access .load size ea (fun s p =>
      let hit := if p.cached && !p.isLocal && !k.wide then (s.coreAt s.myCore).dcache.hit? dWays (lineOf p.addr) else none
      if p.isLocal then
        s.finish m a b (fun t => ((t.acquireIssue k.wide).writeGpr d (extend signed (s.peek p.addr size))).landed
          { s.request k p ea with clock := [] })
      else
        match hit with
        | some (l, c) => s.finish m a b (fun t =>
            ((t.noteHit p.addr size).modCore s.myCore (fun x => { x with dcache := c })).writeGpr d
              (extend signed (lineBytes l p.addr size)))
        | none => s.withResv 1 (fun s =>
            let r := { s.request k p ea with install := p.cached, signed := signed, rd := d.toNat }
            s.finish m a b (fun t => ((t.acquireIssue k.wide).pendGpr d (.load t.nextId)).post r)))))

/-- A store of the low bytes of a register (R162): through the data cache to the home. (DESIGN CHOICE, log entry 74) -/
def State.store (s : State) (m : Mods) (src : List (BitVec 5)) (a b d : BitVec 5) (ea : Word) (size : Nat) : Out :=
  let k : Ask := { kind := .store, size := size, scope := m.scope.toNat, rel := m.scope != 0#3 }
  let bs := toBytes size (s.gpr d).toNat
  s.issue m 0 { src := src ++ [d] }
    (s.ordered k.rel (s.access .store size ea (fun s p =>
      if p.lo then s.fail fACCESS 6 ea 1
      else if p.isLocal then s.finish m a b (fun t => t.homeWrite s.cur.vf ea none p.addr bs)
      else s.withResv 1 (fun s =>
        let r := { s.request k p ea with data := bs }
        s.finish m a b (fun t => (t.storeLine s.myCore p.addr bs).post r)))))

/-- The address of an I32 memory form: ra plus the immediate (R162). -/
def State.dispAddr (s : State) (a : BitVec 5) (i : BitVec 14) (m : Mods) : Word := s.gpr a + imm32 i m
def State.loadDisp (s : State) (size : Nat) (signed : Bool) (d a : BitVec 5) (i : BitVec 14) (m : Mods) : Out :=
  s.load m [a] a 27#5 d (s.dispAddr a i m) size signed
def State.storeDisp (s : State) (size : Nat) (d a : BitVec 5) (i : BitVec 14) (m : Mods) : Out :=
  s.store m [a] a 27#5 d (s.dispAddr a i m) size

def execLdB (d a : BitVec 5) (i : BitVec 14) (m : Mods) (s : State) : Out := s.loadDisp 1 true d a i m
def execLdBu (d a : BitVec 5) (i : BitVec 14) (m : Mods) (s : State) : Out := s.loadDisp 1 false d a i m
def execLdH (d a : BitVec 5) (i : BitVec 14) (m : Mods) (s : State) : Out := s.loadDisp 2 true d a i m
def execLdHu (d a : BitVec 5) (i : BitVec 14) (m : Mods) (s : State) : Out := s.loadDisp 2 false d a i m
def execLdW (d a : BitVec 5) (i : BitVec 14) (m : Mods) (s : State) : Out := s.loadDisp 4 true d a i m
def execLdWu (d a : BitVec 5) (i : BitVec 14) (m : Mods) (s : State) : Out := s.loadDisp 4 false d a i m
def execLdD (d a : BitVec 5) (i : BitVec 14) (m : Mods) (s : State) : Out := s.loadDisp 8 false d a i m
def execStB (d a : BitVec 5) (i : BitVec 14) (m : Mods) (s : State) : Out := s.storeDisp 1 d a i m
def execStH (d a : BitVec 5) (i : BitVec 14) (m : Mods) (s : State) : Out := s.storeDisp 2 d a i m
def execStW (d a : BitVec 5) (i : BitVec 14) (m : Mods) (s : State) : Out := s.storeDisp 4 d a i m
def execStD (d a : BitVec 5) (i : BitVec 14) (m : Mods) (s : State) : Out := s.storeDisp 8 d a i m

/-- The bytes that a MEMX size code names, and whether a load of it is sign-extended (R161). -/
def sizeBytes (z : BitVec 3) : Nat := 2 ^ (z.toNat / 2)
def sizeSigned (z : BitVec 3) : Bool := z.toNat % 2 == 0 && z != 6#3
/-- The address of an indexed form: ra + rb × s, plus the displacement of X96 (R44). -/
def State.indexAddr (s : State) (sc : BitVec 2) (a b : BitVec 5) (m : Mods) : Word :=
  s.gpr a + s.gpr b * word (2 ^ sc.toNat) + disp m
def execLdIndexed (sc : BitVec 2) (z : BitVec 3) (d a b : BitVec 5) (m : Mods) (s : State) : Out :=
  s.load m [a, b] a b d (s.indexAddr sc a b m) (sizeBytes z) (sizeSigned z)
def execStIndexed (sc : BitVec 2) (z : BitVec 3) (d a b : BitVec 5) (m : Mods) (s : State) : Out :=
  s.store m [a, b] a b d (s.indexAddr sc a b m) (sizeBytes z)

/-! Full/empty words (R166). -/

def execLdfe (d a : BitVec 5) (i : BitVec 14) (m : Mods) (s : State) : Out :=
  let ea := s.dispAddr a i m
  let k : Ask := { kind := .ldfe, size := 8, scope := m.scope.toNat, acq := m.scope != 0#3 }
  s.issue m 0 { src := [a], dst := [d] }
    (s.homeAccess false 8 ea (fun s p =>
      let r := { s.request k p ea with rd := d.toNat }
      s.finish m a 27#5 (fun t => (((t.dropPlace p).acquireIssue k.wide).pendGpr d (.ldfe t.nextId ea)).post r)))
def execStfe (d a : BitVec 5) (i : BitVec 14) (m : Mods) (s : State) : Out :=
  let ea := s.dispAddr a i m
  let k : Ask := { kind := .stfe, size := 8, scope := m.scope.toNat, rel := m.scope != 0#3 }
  let v := s.gpr d
  s.issue m 0 { src := [a, d] }
    (s.homeAccess k.rel 8 ea (fun s p =>
      let r := { s.request k p ea with opB := v }
      s.finish m a 27#5 (fun t => (t.dropPlace p).post r)))

/-! Latest-only accesses (R286 to R297). -/

/-- The check of a latest-only access: a page without the attribute faults ACCESS(7) (R287). (DEDUCED, log entry 21) -/
def State.latestAccess (s : State) (rel : Bool) (acc : Acc) (ea : Word) (body : State → Place → Out) : Out :=
  s.ordered rel (s.access acc 8 ea (fun s p => if !p.lo then s.fail fACCESS 7 ea acc.type else body s p))

/-- `ldlo`: behind the core's held stores to the cell (R296), and within the slot's read table (R297). -/
def execLdlo (d a : BitVec 5) (m : Mods) (s : State) : Out :=
  let ea := s.gpr a + disp m
  let k : Ask := { kind := .ldlo, size := 8, scope := m.scope.toNat, acq := m.scope != 0#3 }
  s.issue m 0 { src := [a], dst := [d, m.rc] }
    (s.latestAccess false .load ea (fun s p =>
      let out := s.reqs.any (fun e => e.2.slot == s.me && e.2.kind == .ldlo && e.2.addr == p.addr)
      if !out && 16 ≤ s.readOut s.me then s.await .readTable
      else s.withResv 1 (fun s =>
        let held := (s.coreAt s.myCore).loq.any (fun x => x.cell == p.addr && x.sent.isNone)
        let r := { s.request k p ea with rd := d.toNat, rc := m.rc.toNat }
        let r := { r with phase := if held then .egress else r.phase }
        s.finish m a 27#5 (fun t =>
          (((t.acquireIssue k.wide).pendGpr d (.load t.nextId)).pendGpr m.rc (.load t.nextId)).post r))))

/-- A latest-only store passes to the core's store queue, under a name of its own (R288). The store that supersedes
another stands for it in what its thread, and the threads that it stood for, have written (R266). (DEDUCED, log entry 21) -/
def State.queueLatest (s : State) (x : LoStore) : State :=
  let c := s.coreAt s.myCore
  let beats (n k : Nat) : Bool := seqClass n k == 1
  let gone (y : LoStore) : Bool := y.cell == x.cell && y.sent.isNone && !y.md && beats x.num y.num
  let kept := c.loq.filter (fun y => !gone y)
  let lost (y : LoStore) : Bool := !x.md && y.cell == x.cell && beats y.num x.num
  let heirs (us : List Nat) (y : LoStore) : LoStore := { y with also := (us ++ y.also).eraseDups.filter (· != y.thread) }
  let us := (c.loq.filter gone).flatMap (fun y => y.thread :: y.also)
  let s := { s.modCore s.myCore (fun c => { c with
      loq := if kept.any lost then kept.map (fun y => if lost y then heirs (x.thread :: us) y else y) else kept ++ [heirs us x] })
    with nextId := s.nextId + 1 }
  (s.sendHeld s.myCore x.cell).releaseLdlo s.myCore x.cell
/-- SEQ(1) (R293): a number exactly 2^31 from a store that the core has, or from the slot's read-table entry. -/
def State.seqClash (s : State) (cell n : Nat) : Bool :=
  (s.coreAt s.myCore).loq.any (fun y => y.cell == cell && seqClass n y.num == 2) ||
  (match s.mySlot.readNum? cell with
   | some k => seqClass n k == 2
   | none => false)
def State.stlo (s : State) (md : Bool) (a b : BitVec 5) (m : Mods) : Out :=
  let ea := s.gpr a + disp m
  let n := fieldOf (s.gpr m.rc) 0 32
  let v := s.gpr b
  s.issue m 0 { src := [a, b, m.rc] }
    (s.latestAccess (m.scope != 0#3) .store ea (fun s p =>
      if s.seqClash p.addr n then s.fail fSEQ 1 ea 1
      else s.withResv 1 (fun s =>
        let x : LoStore := { cell := p.addr, va := ea, val := v, num := n, md := md, key := p.key, thread := s.uid, slot := s.me,
                             queued := s.nextId, sent := none, pc := s.cur.pc }
        s.finish m a b (fun t => t.queueLatest x))))
def execStlo (a b : BitVec 5) (m : Mods) (s : State) : Out := s.stlo false a b m
def execStloMd (a b : BitVec 5) (m : Mods) (s : State) : Out := s.stlo true a b m

/-- `fence` (R260): it waits until nothing of the thread is outstanding; at cluster scope or wider it empties the data
cache, and at package scope or wider it marks the thread's boundary (R262). The base form has system scope. -/
def fenceScope (m : Mods) : Nat := if m.len = 0#2 then 5 else m.scope.toNat
def execFence (m : Mods) (s : State) : Out :=
  s.issue m 0 {}
    (if !s.fenceReady s.uid then s.await (.fence (fenceScope m))
     else s.finish m 27#5 27#5 (fun t =>
      let t := t.acquireIssue (2 ≤ fenceScope m)
      if 4 ≤ fenceScope m then t.modCur (fun x => { x with boundary := t.nextId }) else t))

end Sys2Proof.Machine
end

