-- ==== Sys2Proof/Machine/Atomic.lean ====
section
/-! DEFINITION. Atomics with the cluster's combiner (R267 to R272), tickets (R250 to R253), waits, locks and barriers
(R273 to R283) as they issue. -/

namespace Sys2Proof.Machine

/-! The combiner (R271). -/

/-- Is an atomic eligible for the combiner, but for its order and place? -/
def combinable (op : Nat) : Bool := if op < 0x20 then op % 16 ≤ 7 else true
/-- Is a request an eligible atomic? -/
def Req.eligible (r : Req) : Bool :=
  match r.kind with
  | .atom op => combinable op && !r.acq && !r.rel && !isLocalStore r.addr
  | _ => false
/-- Is a group open: its members wait in the combiner? (DESIGN CHOICE, log entry 22) -/
def State.groupOpen (s : State) (g : Combine) : Bool :=
  match g.reqs with
  | id :: _ => match s.reqs.find? id with
    | some r => r.phase == .egress
    | none => false
  | [] => false
/-- May a request join a group: the same location, size and function, for `famo.add` the same mode, and fewer than 8
members; a stochastic `famo.add` joins none. What its core, or a member's, has asked of the home and has not been served
must be older than the group, so that nothing waits for the group that the group waits for (R152, R263). (DESIGN CHOICE,
log entry 22) -/
def State.joinsGroup (s : State) (r : Req) (g : Combine) : Bool :=
  g.addr == r.addr && g.reqs.length < 8 && s.groupOpen g &&
  s.reqs.all (fun e => !((e.2.core == r.core || g.reqs.any (fun id => (s.reqs.find? id).any (fun q => q.core == e.2.core))) &&
      e.2.engine.isNone && e.2.unserved && homeOf e.2.addr == homeOf r.addr) ||
    e.2.group == g.reqs.head? || e.1 < g.reqs.headD 0) &&
  (match g.reqs.head?.bind (fun id => s.reqs.find? id) with
   | some q => q.kind == r.kind && (!(r.kind == .atom 0x20 || r.kind == .atom 0x28) || (q.mode == r.mode && r.mode != 5))
   | none => false)
/-- The members of a group leave for the home as one request, and those that cross dies are counted as they leave (R263). -/
def State.closeGroup (s : State) (g : Combine) : State :=
  g.reqs.foldl (fun (s : State) id =>
    match s.reqs.find? id with
    | some r =>
      if r.crosses then
        let k := s.countWrite r.die
        k.1.putReq id { r with phase := .ingress, place := k.2 }
      else s.putReq id { r with phase := .home }
    | none => s) s
/-- An eligible atomic at its cluster's combiner: it joins or opens a group when its line is in the predictor; else it
goes to its home alone, and takes a predictor entry when another eligible atomic is outstanding on its line. The
predictor lists lines most recently used first, with the cycle of the last use. Nothing is combined on a die that holds a
launch at level 2 (R320). -/
def State.postAtomic (s : State) (r : Req) : State :=
  let cl := clusterOfCore r.core
  let c := s.clusterAt cl
  let line := lineOf r.addr
  let now := (s.coreAt r.core).cycle
  let id := s.nextId
  if !r.eligible || s.level2Die r.die then s.post r
  else if c.predictor.any (fun e => e.1 == line) then
    let s := s.modCluster cl (fun c => { c with predictor := (line, now) :: c.predictor.filter (fun e => e.1 != line) })
    match List.find? (fun g => s.joinsGroup r g) c.groups with
    | some g =>
      let s := s.addReq { r with phase := .egress, group := g.reqs.head? }
      let g' : Combine := ⟨g.addr, g.reqs ++ [id]⟩
      let s := s.modCluster cl (fun c => { c with groups := c.groups.map (fun x => if x = g then g' else x) })
      if g'.reqs.length = 8 then s.closeGroup g' else s
    | none =>
      let s := s.addReq { r with phase := .egress, group := some id }
      s.modCluster cl (fun c => { c with groups := c.groups ++ [⟨r.addr, [id]⟩] })
  else
    let other := s.reqs.any (fun e => e.2.eligible && clusterOfCore e.2.core == cl && lineOf e.2.addr == line)
    let s := if other then s.modCluster cl (fun c => { c with predictor := ((line, now) :: c.predictor).take 16 }) else s
    s.post r

/-! Atomics. -/

/-- An atomic as it issues (R268 to R270): `op` is its func[5:0], `order` its func[7:6]. -/
def State.atomic (s : State) (op : Nat) (order : BitVec 2) (src : List (BitVec 5)) (d a b : BitVec 5) (c : Word)
    (m : Mods) : Out :=
  let ea := s.gpr a + disp m
  let n := atomBytes op
  let k : Ask := { kind := .atom op, size := n, scope := m.scope.toNat, acq := order.getLsbD 0, rel := order.getLsbD 1 }
  let adds := op == 0x20 || op == 0x28
  s.issue m 0 { src := src, dst := [d] }
    (s.homeAccess k.rel n ea (fun s p =>
      let r := { s.request k p ea with
        rd := d.toNat, opB := s.gpr b, opC := c, mode := s.mode m, seed := s.cur.srseed, signed := op < 0x20 }
      s.finish m a b (fun t =>
        ((((t.dropPlace p).acquireIssue k.wide).pendGpr d (.load t.nextId)).bumpSeed (adds && s.mode m == 5)).postAtomic r)))

/-- The width bit selects `.w` among the integer atomics. -/
def State.amo (s : State) (op : Nat) (w : Bool) (o : BitVec 2) (d a b : BitVec 5) (m : Mods) : Out :=
  s.atomic (op + 16 * w.toNat) o [a, b] d a b 0#64 m
/-- The width bit selects f64 among the float atomics. -/
def State.famo (s : State) (op : Nat) (w : Bool) (o : BitVec 2) (d a b : BitVec 5) (m : Mods) : Out :=
  s.atomic (op + 8 * w.toNat) o [a, b] d a b 0#64 m
def execAmoAdd (w : Bool) (o : BitVec 2) (d a b : BitVec 5) (m : Mods) (s : State) : Out := s.amo 0 w o d a b m
def execAmoAnd (w : Bool) (o : BitVec 2) (d a b : BitVec 5) (m : Mods) (s : State) : Out := s.amo 1 w o d a b m
def execAmoOr (w : Bool) (o : BitVec 2) (d a b : BitVec 5) (m : Mods) (s : State) : Out := s.amo 2 w o d a b m
def execAmoXor (w : Bool) (o : BitVec 2) (d a b : BitVec 5) (m : Mods) (s : State) : Out := s.amo 3 w o d a b m
def execAmoMin (w : Bool) (o : BitVec 2) (d a b : BitVec 5) (m : Mods) (s : State) : Out := s.amo 4 w o d a b m
def execAmoMax (w : Bool) (o : BitVec 2) (d a b : BitVec 5) (m : Mods) (s : State) : Out := s.amo 5 w o d a b m
def execAmoMinu (w : Bool) (o : BitVec 2) (d a b : BitVec 5) (m : Mods) (s : State) : Out := s.amo 6 w o d a b m
def execAmoMaxu (w : Bool) (o : BitVec 2) (d a b : BitVec 5) (m : Mods) (s : State) : Out := s.amo 7 w o d a b m
def execAmoXchg (w : Bool) (o : BitVec 2) (d a b : BitVec 5) (m : Mods) (s : State) : Out := s.amo 8 w o d a b m
/-- `cas`: rb is the expected value, rc the new one. -/
def execCas (w : Bool) (o : BitVec 2) (d a b : BitVec 5) (m : Mods) (s : State) : Out :=
  s.atomic (9 + 16 * w.toNat) o [a, b, m.rc] d a b (s.gpr m.rc) m
def execFamoAdd (w : Bool) (o : BitVec 2) (d a b : BitVec 5) (m : Mods) (s : State) : Out := s.famo 0x20 w o d a b m
def execFamoMin (w : Bool) (o : BitVec 2) (d a b : BitVec 5) (m : Mods) (s : State) : Out := s.famo 0x21 w o d a b m
def execFamoMax (w : Bool) (o : BitVec 2) (d a b : BitVec 5) (m : Mods) (s : State) : Out := s.famo 0x22 w o d a b m

/-! Tickets, waits, locks and barriers. A scope code of 0 selects system scope (R48). -/

def syncScope (m : Mods) : Nat := if m.scope = 0#3 then 5 else m.scope.toNat

def execTkget (d a : BitVec 5) (m : Mods) (s : State) : Out :=
  let ea := s.gpr a
  let k : Ask := { kind := .tkget, size := 8, scope := syncScope m, acq := true }
  s.issue m 0 { src := [a], dst := [d] }
    (s.homeAccess false 8 ea (fun s p =>
      let r := { s.request k p ea with rd := d.toNat }
      s.finish m a 27#5 (fun t => (((t.dropPlace p).acquireIssue k.wide).pendGpr d (.load t.nextId)).post r)))
/-- A release that is only acknowledged: `tkadv` (R251) and `lkrel` (R277). -/
def State.syncRelease (s : State) (kind : ReqKind) (a : BitVec 5) (m : Mods) : Out :=
  let ea := s.gpr a
  let k : Ask := { kind := kind, size := 8, scope := syncScope m, rel := true }
  s.issue m 0 { src := [a] }
    (s.homeAccess true 8 ea (fun s p =>
      let r := s.request k p ea
      s.finish m a 27#5 (fun t => (t.dropPlace p).post r)))
def execTkadv (a : BitVec 5) (m : Mods) (s : State) : Out := s.syncRelease .tkadv a m
def execLkrel (a : BitVec 5) (m : Mods) (s : State) : Out := s.syncRelease .lkrel a m

/-- The request leaves, and the thread waits for its reply (R253, R274, R277, R280). -/
def State.postWait (s : State) (p : Place) (r : Req) : State :=
  ((s.dropPlace p).post r).suspend (.reply s.nextId)
def execTkwait (a b : BitVec 5) (m : Mods) (s : State) : Out :=
  let ea := s.gpr a
  let k : Ask := { kind := .tkwait, size := 8, scope := syncScope m, acq := true }
  s.issue m 0 { src := [a, b] }
    (s.homeAccess false 8 ea (fun s p =>
      let r := { s.request k p ea with opB := s.gpr b, undo := s.spent m a b }
      s.finish m a b (fun t => t.postWait p r)))
/-- `waiteq` and `waitne`, on a latest-only page too (R274, R289). -/
def State.waitOp (s : State) (eq : Bool) (a b : BitVec 5) (m : Mods) : Out :=
  let ea := s.gpr a
  let k : Ask := { kind := .wait eq, size := 8, scope := syncScope m, acq := true }
  s.issue m 0 { src := [a, b] }
    (s.ordered false (s.access .both 8 ea (fun s p =>
      s.withResv (if p.isLocal then 0 else 1) (fun s =>
        let r := { s.request k p ea with opB := s.gpr b, undo := s.spent m a b }
        s.finish m a b (fun t => t.postWait p r)))))
def execWaiteq (a b : BitVec 5) (m : Mods) (s : State) : Out := s.waitOp true a b m
def execWaitne (a b : BitVec 5) (m : Mods) (s : State) : Out := s.waitOp false a b m
/-- `lkacq`: the request carries the thread's owner tag (R276, R277). -/
def execLkacq (a : BitVec 5) (m : Mods) (s : State) : Out :=
  let ea := s.gpr a
  let k : Ask := { kind := .lkacq, size := 8, scope := syncScope m, acq := true }
  s.issue m 0 { src := [a] }
    (s.homeAccess false 8 ea (fun s p =>
      let r := { s.request k p ea with opB := s.cur.tag, undo := s.spent m a 27#5 }
      s.finish m a 27#5 (fun t => t.postWait p r)))
/-- A barrier instruction: a release that waits for the home's reply (R280). -/
def State.barrierOp (s : State) (kind : ReqKind) (a : BitVec 5) (m : Mods) : Out :=
  let ea := s.gpr a
  let k : Ask := { kind := kind, size := 8, scope := syncScope m, rel := true }
  s.issue m 0 { src := [a] }
    (s.homeAccess true 8 ea (fun s p =>
      let r := { s.request k p ea with opB := s.cur.tag, undo := s.spent m a 27#5 }
      s.finish m a 27#5 (fun t => t.postWait p r)))
def execBarJoin (a : BitVec 5) (m : Mods) (s : State) : Out := s.barrierOp .barJoin a m
def execBarArrive (a : BitVec 5) (m : Mods) (s : State) : Out := s.barrierOp .barArrive a m
def execBarDrop (a : BitVec 5) (m : Mods) (s : State) : Out := s.barrierOp .barDrop a m

end Sys2Proof.Machine
end

