-- ==== Sys2Proof/Machine/Kreg.lean ====
section
/-! DEFINITION. The control registers (R37, R140): what a read gives, what a write does or which ILLEGAL cause it meets,
and the resource table's requests (R327, R328). -/

namespace Sys2Proof.Machine

/-! Names (R37, R335, R402). -/
def kFCTL : Nat := 0x001
def kFSTAT : Nat := 0x002
def kSRSEED : Nat := 0x003
def kADOPTMAX : Nat := 0x020
def kASSIGN : Nat := 0x101
def kFQHEAD : Nat := 0x109
def kPREEMPT : Nat := 0x10F
def kKEYLOAD : Nat := 0x112

/-- Is the register privileged (R37)? Then the PRIV cause of a user-level access. -/
def kregPriv (k : Nat) : Nat := if 0x100 ≤ k then 2 else 0

/-- The RSV bits of a register's map (R7), as (lowest bit, length) pairs. -/
def kregRsv (k : Nat) : List (Nat × Nat) :=
  match k with
  | 0x001 => [(5, 59)]
  | 0x002 => [(5, 59)]
  | 0x008 => [(10, 54)]
  | 0x009 => [(3, 61)]
  | 0x00A => [(6, 58)]
  | 0x00B => [(4, 60)]
  | 0x00C => [(6, 58)]
  | 0x00D => [(2, 62)]
  | 0x020 => [(33, 31), (11, 21), (3, 5)]
  | 0x100 => [(48, 8)]
  | 0x101 => [(56, 6), (20, 28)]
  | 0x102 => [(6, 58)]
  | 0x103 => [(8, 56), (6, 1), (2, 2)]
  | 0x104 => [(52, 12), (0, 12)]
  | 0x105 => [(57, 7), (5, 3)]
  | 0x106 => [(57, 7)]
  | 0x107 => [(52, 12)]
  | 0x108 => [(9, 55), (5, 3)]
  | 0x10D => [(3, 59)]
  | 0x10E => [(52, 12)]
  | 0x10F => [(20, 44), (11, 4), (6, 2)]
  | 0x110 => [(48, 13)]
  | 0x111 => [(52, 12)]
  | 0x112 => [(59, 3), (0, 7)]
  | 0x206 => [(40, 23)]
  | 0x207 => [(16, 48)]
  | 0x208 => [(44, 20), (16, 16)]
  | _ => if 0x200 ≤ k ∧ k ≤ 0x205 then [(33, 30), (1, 31)] else []
/-- Is a reserved field of a written value nonzero? -/
def rsvSet (k : Nat) (w : Word) : Bool :=
  (kregRsv k).any (fun f => fieldOf w f.1 f.2 != 0)

/-! Reads. -/

/-- Has a function a resident thread, job, copy or deque entry (CTXCTL.active)? -/
def State.funcActive (s : State) (vf : Nat) : Bool :=
  s.slots.any (fun e => e.2.occ.any (fun u => (s.threadAt u).vf == vf)) ||
  s.clusters.any (fun e => e.2.copies.any (fun c => c.2.vf == vf) || e.2.jobs.any (fun j => j.2.vf == vf)) ||
  s.cores.any (fun e => e.2.deque.any (fun d => d.fam / 2 ^ 24 == vf))

def bitWord (n : Nat) (b : Bool) : Nat := b.toNat * 2 ^ n

/-- CTXCTL (R336). -/
def State.ctxctl (s : State) (vf : Nat) : Word :=
  let f := s.funcAt vf
  word (bitWord 7 f.prot + f.det * 16 + bitWord 1 (s.funcActive vf) + f.enable.toNat)
/-- DUTY n (R402). (PRESUMED, log entry 67) -/
def State.dutyAt (s : State) (n : Nat) : Duty := s.pkg.duties.getD n ⟨false, false, false⟩
def Duty.word (d : Duty) : Word := Machine.word (bitWord 63 d.draining + bitWord 32 d.cur + d.req.toNat)
/-- BOOTSTAT (R406). -/
def State.bootstat (s : State) : Word :=
  word (bitWord 63 s.pkg.halt + s.pkg.haltStep * 2 ^ 32 + s.pkg.starts % 2 ^ 32)
/-- PSTAT (R355): busy while an action runs. -/
def State.pstatWord (s : State) : Word := word (putBits s.pkg.pstat.toNat 63 1 s.pkg.preempt.isSome.toNat)

/-- What a read of a control register gives (R95, R128, R298, R317, R333 to R336, R355, R364, R402 to R406). -/
def State.kregRead (s : State) (k : Nat) : Word :=
  let t := s.cur
  let f := s.funcAt t.vfsel
  match k with
  | 0x001 => t.fctl.setWidth 64
  | 0x002 => t.fstat.setWidth 64
  | 0x003 => t.srseed
  | 0x008 => word (bitWord 9 t.pinned + bitWord 8 t.serial + s.mySlot.qowner % 16 * 16 + slotOfSlot s.me)
  | 0x009 => word (s.myCore % 8)
  | 0x00A => word (s.myCluster % 64)
  | 0x00B => word s.myDie
  | 0x00C => word t.vf
  | 0x00D => word (s.famAt t.fam).level
  | 0x020 => word (bitWord 32 t.mdsup + s.chainDepth s.me * 2 ^ 8 + t.adoptMax)
  | 0x100 => s.pkg.scrubPos
  | 0x101 => word (t.assignRes * 2 ^ 62)
  | 0x102 => word t.vfsel
  | 0x103 => s.ctxctl t.vfsel
  | 0x104 => f.ctxroot
  | 0x105 => f.arena
  | 0x106 => f.slotarea
  | 0x107 => f.fqbase
  | 0x108 => f.fqctl
  | 0x109 => f.fqhead
  | 0x10A => f.fqtail
  | 0x10B => t.ansrec
  | 0x10C => t.ansval
  | 0x10D => t.ansactWord
  | 0x10E => f.frames
  | 0x110 => s.pstatWord
  | 0x111 => f.ctximg
  | 0x112 => word (f.keyResult * 2 ^ 62)
  | 0x206 => s.bootstat
  | 0x207 => word s.pkg.pwrcap
  | 0x208 => s.pkg.pwrstat
  | _ =>
    if 0x010 ≤ k ∧ k < 0x018 then (s.coreAt s.myCore).tshape.get 0#64 (k - 0x010)
    else if 0x018 ≤ k ∧ k < 0x020 then (s.coreAt s.myCore).tmeta.get 0#64 (k - 0x018)
    else if 0x200 ≤ k ∧ k ≤ 0x205 then (s.dutyAt (k - 0x200)).word
    else 0#64

/-! Zeroed ranges (R330, R361, R363). -/

/-- Every byte of a range of storage becomes zero. -/
def State.zeroRange (s : State) (a n : Nat) : State :=
  { s with mem := s.mem.filter (fun e => e.1 < a || a + n ≤ e.1) }
/-- The dirty bits of a range become clear. -/
def State.cleanRange (s : State) (a n : Nat) : State :=
  (List.range (ceilDiv n 65536)).foldl (fun (t : State) i =>
    match dirtyKey (a + 65536 * i) with
    | some k => { t with dirty := t.dirty.set false k false }
    | none => t) s
/-- The waits armed on dwords of a range are looked at again. -/
def State.answerRange (s : State) (a n : Nat) : State :=
  s.mapReqs (fun r => if r.isArmed && a ≤ r.addr && r.addr < a + n && r.served (s.dword r.key r.addr) then
    { r with phase := .replied, clock := s.clockOf (homeDie r.addr) } else r)
/-- The dirty bits of the 64 KiB regions that begin in a range, and end by `stop`, become clear (R363). -/
def State.cleanStarts (s : State) (a n stop : Nat) : State :=
  let b := ceilDiv a 65536 * 65536
  let e := min (a + n) (stop / 65536 * 65536)
  if b < e then s.cleanRange b (e - b) else s
/-- The scrub engine passes over a range, of what it scrubs up to `stop`: zeros, fresh check bits, latest-only numbers 0,
and the dirty bits of the regions that it enters clear, where it scrubs the whole of them (R330, R363). (DESIGN CHOICE,
log entry 61) -/
def State.scrubRange (s : State) (a n stop : Nat) : State :=
  let s := (s.zeroRange a n).cleanStarts a n stop
  let s := { s with
    bad := s.bad.filter (fun u => u * 64 + 64 ≤ a || a + n < u * 64 + 64),
    nums := s.nums.filter (fun e => e.1 < a || a + n ≤ e.1) }
  (s.emptyBarriers a n).answerRange a n

/-! The resource table (R327, R328). -/

/-- The resource that an ASSIGN word names, or none where its map forbids the value. -/
def assignTarget (w : Nat) : Option Nat :=
  let die := bitsOf w 16 4
  let cl := bitsOf w 10 6
  let co := bitsOf w 7 3
  let item := bitsOf w 0 7
  match bitsOf w 48 2 with
  | 1 => if item = 0 then some (resCore (die * 512 + cl * 8 + co)) else none
  | 2 => if co = 0 ∧ item ≤ 62 then some (resGranule die cl item) else none
  | 3 => if die = 0 ∧ cl = 0 ∧ co = 0 then some (resKey item) else none
  | _ => none

/-- A scrub region's fields (R329). -/
def ScrubRegion.kind (r : ScrubRegion) : Nat := fieldOf r.map 0 4
def ScrubRegion.die (r : ScrubRegion) : Nat := fieldOf r.map 8 4
def ScrubRegion.cluster (r : ScrubRegion) : Nat := fieldOf r.map 12 6
def ScrubRegion.core (r : ScrubRegion) : Nat := fieldOf r.map 18 3
def ScrubRegion.len (r : ScrubRegion) : Nat := fieldOf r.map 32 32
def ScrubRegion.coreNo (r : ScrubRegion) : Nat := r.die * 512 + r.cluster * 8 + r.core
/-- The resources that a region names: a core, granules, or none for an HBM range. -/
def ScrubRegion.resources (r : ScrubRegion) : List Nat :=
  if r.kind = 1 ∨ r.kind = 2 then [resCore r.coreNo]
  else if r.kind = 3 then
    (List.range (ceilDiv (r.len * 4096) 65536)).map (fun i => resGranule r.die r.cluster (r.base.toNat / 65536 + i))
  else []
/-- Does a scrub that is running or owed hold a resource (R328, R334)? -/
def State.scrubHolds (s : State) (k : Nat) : Bool :=
  match s.pkg.scrub with
  | some x => x.regions.any (fun r => r.resources.contains k)
  | none => false
/-- Has a core an occupied slot, a job, a deque entry or a run-queue record? -/
def State.coreWorks (s : State) (c : Nat) : Bool :=
  let x := s.coreAt c
  (List.range 16).any (fun i => (s.slotAt (16 * c + i)).occ.isSome) ||
  (s.clusterAt (clusterOfCore c)).jobs.any (fun j => j.2.core == c) || !x.deque.isEmpty || !x.runq.isEmpty
/-- Is a core busy for R328: an occupied slot, a job, a copy, a deque entry or a run-queue record? (DEDUCED, log entry 50) -/
def State.coreBusy (s : State) (c : Nat) : Bool :=
  s.coreWorks c || (s.clusterAt (clusterOfCore c)).copies.any (fun e => e.2.core == c)

/-- The storage of a core or granule that an assignment to a new owner zeroes (R203, R363). -/
def State.freshRegion (s : State) (k : Nat) : State :=
  if k < 2 ^ 20 then ((s.zeroRange (localStore k) 196608).cleanRange (localStore k) 196608).zeroRange (tileStore k) 131072
  else if k < 2 ^ 24 then
    let g := k - 2 ^ 20
    let a := vaultBase + g / 4096 * 2 ^ 28 + g / 64 % 64 * 2 ^ 22 + g % 64 * 65536
    (s.zeroRange a 65536).cleanRange a 65536
  else s

/-- A request of R328 is decided: the result code. -/
def State.assign (s : State) (k vf : Nat) : State × Nat :=
  let r := s.resAt k
  if s.scrubHolds k then (s, 2)
  else if k < 2 ^ 20 && s.coreBusy k then (s, 3)
  else if r.owner.isSome && r.owner != some vf && !r.clean then (s, 2)
  else if r.owner == some vf then (s, 1)
  else ((s.modPkg (fun p => { p with res := p.res.put k ⟨some vf, false⟩ })).freshRegion k, 1)

/-! Writes. -/

/-- What a write of a control register comes to: an ILLEGAL cause, or a state. -/
abbrev KWrite := Except Nat State

/-- A write of a context register of function `vf` (R336): CTXCTL, CTXROOT, ARENA, SLOTAREA, FQBASE, FQCTL, FQHEAD,
FRAMES and CTXIMG; ILLEGAL(6) for a value that its map forbids. -/
def State.ctxWrite (s : State) (k vf : Nat) (w : Word) : KWrite :=
  let n := w.toNat
  match k with
  | 0x103 => .ok (s.modFunc vf (fun f => { f with prot := bitOf n 7, enable := bitOf n 0 }))
  | 0x104 => if isHbm n && isHbm (n + 4095) then .ok (s.modFunc vf (fun f => { f with ctxroot := w })) else .error 6
  | 0x105 =>
    if bitsOf n 8 4 = 0 ∧ bitsOf n 0 5 ≤ 24 then .ok (s.modFunc vf (fun f => { f with arena := w })) else .error 6
  | 0x106 => if n % 4096 = 0 then .ok (s.modFunc vf (fun f => { f with slotarea := w })) else .error 6
  | 0x107 =>
    if n % 64 = 0 ∧ (isHbm n || isHost n) = true then .ok (s.modFunc vf (fun f => { f with fqbase := w })) else .error 6
  | 0x108 =>
    if 6 ≤ bitsOf n 0 5 ∧ bitsOf n 0 5 ≤ 20 then .ok (s.modFunc vf (fun f => { f with fqctl := w })) else .error 6
  | 0x109 => .ok (s.modFunc vf (fun f => { f with fqhead := w }))
  | 0x10E => if isHbm n then .ok (s.modFunc vf (fun f => { f with frames := w })) else .error 6
  | 0x111 => if n % 4096 = 0 ∧ isHbm n = true then .ok (s.modFunc vf (fun f => { f with ctximg := w })) else .error 6
  | _ => .ok s

/-- A request to a duty (R403): it takes effect at once, or at the end of a drain. -/
def State.dutyRequest (s : State) (n : Nat) (req : Bool) : State :=
  let d := s.dutyAt n
  let d' : Duty := ⟨d.draining || req != d.cur, d.cur, req⟩
  s.modPkg (fun p => { p with duties := p.duties.set n d' })

/-- PWRCAP (R404): the device throttles from then on exactly while the shown power exceeds the new cap, or a die is at
100 °C (R405). -/
def State.pwrcapWrite (s : State) (w : Word) : KWrite :=
  if 1000 ≤ w.toNat ∧ w.toNat ≤ 5200 then .ok (s.modPkg (fun p => { p with
    pwrcap := w.toNat, throttle := w.toNat < fieldOf p.pwrstat 0 16 || 100 ≤ fieldOf p.pwrstat 36 8 })) else .error 6

/-- A PREEMPT value that its map allows (R355). (DEDUCED, log entry 49) -/
def preemptOk (n : Nat) : Bool :=
  1 ≤ bitsOf n 8 3 && bitsOf n 8 3 ≤ 4 && bitsOf n 0 6 != 0 && (bitsOf n 8 3 ≤ 2 || bitOf n 15)

/-- KEYLOAD (R364): a slot of the selected function is loaded from a blob, or the load is refused. (DEDUCED, log entry 48) -/
def State.keyload (s : State) (vf : Nat) (w : Word) : State :=
  let n := fieldOf w 52 7
  let blob := fieldOf w 7 45 * 128
  if !s.owns vf (resKey n) || (s.pkg.keys.find? n).isSome then s.modFunc vf (fun f => { f with keyResult := 2 })
  else
    match Config.sm2Decrypt (s.peek blob 128) with
    | none => s.modFunc vf (fun f => { f with keyResult := 3 })
    | some (k1, k2) =>
      (s.modPkg (fun p => { p with
        keys := p.keys.put n (k2 ++ k1), res := p.res.put (resKey n) { s.resAt (resKey n) with clean := false } })).modFunc
        vf (fun f => { f with keyResult := 1 })

/-- A write of a control register by the executing thread, once its level has been checked (R140, steps 3 and 4).
FSTAT, TSHAPE, TMETA, ASSIGN and KEYLOAD have instructions of their own. -/
def State.kregWrite (s : State) (k : Nat) (w : Word) : KWrite :=
  let n := w.toNat
  let t := s.cur
  if rsvSet k w then .error 4
  else if 0x103 ≤ k ∧ k ≤ 0x112 ∧ t.vfsel = 0 ∧ k ≠ kFQHEAD ∧ k ≠ 0x10B ∧ k ≠ 0x10C ∧ k ≠ 0x10D ∧ k ≠ kPREEMPT ∧ k ≠ 0x110
  then .error 6
  else
    match k with
    | 0x001 =>
      if bitsOf n 0 3 = 0 ∨ 6 ≤ bitsOf n 0 3 then .error 6
      else .ok (s.modCur (fun t => { t with fctl := w.setWidth 5 }))
    | 0x003 => .ok (s.modCur (fun t => { t with srseed := w }))
    | 0x020 =>
      if bitsOf n 0 3 = 0 then .error 6
      else .ok (s.modCur (fun t => { t with adoptMax := bitsOf n 0 3, mdsup := t.mdsup && !bitOf n 32 }))
    | 0x102 => .ok (s.modCur (fun t => { t with vfsel := n }))
    | 0x10B => .ok (s.modCur (fun t => { t with ansrec := w }))
    | 0x10C => .ok (s.modCur (fun t => { t with ansval := w }))
    | 0x10D =>
      if 2 ≤ bitsOf n 0 2 then .error 6
      else .ok (s.modCur (fun t => { t with setl0 := bitOf n 2, ansact := bitsOf n 0 2 }))
    | 0x207 => s.pwrcapWrite w
    | _ => if 0x200 ≤ k ∧ k ≤ 0x205 then .ok (s.dutyRequest (k - 0x200) (bitOf n 0)) else s.ctxWrite k t.vfsel w

end Sys2Proof.Machine
end

