-- ==== Sys2Proof/Machine/Sys.lean ====
section
/-! DEFINITION. The system instructions (R43, R139 to R141, R325 to R330, R344, R345, R351, R352): control registers,
traps and their answers, TLB invalidation, key slots, assignment and scrubs. -/

namespace Sys2Proof.Machine

/-- `nop` (R141). -/
def execNop (m : Mods) (s : State) : Out := s.issue m 0 {} (s.finish m 27#5 27#5 id)

/-- `krd` (R140). -/
def execKrd (d : BitVec 5) (k : BitVec 10) (m : Mods) (s : State) : Out :=
  s.issue m (kregPriv k.toNat) { dst := [d] } (s.finish m 27#5 27#5 (fun t => t.writeGpr d (s.kregRead k.toNat)))

/-- A `krd` that first waits until `ready` (R139, R298). -/
def State.krdWhen (s : State) (ready : Bool) (w : Wait) (k : Nat) (d : BitVec 5) (m : Mods) : Out :=
  s.issue m 0 { dst := [d] }
    (if ready then s.finish m 27#5 27#5 (fun t => t.writeGpr d (s.kregRead k)) else s.await w)
def execKrdFstat (d : BitVec 5) (m : Mods) (s : State) : Out := s.krdWhen (!s.dividing s.uid) .divided kFSTAT d m
def execKrdAdoptmax (d : BitVec 5) (m : Mods) (s : State) : Out :=
  s.krdWhen (!s.markersOut s.uid) .markers kADOPTMAX d m

/-- A PREEMPT write (R355): it waits while another action runs, and then hands its own over; the instruction's thread
goes on once the action is done. (DEDUCED, log entry 49) -/
def State.preemptWrite (s : State) (m : Mods) (a : BitVec 5) (w : Word) : Out :=
  if rsvSet kPREEMPT w then s.fail fILLEGAL 4 0#64 3
  else if !preemptOk w.toNat then s.fail fILLEGAL 6 0#64 3
  else if s.pkg.preempt.isSome then s.await .act
  else
    let p : Preempt :=
      { pc := s.cur.pc, thread := s.uid, vf := fieldOf w 0 6, action := fieldOf w 8 3,
        queues := if bitOf w.toNat 15 then List.range 16 else [fieldOf w 16 4] }
    s.finish m a 27#5 (fun t => (t.modPkg (fun x => { x with preempt := some p })).suspend .act)

/-- `kwr` of every register without an instruction of its own (R140). -/
def execKwr (k : BitVec 10) (a : BitVec 5) (m : Mods) (s : State) : Out :=
  s.issue m (kregPriv k.toNat) { src := [a] }
    (if k.toNat = kPREEMPT then s.preemptWrite m a (s.gpr a)
     else
      match s.kregWrite k.toNat (s.gpr a) with
      | .error c => s.fail fILLEGAL c 0#64 3
      | .ok _ => s.finish m a 27#5 (fun t =>
          match t.kregWrite k.toNat (s.gpr a) with
          | .ok t' => t'
          | .error _ => t))

/-- `kwr FSTAT` (R129, R139): it clears the flags written as 1, after the thread's divide operations have landed. -/
def execKwrFstat (a : BitVec 5) (m : Mods) (s : State) : Out :=
  s.issue m 0 { src := [a] }
    (if s.dividing s.uid then s.await .divided
     else if rsvSet kFSTAT (s.gpr a) then s.fail fILLEGAL 4 0#64 3
     else s.finish m a 27#5 (fun t => t.modCur (fun x => { x with fstat := x.fstat &&& ~~~((s.gpr a).setWidth 5) })))

/-- `kwr ASSIGN` (R327, R328): it completes once its request is decided. -/
def execKwrAssign (a : BitVec 5) (m : Mods) (s : State) : Out :=
  s.issue m 2 { src := [a] }
    (let w := (s.gpr a).toNat
     if rsvSet kASSIGN (s.gpr a) then s.fail fILLEGAL 4 0#64 3
     else
      match assignTarget w with
      | none => s.fail fILLEGAL 6 0#64 3
      | some r => s.finish m a 27#5 (fun t =>
          let x := t.assign r (bitsOf w 50 6)
          x.1.modCur (fun y => { y with assignRes := x.2 })))

/-- `kwr KEYLOAD` (R364) for the selected function. (DEDUCED, log entry 48) -/
def execKeyload (a : BitVec 5) (m : Mods) (s : State) : Out :=
  s.issue m 2 { src := [a] }
    (if rsvSet kKEYLOAD (s.gpr a) then s.fail fILLEGAL 4 0#64 3
     else if s.cur.vfsel = 0 ∨ (!isHbm (fieldOf (s.gpr a) 7 45 * 128)) = true then s.fail fILLEGAL 6 0#64 3
     else s.finish m a 27#5 (fun t => t.keyload t.cur.vfsel (s.gpr a)))

/-- `trap` (R351): a record of kind 0x04, and the thread waits for its answer; it goes on at the next instruction. -/
def execTrap (n : BitVec 5) (m : Mods) (s : State) : Out :=
  s.issue m 0 {}
    (if !s.releaseReady s.uid then s.await .release
     else
      let t := s.cur
      let local' (r : Nat) : Word := match (t.reg r).st with
        | .full => (t.reg r).val
        | _ => 0#64
      s.finish m 27#5 27#5 (fun x => (x.addRecord
        { queue := t.vf, src := t.vf, kind := 4, die := s.myDie,
          body := [t.identity, n.setWidth 64, t.pc, local' 0, local' 1, local' 2],
          holder := .thread s.uid, awaits := true, stage := .unclaimed, page := 0, level := 0 }).suspend
        (.answer x.nextId)))

/-- The record of a function's queue that carries a sequence number and awaits an answer (R350). (DEDUCED, log entry 70) -/
def State.recordSeq (s : State) (vf : Nat) (seq : Word) : Option Nat :=
  (List.find? (fun e => e.2.queue == vf && e.2.awaits && e.2.stage == .written seq.toNat) s.records).map Prod.fst
/-- An answer to a record, by `rft` or by the doorbell (R350, R352): its result code. (DEDUCED, log entry 70) -/
def State.answerRecord (s : State) (vf : Nat) (seq : Word) (action : Nat) (setl0 : Bool) (val : Word) : State × Nat :=
  match s.recordSeq vf seq with
  | some r => ((s.modRecord r (fun x => { x with stage := .answered seq.toNat })).send (.reply r action setl0 val), 1)
  | none => (s, 2)

/-- `rft` (R352): it answers record ANSREC of function VFSEL. -/
def execRft (m : Mods) (s : State) : Out :=
  s.issue m 1 {}
    (if !s.releaseReady s.uid then s.await .release
     else s.finish m 27#5 27#5 (fun t =>
      let x := t.answerRecord t.cur.vfsel t.cur.ansrec t.cur.ansact t.cur.setl0 t.cur.ansval
      x.1.modCur (fun y => { y with ansres := x.2 })))

/-- The translations that an invalidation word matches (R344, R345). -/
def tlbMatch (w : Word) (vf lo size : Nat) : Bool :=
  match fieldOf w 6 2 with
  | 0 => vf == fieldOf w 0 6 && lo ≤ fieldOf w 12 45 * 4096 && fieldOf w 12 45 * 4096 < lo + size
  | 1 => vf == fieldOf w 0 6
  | _ => true
/-- `tlbinv` at every TLB and walker of the package (R345); latest-only pages that are no longer mapped have left (R290). -/
def State.invalidate (s : State) (w : Word) : State :=
  let gone (t : Trans) : Bool := tlbMatch w t.vf t.va t.size
  let s := (s.latest.filter (fun e => tlbMatch w e.vf e.va e.size)).foldl State.latestLeaves s
  { s with
    cores := s.cores.map (fun e => (e.1, { e.2 with utlb := e.2.utlb.remove gone }))
    clusters := s.clusters.map (fun e => (e.1, { e.2 with tlb := e.2.tlb.remove gone }))
    walks := s.walks.map (fun e =>
      (e.1, if tlbMatch w e.2.vf (e.2.page * 4096) 4096 || (match e.2.result with
          | some (.leaf t _) => gone t
          | _ => false) then { e.2 with drop := true } else e.2) ) }
/-- `tlbinv` (R344, R345). -/
def execTlbinv (a : BitVec 5) (m : Mods) (s : State) : Out :=
  s.issue m 1 { src := [a] }
    (let w := s.gpr a
     if fieldOf w 57 7 != 0 || fieldOf w 8 4 != 0 || fieldOf w 6 2 == 3 then s.fail fILLEGAL 6 0#64 3
     else if !s.releaseReady s.uid then s.await .release
     else s.finish m a 27#5 (fun t => t.invalidate w))

/-- A key slot becomes empty at every controller, unowned and clean; one that is empty already stays as it is (R326). -/
def State.zeroKey (s : State) (n : Nat) : State :=
  if (s.pkg.keys.find? n).isNone then s
  else s.modPkg (fun p => { p with keys := p.keys.del n, res := p.res.put (resKey n) Res.free })
/-- `kslz` (R326). -/
def execKslz (a : BitVec 5) (m : Mods) (s : State) : Out :=
  s.issue m 1 { src := [a] }
    (if 127 < (s.gpr a).toNat then s.fail fILLEGAL 6 0#64 3
     else s.finish m a 27#5 (fun t => t.zeroKey (s.gpr a).toNat))

/-! Scrubs (R329 to R334). -/

/-- Does an entry keep R329's map, and name what `scrb` may scrub (status 0x01 otherwise)? -/
def State.regionOk (s : State) (vf : Nat) (r : ScrubRegion) : Bool :=
  let b := r.base.toNat
  fieldOf r.map 21 11 == 0 && fieldOf r.map 4 4 == 0 &&
  (match r.kind with
   | 1 => r.len == 0 && b == 0
   | 2 => r.len == 0 && b == 0
   | 3 => r.core == 0 && r.len != 0 && b % 65536 == 0 && b + r.len * 4096 ≤ 63 * 65536
   | 4 => r.core == 0 && r.cluster == 0 && r.die == 0 && r.len != 0 && b % 4096 == 0 &&
      isHbm b && isHbm (b + r.len * 4096 - 1) && b / 2 ^ 36 == (b + r.len * 4096 - 1) / 2 ^ 36
   | _ => false) &&
  r.resources.all (fun k => s.owns vf k)
/-- The status and value of a scrub's check (R330, R332): 0, or the first failing entry. -/
def State.scrubCheck (s : State) (vf : Nat) : Nat → List ScrubRegion → Nat × Nat
  | _, [] => (0, 0)
  | i, r :: rs =>
    if !s.regionOk vf r then (1, i)
    else if (r.kind == 1 || r.kind == 2) && s.coreBusy r.coreNo then (2, i)
    else s.scrubCheck vf (i + 1) rs
/-- A completion word of a scrub (R332). -/
def scrubWord (status value count : Nat) : Word :=
  word (2 ^ 63 + value % 2 ^ 47 * 2 ^ 16 + count % 256 * 2 ^ 8 + status)
/-- Writes the completion word at the place that `scrb` translated. -/
def State.scrubReport (s : State) (vf : Nat) (done : Option (Nat × Option Nat)) (w : Word) : State :=
  match done with
  | none => s
  | some (a, key) => s.homeWrite vf 0#64 key a (toBytes 8 w.toNat)
/-- SCRUBPOS (R333). -/
def scrubPosWord (busy owed : Bool) (vf region count offset : Nat) : Word :=
  word (bitWord 63 busy + bitWord 62 owed + vf * 2 ^ 56 + region % 256 * 2 ^ 40 + count % 256 * 2 ^ 32 + offset)

/-- A read of a descriptor through translation, by a thread at determinism level `level` (R330, R407). -/
def State.descRead (s : State) (core vf level va n : Nat) : Except (Nat × Nat × Nat) (List Byte) :=
  match s.areaReach core vf level .load va with
  | .error e => .error e
  | .ok _ => s.vaRead core vf va n 1
/-- The entries of a descriptor, read through translation (R329, R330). -/
def State.scrubEntries (s : State) (core vf level va : Nat) : Nat → Nat → Except (Nat × Nat × Nat × Nat) (List ScrubRegion)
  | 0, _ => .ok []
  | n + 1, i =>
    match s.descRead core vf level (va + 32 + 16 * i) 16 with
    | .error e => .error (e.1, e.2.1, e.2.2, va + 32 + 16 * i)
    | .ok bs =>
      match s.scrubEntries core vf level va n (i + 1) with
      | .error e => .error e
      | .ok rs => .ok (⟨(dwords bs).getD 0 0#64, (dwords bs).getD 1 0#64⟩ :: rs)

/-- A checked scrub is reported as failed, or recorded and started with its holds (R330). -/
def State.startScrub (s : State) (vf count : Nat) (done : Option (Nat × Option Nat)) (regions : List ScrubRegion)
    (status value : Nat) : State :=
  if status != 0 then s.scrubReport vf done (scrubWord status value count)
  else s.modPkg (fun p => { p with
    scrub := some { vf := vf, count := count, done := done, regions := regions, next := 0, passed := 0, owed := false
                    held := (s.dutyAt 2).draining, kept := false }
    scrubPos := scrubPosWord true false vf 0 count 0, scrubGo := [] })

/-- `scrb` once no scrub runs and its descriptor's address has passed its check. -/
def State.scrub (s : State) (m : Mods) (a : BitVec 5) (d : Nat) : Out :=
  let c := s.myCore
  let f := s.cur.vf
  let level := (s.famAt s.cur.fam).level
  match s.descRead c f level d 32 with
  | .error e => .next (s.raiseNow e.1 e.2.1 (word d) 0 e.2.2)
  | .ok hdr =>
    let h (i : Nat) : Nat := ((dwords hdr).getD i 0#64).toNat
    let placed : State × Except (Nat × Nat × Nat) (Option (Nat × Option Nat)) :=
      if h 2 = 0 then (s, .ok none)
      else match s.engineReach c f .store 8 (word (h 2)) with
        | (t, .error e) => (t, .error e)
        | (t, .ok p) =>
          if p.lo then (t, .error (fACCESS, 6, 0))
          else if level == 2 && (inTier2 p.addr || isHost p.addr) then (t, .error (fDETERM, 3, 0))
          else if !t.keyReady p.key then (t, .error (fACCESS, 13, 0))
          else (t, .ok (some (p.addr, p.key)))
    match placed with
    | (t, .error e) => .next (t.raiseNow e.1 e.2.1 (word (h 2)) 1 e.2.2)
    | (t, .ok done) =>
      if h 0 = 0 ∨ 64 ≤ h 0 ∨ h 1 = 0 ∨ 64 < h 1 ∨ h 3 ≠ 0 then
        t.finish m a 27#5 (fun x => x.startScrub (h 0) (h 1) done [] 1 (2 ^ 47 - 1))
      else
        match t.scrubEntries c f level d (h 1) 0 with
        | .error e => .next (t.raiseNow e.1 e.2.1 (word e.2.2.2) 0 e.2.2.1)
        | .ok rs =>
          t.finish m a 27#5 (fun x =>
            x.startScrub (h 0) (h 1) done rs (t.scrubCheck (h 0) 0 rs).1 (t.scrubCheck (h 0) 0 rs).2)

/-- `scrb` (R330): the descriptor's address is checked, then a running scrub is waited for. -/
def execScrb (a : BitVec 5) (m : Mods) (s : State) : Out :=
  s.issue m 1 { src := [a] }
    (s.access .load 64 (s.gpr a) (fun t _ =>
      if t.pkg.scrub.isSome then t.await .scrub else t.scrub m a (s.gpr a).toNat))

end Sys2Proof.Machine
end

