-- ==== Sys2Proof/Machine/Ctl.lean ====
section
/-! DEFINITION. Control transfer (R58, R109, R114), window frames and their seal (R110 to R116, R155), and `ifence`
(R118). -/

namespace Sys2Proof.Machine

/-- The idle turn's spill (R115, R155): of the slot that holds the most resident frames, more than 4, those on their way
to memory apart, with an entry that no slot waits for (R156, R157); one that meets a fault is given up, and while that
slot is barred no other is spilled instead. (DESIGN CHOICE, log entry 77) -/
def State.idleSpill (s : State) (core : Nat) : State :=
  let held (i : Nat) : Nat := (s.slotAt (16 * core + i)).frames.length - (s.slotAt (16 * core + i)).flushing
  let best := (List.range 16).foldl (fun b i => if held b < held i then i else b) 0
  let q := 16 * core + best
  if held best ≤ 4 || (s.slotAt q).noSpill || Config.reservations ≤ s.reserved core ||
      (s.coreAt core).resvWait.any (fun h => !(s.slotAt h).removed) then s
  else
    match s.sendFrame q none with
    | .ok t => t
    | .error _ => s.modSlot q (fun x => { x with noSpill := true })

/-- A register of a frame comes back: a handle that has completed meanwhile fills it at once, and any other wait stands
(R86, R113). -/
def Thread.rearm (t : Thread) (r : Nat) (f : FReg) : FReg :=
  match f.st with
  | .pending x =>
    match List.find? (fun e => e.1 == x && e.2.1 == r) t.landed with
    | some e => ⟨e.2.2, .full⟩
    | none => f
  | _ => f
/-- `ret` to a frame: l1 to l9, lk and the predicates come back, and the depth falls (R113). -/
def Thread.unwind (t : Thread) (f : Frame) : Thread :=
  let regs := (List.range 9).foldl (fun (x : Tab FReg) i =>
    x.set FReg.zero (i + 1) (t.rearm (i + 1) (f.locals.get FReg.zero (i + 1)))) t.regs
  { t with regs := regs, lk := f.lk, pred := f.pred, depth := t.depth - 1, pc := f.ret
           calls := t.calls.drop 1, landed := if t.depth ≤ 1 then [] else t.landed }

/-! Transfers. -/

/-- A taken transfer: the next instruction, and an empty instruction buffer (R154). -/
def State.transfer (s : State) (pc : Word) : State :=
  (s.modCur (fun t => { t with pc := pc })).modSlot s.me (fun x => { x with ibuf := none })
/-- A branch's target (R22, R109). -/
def branchTarget (pc : Word) (o : BitVec 19) : Word := pc + 4#64 + word (4 * o.toNat)
def State.branch (s : State) (taken : Bool) (o : BitVec 19) (m : Mods) : Out :=
  s.issue m 0 {} (s.finish m 27#5 27#5 (fun t => if taken then t.transfer (branchTarget s.cur.pc o) else t))
def execB (o : BitVec 19) (m : Mods) (s : State) : Out := s.branch true o m
def execBt (p : BitVec 3) (o : BitVec 19) (m : Mods) (s : State) : Out := s.branch (s.cur.getPred p) o m
def execBf (p : BitVec 3) (o : BitVec 19) (m : Mods) (s : State) : Out := s.branch (!s.cur.getPred p) o m

def execJmp (a : BitVec 5) (m : Mods) (s : State) : Out :=
  s.issue m 0 { src := [a] }
    (let target := s.gpr a
     if target.toNat % 4 != 0 || target.toNat ≤ s.cur.pc.toNat then s.fail fILLEGAL 7 0#64 3
     else s.finish m a 27#5 (fun t => t.transfer target))

/-- The frame that a call makes. -/
def Thread.frame (t : Thread) (ret : Word) : Frame :=
  { locals := t.regs.filter (fun e => e.1 < 10), lk := t.lk, ret := ret, pred := t.pred }
/-- A call's effect once room is made: a frame, the depth, lk, and the target (R112). -/
def State.enter (s : State) (target ret : Word) (f : Frame) : State :=
  (((s.markFrame s.me).modSlot s.me (fun x => { x with frames := f :: x.frames, noSpill := false })).modCur
    (fun t => { t with depth := t.depth + 1, lk := ret, calls := s.nextId :: t.calls })).transfer target
/-- The executing slot's `n` oldest resident frames leave for their spill places, and the instruction waits for the
acknowledgements and issues again; or it meets a fault, precisely, with the frames resident (R112, R115, R155). -/
def State.flushFrames (s : State) (n : Nat) : Out :=
  match s.sendFrames s.me (some s.uid) n with
  | .error e => .next (s.raiseNow e.1 e.2.1 (word e.2.2.2) 1 e.2.2.1)
  | .ok t => t.await .frames
/-- `call` (R112, R138). -/
def State.call (s : State) (target : Word) (a : BitVec 5) (m : Mods) : Out :=
  if target.toNat % 4 != 0 then s.fail fILLEGAL 7 0#64 3
  else if 512 ≤ s.slotDepth s.me then s.fail fACCESS 5 0#64 3
  else if !s.loadsLanded s.uid then s.await .loads
  else if s.dividing s.uid then s.await .divided
  else if s.mySlot.frames.length < 8 then
    let ret := s.cur.pc + word (lenBytes m)
    s.finish m a 27#5 (fun x => x.enter target ret (x.cur.frame ret))
  else if s.framesOut s.me then s.await .frames
  else s.withResv 1 (fun t => (t.modSlot t.me (fun x => { x with noSpill := false })).flushFrames 1)
def execCallLit (m : Mods) (s : State) : Out := s.issue m 0 {} (s.call m.lit 27#5 m)
def execCallReg (a : BitVec 5) (m : Mods) (s : State) : Out := s.issue m 0 { src := [a] } (s.call (s.gpr a) a m)

/-- `ret` (R15, R113, R138): at depth 0 the thread ends; else it returns to its top frame, which it first asks for when
it is not resident. -/
def execRet (m : Mods) (s : State) : Out :=
  s.issue m 0 {}
    (if s.cur.depth = 0 then s.finish m 27#5 27#5 (fun t => t.endThread s.uid .ret)
     else if !s.loadsLanded s.uid then s.await .loads
     else if s.dividing s.uid then s.await .divided
     else
      match s.mySlot.frames with
      | f :: rest => s.finish m 27#5 27#5 (fun t =>
          (t.modSlot t.me (fun x => { x with
            frames := rest, flushing := min x.flushing rest.length, noSpill := false, ibuf := none })).modCur
            (fun x => x.unwind f))
      | [] =>
        if s.framesOut s.me then s.await .frames
        else s.withResv 1 (fun s =>
          match s.askFrame with
          | .error e => .next (s.raiseNow e.1 e.2.1 (word e.2.2.2) 0 e.2.2.1)
          | .ok t => t.await .frames))

/-- `wflush` (R115). -/
def execWflush (m : Mods) (s : State) : Out :=
  s.issue m 0 {}
    (if s.framesOut s.me then s.await .frames
     else if s.mySlot.frames.isEmpty then s.finish m 27#5 27#5 id
     else s.withResv s.mySlot.frames.length (fun t => t.flushFrames t.mySlot.frames.length))
def execWdepth (d : BitVec 5) (m : Mods) (s : State) : Out :=
  s.issue m 0 { dst := [d] } (s.finish m 27#5 27#5 (fun t => t.writeGpr d (word s.cur.depth)))

/-- `ifence` (R118): every store of the slot, and what its thread has seen of its core's other slots, is acknowledged
first. -/
def execIfence (m : Mods) (s : State) : Out :=
  s.issue m 0 {}
    (if !(s.slotStoresAcked s.me && s.seenAcked s.uid) then s.await .slotStores
     else s.finish m 27#5 27#5 (fun t =>
      (t.modSlot t.me (fun x => { x with ibuf := none })).modCore s.myCore (fun c =>
        { c with icache := c.icache.clear })))

end Sys2Proof.Machine
end

