-- ==== Sys2Proof/Machine/Queue.lean ====
section
/-! DEFINITION. What a launch queue does when a packet ends or fails: done and doneaddr, completion words, error (R306,
R308, R310, R313, R410). -/

namespace Sys2Proof.Machine

/-- The control word's fields (R307). -/
def Queue.enabled (q : Queue) : Bool := bitOf q.control.toNat 0
def Queue.lgsize (q : Queue) : Nat := fieldOf q.control 5 5
def Queue.weight (q : Queue) : Nat := fieldOf q.control 20 4
def Queue.die (q : Queue) : Nat := fieldOf q.control 16 4
/-- The home cluster of a queue, and the first core of it. -/
def Queue.cluster (q : Queue) : Nat := q.die * 64 + fieldOf q.control 10 6
def Queue.core (q : Queue) : Nat := q.cluster * 8
/-- The address of packet `n`. -/
def Queue.slotAddr (q : Queue) (n : Nat) : Word := q.base + word (64 * (n % 2 ^ q.lgsize))
/-- A packet's header (R308). -/
def Packet.dword (p : Packet) (i : Nat) : Word := p.words.getD i 0#64
def Packet.type (p : Packet) : Nat := fieldOf (p.dword 0) 0 8
def Packet.tag (p : Packet) : Word := word (fieldOf (p.dword 0) 32 32)
def State.packetAt? (s : State) (vf q n : Nat) : Option Packet := (s.queueAt vf q).packets.find? n
def State.putPacket (s : State) (vf q n : Nat) (p : Packet) : State :=
  s.modQueue vf q (fun x => { x with packets := x.packets.put n p })

/-- An 8-byte write of a queue's agent through the function's page table, a system-scope release; a fault becomes a
record of kind 0x0B, and the queue goes on (R410). -/
def State.queueWrite (s : State) (vf q : Nat) (tag addr w : Word) : State :=
  if addr = 0#64 then s
  else
    let x := s.queueAt vf q
    let fail (s : State) (e : Nat × Nat × Nat) : State := s.addRecord
      { queue := vf, src := vf, kind := 0x0B, die := x.die, holder := .none, awaits := false, stage := .unclaimed,
        page := 0, level := 0, body := [tag, word q, addr, faultWord e.1 e.2.1 1 e.2.2, 0#64, 0#64] }
    match s.engineReach x.core vf .store 8 addr with
    | (s, .error e) => fail s e
    | (s, .ok p) =>
      if p.lo then fail s (fACCESS, 6, 0)
      else if !s.keyReady p.key then fail s (fACCESS, 13, 0)
      else s.agentStore vf addr p.key p.addr (toBytes 8 w.toNat)

/-- Drops the complete packets from the front: the new done (R306). -/
def Queue.advanceDone (q : Queue) : Nat → Queue
  | 0 => q
  | n + 1 =>
    match q.packets.find? q.done.toNat with
    | some p => if p.stage = 3 then Queue.advanceDone { q with done := q.done + 1, packets := q.packets.del q.done.toNat } n
      else q
    | none => q
/-- A packet completes: done rises as far as it may, and is written to doneaddr when it changes. -/
def State.packetDone (s : State) (vf q n : Nat) : State :=
  match s.packetAt? vf q n with
  | none => s
  | some p =>
    let s := s.putPacket vf q n { p with stage := 3 }
    let x := s.queueAt vf q
    let y := x.advanceDone x.packets.length
    let s := s.modQueue vf q (fun _ => y)
    if y.done = x.done then s else s.queueWrite vf q p.tag y.doneaddr y.done
/-- A packet completes with a completion word at an address (R309, R313). -/
def State.packetEnds (s : State) (vf q n : Nat) (addr w : Word) : State :=
  match s.packetAt? vf q n with
  | none => s
  | some p => (s.queueWrite vf q p.tag addr w).packetDone vf q n
/-- Does a copy belong to a launch: to a thread's, or as the copy of its local section (R394, R407)? -/
def State.ofLaunch (s : State) (c : CopyOp) : Bool :=
  match c.packet with
  | none => true
  | some (q, n) => match s.packetAt? c.vf q n with
    | some p => p.type == 1
    | none => false
/-- The copy of a launch's local section goes with its packet, one that a saved context holds too (R201). -/
def State.dropSection (s : State) (vf q n : Nat) : State :=
  let keep (c : Nat × CopyOp) : Bool := !(c.2.vf == vf && c.2.packet == some (q, n))
  let s := { s with clusters := s.clusters.map (fun (e : Nat × Cluster) => (e.1, { e.2 with copies := e.2.copies.filter keep })) }
  s.modFunc vf (fun f => { f with saved := f.saved.map (fun x => { x with
    copies := x.copies.map (fun e => (e.1, e.2.filter keep)) }) })
/-- A queue stops at a packet (R310): no state of the packet takes effect, an arena entry that its admission took is
free, and the copy of its local section is given up. -/
def State.queueError (s : State) (vf q code n : Nat) : State :=
  let s := match s.packetAt? vf q n with
    | some p =>
      let s := if p.type = 1 then s.dropSection vf q n else s
      (match p.fam with
      | some fk => s.modFam fk (fun f => { f with alloc := false })
      | none => s)
    | none => s
  s.modQueue vf q (fun x => { x with
    control := word (putBits x.control.toNat 0 1 0), error := word (code + n % 2 ^ 56 * 2 ^ 8),
    head := word n, packets := x.packets.filter (fun e => e.1 < n) })

end Sys2Proof.Machine
end

