-- ==== Sys2Proof/Machine/Family.lean ====
section
/-! DEFINITION. Families: making and dealing one (R62 to R72), its members' start (R33, R76, R130, R235), its links
(R75, R77, R79), and its end (R59, R60, R69, R81, R82). -/

namespace Sys2Proof.Machine

/-! The range. -/

/-- The member count of a range, or the FAMILY cause (R62). -/
def rangeCount (start limit step body : Word) : Except Nat Nat :=
  let a := start.toInt
  let b := limit.toInt
  let d := step.toInt
  if d ≤ 0 then .error 1
  else if body.toNat % 4 != 0 then .error 4
  else
    let n : Int := if b ≤ a then 0 else (b - a + d - 1) / d
    if 0 < n ∧ a < 0 then .error 2
    else if 2 ^ 40 - 1 < n then .error 3
    else if 0 < n ∧ 2 ^ 40 - 1 < a + (n - 1) * d then .error 3
    else .ok n.toNat

/-! Places and the deal. -/

/-- The deal order of a place of function `vf` from core `o` (R71). -/
def State.dealOrder (s : State) (vf code o : Nat) : List Nat :=
  let cs := (s.ownedCores vf).filter (fun c => inPlace code o c && c != o)
  o :: (cs.filter (fun c => o < c) ++ cs.filter (fun c => c < o))
/-- Free slots of queue `qu` over some cores. -/
def State.freeIn (s : State) (vf qu : Nat) (cs : List Nat) : Nat := (cs.map (fun c => (s.freeSlots c vf qu).length)).sum
/-- The resolved place code (R70). -/
def State.resolvePlace (s : State) (vf qu level code o count block : Nat) : Nat :=
  if code ≠ 5 then code
  else if level = 2 then 4
  else ((List.range 5).find? (fun c =>
    let cs := s.dealOrder vf c o
    min count (block * cs.length) ≤ s.freeIn vf qu cs)).getD 4

/-- The lowest free entry of a function's arena (R66, R336). -/
def State.freeEntry (s : State) (vf : Nat) : Option Nat :=
  let f := s.funcAt vf
  let used := s.families.filter (fun e => e.1 / 2 ^ 24 == vf && e.2.alloc)
  if f.arenaBase = 0 then none
  else
    match (List.range (used.length + 1)).find? (fun i => !(s.famAt (vf * 2 ^ 24 + i)).alloc) with
    | some i => if i < f.arenaEntries then some (vf * 2 ^ 24 + i) else none
    | none => none

/-! Members. -/

/-- The state in which a dependent comes to a claimer: from the work area, else pending on the predecessor (R75). -/
def Family.dep (f : Family) (k i : Nat) : FReg := (f.work.find? (4 * k + i)).getD ⟨0#64, .pending .pred⟩
/-- The index of member `k` (R62). -/
def Family.index (f : Family) (k : Nat) : Nat := f.first + k * f.step
/-- Member `k` as it starts (R33, R130, R235, R298): a launch's members have FCTL, SRSEED and ADOPTMAX at reset. A dependent
that its claim copies from the work area lands with it, and empties the data cache where the place is wider than a core
(R153, R264). -/
def Family.member (f : Family) (fk k : Nat) (h : Word) (loc : Loc) : Thread :=
  let launched := match f.deliver with
    | .packet _ _ => true
    | _ => false
  { Thread.blank with
    vf := f.vf, queue := f.queue, fam := fk, k := k, fh := h, pc := f.body, loc := loc
    ix := word (f.index k % 2 ^ 40)
    globals := (List.range 8).foldl (fun (g : Tab Word) j => g.set 0#64 (10 + j) (f.globals.getD j 0#64)) []
    regs := (List.range 4).foldl (fun (r : Tab FReg) i => r.set FReg.zero (22 + i) (f.dep k i))
      ((List.range 4).foldl (fun (r : Tab FReg) i => r.set FReg.zero (18 + i) ⟨0#64, .empty⟩) [])
    fctl := if launched then 1#5 else f.fctl
    srseed := if launched then 0#64 else word (draw64 f.srseed.toNat (f.index k % 2 ^ 40))
    adoptMax := if launched then 4 else f.adoptMax
    emptyCache := 1 ≤ f.place && 0 < k && (List.range 4).any (fun i => (f.dep k i).st == .full) }
/-- Member `k` of a family is made, with the dependents that the work area holds (R75). -/
def State.makeMember (s : State) (fk k : Nat) (loc : Loc) : State :=
  let t := (s.famAt fk).member fk k (s.handleOf fk) loc
  let s := { s.putThread s.nextId t with nextId := s.nextId + 1 }
  s.modFam fk (fun f => { f with work := f.work.filter (fun e => e.1 / 4 != k) })
/-- The deal starts the next member in a slot (R71). -/
def State.dealMember (s : State) (fk q : Nat) : State :=
  let k := (s.famAt fk).progress
  let u := s.nextId
  ((s.modFam fk (fun f => { f with progress := k + 1 })).makeMember fk k (.slot q)).enterSlot u q
def State.dealCore (s : State) (fk c : Nat) : State :=
  let f := s.famAt fk
  if !s.inFamily fk c then s else
  ((s.freeSlots c f.vf f.queue).take (min f.block (f.count - f.progress))).foldl
    (fun (s : State) q => s.dealMember fk q) s
/-- The deal (R71), and the family's entry in the deque of each core of its place (R74). -/
def State.deal (s : State) (fk : Nat) : State :=
  let f := s.famAt fk
  let cs := s.dealOrder f.vf f.place f.origin
  let s := cs.foldl (fun (s : State) c => s.dealCore fk c) s
  let s := if f.count ≤ (s.famAt fk).progress then s
    else cs.foldl (fun (s : State) c =>
      s.modCore c (fun x => { x with deque := x.deque ++ [⟨s.handleOf fk, fk, s.nextId⟩] })) s
  { s with nextId := s.nextId + 1 }

/-- What a family is made from. -/
structure Making where
  vf       : Nat
  queue    : Nat
  level    : Nat
  origin   : Nat
  globals  : List Word
  first    : Nat
  count    : Nat
  step     : Nat
  body     : Word
  place    : Nat
  block    : Nat
  links    : List Nat
  vals     : List (Option Word)
  creator  : Word
  deliver  : Deliver
  fctl     : BitVec 5
  srseed   : Word
  adoptMax : Nat
  image    : Nat × Nat
  launch   : Nat

/-- The config word (R67). -/
def Making.config (x : Making) (rplace : Nat) : Word :=
  word (x.level * 2 ^ 36 + x.vf * 2 ^ 30 + x.globals.length * 2 ^ 26 +
    (x.links.foldr (fun l acc => l + 16 * acc) 0) * 2 ^ 10 + (x.block - 1) * 2 ^ 6 + rplace * 2 ^ 3 + x.place)
/-- A family is made in a free arena entry, and dealt (R66, R67, R71, R77, R97). -/
def State.makeFamily (s : State) (fk : Nat) (x : Making) : State :=
  let rplace := s.resolvePlace x.vf x.queue x.level x.place x.origin x.count x.block
  let old := s.famAt fk
  (s.modFam fk (fun _ => { Family.blank with
    alloc := true, gen := (old.gen + 1) % 256, vf := x.vf, queue := x.queue, level := x.level, globals := x.globals
    first := x.first, count := x.count, step := x.step, body := x.body, config := x.config rplace
    creator := x.creator, origin := x.origin, place := rplace, block := x.block
    work := (List.range 4).foldl (fun (w : Tab FReg) i => w.put i
      (match x.vals.getD i none with
       | some v => ⟨v, .full⟩
       | none => ⟨0#64, .empty⟩)) []
    deliver := x.deliver, fctl := x.fctl, srseed := x.srseed, adoptMax := x.adoptMax, links := x.links
    image := x.image, launch := x.launch })).deal fk

/-! Links. -/

/-- Is a fill at the core where its thread is now (R87)? -/
def State.arrives (s : State) (id u : Nat) : Bool :=
  match s.bound.find? id with
  | some c => c == (s.threadAt u).core
  | none => true
/-! The end. -/

/-- A link's final value: member `w`'s shared, once it has one (R60, R81). -/
def Family.linkValue (f : Family) (w i : Nat) : Option Word :=
  if f.links.getD i 15 = 15 then some 0#64 else (f.shared.find? (4 * w + i)).join
/-- The four link values of member `w`, once every linked shared has one. (DEDUCED, log entry 26) -/
def Family.linkValues (f : Family) (w : Nat) : Option (List Word) :=
  ((List.range 4).map (f.linkValue w)).foldr (fun x acc => match x, acc with
    | some v, some vs => some (v :: vs)
    | _, _ => none) (some [])
/-- A completion word of a family (R59). -/
def endWord (status value : Nat) : Word := word (value % 2 ^ 56 * 2 ^ 8 + status)
/-- Has a started member of a family counted as ended, unless it runs or was killed (R81, R100)? -/
def State.reported (s : State) (fk : Nat) (t : Thread) : Bool :=
  match t.ended with
  | none => true
  | some .killed => true
  | some _ => (s.famAt fk).endedK.contains t.k
/-- Is a live thread chained beneath a task (R301, R305)? -/
def State.chained (s : State) (u : Nat) : Bool :=
  match (s.threadAt u).loc with
  | .chain _ => true
  | .spilled q => ((s.funcAt (s.threadAt u).vf).spills.get Slot.blank q).chain.contains u ||
      ((s.funcAt (s.threadAt u).vf).loaded.get Slot.blank q).chain.contains u ||
      (match (s.funcAt (s.threadAt u).vf).saved with
       | some x => (x.slots.get Slot.blank q).chain.contains u
       | none => false)
  | _ => false
/-- May a broken or faulted family end for its members above the break: the stores of those that ended by `ret` or `brk`
are acknowledged (R100), and none is chained (R305)? -/
def State.aboveDone (s : State) (fk : Nat) : Bool :=
  s.threads.all (fun e => !(e.2.fam == fk && e.2.fh == s.handleOf fk) ||
    (s.reported fk e.2 && !(e.2.ended.isNone && s.chained e.1)))
/-- How a family ends now, if it does (R81): its completion word and link values. -/
def State.familyEnd (s : State) (fk : Nat) : Option (Word × List Word) :=
  let f := s.famAt fk
  let counted (n : Nat) : Bool := (List.range n).all (fun j => f.endedK.contains j)
  if !f.alloc || f.fixed.isSome then none
  else if f.killed then
    if s.threads.all (fun e => !(e.2.fam == fk && e.2.fh == s.handleOf fk) || (e.2.ended.isSome && s.reported fk e.2)) then
      some (endWord 2 0, List.replicate 4 0#64)
    else none
  else
    match f.broken with
    | some (k, .brk v) =>
      if counted (k + 1) && s.aboveDone fk then (f.linkValues k).map (fun vs => (endWord 1 v, vs)) else none
    | some (k, _) => if counted k && s.aboveDone fk then some (endWord 3 (f.index k % 2 ^ 40), List.replicate 4 0#64) else none
    | none =>
      if f.endedK.length = f.count then (f.linkValues (f.count - 1)).map (fun vs => (endWord 0 0, vs)) else none

/-- An arena entry is freed (R69): its deque entries go, and what was still on its way to the family's home; a claim takes
nothing, and its slot or helper is let go (R74, R300). -/
def State.freeEntryIf (s : State) (fk : Nat) : State :=
  let f := s.famAt fk
  if !(f.alloc && f.fixed.isSome && f.filled && f.waiters.isEmpty) then s
  else
    let claims := s.msgs.filterMap (fun e => match e.2 with
      | .claim g _ slot helper _ => if g = fk then some (e.1, slot, helper) else none
      | _ => none)
    let s := claims.foldl (fun (s : State) c => s.dropClaim c.1 c.2.1 c.2.2) (s.modFam fk (fun f => { f with alloc := false }))
    { s with
      cores := s.cores.map (fun e => (e.1, { e.2 with deque := e.2.deque.filter (fun d => d.fam != fk) }))
      msgs := s.msgs.filter (fun e => match e.2 with
        | .dep g _ _ _ _ => g != fk
        | .brk g _ _ => g != fk
        | .report g _ => g != fk
        | _ => true) }
/-- A family's place is let go when its launch ends (R319, R323): a filler on a bound lane may stop. -/
def State.launchOver (s : State) (fk : Nat) : State :=
  s.modFam fk (fun f => { f with filled := true })
/-- The end is fixed (R82): the filling act leaves for the creator, the armed waits are answered, and a launch's packet
completes (R309). (DEDUCED, log entry 26) -/
def State.fixEnd (s : State) (fk : Nat) (w : Word) (results : List Word) : State :=
  let f := s.famAt fk
  let h := s.handleOf fk
  let s := s.modFam fk (fun f => { f with fixed := some w, results := results })
  let s := f.waiters.foldl (fun (s : State) u => s.sendFill f.clock u (.answer h u)) s
  match f.deliver with
  | .nobody => (s.modFam fk (fun f => { f with filled := true })).freeEntryIf fk
  | .thread u _ _ =>
    if (s.threadAt u).ended.isSome then (s.modFam fk (fun f => { f with filled := true })).freeEntryIf fk
    else s.sendFill f.clock u (.fill h u)
  | .packet q n =>
    let addr := match s.packetAt? f.vf q n with
      | some p => p.dword 4
      | none => 0#64
    ((s.packetEnds f.vf q n addr w).launchOver fk).freeEntryIf fk
/-- The home looks whether the family has ended. -/
def State.checkEnd (s : State) (fk : Nat) : State :=
  match s.familyEnd fk with
  | some (w, vs) => s.fixEnd fk w vs
  | none => s

/-! Shareds on their way. -/

/-- A home learns the clock of what reaches it (R263, R264). -/
def State.learnHome (s : State) (fk : Nat) (c : List Nat) : State :=
  s.modFam fk (fun f => { f with clock := joinClocks f.clock c })
/-- What a link within one core carries to member `k` at thread `u` (R256, R264): the writes of the core's threads that
their homes have not applied, and what the members before it had seen, so that a later release passes them on (R259).
(DEDUCED, log entry 79) -/
def State.linkSeen (s : State) (fk k u : Nat) : State :=
  let t := s.threadAt u
  let mine := (s.reqs.filter (fun e => e.2.core == t.core && e.2.kind.writes && e.2.unserved && e.2.thread.isSome &&
    e.2.thread != some u)).map Prod.fst
  let before := (s.threads.filter (fun e => e.2.fam == fk && e.2.fh == t.fh && e.2.k < k)).flatMap (fun e => e.2.seen)
  s.sees u ((mine ++ before.filter (fun id => !mine.contains id)).eraseDups)
/-- A shared's value, or the news that it stays empty, lands (R75, R77, R153, R262, R264): at the successor, in the work
area, or, from the last member, at the home; the family may end with it (R60, R81). What is bound for a stub stays (R79). -/
def State.landDep (s : State) (id fk k i : Nat) (v : Option Word) : State :=
  let f := s.famAt fk
  let c := s.carriedBy id
  let note (s : State) : State :=
    (s.delMsg id).modFam fk (fun f => { f with shared := f.shared.put (4 * (k - 1) + i) v })
  let reg : FReg := match v with
    | some w => ⟨w, .full⟩
    | none => ⟨0#64, .empty⟩
  if f.count ≤ k then ((note s).learnHome fk c).checkEnd fk
  else
    match s.memberAt fk k with
    | some u =>
      if !s.arrives id u then s
      else
        let s := (note s).learnAt u c
        let s := if (s.threadAt u).reg (22 + i) == ⟨0#64, .pending .pred⟩ then (s.modThread u (fun t => t.setReg (22 + i) reg)).syncRecord u
          else s
        (if v.isNone then s else if 4 ≤ f.place then s.acquireFor u else if 1 ≤ f.place then s.emptyFor u
          else s.linkSeen fk k u).checkEnd fk
    | none =>
      if (f.stubs.find? (4 * k + i)).isSome then s
      else (((note s).learnHome fk c).modFam fk (fun f => { f with
        work := if f.endedK.contains k then f.work else f.work.put (4 * k + i) reg })).checkEnd fk
/-- A pass-through stub forwards what lands at it (R79). -/
def State.forwardDep (s : State) (id fk k i : Nat) (v : Option Word) : State :=
  match (s.famAt fk).stubs.find? (4 * k + i) with
  | none => s
  | some c =>
    let s := ((s.tellDie (dieOfCore c) (s.carriedBy id)).delMsg id).modFam fk (fun f => { f with
      shared := f.shared.put (4 * (k - 1) + i) v, stubs := f.stubs.del (4 * k + i) })
    let clock := s.clockOf (dieOfCore c)
    (match s.memberAt fk (k + 1) with
     | some u => s.sendFill clock u (.dep fk (k + 1) i v c)
     | none => s.sendWith clock (.dep fk (k + 1) i v c)).checkEnd fk

/-- The filling act lands at the creator: links and handle in one act, an acquire at system scope (R59, R64, R153, R264). -/
def State.landFamily (s : State) (id : Nat) (h : Word) (u : Nat) : State :=
  if !s.arrives id u then s
  else
    let fk := s.famOfHandle (s.threadAt u).vf h
    let f := s.famAt fk
    let s := (s.learnAt u (s.carriedBy id)).delMsg id
    let s := if (s.threadAt u).ended.isSome then s
      else
        match f.deliver with
        | .thread _ rd links =>
          let s := links.foldl (fun (s : State) l => s.landFill u l.2 (.link h l.1) (f.results.getD l.1 0#64)) s
          let s := s.landFill u rd (.family h) (f.fixed.getD 0#64)
          (s.modThread u (fun t => { t with made := t.made.filter (· != h) })).acquireFor u
        | _ => s
    (s.modFam fk (fun f => { f with filled := true })).freeEntryIf fk
/-- The wait of an `hwait` is over: what its consume bit names becomes empty (R106). -/
def Thread.waited (t : Thread) : Thread :=
  t.owes.foldl (fun (t : Thread) r => t.setReg r ⟨0#64, .empty⟩) { t with wait := .none, owes := [] }
/-- The answer to a wait armed on a family or an engine operation lands, an acquire at system scope (R69, R106, R153,
R264). -/
def State.landWaiter (s : State) (id : Nat) (h : Word) (u : Nat) : State :=
  if !s.arrives id u then s
  else
    let fk := s.famOfHandle (s.threadAt u).vf h
    let s := (s.learnAt u (s.carriedBy id)).delMsg id
    let s := if (s.threadAt u).ended.isSome then s
      else
        let s := if (s.threadAt u).wait == .family h || (s.threadAt u).wait == .engine h then s.modThread u Thread.waited else s
        s.acquireFor u
    if bitOf h.toNat 63 then s
    else (s.modFam fk (fun f => { f with waiters := f.waiters.filter (· != u) })).freeEntryIf fk

/-! Breaks and kills. -/

/-- A kill leaves for each live member of a family above a bound (R61). -/
def State.killMembers (s : State) (fk : Nat) (p : Nat → Bool) : State :=
  (s.threads.filter (fun e => e.2.fam == fk && e.2.fh == s.handleOf fk && e.2.ended.isNone && p e.2.k)).foldl
    (fun (s : State) e => s.send (.killThread e.1)) s
/-- A break or fault of member `k` is recorded (R60, R81). (DEDUCED, log entry 28) -/
def State.recordBreak (s : State) (fk k : Nat) (how : Ended) : State :=
  let f := s.famAt fk
  let beaten := match f.broken with
    | some (j, _) => j ≤ k
    | none => false
  if f.fixed.isSome || f.killed || beaten then s
  else ((s.modFam fk (fun f => { f with broken := some (k, how) })).killMembers fk (fun j => k < j)).checkEnd fk
/-- A kill reaches a family's home (R82). (DEDUCED, log entry 28) -/
def State.killAtHome (s : State) (fk gen : Nat) : State :=
  let f := s.famAt fk
  if !f.alloc || f.gen != gen || f.fixed.isSome || f.killed then s
  else ((s.modFam fk (fun f => { f with killed := true })).killMembers fk (fun _ => true)).checkEnd fk
/-- A kill reaches a thread (R61, R305): one in a slot ends at its next turn, a chained helper when it has popped, and a
record at once. -/
def State.killReaches (s : State) (u : Nat) : State :=
  let t := s.threadAt u
  if t.ended.isSome then s
  else
    match t.loc with
    | .slot _ => s.modThread u (fun t => { t with killed := true })
    | .chain _ => s.modThread u (fun t => { t with killed := true })
    | .spilled _ => s.modThread u (fun t => { t with killed := true })
    | _ => s.endThread u .killed
/-- An end report reaches the home (R81): after the thread's writes, those of the threads that it helped to their end and
what they had seen have been acknowledged (R264), and after its break. (DEDUCED, log entry 27) -/
def State.reportReady (s : State) (fk u : Nat) : Bool :=
  let t := s.threadAt u
  (t.ended == some .killed || (u :: t.helped).all (fun v => s.writesAcked v && s.seenAcked v)) &&
  !s.msgs.any (fun e => match e.2 with
    | .brk g k _ => g == fk && k == t.k
    | _ => false)
def State.landReport (s : State) (id fk u : Nat) : State :=
  if !s.reportReady fk u then s
  else
    let t := s.threadAt u
    let c := s.carriedBy id
    let s := s.delMsg id
    if t.fh != s.handleOf fk then s
    else ((s.learnHome fk c).modFam fk (fun f => { f with
      endedK := if t.ended == some .killed || f.endedK.contains t.k then f.endedK else f.endedK ++ [t.k] })).checkEnd fk

end Sys2Proof.Machine
end

