-- ==== Sys2Proof/Machine/Fam.lean ====
section
/-! DEFINITION. The family and thread instructions (R96 to R108): create, spawn, sync, brk, kill, mig, yield, htest,
hwait and hcancel. -/

namespace Sys2Proof.Machine

/-! create and spawn (R46, R62 to R65, R97, R98). -/

/-- Word 2's fields (R46). -/
def mkLinks (w2 : BitVec 32) : List Nat := (List.range 4).map (fun i => bitsOf w2.toNat (7 + 4 * i) 4)
def mkGlobals (w2 : BitVec 32) : List (BitVec 5) :=
  (List.range (bitsOf w2.toNat 28 4)).map (fun j => BitVec.ofNat 5 (bitsOf w2.toNat 23 5 + j))
/-- The used links: number and local. -/
def usedLinks (ls : List Nat) : List (Nat × Nat) :=
  ((List.range 4).map (fun i => (i, ls.getD i 15))).filter (fun l => l.2 != 15)
/-- What the executing thread makes of its operands. -/
def State.making (s : State) (d a : BitVec 5) (w2 : BitVec 32) (count : Nat) (deliver : Bool) (m : Mods) : Making :=
  let t := s.cur
  let f := s.famAt t.fam
  let ls := mkLinks w2
  { vf := t.vf, queue := t.queue, level := f.level, origin := s.myCore
    globals := (mkGlobals w2).map s.gpr
    first := (s.gpr a).toNat, count := count, step := (s.gpr m.rc).toNat, body := m.lit
    place := bitsOf w2.toNat 0 3, block := bitsOf w2.toNat 3 4 + 1, links := ls
    vals := ls.map (fun l => if l = 15 then none else some (s.gpr (BitVec.ofNat 5 l)))
    creator := word (famIdOf t.fam * 2 ^ 17 + s.me % 2 ^ 17)
    deliver := if deliver then .thread s.uid d.toNat (usedLinks ls) else .nobody
    fctl := t.fctl, srseed := t.srseed, adoptMax := t.adoptMax, image := f.image, launch := f.launch }
/-- `create` and `spawn`: the range is checked, then an entry is taken, before anything changes; SRSEED steps (R235). -/
def State.createFamily (s : State) (own : Bool) (d a b : BitVec 5) (m : Mods) : Out :=
  let ls := mkLinks m.w2
  s.issue m 0 { src := [a, b, m.rc] ++ (usedLinks ls).map (fun l => BitVec.ofNat 5 l.2) ++ mkGlobals m.w2,
                dst := if own then [d] else [] }
    (match rangeCount (s.gpr a) (s.gpr b) (s.gpr m.rc) m.lit with
     | .error c => s.fail fFAMILY c 0#64 3
     | .ok 0 => s.finish m a b (fun t =>
        let t := t.modCur (fun x => { x with srseed := x.srseed + 1 })
        if own then t.writeGpr d 0#64 else t)
     | .ok n =>
        match s.freeEntry s.cur.vf with
        | none => s.fail fFAMILY 5 0#64 3
        | some fk => s.finish m a b (fun t =>
            let x := s.making d a m.w2 n own m
            let h := word ((s.funcAt s.cur.vf).arenaBase + 256 * famIdOf fk + ((s.famAt fk).gen + 1) % 256)
            let t := t.modCur (fun y => { y with srseed := y.srseed + 1, made := y.made ++ [h] })
            let t := if own then (usedLinks x.links).foldl (fun (t : State) l =>
                t.pendGpr (BitVec.ofNat 5 l.2) (.link h l.1)) (t.pendGpr d (.family h)) else t
            t.makeFamily fk x))
def execCreate (d a b : BitVec 5) (m : Mods) (s : State) : Out := s.createFamily true d a b m
def execSpawn (a b : BitVec 5) (m : Mods) (s : State) : Out := s.createFamily false 0#5 a b m

/-! Naming an operation (R102). -/

/-- What ra names: no operation, a register that waits for something else, a family or an engine operation, by its own
register or by a handle value. -/
inductive Named where
  | nothing
  | waiting
  | family (own : Bool) (h : Word)
  | engine (own : Bool) (h : Word)
  deriving DecidableEq, Repr

/-- A value read as a handle value; none where it faults FAMILY(7). -/
def State.handleValue (s : State) (vf : Nat) (v : Word) : Option Named :=
  if v = 0#64 then some .nothing
  else if bitOf v.toNat 63 then some (.engine false v)
  else if fieldOf v 57 6 != 0 || !s.inArena vf (v.toNat / 256 * 256) || s.handleOf (s.famOfHandle vf v) != v then none
  else some (.family false v)
/-- The operation that ra names, or the fault. -/
def State.named (s : State) (a : BitVec 5) : Except (Nat × Nat) Named :=
  match s.cur.fe a.toNat with
  | .empty => .error (fLINK, 1)
  | .pending (.family h) => .ok (.family true h)
  | .pending (.engine h) => .ok (.engine true h)
  | .pending _ => .ok .waiting
  | .full => match s.handleValue s.cur.vf (s.gpr a) with
    | some n => .ok n
    | none => .error (fFAMILY, 7)
/-- Is a family that a handle names still running: its end not fixed? -/
def State.familyPending (s : State) (vf : Nat) (h : Word) : Bool :=
  let f := s.famAt (s.famOfHandle vf h)
  f.alloc && f.fixed.isNone && s.handleOf (s.famOfHandle vf h) == h
/-- Is an engine operation that a handle names still in its table or queue? -/
def State.enginePending (s : State) (h : Word) : Bool :=
  s.clusters.any (fun e => e.2.copies.any (fun c => c.2.h == h) || e.2.jobs.any (fun j => j.2.h == h))
/-- Changes an engine operation that a handle names. -/
def State.modEngine (s : State) (h : Word) (f : CopyOp → CopyOp) (g : Job → Job) : State :=
  { s with clusters := s.clusters.map (fun e => (e.1, { e.2 with
      copies := e.2.copies.map (fun c => (c.1, if c.2.h = h then f c.2 else c.2))
      jobs := e.2.jobs.map (fun j => (j.1, if j.2.h = h then g j.2 else j.2)) })) }

/-- A kill or cancel of what ra names (R103, R104). -/
def State.stopNamed (s : State) (a : BitVec 5) (m : Mods) : Out :=
  s.issue m 0 {}
    (match s.named a with
     | .error e => s.fail e.1 e.2 0#64 3
     | .ok (.family _ h) => s.finish m 27#5 27#5 (fun t => t.send (.kill (s.famOfHandle s.cur.vf h) (h.toNat % 256)))
     | .ok (.engine _ h) => s.finish m 27#5 27#5 (fun t =>
        t.modEngine h (fun c => { c with stop := if c.stop = 0 then 2 else c.stop })
          (fun j => { j with stop := if j.stop = 0 then 2 else j.stop }))
     | .ok _ => s.finish m 27#5 27#5 id)
def execKill (a : BitVec 5) (m : Mods) (s : State) : Out := s.stopNamed a m
def execHcancel (a : BitVec 5) (m : Mods) (s : State) : Out := s.stopNamed a m

/-- `htest` (R105). -/
def State.testNamed (s : State) : Named → Word
  | .nothing => 0#64
  | .waiting => 1#64
  | .family own h => if own || s.familyPending s.cur.vf h then h else 0#64
  | .engine own h => if own || s.enginePending h then h else 0#64
/-- `htest` (R105); a pending destination is waited for (DEDUCED, log entry 29). -/
def execHtest (d a : BitVec 5) (m : Mods) (s : State) : Out :=
  s.issue m 0 { dst := [d] }
    (match s.named a with
     | .error e => s.fail e.1 e.2 0#64 3
     | .ok n => s.finish m 27#5 27#5 (fun t => t.writeGpr d (s.testNamed n)))

/-- `sync` (R99): the wait for a full register, helping where it may (R89). -/
def execSync (a : BitVec 5) (m : Mods) (s : State) : Out := s.issue m 0 { src := [a] } (s.finish m a 27#5 id)

/-- `hwait` on a handle value of a running family (R106): it helps, or arms a wait at the family's home. -/
def State.waitFamily (s : State) (h : Word) (a : BitVec 5) (m : Mods) : Out :=
  let fk := s.famOfHandle s.cur.vf h
  match s.cycleFamily s.uid fk with
  | some c => s.fail fWAITCYCLE c h 3
  | none =>
    if s.mayHelp s.uid fk && s.hasTask fk then .next (s.sendHelp s.uid fk none)
    else s.finishOwing m a (fun t => (t.send (.arm h s.uid)).suspend (.family h))
/-- `hwait` (R106). Once the operation that fills its own register has filled it, the wait is over; a register that waits
for something else is read as a handle value once it is full, as the example of R106 asks. (DEDUCED, log entry 29) -/
def execHwait (a : BitVec 5) (m : Mods) (s : State) : Out :=
  s.issue m 0 {}
    (if s.cur.ownWait && s.cur.fe a.toNat == .full then
      s.finish m a 27#5 (fun t => t.modCur (fun x => { x with ownWait := false }))
     else
      match s.named a with
      | .error e => s.fail e.1 e.2 0#64 3
      | .ok .nothing => s.finish m a 27#5 id
      | .ok .waiting => .next (s.blockOn a.toNat)
      | .ok (.family true _) => .next ((s.modCur (fun x => { x with ownWait := true })).blockOn a.toNat)
      | .ok (.engine true _) => .next ((s.modCur (fun x => { x with ownWait := true })).blockOn a.toNat)
      | .ok (.family false h) =>
        if s.familyPending s.cur.vf h then s.waitFamily h a m else s.finish m a 27#5 id
      | .ok (.engine false h) =>
        if s.enginePending h then s.finishOwing m a (fun t =>
          (t.modEngine h (fun c => { c with waiters := c.waiters ++ [s.uid] })
            (fun j => { j with waiters := j.waiters ++ [s.uid] })).suspend (.engine h))
        else s.finish m a 27#5 id)

/-! brk, mig and yield. -/

/-- `brk` (R101). -/
def execBrk (a : BitVec 5) (m : Mods) (s : State) : Out :=
  s.issue m 0 { src := [a] } (s.finish m a 27#5 (fun t => t.endThread s.uid (.brk (fieldOf (s.gpr a) 0 56))))

/-- The owner core of a storage address, for a thread on core `c` (R90). -/
def ownerCore (c a : Nat) : Nat :=
  if isVault a then (vaultDie a * 64 + vaultCluster a) * 8 + bitsOf a 6 3
  else if a < 2 ^ 40 then a / 2 ^ 36 * 512 + 32 * bitsOf a 12 4 + bitsOf a 6 3
  else c
/-- `mig` and `mig.s` (R90, R91, R107). At another core the thread meets an empty data cache, and at
another die what its own die knew (R263, R265). (DEDUCED, log entry 79) -/
def State.migrate (s : State) (serial : Bool) (a : BitVec 5) (m : Mods) : Out :=
  let va := s.gpr a
  s.issue m 0 { src := [a] }
    (if s.cur.pinned then s.fail fFAMILY 6 0#64 3
     else s.access .load 1 va (fun s p =>
      if s.moveWait s.uid != .none then s.await (s.moveWait s.uid)
      else
        let u := s.uid
        let c := s.myCore
        let o := ownerCore c p.addr
        s.finish m a 27#5 (fun t =>
          let t := (t.modCur (fun x => { x with serial := serial })).leaveSlot u
          let t := if o = c then t else t.modThread u (fun x => { x with emptyCache := true })
          if o = c && !serial then
            (t.modThread u (fun x => { x with loc := .runq c })).modCore c (fun x => { x with runq := x.runq ++ [u] })
          else (t.modThread u (fun x => { x with loc := .moving o })).sendWith (s.clockOf s.myDie) (.move u o serial))))
def execMig (a : BitVec 5) (m : Mods) (s : State) : Out := s.migrate false a m
def execMigS (a : BitVec 5) (m : Mods) (s : State) : Out := s.migrate true a m

/-- A record of a core's run queue that is ready, by what it waits on. -/
def State.recordReady (s : State) (u : Nat) : Bool := s.waitOver u (s.threadAt u).wait && (s.threadAt u).ended.isNone
/-- The first ready record of a core's run queue whose queue owns a slot, and whose place holds the core (R70, R108), be it
the head or not (DESIGN CHOICE, log entry 83); none for slot 15 while that is reserved for serial threads (R91). -/
def State.nextRecord (s : State) (c q : Nat) : Option Nat :=
  if slotOfSlot q = 15 && s.serialReserved c then none
  else (s.coreAt c).runq.find? (fun u =>
    s.recordReady u && (s.threadAt u).queue == (s.slotAt q).qowner && s.inFamily (s.threadAt u).fam c)
/-- A record of the run queue starts in a slot. -/
def State.startRecord (s : State) (c u q : Nat) : State :=
  (s.modCore c (fun x => { x with runq := x.runq.filter (· != u) })).enterSlot u q
/-- `yield` (R108). -/
def execYield (m : Mods) (s : State) : Out :=
  s.issue m 0 {}
    (if s.cur.pinned || s.cur.serial || !s.mySlot.chain.isEmpty then s.finish m 27#5 27#5 id
     else
      match s.nextRecord s.myCore s.me with
      | none => s.finish m 27#5 27#5 id
      | some h =>
        if s.moveWait s.uid != .none then s.await (s.moveWait s.uid)
        else
          let u := s.uid
          let c := s.myCore
          s.finish m 27#5 27#5 (fun t =>
            let t := (t.leaveSlot u).modThread u (fun x => { x with loc := .runq c })
            (t.modCore c (fun x => { x with runq := x.runq ++ [u] })).startRecord c h t.me))

end Sys2Proof.Machine
end

