-- ==== Sys2Proof/Machine/Engine.lean ====
section
/-! DEFINITION. What the engines share: handles (R188), forks (R199, R210), the check phase of a chunk or row (R184,
R190, R202, R212, R407), its write phase, fault records (R195, R196) and the end of an operation (R189). -/

namespace Sys2Proof.Machine

/-! Handles. -/

/-- An engine handle (R188): unit, cluster over the package, entry and generation. -/
def engineHandle (unit cl e gen : Nat) : Word :=
  word (2 ^ 63 + unit * 2 ^ 60 + cl / 64 % 16 * 2 ^ 56 + cl % 64 * 2 ^ 50 + e % 256 * 2 ^ 42 + gen % 2 ^ 42)

/-! Forks. -/

/-- May an operation of thread `u` fork (R199): its loads issued before have landed, and its stores, atomics, `stfe` and
waits have been acknowledged? A queued `ldfe` has not landed, since R167 counts it as landed for R86 alone; once its
thread has ended it holds nothing. What the thread has seen of its core's other slots has been applied too, so that the
operation reads it (R264). A fence that has issued holds the operation until it completes (R260). -/
def State.forkReady (s : State) (u before : Nat) : Bool :=
  !(match (s.threadAt u).wait with
    | .fence _ => true
    | _ => false) && s.seenAcked u &&
  !s.reqs.any (fun e => e.2.thread == some u && e.2.issued e.1 < before &&
    !(e.2.kind == .ldfe && e.2.phase == .armed && (s.threadAt u).ended.isSome)) &&
  !s.cores.any (fun e => e.2.loq.any (fun x => (x.thread == u && x.queued < before) || x.also.contains u))

/-! The check phase. -/

/-- The pieces of a range within single 4 KiB pages: virtual address and length. -/
def pageRuns : Nat → Word → Nat → List (Word × Nat)
  | 0, _, _ => []
  | fuel + 1, va, n =>
    if n = 0 then []
    else
      let k := min n (4096 - va.toNat % 4096)
      (va, k) :: pageRuns fuel (va + word k) (n - k)
def runsOfRange (va : Word) (n : Nat) : List (Word × Nat) := pageRuns (n / 4096 + 2) va n

/-- The step of R160 at which a check failed. -/
def checkStep (e : Nat × Nat) : Nat := if e = (fACCESS, 1) then 1 else if e.1 = fALIGN then 2 else 3
/-- The failure of one address by steps 1 to 3 of R160: step, code, cause and address. -/
def State.sideCheck (s : State) (vf : Nat) (acc : Acc) (align : Nat) (va : Word) : Option (Nat × Nat × Nat × Word) :=
  match s.checkVa vf acc align va with
  | .error e => some (checkStep e, e.1, e.2, va)
  | .ok _ => none
/-- The first failure of a list of addresses, of which only the first may be misaligned. -/
def State.runsCheck (s : State) (vf : Nat) (acc : Acc) (align : Nat) : List (Word × Nat) → Option (Nat × Nat × Nat × Word)
  | [] => none
  | r :: rs => match s.sideCheck vf acc align r.1, s.runsCheck vf acc 1 rs with
    | some x, some y => if y.1 < x.1 then some y else some x
    | some x, none => some x
    | none, y => y
/-- Steps 1 to 3 across source and destination, the source first at each step (R190). -/
def State.pairCheck (s : State) (vf align : Nat) (src dst : List (Word × Nat)) : Option ChunkFault :=
  match s.runsCheck vf .load align src, s.runsCheck vf .store align dst with
  | some x, some y =>
    if y.1 < x.1 then some ⟨y.2.1, y.2.2.1, y.2.2.2, true, 0⟩ else some ⟨x.2.1, x.2.2.1, x.2.2.2, false, 0⟩
  | some x, none => some ⟨x.2.1, x.2.2.1, x.2.2.2, false, 0⟩
  | none, some y => some ⟨y.2.1, y.2.2.1, y.2.2.2, true, 0⟩
  | none, none => none
/-- Translates the runs of one side: latest-only pages are refused (R202), and at level 2 the second tier and the host
(R407). -/
def State.placeRuns (s : State) (core vf level : Nat) (dest : Bool) :
    List (Word × Nat) → State × Except ChunkFault (List (Nat × Nat × Word × Option Nat))
  | [] => (s, .ok [])
  | r :: rs =>
    match s.engineReach core vf (if dest then .store else .load) 1 r.1 with
    | (s, .error e) => (s, .error ⟨e.1, e.2.1, r.1, dest, e.2.2⟩)
    | (s, .ok p) =>
      if p.lo then (s, .error ⟨fACCESS, 6, r.1, dest, 0⟩)
      else if level = 2 ∧ (inTier2 p.addr || isHost p.addr) = true then (s, .error ⟨fDETERM, 3, r.1, dest, 0⟩)
      else if !s.keyReady p.key then (s, .error ⟨fACCESS, 13, r.1, dest, 0⟩)
      else
        match s.placeRuns core vf level dest rs with
        | (s, .error e) => (s, .error e)
        | (s, .ok xs) => (s, .ok ((p.addr, r.2, r.1, p.key) :: xs))
/-! Engine accesses and the egress (R262 to R264). -/

/-- Who an engine access is for: the core whose die's egress it passes, its function and operation, the clock that it
carries and its thread's egress boundary. -/
structure Agent where
  core  : Nat
  vf    : Nat
  h     : Word
  clock : List Nat
  bound : Nat

/-- The byte that the egress of an agent's die holds to an address, of the writes since the agent's boundary. -/
def Agent.held (g : Agent) (s : State) (a : Nat) : Option Byte :=
  match s.heldAt (dieOfCore g.core) a (fun _ _ => true) with
  | some (w, b) => if g.bound ≤ w then some b else none
  | none => none
/-- Bytes read at an address, with what the egress of the agent's die holds laid over them. (DEDUCED, log entry 20) -/
def Agent.overlay (g : Agent) (s : State) (a : Nat) (bs : List Byte) : List Byte :=
  if s.reqs.any (fun e => e.2.held (dieOfCore g.core)) then
    (List.range bs.length).map (fun i => (g.held s (a + i)).getD (bs.getD i 0#8))
  else bs
/-- May an agent read a run now (R263, R264): its home die has applied every write that the agent's clock names, or the
egress holds every byte of it, or an error answers it? -/
def Agent.mayRead (g : Agent) (s : State) (r : Nat × Nat × Word × Option Nat) : Bool :=
  s.caughtUp (homeDie r.1) g.clock (fun _ _ => false) || s.poisoned r.1 r.2.1 ||
  (List.range r.2.1).all (fun i => (g.held s (r.1 + i)).isSome)
/-- The die of an agent learns the clocks of the home dies that it read from (R263). -/
def Agent.learns (g : Agent) (s : State) (rs : List (Nat × Nat × Word × Option Nat)) : State :=
  rs.foldl (fun (s : State) r =>
    if homeDie r.1 == dieOfCore g.core then s else s.tellDie (dieOfCore g.core) (s.clockOf (homeDie r.1))) s
/-- The first byte of a range of `n` at `a` that lies in a 64-byte unit with an uncorrectable error, as an offset. -/
def State.badOffset (s : State) (a n : Nat) : Nat :=
  match (List.range (n / 64 + 2)).find? (fun i => s.poisoned (a / 64 * 64 + 64 * i) 64) with
  | some i => a / 64 * 64 + 64 * i - a
  | none => 0
/-- Reads placed runs; the first virtual address that an uncorrectable error hits (R196). -/
def State.readRuns (s : State) (g : Agent) : List (Nat × Nat × Word × Option Nat) → Except Word (List Byte)
  | [] => .ok []
  | r :: rs =>
    if s.poisoned r.1 r.2.1 then .error (r.2.2.1 + word (s.badOffset r.1 r.2.1))
    else
      let bs := (runsOf r.1 r.2.1).flatMap (fun l =>
        (((s.homeLine g.vf (r.2.2.1.toNat + (l.1 - r.1)) r.2.2.2 l.1).getD (List.replicate 64 0#8)).drop (l.1 % 64)).take l.2)
      match s.readRuns g rs with
      | .error e => .error e
      | .ok more => .ok (g.overlay s r.1 bs ++ more)
/-- The die of the agent that the source's region selects (R184, R347); the issuing cluster's where the source has no
place. -/
def State.agentDie (s : State) (core vf : Nat) (va : Word) : Nat :=
  match (s.engineReach core vf .load 1 va).2 with
  | .ok p => homeDie p.addr
  | .error _ => dieOfCore core

/-- May an agent's accesses to these runs walk the table now (R342): the cluster and the die's pool have room, and no walk of
one of their pages is in flight, which they join and await? -/
def State.walkRoom (s : State) (g : Agent) (rs : List (Word × Nat)) : Bool :=
  let out := s.walks.filter (fun w => w.2.result.isNone)
  rs.all (fun r => match s.region g.vf r.1.toNat with
    | .ok .space => (out.filter (fun w => w.2.cluster == clusterOfCore g.core)).length < 64 &&
        (out.filter (fun w => w.2.die == dieOfCore g.core)).length < 64 &&
        !s.walks.any (fun w => w.2.vf == g.vf && w.2.page == r.1.toNat / 4096)
    | _ => true)
/-- The check phase of a chunk (R190): `len` bytes from `src` to `dst`, aligned to `align`; none while its read must
wait for writes that the agent's clock names (R264), or its translation for a walker (R342). -/
def State.checkChunk (s : State) (g : Agent) (level align : Nat) (src dst : Word) (len : Nat) :
    State × Except ChunkFault (Option Chunk) :=
  let a := runsOfRange src len
  let b := runsOfRange dst len
  match s.pairCheck g.vf align a b with
  | some f => (s, .error f)
  | none =>
    if !s.walkRoom g (a ++ b) then (s, .ok none)
    else match s.placeRuns g.core g.vf level false a with
    | (s, .error f) => (s, .error f)
    | (s, .ok xs) =>
      match s.placeRuns g.core g.vf level true b with
      | (s, .error f) => (s, .error f)
      | (s, .ok ys) =>
        if !xs.all (g.mayRead s) then (s, .ok none)
        else
          match s.readRuns g xs with
          | .error va => (s, .error ⟨fMACHINE, 1, va, false, 0⟩)
          | .ok bs => (g.learns s xs, .ok (some { runs := ys, data := bs }))

/-! The write phase. -/

/-- What is left of placed runs after `n` of their bytes, up to the end of a run. -/
def runAt : List (Nat × Nat × Word × Option Nat) → Nat → Option (Nat × Nat × Word × Option Nat)
  | [], _ => none
  | r :: rs, n => if n < r.2.1 then some (r.1 + n, r.2.1 - n, r.2.2.1 + word n, r.2.2.2) else runAt rs (n - r.2.1)
/-- The next unit of a chunk's write phase: 8 aligned bytes, or what the run has of them; an element where `elem` gives its
bytes (R190, R194). -/
def Chunk.next (x : Chunk) (elem : Nat) : Option (Nat × Nat × Word × Option Nat) :=
  (runAt x.runs x.done).map (fun r => (r.1, if elem = 0 then min (8 - r.1 % 8) r.2.1 else elem, r.2.2))
/-- May an agent's unit be written now? One that crosses dies leaves for the egress; at a home of the agent's own die,
every write that the agent's clock names has been applied there first (R262, R263). -/
def Agent.mayWrite (g : Agent) (s : State) (a : Nat) : Bool :=
  homeDie a != dieOfCore g.core || (!s.linkDown a && s.caughtUp (homeDie a) g.clock (fun _ _ => false))
/-- A write of an agent's chunk or row `n`, as a request to its home. -/
def Agent.req (g : Agent) (s : State) (kind : ReqKind) (n a : Nat) (va : Word) (key : Option Nat) (bs : List Byte) : Req :=
  let die := dieOfCore g.core
  { Req.blank with
    kind := kind, phase := if homeDie a == die then .home else .ingress, vf := g.vf, core := g.core, slot := 16 * g.core
    addr := a, va := va, size := bs.length, key := key, data := bs, clock := s.clockOf die, engine := some g.h
    rc := n }
/-- A unit of chunk or row `n` is written: at once at a home of the agent's die, and through the egress at any other
(R262). -/
def Agent.write (g : Agent) (s : State) (n a : Nat) (va : Word) (key : Option Nat) (bs : List Byte) : State :=
  if homeDie a == dieOfCore g.core then s.homeWrite g.vf va key a bs else s.dispatch (g.req s .store n a va key bs)
/-- Does an agent's unit meet an uncorrectable error in its own die (R195)? At another die, its home finds it. -/
def Agent.stops (g : Agent) (s : State) (a n : Nat) : Bool := homeDie a == dieOfCore g.core && s.badBytes a n
/-- Has every write of an operation been acknowledged by its home (R264)? -/
def State.engineAcked (s : State) (h : Word) : Bool := !s.reqs.any (fun e => e.2.engine == some h)

/-! Fault records. -/

/-- May a record be answered by replay (R196)? `adds` marks the operations that read their destination. (DEDUCED, log
entry 38) -/
def chunkReplays (adds : Bool) (f : ChunkFault) : Bool :=
  f.code == fPAGE || (f.code == fACCESS && 8 ≤ f.cause && f.cause ≤ 16 && f.cause != 15) ||
  (f.code == fMACHINE && (f.cause == 4 || !f.dest || !adds))
/-- The fault word of a record of kind 0x03 (R196, R212). (DEDUCED, log entry 38) -/
def chunkWord (op : Nat) (adds : Bool) (f : ChunkFault) : Word :=
  word (f.code + f.cause * 2 ^ 8 + (chunkReplays adds f).toNat * 2 ^ 16 + f.dest.toNat * 2 ^ 17 + op % 256 * 2 ^ 24)

end Sys2Proof.Machine
end

