-- ==== Sys2Proof/Machine/Copy.lean ====
section
/-! DEFINITION. The copy unit: copies, gathers, scatters and reducing copies (R143, R184 to R202), and the collectives
(R375 to R379): how they issue, and the acts of their chunks. -/

namespace Sys2Proof.Machine

/-! Kinds of operation, by func[7:0] (R185, R375). -/
def CopyOp.isGather (c : CopyOp) : Bool := c.op == 1
def CopyOp.isScatter (c : CopyOp) : Bool := c.op == 2
def CopyOp.isRow (c : CopyOp) : Bool := c.isGather || c.isScatter
def CopyOp.isColl (c : CopyOp) : Bool := 0x10 ≤ c.op
/-- Does the operation combine with its destination (R194)? -/
def CopyOp.reduces (c : CopyOp) : Bool := 4 ≤ c.op && c.op < 0x10
/-- Its ⊕: 0 add, 1 min, 2 max. -/
def CopyOp.oper (c : CopyOp) : Nat := if c.isColl then (c.op - 0x10) / 2 else (c.op - 4) / 2
/-- Does it leave the order open (`.u`)? -/
def CopyOp.unordered (c : CopyOp) : Bool := c.op % 2 == 1
/-- The bytes of an element, and of a collective's unit (R187, R375). -/
def elemBytes (fmt : Nat) : Nat := (fmtOf fmt).bytes
def isMx (fmt : Nat) : Bool := fmt == 0x10
def collUnit (fmt : Nat) : Nat := if isMx fmt then 1056 else elemBytes fmt

/-! Chunks. -/

/-- One chunk or row: its addresses, length and alignment, the cursor that names it, and its packed position. -/
structure Piece where
  src   : Word
  dst   : Word
  len   : Nat
  align : Nat
  off   : Nat
  pos   : Nat
  deriving DecidableEq, Repr

def CopyOp.lane (c : CopyOp) (i : Nat) : Nat := Machine.lane 32 c.idx i
def CopyOp.live (c : CopyOp) (i : Nat) : Bool := i < 16 && c.lane i != 2 ^ 32 - 1
/-- The packed position of a lane: the live lanes below it. -/
def CopyOp.position (c : CopyOp) (i : Nat) : Nat := ((List.range i).filter c.live).length
/-- How many chunks, or lanes, an operation has. -/
def CopyOp.total (c : CopyOp) : Nat :=
  if c.isRow then 16
  else if c.isColl then ceilDiv c.size (if isMx c.fmt then 1056 else 4096)
  else ceilDiv (c.src.toNat % 4096 + c.size) 4096
/-- Chunk or lane `n` (R190, R192, R193, R376). -/
def CopyOp.piece (c : CopyOp) (n : Nat) : Piece :=
  if c.isRow then
    let row := c.lane n * c.size
    let packed := c.position n * c.size
    { src := c.src + word (if c.isGather then row else packed), dst := c.dst + word (if c.isGather then packed else row)
      len := c.size, align := c.size, off := n, pos := c.position n }
  else if c.isColl then
    let unit := if isMx c.fmt then 1056 else 4096
    { src := c.src + word (unit * n), dst := c.dst + word (unit * n), len := min unit (c.size - unit * n)
      align := if isMx c.fmt then 8 else elemBytes c.fmt, off := unit * n, pos := 0 }
  else
    let lo := if n = 0 then 0 else 4096 * n - c.src.toNat % 4096
    let hi := min c.size (4096 * (n + 1) - c.src.toNat % 4096)
    { src := c.src + word lo, dst := c.dst + word lo, len := hi - lo
      align := if c.reduces then elemBytes c.fmt else 8, off := lo, pos := 0 }
/-- The first chunk or live lane from `n` on. -/
def CopyOp.nextFrom (c : CopyOp) (n : Nat) : Nat :=
  if c.isRow then ((List.range 16).find? (fun i => n ≤ i && c.live i)).getD 16 else n
/-- The cursor's value in a completion word or record (R189, R196); where every chunk or live lane has begun its write
phase, the size, or lane 16. (DESIGN CHOICE, log entry 83) -/
def CopyOp.cursorOff (c : CopyOp) : Nat := if c.isRow then c.cursor else min c.size (c.piece c.cursor).off

/-! ⊕ (R194, R239, R376). -/

/-- The draw of element `e` (R194, R236); of a collective it depends on the group's operation alone (R376). (DESIGN
CHOICE, log entry 31) -/
def CopyOp.drawAt (c : CopyOp) (e : Nat) : Nat :=
  match c.group with
  | some g => (Config.groupDraw (g.gid * 2 ^ 64 + g.seq) e).toNat
  | none => drawOf c.seed e
/-- What element `e` of an operation rounds with. -/
def CopyOp.env (c : CopyOp) (e : Nat) : FEnv :=
  { mode := c.mode, daz := c.daz, ftz := c.ftz, draw := if c.mode == 5 then c.drawAt e else 0 }
/-- Elements combined one by one; `e` is the number of the first. -/
def CopyOp.combine (c : CopyOp) : Nat → Nat → List Byte → List Byte → List Byte
  | 0, _, _, _ => []
  | n + 1, e, x, y =>
    let w := elemBytes c.fmt
    toBytes w (combineElem c.fmt c.oper (c.env e) (ofBytes (x.take w)) (ofBytes (y.take w))) ++
      c.combine n (e + 1) (x.drop w) (y.drop w)
/-- One hop over a group of 32 MXFP8 blocks (R239, R377): the sum of two contributions, requantised. -/
def mxHop (x y : List Byte) : List Byte :=
  let at' (l : List Byte) (i : Nat) : Nat := (l.getD i 0#8).toNat
  let blocks := (List.range 32).map (fun b =>
    requantise ((List.range 32).map (fun i =>
      f32.decode (f32.add FEnv.nearest (widenMx (at' x (1024 + b)) (at' x (32 * b + i)))
        (widenMx (at' y (1024 + b)) (at' y (32 * b + i)))).1)))
  blocks.flatMap (fun b => b.2.map (fun q => BitVec.ofNat 8 q)) ++ blocks.map (fun b => BitVec.ofNat 8 b.1)
/-- v ⊕ w of a collective's chunk whose first element is `e`. -/
def CopyOp.join (c : CopyOp) (e : Nat) (v w : List Byte) : List Byte :=
  if isMx c.fmt then mxHop v w else c.combine (v.length / elemBytes c.fmt) e v w

/-! Issue (R185 to R187). -/

/-- Do two ranges overlap? -/
def overlaps (a n b m : Nat) : Bool := a < b + m && b < a + n
/-- The COPY cause of a copy's operands, or none (R187). -/
def CopyOp.cause (c : CopyOp) : Option Nat :=
  if c.isRow then
    if !((List.range 13).any (fun i => c.size == 2 ^ i)) then some 3
    else
      let packed := if c.isGather then c.dst.toNat else c.src.toNat
      let table := if c.isGather then c.src.toNat else c.dst.toNat
      if ((List.range 16).filter c.live).any (fun i =>
          overlaps packed (c.position 16 * c.size) ((table + c.lane i * c.size) % 2 ^ 64) c.size) then some 5
      else none
  else if c.size % (if c.isColl then collUnit c.fmt else if c.reduces then elemBytes c.fmt else 8) != 0 then some 1
  else if 2 ^ 40 < c.size then some 2
  else if overlaps c.dst.toNat c.size c.src.toNat c.size then some 4
  else none
/-- Is there nothing to do (R186)? -/
def CopyOp.empty (c : CopyOp) : Bool := if c.isRow then c.position 16 == 0 else c.size == 0
/-- The operation that the executing thread issues, without its handle. -/
def State.copyOp (s : State) (op : Nat) (a b d : BitVec 5) (size : Nat) (vreg : Nat) (idx : VWord) (m : Mods) : CopyOp :=
  let t := s.cur
  { h := 0#64, op := op, vf := t.vf, queue := t.queue, level := (s.famAt t.fam).level, core := s.myCore
    thread := s.uid, issuer := t.identity, dst := s.gpr a, src := s.gpr b, size := size, vreg := vreg, idx := idx
    fmt := m.fmtA.toNat, mode := s.mode m, daz := t.daz, ftz := t.ftz, seed := t.srseed.toNat, forked := false
    before := s.nextId, chunks := [], cursor := 0, fault := none, record := none, stop := 0, rd := d.toNat
    waiters := [], group := none, packet := none }
/-- Does the operation capture a seed (R236)? -/
def CopyOp.draws (c : CopyOp) : Bool :=
  c.mode == 5 && 4 ≤ c.op && c.oper == 0 && !(fmtOf c.fmt).isInt && !isMx c.fmt
/-- The lowest free entry of a cluster's copy table. -/
def Cluster.freeCopy (c : Cluster) : Nat :=
  ((List.range Config.copyEntries).find? (fun e => (c.copies.find? e).isNone)).getD 0
/-- An operation takes an entry of a cluster's table (R186, R188): its handle. -/
def State.addCopy (s : State) (cl : Nat) (c : CopyOp) : State × Word :=
  let x := s.clusterAt cl
  let e := x.freeCopy
  let g := x.copyGen.get 0 e + 1
  let h := engineHandle 0 cl e g
  (s.modCluster cl (fun x => { x with
    copies := x.copies.put e { c with h := h, cursor := c.nextFrom 0 }, copyGen := x.copyGen.put e (g % 2 ^ 42) }), h)
/-- The issue of a copy whose operands are read: its checks, then the empty operation or an entry (R186). -/
def State.startCopy (s : State) (m : Mods) (a b d : BitVec 5) (c : CopyOp) (more : State → State) : Out :=
  match c.cause with
  | some k => s.fail fCOPY k 0#64 3
  | none =>
    if c.empty then s.finish m a b (fun t => (t.writeGpr d 0#64).bumpSeed c.draws)
    else if !s.copyFree s.me then
      (s.modCluster s.myCluster (fun x => { x with copyWait := joinSlots s.me x.copyWait })).await .copy
    else s.finish m a b (fun t =>
      let t := t.modCluster s.myCluster (fun x => { x with copyWait := dropSlot s.me x.copyWait })
      let x := (more t).addCopy s.myCluster c
      (x.1.pendGpr d (.engine x.2)).bumpSeed c.draws)
/-- An engine instruction waits while an acquire of its thread is outstanding (R164, R252). -/
def State.afterAcquire (s : State) (body : Out) : Out := if s.acquiring s.uid then s.await .acquire else body
/-- A copy instruction with its size in a register, or in the instruction. -/
def State.copyInstr (s : State) (op : Nat) (inReg : Bool) (d a b : BitVec 5) (m : Mods) : Out :=
  let size := if inReg then (s.gpr m.rc).toNat else if m.len = 1#2 then m.w2.toNat else m.lit.toNat
  s.issue m 0 { src := if inReg then [a, b, m.rc] else [a, b], dst := [d] }
    (s.afterAcquire (s.startCopy m a b d (s.copyOp op a b d size 8 0#512 m) id))
def State.rowInstr (s : State) (op : Nat) (d a b : BitVec 5) (m : Mods) : Out :=
  s.issue m 0 { src := [a, b], vec := [m.rc], dst := [d] }
    (s.afterAcquire (s.startCopy m a b d (s.copyOp op a b d m.w2.toNat m.rc.toNat (s.vec m.rc) m) id))

def execCpy (d a b : BitVec 5) (m : Mods) (s : State) : Out := s.copyInstr 0 false d a b m
def execCpyRegSize (d a b : BitVec 5) (m : Mods) (s : State) : Out := s.copyInstr 0 true d a b m
def execGth (d a b : BitVec 5) (m : Mods) (s : State) : Out := s.rowInstr 1 d a b m
def execSct (d a b : BitVec 5) (m : Mods) (s : State) : Out := s.rowInstr 2 d a b m
def execCpyrAdd (u rs : Bool) (d a b : BitVec 5) (m : Mods) (s : State) : Out := s.copyInstr (4 + u.toNat) rs d a b m
def execCpyrMin (u rs : Bool) (d a b : BitVec 5) (m : Mods) (s : State) : Out := s.copyInstr (6 + u.toNat) rs d a b m
def execCpyrMax (u rs : Bool) (d a b : BitVec 5) (m : Mods) (s : State) : Out := s.copyInstr (8 + u.toNat) rs d a b m

/-! allred (R374, R375). -/

/-- A group descriptor's fields, or none where it is malformed or names another package at its own rank (COPY(6)). -/
def State.groupOfBytes (s : State) (desc : Word) (bs : List Byte) : Option Group :=
  let w := dwords bs
  let g := (w.getD 0 0#64).toNat
  let n := bitsOf g 32 6 + 1
  let map := ((bs.drop 16).take 64).map BitVec.toNat
  if g / 2 ^ 46 != 0 || bitsOf g 38 2 != 0 || n ≤ bitsOf g 40 6 || (map.drop n).any (· != 0) ||
    (bs.drop 80).any (· != 0#8) || map.getD (bitsOf g 40 6) 0 != s.pkg.pkgId then none
  else some { desc := desc, gid := bitsOf g 0 32, seq := (w.getD 1 0#64).toNat, ranks := n, rank := bitsOf g 40 6
              map := map.take n }
/-- `allred` (R375): the descriptor is read as a load of 128 bytes, behind what the core has stored to it and what its die's
egress holds of it (R152, R262); the sequence number is taken after the checks, in one step at its home (R374). -/
def State.collInstr (s : State) (op : Nat) (d a b : BitVec 5) (m : Mods) : Out :=
  let desc := s.gpr m.rc
  let c := s.copyOp op a b d m.w2.toNat 8 0#512 m
  s.issue m 0 { src := [a, b, m.rc], dst := [d] }
    (s.afterAcquire (s.access .load 128 desc (fun s p =>
      if !s.gathered s.myCore p.addr 128 then s.await (.descriptor p.addr)
      else if !s.keyReady p.key then s.fail fACCESS 13 desc 0
      else if s.poisoned p.addr 128 then s.fail fMACHINE 1 desc 0
      else
        match c.cause with
        | some k => s.fail fCOPY k 0#64 3
        | none =>
          match s.groupOfBytes desc ((s.readBytes p.key p.addr 128).getD []) with
          | none => s.fail fCOPY 6 0#64 3
          | some g => s.startCopy m a b d { c with group := some g } (fun t =>
              t.homeWrite s.cur.vf (desc + 8#64) p.key (p.addr + 8) (toBytes 8 ((g.seq + 1) % 2 ^ 64))))))
def execAllredAdd (u : Bool) (d a b : BitVec 5) (m : Mods) (s : State) : Out := s.collInstr (0x10 + u.toNat) d a b m
def execAllredMin (u : Bool) (d a b : BitVec 5) (m : Mods) (s : State) : Out := s.collInstr (0x12 + u.toNat) d a b m
def execAllredMax (u : Bool) (d a b : BitVec 5) (m : Mods) (s : State) : Out := s.collInstr (0x14 + u.toNat) d a b m

/-! The acts of an operation. -/

def State.copyAt? (s : State) (cl e : Nat) : Option CopyOp := (s.clusterAt cl).copies.find? e
def State.putCopy (s : State) (cl e : Nat) (c : CopyOp) : State :=
  s.modCluster cl (fun x => { x with copies := x.copies.put e c })

/-- Who an operation's accesses are for. -/
def CopyOp.agent (c : CopyOp) : Agent := ⟨c.core, c.vf, c.h, c.clock, c.bound⟩
/-- The record of a stopped operation (R195, R196). The copy of a launch's local section stops its queue instead, with
nothing made (R310, R312). -/
def State.copyRecord (s : State) (cl e : Nat) (c : CopyOp) (f : ChunkFault) (die : Nat) : State :=
  match (if s.ofLaunch c then c.packet else none) with
  | some (q, n) => (s.modCluster cl (fun x => { x with copies := x.copies.del e })).queueError c.vf q 4 n
  | none =>
  let cur := if c.isRow then c.cursor + c.position c.cursor * 16 else c.cursorOff % 2 ^ 41
  let r : Record :=
    { queue := c.vf, src := c.vf, kind := 3, die := die, holder := .copy cl e, awaits := true, stage := s.firstStage f.code f.cause
      body := [c.h, chunkWord c.op (c.reduces || c.isColl) f, f.va, word cur, word c.size, c.issuer]
      page := f.va.toNat, level := f.level }
  (s.addRecord r).putCopy cl e { c with record := some s.nextId }
/-- The collective's state of a chunk. -/
def collKey (gid seq n : Nat) : Nat := gid * 2 ^ 96 + seq * 2 ^ 32 + n
def State.collAt (s : State) (gid seq n : Nat) : CollChunk := s.pkg.coll.get ⟨[], false, [], none⟩ (collKey gid seq n)
/-- May a chunk that has passed its check begin its write phase: a collective's has gone up the tree and has its result
(R376)? -/
def State.mayBegin (s : State) (c : CopyOp) (n : Nat) : Bool :=
  match c.group with
  | some g => (s.collAt g.gid g.seq n).sent && (s.collAt g.gid g.seq n).result.isSome
  | none => true
/-- The cursor passes over the chunks that begin their write phases, `n` at most (R191). -/
def State.beginChunks (s : State) (c : CopyOp) : Nat → CopyOp
  | 0 => c
  | n + 1 =>
    match c.chunks.find? c.cursor with
    | some x =>
      if s.mayBegin c c.cursor then s.beginChunks { c with
        chunks := c.chunks.put c.cursor { x with begun := true }, cursor := c.nextFrom (c.cursor + 1) } n
      else c
    | none => c
/-- The lowest chunk or live lane from `n` on that has not passed its check phase; `k` are looked at. -/
def CopyOp.frontFrom (c : CopyOp) : Nat → Nat → Nat
  | 0, n => n
  | k + 1, n => if (c.chunks.find? n).isSome then c.frontFrom k (c.nextFrom (n + 1)) else n
/-- The lowest chunk or live lane that has not passed its check phase. -/
def CopyOp.front (c : CopyOp) : Nat := c.frontFrom c.chunks.length c.cursor
/-- Does any chunk write? -/
def CopyOp.writes (c : CopyOp) : Bool := c.chunks.any (fun y => y.2.begun)
/-- Has every write of a copy operation been acknowledged by its home, its elements that others carry among them (R264)? -/
def State.copyAcked (s : State) (c : CopyOp) : Bool :=
  s.engineAcked c.h && c.carried.all (fun p => (s.reqs.find? p.1).isNone)
/-- After a check or a write: the cursor moves on; once every chunk below the lowest fault has passed its check and no chunk
writes any more, the operation stops with its record, one for the operation (R195), at a lost rank at once (R379). -/
def State.settleCopy (s : State) (cl e : Nat) (c : CopyOp) : State :=
  if c.stop != 0 || c.record.isSome then s.putCopy cl e c
  else
    let c := s.beginChunks c (c.chunks.length + 1)
    match c.fault with
    | some (n, f) =>
      let lost := f.code == fMACHINE && f.cause == 4
      if (lost || n == c.front) && !c.writes && s.copyAcked c then
        s.copyRecord cl e c f (if lost || f.code == fCOPY then dieOfCluster cl else s.agentDie c.core c.vf (c.piece n).src)
      else s.putCopy cl e c
    | none => s.putCopy cl e c
/-- An operation notes a fault at chunk `n`: the lowest is its own (R195), but that a lost rank ends it from any (R379). -/
def CopyOp.fails (c : CopyOp) (n : Nat) (f : ChunkFault) : CopyOp :=
  match c.fault with
  | some (k, g) => if k < n || (g.code == fMACHINE && g.cause == 4) then c else { c with fault := some (n, f) }
  | none => { c with fault := some (n, f) }
/-- A chunk fails after its check: it has not completed, and the cursor goes back to it (R191, R195). -/
def State.failWrite (s : State) (cl e n : Nat) (c : CopyOp) (f : ChunkFault) : State :=
  s.settleCopy cl e ({ c with chunks := c.chunks.del n, cursor := min n c.cursor }.fails n f)
/-- Is a rank of an operation's group lost to the transport (R379)? -/
def State.lacksRank (s : State) (c : CopyOp) : Bool :=
  match c.group with
  | some g => s.pkg.peers.any (fun e => e.2.lost && g.map.contains e.1)
  | none => false
/-- An operation of a group that has lost a rank stops as at a fault (R195, R379): no further chunk begins. -/
def State.loseRank (s : State) (cl e : Nat) (c : CopyOp) : State :=
  s.settleCopy cl e { c with
    chunks := c.chunks.filter (fun y => y.2.begun)
    fault := some (c.cursor, ⟨fMACHINE, 4, (c.group.map Group.desc).getD 0#64, false, 0⟩) }
/-- The operation forks (R199); it carries its die's clock, and its thread's egress boundary, from here on (R264). One
whose group has lost a rank already stops (R379). -/
def State.forkCopy (s : State) (cl e : Nat) : State :=
  match s.copyAt? cl e with
  | none => s
  | some c =>
    if c.packet.isSome || s.forkReady c.thread c.before then
      let c := { c with
        forked := true, clock := s.clockOf (dieOfCore c.core)
        bound := if c.packet.isSome then 0 else (s.threadAt c.thread).boundary }
      if s.lacksRank c then s.loseRank cl e c else s.putCopy cl e c
    else s

/-- May chunk `n` begin (R191, R192): the operation runs, at most 8 are in flight, and no lower one has failed? -/
def CopyOp.mayCheck (c : CopyOp) (n : Nat) : Bool :=
  c.forked && c.stop == 0 && c.record.isNone && n < c.total && c.nextFrom n == n && c.cursor ≤ n && n < c.cursor + 16 &&
  (c.chunks.find? n).isNone &&
  (match c.fault with | some (k, _) => n < k | none => true) &&
  (c.chunks.filter (fun x => x.1 < n)).length +
    ((List.range (n + 1 - c.cursor)).filter (fun i =>
      c.nextFrom (c.cursor + i) == c.cursor + i && (c.chunks.find? (c.cursor + i)).isNone)).length ≤ 8
/-- The operations of one group run in ascending sequence (R378). -/
def State.collTurn (s : State) (c : CopyOp) : Bool :=
  match c.group with
  | none => true
  | some g => !s.clusters.any (fun e => e.2.copies.any (fun o => match o.2.group with
      | some k => k.gid == g.gid && k.seq < g.seq
      | none => false))
/-- Has the copy of a launch's local section its turn: none of a launch admitted before it on its core is still to run, held
in a saved context or not (R394)? -/
def State.sectionTurn (s : State) (c : CopyOp) : Bool :=
  let before (o : Nat × CopyOp) : Bool :=
    o.2.packet.isSome && o.2.core == c.core && o.2.before < c.before && localBase ≤ o.2.dst.toNat
  let held := match (s.funcAt c.vf).saved with
    | some x => x.copies
    | none => []
  c.packet.isNone || c.dst.toNat < localBase ||
    !(s.clusters.any (fun e => e.2.copies.any before) || held.any (fun e => e.2.any before))
/-- The check phase of a chunk or row (R190, R192, R193). (DESIGN CHOICE, log entry 30) -/
def State.copyCheck (s : State) (cl e n : Nat) : State :=
  match s.copyAt? cl e with
  | none => s
  | some c =>
    if !c.mayCheck n || !s.collTurn c || !s.sectionTurn c then s
    else
      let p := c.piece n
      match s.checkChunk c.agent c.level p.align p.src p.dst p.len with
      | (t, .error f) => t.settleCopy cl e (c.fails n f)
      | (_, .ok none) => s
      | (t, .ok (some x)) => t.settleCopy cl e { c with chunks := c.chunks.put n x }

/-! The collective's tree (R376). -/

/-- The ranks that send to a rank up the tree, in the order in which it adds them. -/
def Group.children (g : Group) : List Nat :=
  ((List.range 6).takeWhile (fun j => g.rank % 2 ^ (j + 1) != 2 ^ j)).filterMap (fun j =>
    if g.rank + 2 ^ j < g.ranks then some (g.rank + 2 ^ j) else none)
/-- The rank that it sends to: its lowest set bit cleared. -/
def Group.parent (g : Group) : Nat :=
  match (List.range 6).find? (fun j => g.rank % 2 ^ (j + 1) == 2 ^ j) with
  | some j => g.rank - 2 ^ j
  | none => 0
/-- Does a contribution agree with the operation (R376)? -/
def CopyOp.agrees (c : CopyOp) (p : CollPart) : Bool := p.op == c.op && p.fmt == c.fmt && p.size == c.size && p.mode == c.mode
/-- This rank's contribution with those of its children, once all have come (R376); `.u` adds them in an open order. -/
def CopyOp.combined (c : CopyOp) (g : Group) (k : CollChunk) (n fresh : Nat) (own : List Byte) : Option (List Byte) :=
  if !g.children.all (fun r => (k.parts.find? r).isSome) then none
  else
    let parts := g.children.filterMap (fun r => (k.parts.find? r).map CollPart.data)
    let parts := if c.unordered then reorder (fun i => Config.pairing fresh i) parts.length parts else parts
    some (parts.foldl (fun v w => c.join (4096 * n / max 1 (elemBytes c.fmt)) v w) own)
/-- Has a collective begun at this rank: has a chunk of it gone up the tree? -/
def State.collBegun (s : State) (gid seq : Nat) : Bool :=
  s.pkg.coll.any (fun k => k.1 / 2 ^ 32 == gid * 2 ^ 64 + seq && k.2.sent)
/-- Does a collective wait for the new mode of duty 5: the duty drains, and it has not begun (R403)? -/
def State.collHolds (s : State) (gid seq : Nat) : Bool := (s.dutyAt 5).draining && !s.collBegun gid seq
/-- A collective's chunk on its way (R376): once it has passed its check it goes up the tree once, combined with what its
children sent, and has its result at rank 0 then, and at any other rank once its parent has sent it. -/
def State.collStep (s : State) (cl e n : Nat) (c : CopyOp) (g : Group) (x : Chunk) : Option State :=
  let k := s.collAt g.gid g.seq n
  let put (s : State) (k : CollChunk) : State := s.modPkg (fun p => { p with coll := p.coll.put (collKey g.gid g.seq n) k })
  if k.parts.any (fun p => !c.agrees p.2) then some (s.failWrite cl e n c ⟨fCOPY, 7, g.desc, false, 0⟩)
  else if !k.sent then
    if s.collHolds g.gid g.seq then none
    else (c.combined g k n s.fresh x.data).map (fun v =>
      let t := (put s { k with sent := true, up := v, result := if g.rank = 0 then some (k.result.getD v) else k.result }).draw
      t.settleCopy cl e c)
  else if g.rank = 0 then none
  else (k.parts.find? g.parent).map (fun p => (put s { k with result := some p.data }).settleCopy cl e c)

/-- A `.u` element on its way to an address that another `.u` element may meet there: its request, when a free choice says
that they meet (R194). -/
def State.meets (s : State) (c : CopyOp) (a : Nat) : Option (Nat × Req) :=
  if c.unordered && Config.pairing s.fresh 0 % 2 == 1 && !s.level2Die (dieOfCore c.core) && !s.level2Die (homeDie a) then
    List.find? (fun e => e.2.kind == .red c.fmt c.oper true && e.2.unserved && e.2.addr == a && e.2.engine != some c.h) s.reqs
  else none
/-- An element of a reducing copy goes to its destination's home (R194): a `.o` element of the home's die is combined there
at once; any other travels as a request, and a `.u` one may be added to another on its way. (DESIGN CHOICE, log entry 9) -/
def State.redWrite (s : State) (c : CopyOp) (n a : Nat) (va : Word) (key : Option Nat) (e : Nat) (bs : List Byte) :
    State × CopyOp :=
  let w := elemBytes c.fmt
  let r := { c.agent.req s (.red c.fmt c.oper c.unordered) n a va key bs with
    mode := c.mode, num := 2 * c.daz.toNat + c.ftz.toNat, seed := word (c.env e).draw }
  if homeDie a == dieOfCore c.core && !c.unordered then
    let old := ofBytes ((s.readBytes key a w).getD [])
    (s.homeWrite c.vf va key a (toBytes w (combineElem c.fmt c.oper (c.env e) old (ofBytes bs))), c)
  else
    match s.meets c a with
    | some (id, q) =>
      ((s.putReq id { q with data := toBytes w (combineElem c.fmt c.oper (c.env e) (ofBytes q.data) (ofBytes bs)) }).draw,
        { c with carried := (id, n) :: c.carried })
    | none => ((s.dispatch r).draw, c)
/-- One unit of a chunk's write phase (R190 to R194, R376); none where the chunk has none to write now. -/
def State.copyUnit? (s : State) (cl e n : Nat) : Option State :=
  match s.copyAt? cl e with
  | none => none
  | some c =>
    match c.chunks.find? n with
    | none => none
    | some x =>
      if !x.begun then
        match c.group with
        | some g => if s.mayBegin c n || c.stop != 0 || c.record.isSome then none else s.collStep cl e n c g x
        | none => none
      else if c.isScatter && c.chunks.any (fun y => y.1 < n && c.lane y.1 == c.lane n) then none
      else
        let bytes := match c.group with
          | some g => ((s.collAt g.gid g.seq n).result).getD []
          | none => x.data
        match x.next (if c.reduces then elemBytes c.fmt else 0) with
        | none => some (s.settleCopy cl e { c with chunks := c.chunks.del n })
        | some (a, k, va, key) =>
          if c.agent.stops s a k then some (s.failWrite cl e n c ⟨fMACHINE, 1, va, true, 0⟩)
          else if !c.agent.mayWrite s a then none
          else
            let bs := (bytes.drop x.done).take k
            let y := { x with done := x.done + k }
            let z := if c.reduces then s.redWrite c n a va key (((c.piece n).off + x.done) / elemBytes c.fmt) bs
              else (c.agent.write s n a va key bs, c)
            if (runAt y.runs y.done).isNone then some (z.1.settleCopy cl e { z.2 with chunks := z.2.chunks.del n })
            else some (z.1.putCopy cl e { z.2 with chunks := z.2.chunks.put n y })
/-- A chunk's next unit. -/
def State.copyUnit (s : State) (cl e n : Nat) : State := (s.copyUnit? cl e n).getD s
/-- The units of a chunk, `m` at most. -/
def State.copyUnits (s : State) (cl e n : Nat) : Nat → State
  | 0 => s
  | m + 1 => match s.copyUnit? cl e n with
    | some t => t.copyUnits cl e n m
    | none => s
/-- The write phase of a chunk or row that has begun it, as far as it goes now. -/
def State.copyWrite (s : State) (cl e n : Nat) : State := s.copyUnits cl e n 4200

/-- A completion word of an operation (R189). -/
def stopWord (status cursor : Nat) : Word := word (cursor * 2 ^ 8 + status)
/-- An operation ends: its handle's fill and the answers to its waiters leave, or its packet completes; the entry is
free (R189, R309). -/
def State.endCopy (s : State) (cl e : Nat) (c : CopyOp) (w : Word) : State :=
  let s := s.modCluster cl (fun x => { x with copies := x.copies.del e })
  let clock := s.clockOf (dieOfCore c.core)
  let s := match c.group with
    | some g => s.modPkg (fun p => { p with coll := p.coll.filter (fun k => k.1 / 2 ^ 32 != g.gid * 2 ^ 64 + g.seq) })
    | none => s
  let s := c.waiters.foldl (fun (s : State) u => s.sendFill clock u (.answer c.h u)) s
  match c.packet with
  | none => if (s.threadAt c.thread).ended.isSome then s else s.sendFill clock c.thread (.engine c.h w c.thread c.rd)
  | some (q, n) => match s.packetAt? c.vf q n with
    | some p =>
      if p.type = 2 then s.packetEnds c.vf q n (p.dword 4) w
      else s.putPacket c.vf q n { p with admission := 3, copy := none }
    | none => s
/-- An operation ends once its chunks allow (R189, R191, R198) and its writes are acknowledged. -/
def State.copyComplete (s : State) (cl e : Nat) : State :=
  match s.copyAt? cl e with
  | none => s
  | some c =>
    if !s.copyAcked c then s
    else if c.stop != 0 then
      if c.writes then s else s.endCopy cl e c (stopWord c.stop c.cursorOff)
    else if c.forked && c.record.isNone && c.fault.isNone && c.total ≤ c.cursor && c.chunks.isEmpty then
      s.endCopy cl e c 0#64
    else s
/-- A group's operation starts again at chunk 0 (R379): every chunk goes up the tree again, with what the other ranks have
sent, and a result that the reduction has computed stays the result. (DESIGN CHOICE, log entry 31) -/
def State.restartColl (s : State) (g : Group) : State :=
  s.modPkg (fun p => { p with coll := p.coll.map (fun k =>
    if k.1 / 2 ^ 32 == g.gid * 2 ^ 64 + g.seq then (k.1, { k.2 with sent := false, up := [] }) else k) })
/-- The answer to a suspended operation's record (R197, R379): replay from the cursor, or abort; once the operation has been
cancelled, the answer is ignored (R198). -/
def State.answerCopy (s : State) (cl e : Nat) (c : CopyOp) (action : Nat) : State :=
  let f := match c.fault with
    | some (_, f) => f
    | none => ⟨0, 0, 0#64, false, 0⟩
  if c.stop != 0 then s
  else if action = 1 ∨ (!chunkReplays (c.reduces || c.isColl) f) = true then
    s.putCopy cl e { c with record := none, stop := 3 }
  else
    let c := { c with record := none, fault := none, chunks := [] }
    match c.group with
    | none => s.putCopy cl e c
    | some g =>
      if f.code = fMACHINE ∧ f.cause = 4 then
        let map := match s.vaRead c.core c.vf g.desc.toNat 80 1 with
          | .ok bs => ((bs.drop 16).take g.ranks).map BitVec.toNat
          | .error _ => g.map
        let c := { c with cursor := 0, group := some { g with map := map } }
        let s := s.restartColl g
        if s.lacksRank c then s.loseRank cl e c else s.putCopy cl e c
      else if s.lacksRank c then s.loseRank cl e c
      else s.putCopy cl e c

/-- A collective chunk from another rank arrives (R376). (DESIGN CHOICE, log entry 31) -/
def State.collMessage (s : State) (gid seq n rank : Nat) (p : CollPart) : State :=
  let k := s.collAt gid seq n
  s.modPkg (fun x => { x with coll := x.coll.put (collKey gid seq n) { k with parts := k.parts.put rank p } })
/-- A package is lost to the transport: every operation of a group that it is a rank of stops (R379). -/
def State.rankLost (s : State) (pkg : Nat) : State :=
  let hit := s.clusters.flatMap (fun x => (x.2.copies.filter (fun e =>
    e.2.record.isNone && e.2.stop == 0 && (match e.2.group with
      | some g => g.map.contains pkg
      | none => false))).map (fun e => (x.1, e.1, e.2)))
  hit.foldl (fun (s : State) (x : Nat × Nat × CopyOp) =>
    s.loseRank x.1 x.2.1 x.2.2) s

end Sys2Proof.Machine
end

