-- ==== Sys2Proof/Machine/Tile.lean ====
section
/-! DEFINITION. Tiles and the cluster's job queue (R203 to R216): shapes, the admission of a job, its start and end on its
lane, the current-slew limiter (R321, R322), tile loads, stores and moves, and the rows of a transfer (R212). -/

namespace Sys2Proof.Machine

/-! Shapes (R204, R205). -/

def shapeRows (w : Word) : Nat := fieldOf w 0 6 + 1
def shapeCols (w : Word) : Nat := fieldOf w 6 9 + 1
def shapeFmt (w : Word) : Nat := fieldOf w 16 5
/-- The width in bits of a shape's elements. -/
def shapeWidth (w : Word) : Nat := (fmtOf (shapeFmt w)).width
/-- The row length in bytes. -/
def rowLength (w : Word) : Nat := shapeCols w * shapeWidth w / 8
/-- The alignment of a row in memory (R215). -/
def rowAlign (w : Word) : Nat :=
  if shapeFmt w = 0x14 ∨ shapeFmt w = 0x1A then 4 else if shapeFmt w = 0x12 ∨ shapeFmt w = 0x13 then 2 else 1
/-- SHAPE causes 1 to 3 of a value written to TSHAPE. -/
def shapeCause (w : Word) : Option Nat :=
  if 0x17 < shapeFmt w ∧ shapeFmt w ≠ 0x1A then some 1
  else if 256 < rowLength w then some 2
  else if shapeFmt w = 0x17 ∧ shapeCols w % 2 = 1 then some 3
  else none
/-- `kwr` of TSHAPE i (R205, R248): RSV bits first, then SHAPE. -/
def execKwrTshape (i : BitVec 3) (a : BitVec 5) (m : Mods) (s : State) : Out :=
  s.issue m 0 { src := [a] }
    (let w := s.gpr a
     if fieldOf w 21 43 != 0 || bitOf w.toNat 15 then s.fail fILLEGAL 4 0#64 3
     else match shapeCause w with
      | some c => s.fail fSHAPE c 0#64 3
      | none => s.finish m a 27#5 (fun t =>
          t.modCore s.myCore (fun c => { c with tshape := c.tshape.set 0#64 i.toNat w })))

/-! The tile file (R203). -/

/-- Row `r` of tile `t` of a core, as a number. -/
def State.tileRowOf (s : State) (core t r : Nat) : Nat := ofBytes (s.peek (tileRow core t r) 256)
/-- Element `c` of a row whose elements have `w` bits. -/
def elemOf (w row c : Nat) : Nat := bitsOf row (w * c) w
/-- Elements packed into a row from its start. -/
def packElems (w : Nat) (xs : List Nat) : Nat := xs.foldr (fun x acc => x % 2 ^ w + 2 ^ w * acc) 0
/-- Writes the first `n` bytes of a row. -/
def State.putRow (s : State) (core t r n row : Nat) : State := s.poke (tileRow core t r) (toBytes n row)

/-! The jobs of a cluster and its lanes (R208). -/

def State.jobAt? (s : State) (cl e : Nat) : Option Job :=
  (List.find? (fun j => j.1 == e) (s.clusterAt cl).jobs).map Prod.snd
def State.putJob (s : State) (cl e : Nat) (j : Job) : State :=
  s.modCluster cl (fun x => { x with jobs := x.jobs.map (fun y => if y.1 = e then (e, j) else y) })
/-- The job that runs on a lane, and the next that may start there. -/
def Cluster.running (c : Cluster) (array : Bool) : Bool :=
  c.jobs.any (fun j => j.2.array == array && j.2.started && j.2.ended.isNone)
def Cluster.nextJob (c : Cluster) (array : Bool) : Option Nat :=
  (c.jobs.find? (fun j => j.2.array == array && !j.2.started && j.2.ended.isNone && j.2.stop == 0)).map Prod.fst
/-- The array job that could start on a cluster's lane but for a grant: forked or not, the next of its lane (R208). -/
def Cluster.waits (c : Cluster) : Option (Nat × Job) :=
  if c.running true then none
  else match c.nextJob true with
    | some e => List.find? (fun j => j.1 == e) c.jobs
    | none => none
/-- The array jobs of a die that a move has made ready to start note their place in the order of e (R321). (DEDUCED, log
entry 41) -/
def State.markReady (s : State) (die : Nat) : State :=
  let n := (s.dieAt die).readied
  let fresh (c : Cluster) : Option Nat := c.waits.bind (fun x => if x.2.ready.isNone then some x.1 else none)
  let mark (c : Cluster) : Cluster := { c with jobs := c.jobs.map (fun y =>
    if fresh c == some y.1 then (y.1, { y.2 with ready := some n }) else y) }
  if s.clusters.any (fun e => dieOfCluster e.1 == die && (fresh e.2).isSome) then
    ({ s with clusters := s.clusters.map (fun (e : Nat × Cluster) => (e.1, if dieOfCluster e.1 = die then mark e.2 else e.2)) }).modDie die
      (fun d => { d with readied := d.readied + 1 })
  else s

/-! Admission (R206 to R208). -/

/-- The job that the executing thread admits, without its handle. -/
def State.jobOf (s : State) (kind : JobKind) (rd : BitVec 5) (d a b opt : Nat) (array : Bool) (writes reads : List Nat)
    (m : Mods) : Job :=
  let t := s.cur
  let c := s.coreAt s.myCore
  { h := 0#64, kind := kind, d := d, a := a, b := b, opt := opt, vf := t.vf, queue := t.queue
    level := (s.famAt t.fam).level, core := s.myCore, thread := s.uid, issuer := t.identity, slot := s.me
    rd := rd.toNat, array := array, writes := writes, reads := reads, shapes := c.tshape, metas := c.tmeta
    base := 0#64, stride := 0#64, mode := s.mode m, daz := t.daz, ftz := t.ftz, seed := t.srseed.toNat, scale := 0#64
    colsum := [], forked := false, before := s.nextId, started := false, rows := [], cursor := 0, fault := none
    record := none, stop := 0, ended := none, waiters := [] }
def Job.shape (j : Job) (t : Nat) : Word := j.shapes.get 0#64 t
def Job.header (j : Job) (t : Nat) : Word := j.metas.get 0#64 t
/-- The lowest free entry of a job queue. -/
def Cluster.freeJob (c : Cluster) : Nat :=
  ((List.range Config.jobEntries).find? (fun e => !c.jobs.any (fun j => j.1 == e))).getD 0
/-- Sets the locks of a job (R207). -/
def Core.lock (c : Core) (j : Job) : Core :=
  { c with wlock := j.writes.foldl (fun l t => l.set 0 t 1) c.wlock
           readers := j.reads.foldl (fun l t => l.set 0 t (l.get 0 t + 1)) c.readers }
/-- Clears them. -/
def Core.unlock (c : Core) (j : Job) : Core :=
  { c with wlock := j.writes.foldl (fun l t => l.set 0 t 0) c.wlock
           readers := j.reads.foldl (fun l t => l.set 0 t (l.get 0 t - 1)) c.readers }
/-- A job takes an entry of a cluster's queue, and its locks: its handle (R188, R206, R207). -/
def State.addJob (s : State) (cl : Nat) (j : Job) : State × Word :=
  let x := s.clusterAt cl
  let e := x.freeJob
  let g := x.jobGen.get 0 e + 1
  let h := engineHandle 1 cl e g
  (((s.modCluster cl (fun x => { x with
    jobs := x.jobs ++ [(e, { j with h := h })], jobGen := x.jobGen.put e (g % 2 ^ 42) })).modCore j.core
    (fun c => c.lock j)).markReady (dieOfCluster cl), h)
/-- Steps 4 to 6 of R206: the locks, the queue entry, and the admission; `more` is what else the admission does. A slot that
stands in the order for an entry keeps its place while it waits for a lock. (DESIGN CHOICE, log entry 83) -/
def State.admission (s : State) (m : Mods) (a b d : BitVec 5) (j : Job) (draws : Bool) (more : State → State) : Out :=
  if !(s.coreAt s.myCore).locksClear j.writes j.reads then s.await (.lock j.writes j.reads)
  else if !s.jobFree s.me then
    (s.modCluster s.myCluster (fun x => { x with jobWait := joinSlots s.me x.jobWait })).await .job
  else s.finish m a b (fun t =>
    let t := t.modCluster s.myCluster (fun x => { x with jobWait := dropSlot s.me x.jobWait })
    let x := t.addJob s.myCluster j
    (more (x.1.pendGpr d (.engine x.2))).bumpSeed (draws && j.mode == 5))

/-! tld, tst, tzero and tmov (R214 to R216). -/

/-- A transfer: its address and stride, and ALIGN(0). -/
def State.tileMove (s : State) (store : Bool) (d : BitVec 5) (t : BitVec 3) (a : BitVec 5) (m : Mods) : Out :=
  s.issue m 0 { src := [a], dst := [d] }
    (s.afterAcquire
      (let w := (s.coreAt s.myCore).tshape.get 0#64 t.toNat
       let long := m.len == 1#2
       let stride := if long then bitsOf m.w2.toNat 0 16 else rowLength w
       let base := s.gpr a + (if long then sextN 16 (bitsOf m.w2.toNat 16 16) else 0#64)
       let j := s.jobOf (if store then .tst else .tld) d t.toNat 0 0 0 false (if store then [] else [t.toNat])
        (if store then [t.toNat] else []) m
       if base.toNat % rowAlign w != 0 || stride % rowAlign w != 0 then s.fail fALIGN 0 base store.toNat
       else s.admission m a 27#5 d { j with base := base, stride := word stride } false id))
def execTld (d : BitVec 5) (t : BitVec 3) (a : BitVec 5) (m : Mods) (s : State) : Out := s.tileMove false d t a m
def execTst (d : BitVec 5) (t : BitVec 3) (a : BitVec 5) (m : Mods) (s : State) : Out := s.tileMove true d t a m
def execTzero (d : BitVec 5) (t : BitVec 3) (m : Mods) (s : State) : Out :=
  s.issue m 0 { dst := [d] }
    (s.afterAcquire (s.admission m 27#5 27#5 d (s.jobOf .tzero d t.toNat 0 0 0 false [t.toNat] [] m) false id))
def execTmov (d : BitVec 5) (t sc : BitVec 3) (m : Mods) (s : State) : Out :=
  s.issue m 0 { dst := [d] }
    (s.afterAcquire (s.admission m 27#5 27#5 d
      (s.jobOf .tmov d t.toNat sc.toNat 0 0 false [t.toNat] ([sc.toNat].filter (· != t.toNat)) m) false id))

/-! The current-slew limiter (R321 to R323). -/

/-- A, the array lanes of a die that run a job or a filler. (DEDUCED, log entry 41) -/
def State.lanesOn (s : State) (die : Nat) : Nat :=
  ((List.range Config.clusters).filter (fun i =>
    (s.clusterAt (die * 64 + i)).running true || (s.dieAt die).fillers.contains (die * 64 + i))).length
/-- Starts granted, and lanes that may fall, in a step that begins with A lanes on. -/
def slewLimit (a : Nat) : Nat := if a < 4 then 1 else if a < 16 then 2 else if a < 32 then 4 else 8
/-- Is a waiting job of another cluster of the die granted first: ready earlier, or at once with it and in a lower
cluster (R321)? -/
def State.grantTurn (s : State) (cl : Nat) (j : Job) : Bool :=
  let die := dieOfCluster cl
  let at' (x : Job) : Nat := x.ready.getD (s.dieAt die).readied
  !s.clusters.any (fun e => e.1 != cl && dieOfCluster e.1 == die && !(s.dieAt die).fillers.contains e.1 &&
    (match e.2.waits with
     | some (_, x) => at' x < at' j || (at' x == at' j && e.1 < cl)
     | none => false))
/-- A step of the limiter (R321, R322, R405): a throttled die without a level-2 launch grants half. Fillers stop, in
ascending cluster order, where no job waits to take their place and no launch holds the lane (R323). (DEDUCED, log entry
41) -/
def State.slewStep (s : State) (die : Nat) : State :=
  let n := slewLimit (s.lanesOn die)
  let idle := (List.range Config.clusters).filterMap (fun i =>
    let cl := die * 64 + i
    if (s.dieAt die).fillers.contains cl && ((s.clusterAt cl).nextJob true).isNone && !s.bound2 cl && !s.taking cl then some cl else none)
  let gone := idle.take n
  s.modDie die (fun d => { d with
    grants := if s.pkg.throttle && !s.level2Die die then max 1 (n / 2) else n
    falls := n - gone.length, fillers := d.fillers.filter (fun c => !gone.contains c) })
/-- A job starts on its lane (R208, R321): the next of the lane, once the lane is free; an array job replaces a filler,
or takes a grant. -/
def State.startJob (s : State) (cl e : Nat) : State :=
  let c := s.clusterAt cl
  match s.jobAt? cl e with
  | none => s
  | some j =>
    let die := dieOfCluster cl
    let filler := (s.dieAt die).fillers.contains cl
    if c.running j.array || c.nextJob j.array != some e then s
    else if !j.array then s.putJob cl e { j with started := true }
    else if filler then (s.putJob cl e { j with started := true }).modDie die (fun d => { d with
      fillers := d.fillers.filter (· != cl) })
    else if (s.dieAt die).grants = 0 || !s.grantTurn cl j then s
    else (s.putJob cl e { j with started := true }).modDie die (fun d => { d with grants := d.grants - 1 })
/-- What becomes of an array lane whose job ends: it stays on for the next job or a launch, falls, or runs a filler. -/
def State.laneEnds (s : State) (cl : Nat) : State :=
  let die := dieOfCluster cl
  if ((s.clusterAt cl).nextJob true).isSome || s.bound2 cl || s.taking cl || (s.dieAt die).falls = 0 then
    s.modDie die (fun d => { d with fillers := d.fillers ++ [cl] })
  else s.modDie die (fun d => { d with falls := d.falls - 1 })

/-! Rows (R212, R215). -/

/-- The address of a row. -/
def Job.rowVa (j : Job) (r : Nat) : Word := j.base + word (r * j.stride.toNat)
/-- Who a transfer's accesses are for. -/
def Job.agent (j : Job) : Agent := ⟨j.core, j.vf, j.h, j.clock, j.bound⟩
/-- The check phase of a row: its memory side under R160, R202 and R407, and the bytes that it reads; none while its read
must wait for writes that the job's clock names (R264), or its translation for a walker (R342). (DESIGN CHOICE, log entry
37) -/
def State.checkRow (s : State) (j : Job) (r : Nat) : State × Except ChunkFault (Option Chunk) :=
  let store := j.kind == .tst
  let w := j.shape j.d
  let n := rowLength w
  let runs := runsOfRange (j.rowVa r) n
  match s.runsCheck j.vf (if store then .store else .load) (rowAlign w) runs with
  | some x => (s, .error ⟨x.2.1, x.2.2.1, x.2.2.2, store, 0⟩)
  | none =>
    if !s.walkRoom j.agent runs then (s, .ok none)
    else match s.placeRuns j.core j.vf j.level store runs with
    | (s, .error f) => (s, .error f)
    | (s, .ok xs) =>
      if store then (s, .ok (some { runs := xs, data := s.peek (tileRow j.core j.d r) n }))
      else if !xs.all (j.agent.mayRead s) then (s, .ok none)
      else match s.readRuns j.agent xs with
        | .error va => (s, .error ⟨fMACHINE, 1, va, false, 0⟩)
        | .ok bs => (j.agent.learns s xs, .ok (some { runs := [], data := bs }))
/-- A transfer stops at a row with its record (R212). -/
def State.jobRecord (s : State) (cl e : Nat) (j : Job) (f : ChunkFault) : State :=
  let r : Record :=
    { queue := j.vf, src := j.vf, kind := 3, holder := .job cl e, awaits := true
      die := if j.kind == .tst then dieOfCore j.core else s.agentDie j.core j.vf (j.rowVa j.cursor)
      stage := s.firstStage f.code f.cause
      body := [j.h, chunkWord (j.kind == .tst).toNat false f, f.va, word (j.cursor % 64), j.stride, j.issuer]
      page := f.va.toNat, level := f.level }
  (s.addRecord r).putJob cl e { j with record := some s.nextId }
/-- The cursor passes over the rows that have passed their checks, which so begin their write phases, `n` at most. -/
def Job.advance (j : Job) : Nat → Job
  | 0 => j
  | n + 1 =>
    match j.rows.find? j.cursor with
    | some x => Job.advance { j with rows := j.rows.put j.cursor { x with begun := true }, cursor := j.cursor + 1 } n
    | none => j
/-- When the cursor stands at the row that failed and no row writes any more, the transfer stops with its record. -/
def State.settleJob (s : State) (cl e : Nat) (j : Job) : State :=
  if j.stop != 0 || j.record.isSome then s.putJob cl e j
  else
    let j := j.advance (j.rows.length + 1)
    match j.fault with
    | some (n, f) =>
      if n = j.cursor && !j.rows.any (fun y => y.2.begun) && s.engineAcked j.h then s.jobRecord cl e j f else s.putJob cl e j
    | none => s.putJob cl e j
/-- May row `r` go on: the transfer runs, it has forked (R210), and at most 8 rows are in flight? -/
def Job.mayMove (j : Job) (r : Nat) : Bool :=
  j.forked && j.started && j.ended.isNone && j.stop == 0 && j.record.isNone && (j.kind == .tld || j.kind == .tst) &&
  j.cursor ≤ r && r < j.cursor + 8 && r < shapeRows (j.shape j.d) &&
  j.rows.length + ((List.range (r + 1 - j.cursor)).filter (fun i => (j.rows.find? (j.cursor + i)).isNone)).length ≤ 8 &&
  (match j.fault with | some (k, _) => r < k | none => true)
/-- A row fails in its write phase, and the cursor goes back to it (R195, R212). -/
def State.failRow (s : State) (cl e r : Nat) (j : Job) (f : ChunkFault) : State :=
  let fault := match j.fault with
    | some (k, g) => if k < r then (k, g) else (r, f)
    | none => (r, f)
  s.settleJob cl e { j with rows := j.rows.del r, cursor := min r j.cursor, fault := some fault }
/-- Do two rows in their write phases overlap in memory? -/
def Chunk.meets (x y : Chunk) : Bool := x.runs.any (fun a => y.runs.any (fun b => a.1 < b.1 + b.2.1 && b.1 < a.1 + a.2.1))
/-- One unit of a row's write phase: a loaded row lands as a whole in the tile, and a stored one goes unit by unit, behind
every lower row that it overlaps (R215); none where the row has none to write now. -/
def State.rowUnit? (s : State) (cl e r : Nat) : Option State :=
  match s.jobAt? cl e with
  | none => none
  | some j =>
    match j.rows.find? r with
    | none => none
    | some x =>
      let close (s : State) : State := s.settleJob cl e { j with rows := j.rows.del r }
      if !x.begun then none
      else if j.kind == .tld then some (close (s.poke (tileRow j.core j.d r) x.data))
      else if j.rows.any (fun y => y.1 < r && y.2.meets x) then none
      else
        match x.next 0 with
        | none => some (close s)
        | some (a, k, va, key) =>
          if j.agent.stops s a k then some (s.failRow cl e r j ⟨fMACHINE, 1, va, true, 0⟩)
          else if !j.agent.mayWrite s a then none
          else
            let s := j.agent.write s r a va key ((x.data.drop x.done).take k)
            let y := { x with done := x.done + k }
            if (runAt y.runs y.done).isNone then some (close s) else some (s.putJob cl e { j with rows := j.rows.put r y })
/-- The units of a row, `m` at most. -/
def State.rowUnits (s : State) (cl e r : Nat) : Nat → State
  | 0 => s
  | m + 1 => match s.rowUnit? cl e r with
    | some t => t.rowUnits cl e r m
    | none => s
/-- A row of a transfer runs its check phase. (DESIGN CHOICE, log entry 37) -/
def State.rowCheck (s : State) (cl e r : Nat) : State :=
  match s.jobAt? cl e with
  | none => s
  | some j =>
    if !j.mayMove r || (j.rows.find? r).isSome then s
    else
      match s.checkRow j r with
      | (t, .error f) => t.settleJob cl e { j with fault := some (r, f) }
      | (_, .ok none) => s
      | (t, .ok (some x)) => t.settleJob cl e { j with rows := j.rows.put r x }
/-- An engine's write is acknowledged: one that met a fault at its home makes its chunk or row fail, and a stop that waited
for acknowledgements goes on (R195, R264). -/
def State.engineAck (s : State) (id : Nat) (r : Req) : State :=
  let err := r.err.map (fun x => (⟨x.1, x.2, r.va, true, 0⟩ : ChunkFault))
  let mine (c : CopyOp) : List Nat := (if r.engine == some c.h then [r.rc] else []) ++
    (c.carried.filter (fun p => p.1 == id)).map Prod.snd
  let copies := s.clusters.flatMap (fun x => x.2.copies.flatMap (fun y => (mine y.2).map (fun n => (x.1, y.1, n))))
  let jobs := s.clusters.flatMap (fun x => (x.2.jobs.filter (fun y => r.engine == some y.2.h)).map (fun y => (x.1, y.1)))
  let s := copies.foldl (fun (s : State) x =>
    match s.copyAt? x.1 x.2.1 with
    | some c => (match err with
      | some f => s.failWrite x.1 x.2.1 x.2.2 c f
      | none => s.settleCopy x.1 x.2.1 c)
    | none => s) s
  jobs.foldl (fun (s : State) x =>
    match s.jobAt? x.1 x.2 with
    | some j => (match err with
      | some f => s.failRow x.1 x.2 r.rc j f
      | none => s.settleJob x.1 x.2 j)
    | none => s) s
/-- STORE_ACKNOWLEDGED: a core's store is complete, or an engine's (R155, R195). -/
def State.storeAcked (s : State) (id : Nat) : State :=
  match s.reqs.find? id with
  | some r => if r.engine.isSome && r.phase == .replied && !s.timed r then (s.landAck id).engineAck id r else s.landAck id
  | none => s
/-- A row's next act: its check, or a unit of its write phase. -/
def State.rowPart (s : State) (cl e r : Nat) : State := (s.rowUnit? cl e r).getD (s.rowCheck cl e r)
/-- A row of a transfer runs its check phase, and its write phase, as far as it goes, once every lower row has begun its
own. -/
def State.moveRow (s : State) (cl e r : Nat) : State := (s.rowCheck cl e r).rowUnits cl e r 40
/-- A job forks from its thread (R210), with its die's clock and its thread's egress boundary (R264). -/
def State.forkJob (s : State) (cl e : Nat) : State :=
  match s.jobAt? cl e with
  | none => s
  | some j =>
    if s.forkReady j.thread j.before then s.putJob cl e { j with
      forked := true, clock := s.clockOf (dieOfCore j.core), bound := (s.threadAt j.thread).boundary }
    else s
/-- The answer to a suspended transfer's record (R197, R212). -/
def State.answerJob (s : State) (cl e : Nat) (j : Job) (action : Nat) : State :=
  let ok := match j.fault with
    | some (_, f) => chunkReplays false f
    | none => true
  if j.stop != 0 then s
  else if action = 1 ∨ (!ok) = true then s.putJob cl e { j with record := none, stop := 3 }
  else s.putJob cl e { j with record := none, fault := none, rows := [] }

/-! Ends (R209, R211). -/

/-- A job has ended: its handle's fill and the answers to its waiters leave, and its entry is free (R209). -/
def State.fillJob (s : State) (cl e : Nat) : State :=
  match s.jobAt? cl e with
  | none => s
  | some j =>
    match j.ended with
    | none => s
    | some w =>
      let s := s.modCluster cl (fun x => { x with jobs := x.jobs.filter (fun y => y.1 != e) })
      let s := j.waiters.foldl (fun (s : State) u => s.sendFill (s.clockOf (dieOfCore j.core)) u (.answer j.h u)) s
      if (s.threadAt j.thread).ended.isSome then s else s.sendFill (s.clockOf (dieOfCore j.core)) j.thread (.engine j.h w j.thread j.rd)

end Sys2Proof.Machine
end

