-- ==== Sys2Proof/Machine/Mma.lean ====
section
/-! DEFINITION. The matrix jobs (R217 to R226, R241 to R248): mma, mma.q, mma.sp, sca and prune, what each computes, and
the end of a job on its lane (R207 to R211). -/

namespace Sys2Proof.Machine

/-! Operand pairs (R218). -/

/-- The accumulator's format for an operand pair, or none where the pair is not accepted. -/
def pairResult (fa fb : Nat) : Option Nat :=
  if (fa = 0x12 ∨ fa = 0x13) ∧ (fb = 0x12 ∨ fb = 0x13) then some 0x14
  else if isFloat8 fa && isFloat8 fb then some 0x14
  else if (fa = 0x15 ∨ fa = 0x16) ∧ (fb = 0x15 ∨ fb = 0x16) then some 0x1A
  else if fa = 0x17 ∧ fb = 0x17 then some 0x1A
  else if fa = 0x14 ∧ fb = 0x14 then some 0x14
  else none
/-- Is a pair of 8-bit or i4 operands (R220)? -/
def narrowPair (fa fb : Nat) : Bool := (fmtOf fa).width ≤ 8 && (fmtOf fb).width ≤ 8
/-- SHAPE causes 4 to 7 of `mma`, `mma.q` and `mma.sp` (R205, R218 to R220, R226), the lowest first. -/
def mmaCause (kind : JobKind) (d a b : Word) : Option Nat :=
  let fa := shapeFmt a
  let fb := shapeFmt b
  if shapeRows a ≠ shapeRows d ∨ shapeCols a ≠ shapeRows b ∨ shapeCols b ≠ shapeCols d then some 4
  else
    match pairResult fa fb with
    | none => some 5
    | some fd =>
      if (kind == .mmaQ && !narrowPair fa fb) || (kind == .mmaSp && fa == 0x14) then some 5
      else if shapeFmt d ≠ fd then some 6
      else if kind == .mmaQ && shapeCols a != 32 then some 7
      else none
/-- SHAPE causes of `sca` (R221): the scaled tile `d` and the partial sums `a`. -/
def scaCause (d a : Word) : Option Nat :=
  if shapeRows a ≠ shapeRows d ∨ shapeCols a ≠ shapeCols d then some 4
  else if shapeFmt d ≠ 0x14 ∨ (shapeFmt a ≠ 0x14 ∧ shapeFmt a ≠ 0x1A) then some 6
  else none

/-! Headers (R224, R241 to R243). -/

def headN (h : Word) : Nat := fieldOf h 0 3
def headM (h : Word) : Nat := fieldOf h 3 4 + 1
/-- The check of a header's low 12 bits. -/
def headCheck (h : Nat) : Nat := (bitsOf h 0 4) ^^^ (bitsOf h 4 4) ^^^ (bitsOf h 8 4) ^^^ 0xF
/-- META causes 1 to 5 of a nonzero header. -/
def metaCause (h : Word) : Option Nat :=
  if fieldOf h 16 48 != 0 || fieldOf h 9 3 != 0 then some 1
  else if fieldOf h 12 4 != headCheck h.toNat then some 2
  else if headN h = 0 ∨ headM h ≤ headN h then some 3
  else if headM h ≠ 2 ∧ headM h ≠ 4 ∧ headM h ≠ 8 ∧ headM h ≠ 16 then some 4
  else if bitOf h.toNat 8 && !((headN h == 1 && headM h == 2) || (headN h == 2 && headM h == 4)) then some 5
  else none
/-- Does a ratio and direction (true: K) fit a shape (R243)? -/
def fits (w : Word) (n m : Nat) (k : Bool) : Bool :=
  if k then shapeRows w % m == 0 && rowLength w ≤ 128
  else shapeCols w % m == 0 && shapeCols w * shapeWidth w * n / m ≤ 1024
/-- META causes of `mma.sp` (R242). -/
def sparseCause (h a : Word) : Option Nat :=
  if h = 0#64 then some 6
  else match metaCause h with
    | some c => some c
    | none =>
      if bitOf h.toNat 7 then some 7
      else if fits a (headN h) (headM h) false then none else some 8
/-- `kwr` of TMETA i (R242, R248): RSV bits first, then META 2 to 5. -/
def execKwrTmeta (i : BitVec 3) (a : BitVec 5) (m : Mods) (s : State) : Out :=
  s.issue m 0 { src := [a] }
    (let w := s.gpr a
     if fieldOf w 16 48 != 0 || fieldOf w 9 3 != 0 then s.fail fILLEGAL 4 0#64 3
     else match (if w = 0#64 then none else metaCause w) with
      | some c => s.fail fMETA c 0#64 3
      | none => s.finish m a 27#5 (fun t =>
          t.modCore s.myCore (fun c => { c with tmeta := c.tmeta.set 0#64 i.toNat w })))

/-! Group sums (R219, R226). -/

/-- Products added exactly; none when there is nothing to add. -/
def sumProducts (mode : Nat) (ps : List (FVal × FVal)) : Option FVal :=
  ps.foldl (fun acc p => some (match acc with
    | none => mulVal p.1 p.2
    | some v => addVal mode v (mulVal p.1 p.2))) none
/-- An exact value as an integer. -/
def FVal.int : FVal → Int
  | .fin n m _ => if n then -(m : Int) else m
  | _ => 0
/-- What a job rounds with at draw `d`. -/
def Job.env (j : Job) (d : Nat) : FEnv :=
  { mode := j.mode, daz := j.daz, ftz := j.ftz, draw := if j.mode == 5 then drawOf j.seed d else 0 }
/-- One element's groups in order: float accumulators round once a group; integers wrap. `draw g` is the draw of group
g. -/
def accumulate (j : Job) (float : Bool) (draw : Nat → Nat) : Nat → Nat → List (List (FVal × FVal)) → Nat
  | _, acc, [] => acc
  | g, acc, ps :: rest =>
    let acc' :=
      if float then
        let env := j.env (draw g)
        let v := f32.daz (j.daz && g == 0) (f32.decode acc)
        (f32.ofVal env (match sumProducts env.mode ps with
          | none => v
          | some x => addVal env.mode v x)).1
      else lowBits 32 ((acc : Int) + (ps.map (fun p => p.1.int * p.2.int)).sum)
    accumulate j float draw (g + 1) acc' rest
/-- A list cut into groups of eight. -/
def groupsOf8 {α : Type} : Nat → List α → List (List α)
  | 0, _ => []
  | n + 1, xs => xs.take 8 :: groupsOf8 n (xs.drop 8)
/-- The value of an element of a tile row. -/
def valueOf (fmt : Nat) (daz : Bool) (row c : Nat) : FVal :=
  let f := fmtOf fmt
  f.dazed daz (f.decode (elemOf f.width row c))

/-- The column of packed position `q` of a row with its pattern (R226): none when the group has too few set bits. -/
def packedColumn (n m row q : Nat) : Option Nat :=
  let g := q / n
  (((List.range m).filter (fun i => bitOf row (1024 + m * g + i)))[q % n]?).map (fun i => m * g + i)
/-- The products of one element of D, in groups: dense, or over packed positions where they are present. -/
def Job.products (j : Job) (arow : Nat) (bval : Nat → FVal) : List (List (FVal × FVal)) :=
  let a := j.shape j.a
  let av (c : Nat) : FVal := valueOf (shapeFmt a) j.daz arow c
  if j.kind == .mmaSp then
    let h := j.header j.a
    let ke := shapeCols a * headN h / headM h
    (groupsOf8 (ceilDiv ke 8) (List.range ke)).map (fun qs => qs.filterMap (fun q =>
      (packedColumn (headN h) (headM h) arow q).map (fun c => (av q, bval c))))
  else (groupsOf8 (ceilDiv (shapeCols a) 8) (List.range (shapeCols a))).map (fun ks => ks.map (fun k => (av k, bval k)))
/-- D := D + A × B, or A × B alone for `mma.q` (R219, R220, R226). -/
def State.runMma (s : State) (j : Job) : State :=
  let a := j.shape j.a
  let b := j.shape j.b
  let float := !(fmtOf (shapeFmt a)).isInt
  let cols := shapeCols (j.shape j.d)
  let brows := (List.range (shapeRows b)).map (s.tileRowOf j.core j.b)
  let bval (n k : Nat) : FVal := valueOf (shapeFmt b) j.daz (brows.getD k 0) n
  (List.range (shapeRows a)).foldl (fun (t : State) m =>
    let arow := s.tileRowOf j.core j.a m
    let drow := s.tileRowOf j.core j.d m
    t.putRow j.core j.d m (4 * cols) (packElems 32 ((List.range cols).map (fun n =>
      accumulate j float (fun g => (64 * g + m) * 64 + n) 0 (if j.kind == .mmaQ then 0 else elemOf 32 drow n)
        (j.products arow (bval n)))))) s
/-- The column sums of `mma.q` (R220): 64 lanes of 32 bits. (DEDUCED, log entry 39) -/
def State.columnSums (s : State) (j : Job) : List Nat :=
  let b := j.shape j.b
  let float := !(fmtOf (shapeFmt b)).isInt
  (List.range 64).map (fun n =>
    if shapeCols b ≤ n then 0
    else
      let vs := (List.range 32).map (fun k => valueOf (shapeFmt b) j.daz (s.tileRowOf j.core j.b k) n)
      if float then
        let env := j.env (16384 + n)
        (f32.ofVal env (vs.tail.foldl (addVal env.mode) (vs.headD (.fin false 0 0)))).1
      else lowBits 32 (vs.map FVal.int).sum)
/-- A block scale applied to partial sums (R221); a zero scale makes the term vanish (R237). -/
def State.runSca (s : State) (j : Job) : State :=
  let p := j.shape j.a
  let cols := shapeCols p
  let a := b8p4n.decode (fieldOf j.scale 0 8)
  let b := b8p4n.decode (fieldOf j.scale 16 8)
  let z := (Fmt.int true 8).decode (fieldOf j.scale 8 8)
  let f := fmtOf (shapeFmt p)
  (List.range (shapeRows p)).foldl (fun (t : State) m =>
    let prow := s.tileRowOf j.core j.a m
    let drow := s.tileRowOf j.core j.d m
    t.putRow j.core j.d m (4 * cols) (packElems 32 ((List.range cols).map (fun n =>
      let env := j.env (64 * m + n)
      let c := f.dazed j.daz (f.decode (lane 32 (j.colsum.getD (n / 16) 0#512) (n % 16)))
      let inner := addVal env.mode (valueOf (shapeFmt p) j.daz prow n) (mulVal z c).flip
      let d := valueOf 0x14 j.daz drow n
      (f32.ofVal env (if (mulVal a b).isZero && inner.isFin then d else addVal env.mode d (mulVal (mulVal a b) inner))).1)))) s

/-! prune (R222, R223, R243 to R246). -/

/-- The option word's fields. -/
def optN (o : Nat) : Nat := bitsOf o 0 3
def optM (o : Nat) : Nat := 2 ^ (bitsOf o 3 2 + 1)
def optK (o : Nat) : Bool := bitOf o 5
/-- Is a transposable pattern written (R246)? -/
def optTrans (o : Nat) (w : Word) : Bool :=
  bitOf o 6 && ((optN o == 1 && optM o == 2) || (optN o == 2 && optM o == 4)) &&
  shapeRows w % optM o == 0 && shapeCols w % optM o == 0
/-- The header that `prune` writes (R224). -/
def optHeader (o : Nat) (w : Word) : Word :=
  let h := optN o + (optM o - 1) * 8 + (optK o).toNat * 128 + (optTrans o w).toNat * 256
  word (h + headCheck h * 4096)
/-- |x|. -/
def FVal.abs : FVal → FVal
  | .fin _ m e => .fin false m e
  | .inf _ => .inf false
  | v => v
/-- Does x at index i stand above y at index j (R222, R244)? -/
def stands (x : FVal) (i : Nat) (y : FVal) (j : Nat) : Bool :=
  if x.isNan then !y.isNan || i < j
  else if y.isNan then false
  else y.abs.lt x.abs || (!x.abs.lt y.abs && i < j)
/-- How many of a group element `i` stands above, and below. -/
def standsAbove (vs : List FVal) (i : Nat) : Nat :=
  ((List.range vs.length).filter (fun j => j != i && stands (vs.getD i (.nan false)) i (vs.getD j (.nan false)) j)).length
/-- The `n` highest of a group, ascending. -/
def keepOf (n : Nat) (vs : List FVal) : List Nat :=
  (List.range vs.length).filter (fun i => vs.length - 1 - standsAbove vs i < n)
/-- A word with these bits set. -/
def bitSet (is : List Nat) : Nat := is.foldl (fun acc i => acc + 2 ^ i) 0
/-- The masks of `i` rows of `gs` bits with `nk` set in each, as words, row 0 lowest. -/
def maskRows (nk gs : Nat) : Nat → List Nat
  | 0 => [0]
  | i + 1 => ((List.range (2 ^ gs)).filter (fun r => ((List.range gs).filter (bitOf r)).length == nk)).flatMap (fun r =>
      (maskRows nk gs i).map (fun w => w + r * 2 ^ (gs * i)))
/-- The candidate masks of a block: `nk` set in every row and every column (R223). -/
def candidates (nk gs : Nat) : List Nat :=
  (maskRows nk gs gs).filter (fun w =>
    (List.range gs).all (fun c => ((List.range gs).filter (fun i => bitOf w (gs * i + c))).length == nk))
/-- The mask that a block keeps: the largest sum of kept ranks, and among equals the lower word (R223). -/
def bestMask (nk gs : Nat) (ranks : List Nat) : Nat :=
  let score (w : Nat) : Nat := (((List.range (gs * gs)).filter (bitOf w)).map (fun i => ranks.getD i 0)).sum
  (candidates nk gs).foldl (fun best w =>
    if score best < score w || (score best == score w && w < best) then w else best) ((candidates nk gs).headD 0)
/-- The tile that `prune` writes, row by row (R222, R223, R225, R245). -/
def pruned (o : Nat) (w : Word) (rows : List Nat) : List Nat :=
  let n := optN o
  let m := optM o
  let width := shapeWidth w
  let val (r c : Nat) : FVal := valueOf (shapeFmt w) false (rows.getD r 0) c
  let elem (r c : Nat) : Nat := elemOf width (rows.getD r 0) c
  let nr := shapeRows w
  let nc := shapeCols w
  -- the kept rows or columns of group g of line l
  let kept (l g : Nat) : List Nat :=
    (keepOf n ((List.range m).map (fun i => if optK o then val (m * g + i) l else val l (m * g + i)))).map (m * g + ·)
  let values (r : Nat) : Nat :=
    if optK o then
      if nr * n / m ≤ r then 0
      else packElems width ((List.range nc).map (fun c => elem ((kept c (r / n)).getD (r % n) 0) c))
    else packElems width ((List.range (nc / m)).flatMap (fun g => (kept r g).map (elem r)))
  let pattern (r : Nat) : Nat :=
    if optK o then bitSet ((List.range nc).filter (fun c => (kept c (r / m)).contains r))
    else bitSet ((List.range (nc / m)).flatMap (kept r))
  let block (b h : Nat) : Nat :=
    let vs := (List.range (m * m)).map (fun i => val (m * b + i / m) (m * h + i % m))
    bestMask n m ((List.range (m * m)).map (standsAbove vs))
  let trans (r : Nat) : Nat :=
    if optTrans o w then
      bitSet ((List.range nc).filter (fun c => bitOf (block (r / m) (c / m)) (m * (r % m) + c % m)))
    else 0
  (List.range 64).map (fun r =>
    if r < nr then values r + pattern r * 2 ^ 1024 + trans r * 2 ^ 1536 else 0)
def State.runPrune (s : State) (j : Job) : State :=
  let w := j.shape j.a
  let out := pruned j.opt w ((List.range (shapeRows w)).map (s.tileRowOf j.core j.a))
  (List.range 64).foldl (fun (t : State) r => t.putRow j.core j.d r 256 (out.getD r 0)) s

/-! The instructions (R217, R220 to R222, R226). -/

/-- Does a job round: has it float operands (R236)? (DEDUCED, log entry 15) -/
def Job.rounds (j : Job) : Bool := j.kind == .sca || !(fmtOf (shapeFmt (j.shape j.a))).isInt
/-- `mma` and `mma.sp`. -/
def State.mmaInstr (s : State) (kind : JobKind) (D : BitVec 3) (d : BitVec 5) (a b : BitVec 3) (m : Mods) : Out :=
  let j := s.jobOf kind d D.toNat a.toNat b.toNat 0 true [D.toNat] [a.toNat, b.toNat].eraseDups m
  s.issue m 0 { dst := [d] }
    (s.afterAcquire
      (match mmaCause kind (j.shape j.d) (j.shape j.a) (j.shape j.b) with
       | some c => s.fail fSHAPE c 0#64 3
       | none =>
        match (if kind == .mmaSp then sparseCause (j.header j.a) (j.shape j.a) else none) with
        | some c => s.fail fMETA c 0#64 3
        | none => s.admission m 27#5 27#5 d j j.rounds id))
def execMma (D : BitVec 3) (d : BitVec 5) (a b : BitVec 3) (m : Mods) (s : State) : Out := s.mmaInstr .mma D d a b m
def execMmaSp (D : BitVec 3) (d : BitVec 5) (a b : BitVec 3) (m : Mods) (s : State) : Out := s.mmaInstr .mmaSp D d a b m

/-- Four vector registers from `v`. -/
def fourFrom (v : Nat) : List (BitVec 5) := (List.range 4).map (fun i => BitVec.ofNat 5 (v + i))
/-- `mma.q` (R220): the four registers are pending from admission, and the thread is pinned. -/
def execMmaQ (D : BitVec 3) (d : BitVec 5) (a b : BitVec 3) (m : Mods) (s : State) : Out :=
  let v := m.rc.toNat
  let j := s.jobOf .mmaQ d D.toNat a.toNat b.toNat v true [D.toNat] [a.toNat, b.toNat].eraseDups m
  s.issue m 0 { vec := fourFrom v, dst := [d] }
    (s.afterAcquire
      (match mmaCause .mmaQ (j.shape j.d) (j.shape j.a) (j.shape j.b) with
       | some c => s.fail fSHAPE c 0#64 3
       | none =>
        if s.readsVectors s.uid v then s.await (.vecRead v)
        else s.admission m 27#5 27#5 d j j.rounds (fun t =>
          (t.modSlot s.me (fun x => { x with
            vpend := (List.range 4).foldl (fun p i => p.put (v + i) 1) x.vpend })).modCur (fun y => { y with vpin := true }))))

/-- `sca` (R221): the column sums and the scale word are read at admission. -/
def execSca (D : BitVec 3) (d : BitVec 5) (a b : BitVec 3) (m : Mods) (s : State) : Out :=
  let j := s.jobOf .sca d D.toNat a.toNat 0 0 true [D.toNat] [a.toNat] m
  s.issue m 0 { src := [m.rc], vec := fourFrom b.toNat, dst := [d] }
    (s.afterAcquire
      (match scaCause (j.shape j.d) (j.shape j.a) with
       | some c => s.fail fSHAPE c 0#64 3
       | none => s.admission m 27#5 27#5 d
          { j with scale := s.gpr m.rc, colsum := (fourFrom b.toNat).map s.vec } true id))

/-- `prune` (R222, R242, R243): TSHAPE_D and TMETA_D are written at admission. -/
def execPrune (D : BitVec 3) (d : BitVec 5) (a : BitVec 3) (m : Mods) (s : State) : Out :=
  let o := m.w2.toNat
  let j := s.jobOf .prune d D.toNat a.toNat 0 o true [D.toNat] [a.toNat] m
  let w := j.shape j.a
  s.issue m 0 { dst := [d] }
    (s.afterAcquire
      (if 0x17 < shapeFmt w then s.fail fSHAPE 5 0#64 3
       else if !fits w (optN o) (optM o) (optK o) then s.fail fMETA 8 0#64 3
       else s.admission m 27#5 27#5 d j false (fun t => t.modCore s.myCore (fun c => { c with
          tshape := c.tshape.set 0#64 D.toNat w, tmeta := c.tmeta.set 0#64 D.toNat (optHeader o w) }))))

/-! The end of a job (R207 to R211, R220). -/

/-- What a job that touches no memory does to the tiles. -/
def State.runJob (s : State) (j : Job) : State :=
  match j.kind with
  | .tzero => s.poke (tileRow j.core j.d 0) (List.replicate 16384 0#8)
  | .tmov => s.poke (tileRow j.core j.d 0) (s.peek (tileRow j.core j.a 0) 16384)
  | .mma => s.runMma j
  | .mmaQ => s.runMma j
  | .mmaSp => s.runMma j
  | .sca => s.runSca j
  | .prune => s.runPrune j
  | .tld => s
  | .tst => s
/-- The column sums of an `mma.q` land in the slot, or in what a context image brought back of it, if its thread is still
there; without sums the registers are only
no longer pending. (DEDUCED, log entry 40) -/
def State.landSums (s : State) (j : Job) (sums : Option (List Nat)) : State :=
  let land (x : Slot) : Slot := { x with
    vpend := (List.range 4).foldl (fun p i => p.del (j.opt + i)) x.vpend
    vecs := match sums with
      | none => x.vecs
      | some cs => (List.range 4).foldl (fun v i =>
          v.set 0#512 (j.opt + i) (ofLanes 32 ((cs.drop (16 * i)).take 16))) x.vecs }
  if j.kind != .mmaQ then s
  else if (s.slotAt j.slot).occ == some j.thread then s.modSlot j.slot land
  else match (s.funcAt j.vf).loaded.find? j.slot with
    | some x => if x.occ == some j.thread then s.modFunc j.vf (fun f => { f with loaded := f.loaded.put j.slot (land x) }) else s
    | none => s
/-- Has a job reached its end on its lane, and with what completion word (R209, R211)? -/
def Job.finish? (j : Job) : Option Word :=
  if j.ended.isSome then none
  else if !j.started then (if j.stop = 0 then none else some (stopWord j.stop 0))
  else if j.kind == .tld || j.kind == .tst then
    if j.rows.any (fun y => y.2.begun) then none
    else if j.stop != 0 then some (stopWord j.stop j.cursor)
    else if j.record.isNone && j.fault.isNone && shapeRows (j.shape j.d) ≤ j.cursor then some 0#64 else none
  else some (if j.stop = 0 then 0#64 else stopWord 2 1)
/-- A job ends: its effect on tiles and vectors, its locks, and its lane. (DEDUCED, log entry 40) -/
def State.endJob (s : State) (cl e : Nat) : State :=
  match s.jobAt? cl e with
  | none => s
  | some j =>
    match (if s.engineAcked j.h then j.finish? else none) with
    | none => s
    | some w =>
      let s := if j.started then (s.runJob j).landSums j (some (s.columnSums j)) else s.landSums j none
      let s := (s.modCore j.core (fun c => c.unlock j)).putJob cl e { j with ended := some w }
      if j.array && j.started then (s.laneEnds cl).markReady (dieOfCluster cl) else s.markReady (dieOfCluster cl)

end Sys2Proof.Machine
end

