-- ==== Sys2Proof/Machine/Vector.lean ====
section
/-! DEFINITION. The vector instructions (R49 to R52, R142, R168 to R183): memory accesses, integer and float lanes, moves,
conversions, packing, reductions and `hacc`. -/

namespace Sys2Proof.Machine

/-! Forms. -/

/-- A lane's width from the width bit, and the lane count. -/
def laneW (t : Bool) : Nat := if t then 64 else 32
def laneN (t : Bool) : Nat := 512 / laneW t

/-- An instruction that only computes a vector from vectors and general registers; it pins the thread (R169). -/
def State.vecOut (s : State) (m : Mods) (src : List (BitVec 5)) (vecs : List (BitVec 3)) (d : BitVec 3) (a b : BitVec 5)
    (v : VWord) (f : State → State) : Out :=
  s.issue m 0 { src := src, vec := (d :: vecs).map reg3 }
    (s.finish m a b (fun t => f (t.writeVec (reg3 d) v)))
/-- An instruction that computes a general register from vectors. -/
def State.vecGpr (s : State) (m : Mods) (src : List (BitVec 5)) (vecs : List (BitVec 3)) (d b : BitVec 5) (v : Word)
    (f : State → State) : Out :=
  s.issue m 0 { src := src, vec := vecs.map reg3, dst := [d] }
    (s.finish m 27#5 b (fun t => f (t.writeGpr d v)))

/-! Integer lanes (R174). -/

/-- A result of `w` bits clamped to a range. -/
def clampTo (lo hi x : Int) : Int := max lo (min hi x)
/-- An integer lane operation on unsigned lane values. -/
def State.vint2 (s : State) (f : Nat → Nat → Nat → Int) (t : Bool) (d a b : BitVec 3) (m : Mods) : Out :=
  let w := laneW t
  s.vecOut m [] [a, b] d 27#5 27#5
    (ofLanes w (List.zipWith (fun x y => lowBits w (f w x y)) (lanes w (s.vec (reg3 a))) (lanes w (s.vec (reg3 b))))) id
def State.vint1 (s : State) (f : Nat → Nat → Int) (t : Bool) (d a : BitVec 3) (m : Mods) : Out :=
  let w := laneW t
  s.vecOut m [] [a] d 27#5 27#5 (ofLanes w ((lanes w (s.vec (reg3 a))).map (fun x => lowBits w (f w x)))) id
/-- A mask of lanes, lane 0 in bit 0. -/
def maskOf (bs : List Bool) : Word := word (bs.foldr (fun b acc => b.toNat + 2 * acc) 0)
def State.vcmp (s : State) (f : Nat → Nat → Nat → Bool) (t : Bool) (d : BitVec 5) (a b : BitVec 3) (m : Mods) : Out :=
  let w := laneW t
  s.vecGpr m [] [a, b] d 27#5
    (maskOf (List.zipWith (f w) (lanes w (s.vec (reg3 a))) (lanes w (s.vec (reg3 b))))) id
/-- A shift amount: B[4:0] or B[5:0]. -/
def laneShift (w y : Nat) : Nat := y % w

def execVadd (t : Bool) (d a b : BitVec 3) (m : Mods) (s : State) : Out :=
  s.vint2 (fun _ x y => x + y) t d a b m
def execVsub (t : Bool) (d a b : BitVec 3) (m : Mods) (s : State) : Out :=
  s.vint2 (fun _ x y => (x : Int) - y) t d a b m
def execVmul (t : Bool) (d a b : BitVec 3) (m : Mods) (s : State) : Out :=
  s.vint2 (fun _ x y => (x * y : Nat)) t d a b m
def execVmulh (t : Bool) (d a b : BitVec 3) (m : Mods) (s : State) : Out :=
  s.vint2 (fun w x y => signedN w x * signedN w y / 2 ^ w) t d a b m
def execVmin (t : Bool) (d a b : BitVec 3) (m : Mods) (s : State) : Out :=
  s.vint2 (fun w x y => min (signedN w x) (signedN w y)) t d a b m
def execVmax (t : Bool) (d a b : BitVec 3) (m : Mods) (s : State) : Out :=
  s.vint2 (fun w x y => max (signedN w x) (signedN w y)) t d a b m
def execVminu (t : Bool) (d a b : BitVec 3) (m : Mods) (s : State) : Out :=
  s.vint2 (fun _ x y => (min x y : Nat)) t d a b m
def execVmaxu (t : Bool) (d a b : BitVec 3) (m : Mods) (s : State) : Out :=
  s.vint2 (fun _ x y => (max x y : Nat)) t d a b m
def execVand (t : Bool) (d a b : BitVec 3) (m : Mods) (s : State) : Out :=
  s.vint2 (fun _ x y => (x &&& y : Nat)) t d a b m
def execVor (t : Bool) (d a b : BitVec 3) (m : Mods) (s : State) : Out :=
  s.vint2 (fun _ x y => (x ||| y : Nat)) t d a b m
def execVxor (t : Bool) (d a b : BitVec 3) (m : Mods) (s : State) : Out :=
  s.vint2 (fun _ x y => (x ^^^ y : Nat)) t d a b m
def execVshl (t : Bool) (d a b : BitVec 3) (m : Mods) (s : State) : Out :=
  s.vint2 (fun w x y => (x * 2 ^ laneShift w y : Nat)) t d a b m
def execVshr (t : Bool) (d a b : BitVec 3) (m : Mods) (s : State) : Out :=
  s.vint2 (fun w x y => (x / 2 ^ laneShift w y : Nat)) t d a b m
def execVsar (t : Bool) (d a b : BitVec 3) (m : Mods) (s : State) : Out :=
  s.vint2 (fun w x y => signedN w x / 2 ^ laneShift w y) t d a b m
def execVadds (t : Bool) (d a b : BitVec 3) (m : Mods) (s : State) : Out :=
  s.vint2 (fun w x y => clampTo (-2 ^ (w - 1)) (2 ^ (w - 1) - 1) (signedN w x + signedN w y)) t d a b m
def execVaddus (t : Bool) (d a b : BitVec 3) (m : Mods) (s : State) : Out :=
  s.vint2 (fun w x y => clampTo 0 (2 ^ w - 1) (x + y)) t d a b m
def execVsubs (t : Bool) (d a b : BitVec 3) (m : Mods) (s : State) : Out :=
  s.vint2 (fun w x y => clampTo (-2 ^ (w - 1)) (2 ^ (w - 1) - 1) (signedN w x - signedN w y)) t d a b m
def execVsubus (t : Bool) (d a b : BitVec 3) (m : Mods) (s : State) : Out :=
  s.vint2 (fun w x y => clampTo 0 (2 ^ w - 1) ((x : Int) - y)) t d a b m
def execVabs (t : Bool) (d a : BitVec 3) (m : Mods) (s : State) : Out := s.vint1 (fun w x => |signedN w x|) t d a m
def execVneg (t : Bool) (d a : BitVec 3) (m : Mods) (s : State) : Out := s.vint1 (fun w x => -signedN w x) t d a m
def execVcmpEq (t : Bool) (d : BitVec 5) (a b : BitVec 3) (m : Mods) (s : State) : Out :=
  s.vcmp (fun _ x y => x == y) t d a b m
def execVcmpLt (t : Bool) (d : BitVec 5) (a b : BitVec 3) (m : Mods) (s : State) : Out :=
  s.vcmp (fun w x y => signedN w x < signedN w y) t d a b m
def execVcmpLe (t : Bool) (d : BitVec 5) (a b : BitVec 3) (m : Mods) (s : State) : Out :=
  s.vcmp (fun w x y => signedN w x ≤ signedN w y) t d a b m
def execVcmpLtu (t : Bool) (d : BitVec 5) (a b : BitVec 3) (m : Mods) (s : State) : Out :=
  s.vcmp (fun _ x y => x < y) t d a b m
def execVcmpLeu (t : Bool) (d : BitVec 5) (a b : BitVec 3) (m : Mods) (s : State) : Out :=
  s.vcmp (fun _ x y => x ≤ y) t d a b m
/-- The vector that a field C names. -/
def State.vecC (s : State) (m : Mods) : VWord := s.vec m.rc
def execVmad (t : Bool) (d a b : BitVec 3) (m : Mods) (s : State) : Out :=
  let w := laneW t
  let ls := (List.range (laneN t)).map (fun i =>
    lane w (s.vec (reg3 a)) i * lane w (s.vec (reg3 b)) i + lane w (s.vecC m) i)
  s.vecOut m [] [a, b, m.rc.setWidth 3] d 27#5 27#5 (ofLanes w ls) id

/-! Float lanes (R175, R176). -/

def vfFmt (w : Bool) : FloatFmt := if w then f64 else f32
def State.vfArg (s : State) (f : FloatFmt) (v : VWord) (i : Nat) : FVal :=
  f.daz s.cur.daz (f.decode (lane f.width v i))
/-- Lanes' results with their flags ORed. (DESIGN CHOICE, log entry 71) -/
def laneResults (w : Nat) (rs : List FRes) : VWord × Flags :=
  (ofLanes w (rs.map Prod.fst), rs.foldl (fun acc r => acc ||| r.2) 0#5)
/-- The results of an arithmetic float function, lane i with draw i. -/
def State.vfLanes (s : State) (m : Mods) (w : Bool) (f : FloatFmt → FEnv → Nat → FRes) : VWord × Flags :=
  laneResults (laneW w) ((List.range (laneN w)).map (fun i => f (vfFmt w) (s.fenv m i) i))
def State.vfOut (s : State) (m : Mods) (vecs : List (BitVec 3)) (d : BitVec 3) (rounds : Bool) (r : VWord × Flags) :
    Out :=
  s.vecOut m [] vecs d 27#5 27#5 r.1 (fun t => t.floatDone m rounds r.2)
def State.vf2 (s : State) (f : FloatFmt → FEnv → FVal → FVal → FRes) (w : Bool) (d a b : BitVec 3) (m : Mods) : Out :=
  s.vfOut m [a, b] d true (s.vfLanes m w (fun g e i =>
    f g e (s.vfArg g (s.vec (reg3 a)) i) (s.vfArg g (s.vec (reg3 b)) i)))
def State.vfFma (s : State) (negate : Bool) (w : Bool) (d a b : BitVec 3) (m : Mods) : Out :=
  s.vfOut m [a, b, m.rc.setWidth 3] d true (s.vfLanes m w (fun g e i =>
    g.fma e negate (s.vfArg g (s.vec (reg3 a)) i) (s.vfArg g (s.vec (reg3 b)) i) (s.vfArg g (s.vecC m) i)))
def State.vfMinMax (s : State) (isMax : Bool) (w : Bool) (d a b : BitVec 3) (m : Mods) : Out :=
  s.vfOut m [a, b] d false (s.vfLanes m w (fun g _ i =>
    g.minMax isMax s.cur.daz (lane g.width (s.vec (reg3 a)) i) (lane g.width (s.vec (reg3 b)) i)))
def State.vfSign (s : State) (f : Nat → Nat) (w : Bool) (d a : BitVec 3) (m : Mods) : Out :=
  s.vfOut m [a] d false (s.vfLanes m w (fun g _ i =>
    let x := lane g.width (s.vec (reg3 a)) i
    (putBits x (g.width - 1) 1 (f (bitsOf x (g.width - 1) 1)), 0#5)))
def State.vfCmp (s : State) (cc : Nat) (w : Bool) (d : BitVec 5) (a b : BitVec 3) (m : Mods) : Out :=
  let g := vfFmt w
  let rs := (List.range (laneN w)).map (fun i =>
    fcmp cc (s.vfArg g (s.vec (reg3 a)) i) (s.vfArg g (s.vec (reg3 b)) i))
  s.vecGpr m [] [a, b] d 27#5 (maskOf (rs.map Prod.fst))
    (fun t => t.floatDone m false (rs.foldl (fun acc r => acc ||| r.2) 0#5))
/-- A float function on the divide unit: vd is pending until the result lands (R176). -/
def State.vfDivide (s : State) (m : Mods) (vecs : List (BitVec 3)) (d : BitVec 3) (r : VWord × Flags) : Out :=
  s.issue m 0 { vec := (d :: vecs).map reg3 }
    (s.divide m 27#5 27#5 (reg3 d) true r.1 r.2 (fun t => t.bumpSeed (s.mode m == 5)))

def execVfadd (w : Bool) (d a b : BitVec 3) (m : Mods) (s : State) : Out := s.vf2 FloatFmt.add w d a b m
def execVfsub (w : Bool) (d a b : BitVec 3) (m : Mods) (s : State) : Out :=
  s.vf2 (fun f e x y => f.add e x y.flip) w d a b m
def execVfmul (w : Bool) (d a b : BitVec 3) (m : Mods) (s : State) : Out := s.vf2 FloatFmt.mul w d a b m
def execVfdiv (w : Bool) (d a b : BitVec 3) (m : Mods) (s : State) : Out :=
  s.vfDivide m [a, b] d (s.vfLanes m w (fun g e i =>
    g.div e (s.vfArg g (s.vec (reg3 a)) i) (s.vfArg g (s.vec (reg3 b)) i)))
def execVfsqrt (w : Bool) (d a : BitVec 3) (m : Mods) (s : State) : Out :=
  s.vfDivide m [a] d (s.vfLanes m w (fun g e i => g.sqrt e (s.vfArg g (s.vec (reg3 a)) i)))
def execVfmin (w : Bool) (d a b : BitVec 3) (m : Mods) (s : State) : Out := s.vfMinMax false w d a b m
def execVfmax (w : Bool) (d a b : BitVec 3) (m : Mods) (s : State) : Out := s.vfMinMax true w d a b m
def execVfabs (w : Bool) (d a : BitVec 3) (m : Mods) (s : State) : Out := s.vfSign (fun _ => 0) w d a m
def execVfneg (w : Bool) (d a : BitVec 3) (m : Mods) (s : State) : Out := s.vfSign (fun x => 1 - x) w d a m
def execVfma (w : Bool) (d a b : BitVec 3) (m : Mods) (s : State) : Out := s.vfFma false w d a b m
def execVfnma (w : Bool) (d a b : BitVec 3) (m : Mods) (s : State) : Out := s.vfFma true w d a b m
def execVfcmpEq (w : Bool) (d : BitVec 5) (a b : BitVec 3) (m : Mods) (s : State) : Out := s.vfCmp 0 w d a b m
def execVfcmpLt (w : Bool) (d : BitVec 5) (a b : BitVec 3) (m : Mods) (s : State) : Out := s.vfCmp 2 w d a b m
def execVfcmpLe (w : Bool) (d : BitVec 5) (a b : BitVec 3) (m : Mods) (s : State) : Out := s.vfCmp 3 w d a b m
def execVfcmpUn (w : Bool) (d : BitVec 5) (a b : BitVec 3) (m : Mods) (s : State) : Out := s.vfCmp 4 w d a b m

/-! Moves (R177), conversion (R178), packing (R142, R179) and release (R170). -/

def execVmov (d a : BitVec 3) (m : Mods) (s : State) : Out :=
  s.vecOut m [] [a] d 27#5 27#5 (s.vec (reg3 a)) id
def State.vbcast (s : State) (t : Bool) (d : BitVec 3) (a : BitVec 5) (m : Mods) : Out :=
  s.vecOut m [a] [] d a 27#5 (ofLanes (laneW t) (List.replicate (laneN t) (s.gpr a).toNat)) id
def execVbcastW (d : BitVec 3) (a : BitVec 5) (m : Mods) (s : State) : Out := s.vbcast false d a m
def execVbcastD (d : BitVec 3) (a : BitVec 5) (m : Mods) (s : State) : Out := s.vbcast true d a m
/-- The lane that a register names: its low bits (R177). -/
def laneIndex (t : Bool) (w : Word) : Nat := w.toNat % laneN t
def State.vext (s : State) (t : Bool) (d : BitVec 5) (a : BitVec 3) (b : BitVec 5) (m : Mods) : Out :=
  s.vecGpr m [b] [a] d b (word (lane (laneW t) (s.vec (reg3 a)) (laneIndex t (s.gpr b)))) id
def execVextW (d : BitVec 5) (a : BitVec 3) (b : BitVec 5) (m : Mods) (s : State) : Out := s.vext false d a b m
def execVextD (d : BitVec 5) (a : BitVec 3) (b : BitVec 5) (m : Mods) (s : State) : Out := s.vext true d a b m
def State.vins (s : State) (t : Bool) (d : BitVec 3) (a b : BitVec 5) (m : Mods) : Out :=
  let w := laneW t
  s.vecOut m [a, b] [] d a b
    (BitVec.ofNat 512 (putBits (s.vec (reg3 d)).toNat (w * laneIndex t (s.gpr b)) w (s.gpr a).toNat)) id
def execVinsW (d : BitVec 3) (a b : BitVec 5) (m : Mods) (s : State) : Out := s.vins false d a b m
def execVinsD (d : BitVec 3) (a b : BitVec 5) (m : Mods) (s : State) : Out := s.vins true d a b m

/-- The lanes of a conversion: 8 when a format is 64 bits wide, else 16 (R178). -/
def cvtLanes (x y : Fmt) : Nat := if x.width = 64 ∨ y.width = 64 then 8 else 16
def execVcvt (d a : BitVec 3) (m : Mods) (s : State) : Out :=
  let x := fmtOf m.fmtA.toNat
  let y := fmtOf m.fmtB.toNat
  s.vfOut m [a] d true (laneResults y.width ((List.range (cvtLanes x y)).map (fun i =>
    convert x y (s.fenv m i) (lane x.width (s.vec (reg3 a)) i))))

/-- `nzscan` (R142): the positions of the nonzero lanes, then all ones; their count goes to the C register. -/
def execNzscan (e : Bool) (d a : BitVec 3) (m : Mods) (s : State) : Out :=
  let w := laneW e
  let live := (List.range (laneN e)).filter (fun i => lane w (s.vec (reg3 a)) i != 0)
  let v := ofLanes w (live ++ List.replicate (laneN e - live.length) (2 ^ w - 1))
  s.issue m 0 { vec := [reg3 d, reg3 a], dst := [m.rc] }
    (s.finish m 27#5 27#5 (fun t => (t.writeVec (reg3 d) v).writeGpr m.rc (word live.length)))
def execVcompress (e : Bool) (d a : BitVec 3) (b : BitVec 5) (m : Mods) (s : State) : Out :=
  let w := laneW e
  let kept := (List.range (laneN e)).filter (fun i => (s.gpr b).getLsbD i)
  s.vecOut m [b] [a] d 27#5 b (ofLanes w (kept.map (lane w (s.vec (reg3 a))))) id
def execVperm (e : Bool) (d a b : BitVec 3) (m : Mods) (s : State) : Out :=
  let w := laneW e
  s.vecOut m [] [a, b] d 27#5 27#5
    (ofLanes w ((lanes w (s.vec (reg3 b))).map (fun i => lane w (s.vec (reg3 a)) (i % laneN e)))) id
/-- `vrel` (R170): once no vector register of the slot is pending, they become zero and the pin of vector writes goes. -/
def execVrel (m : Mods) (s : State) : Out :=
  s.issue m 0 {}
    (if !s.mySlot.vpend.isEmpty then s.await .vectors
     else s.finish m 27#5 27#5 (fun t =>
      (t.modSlot s.me (fun x => { x with vecs := [] })).modCur (fun x => { x with vpin := false })))

/-! Reductions (R180). -/

/-- One combination of two values; `c` is its draw. FCTL.daz has been applied to the lanes, and applies to no sum (R180). -/
def redOp (op : Nat) (f : Option FloatFmt) (w : Nat) (env : Nat → FEnv) (c x y : Nat) : FRes :=
  match f, op with
  | none, 0 => ((x + y) % 2 ^ w, 0#5)
  | none, 1 => (if signedN w y < signedN w x then y else x, 0#5)
  | none, _ => (if signedN w x < signedN w y then y else x, 0#5)
  | some g, 0 => g.add (env c) (g.decode x) (g.decode y)
  | some g, 1 => g.minMax false false x y
  | some g, _ => g.minMax true false x y
/-- One pass of the `.o` tree over neighbours; `c` is the pass's first draw. -/
def redPass (f : Nat → Nat → Nat → FRes) : Nat → List Nat → List Nat × Flags
  | c, x :: y :: rest =>
    let r := f c x y
    let z := redPass f (c + 1) rest
    (r.1 :: z.1, r.2 ||| z.2)
  | _, xs => (xs, 0#5)
/-- The `.o` tree: passes until one value is left. -/
def redTree (f : Nat → Nat → Nat → FRes) (total : Nat) : Nat → List Nat → FRes
  | 0, xs => (xs.headD 0, 0#5)
  | n + 1, xs =>
    if xs.length ≤ 1 then (xs.headD 0, 0#5)
    else
      let p := redPass f (total - xs.length) xs
      let r := redTree f total n p.1
      (r.1, p.2 ||| r.2)
/-- Takes the element at a free index out of a list, and the rest. -/
def takeFree (i : Nat) (xs : List Nat) : Nat × List Nat := (xs.getD (i % xs.length) 0, xs.eraseIdx (i % xs.length))
/-- The `.u` form: two values at free indexes are combined, with a free one of the draws left, until one is left. (DESIGN
CHOICE, log entry 9) -/
def redFree (f : Nat → Nat → Nat → FRes) (choice : Nat → Nat) : Nat → List Nat → List Nat → FRes
  | 0, _, xs => (xs.headD 0, 0#5)
  | n + 1, draws, xs =>
    if xs.length ≤ 1 then (xs.headD 0, 0#5)
    else
      let x := takeFree (choice (3 * n)) xs
      let y := takeFree (choice (3 * n + 1)) x.2
      let c := takeFree (choice (3 * n + 2)) draws
      let r := f c.1 x.1 y.1
      let z := redFree f choice n c.2 (r.1 :: y.2)
      (z.1, r.2 ||| z.2)
/-- The type of a reduction: lane width and float format. -/
def redType (t : BitVec 2) : Nat × Option FloatFmt :=
  match t.toNat with
  | 0 => (32, none)
  | 1 => (64, none)
  | 2 => (32, some f32)
  | _ => (64, some f64)
def State.vred (s : State) (op : Nat) (t : BitVec 2) (o : Bool) (d : BitVec 5) (a : BitVec 3) (m : Mods) : Out :=
  let w := (redType t).1
  let g := (redType t).2
  let xs := lanes w (s.vec (reg3 a))
  let xs := match g with
    | some f => xs.map (f.dazBits s.cur.daz)
    | none => xs
  let f := redOp op g w (fun c => s.fenv m c)
  let r := if o then redFree f (Config.pairing s.fresh) xs.length (List.range (xs.length - 1)) xs
    else redTree f xs.length xs.length xs
  let v := if g.isNone then sextN w r.1 else word r.1
  s.vecGpr m [] [a] d 27#5 v (fun t => (t.floatDone m (op == 0 && g.isSome) r.2).draw)
def execVredAdd (t : BitVec 2) (o : Bool) (d : BitVec 5) (a : BitVec 3) (m : Mods) (s : State) : Out := s.vred 0 t o d a m
def execVredMin (t : BitVec 2) (o : Bool) (d : BitVec 5) (a : BitVec 3) (m : Mods) (s : State) : Out := s.vred 1 t o d a m
def execVredMax (t : BitVec 2) (o : Bool) (d : BitVec 5) (a : BitVec 3) (m : Mods) (s : State) : Out := s.vred 2 t o d a m

/-! Vector memory (R172, R173). -/

/-- A lane of an access: its number, address and width. -/
structure LaneRef where
  lane : Nat
  va   : Word
  w    : Nat
  deriving DecidableEq, Repr

/-- A lane with its place. -/
structure LanePlace where
  ref : LaneRef
  p   : Place
  deriving DecidableEq, Repr

/-- The lanes of a vector access after masking, with null lanes dropped. -/
def activeLanes (e : Bool) (mask : Option Word) (addr : Nat → Option Word) : List LaneRef :=
  (List.range (laneN e)).filterMap (fun i =>
    if mask.all (fun k => k.getLsbD i) then (addr i).map (fun va => ⟨i, va, laneW e / 8⟩) else none)
def State.vmask (s : State) (k : Bool) (m : Mods) : Option Word := if k then some (s.gpr m.rc) else none
def maskSrc (k : Bool) (m : Mods) : List (BitVec 5) := if k then [m.rc] else []
/-- The base of a vector access. -/
def State.vbase (s : State) (a : BitVec 5) (m : Mods) : Word := s.gpr a + disp m

/-- Checks and translates each lane in ascending order (R173): the first failing check of the lowest failing lane
decides. -/
def State.lanePlaces (s : State) (acc : Acc) : List LaneRef → (State → List LanePlace → Out) → Out
  | [], body => body s []
  | l :: ls, body =>
    s.access acc l.w l.va (fun s p =>
      if p.lo && acc.writes then s.fail fACCESS 6 l.va 1
      else s.lanePlaces acc ls (fun s ps => body s (⟨l, p⟩ :: ps)))
/-- A contiguous access is checked for 64 bytes and its region once; its lanes lie in one line. -/
def State.contigPlaces (s : State) (acc : Acc) (base : Word) (ls : List LaneRef) (body : State → List LanePlace → Out) :
    Out :=
  s.access acc 64 base (fun s p =>
    if p.lo && acc.writes then s.fail fACCESS 6 base 1
    else body s (ls.map (fun l => ⟨l, { p with addr := p.addr + l.w * l.lane }⟩)))

/-- The distinct lines of a list of lanes, in the order of their first lanes. -/
def lineList (ps : List LanePlace) : List Nat := (ps.map (fun x => lineOf x.p.addr)).eraseDups
/-- Where the lanes of one line go: offset in the register, offset in the line, width. -/
def laneMap (ps : List LanePlace) (line : Nat) : List (Nat × Nat × Nat) :=
  (ps.filter (fun x => lineOf x.p.addr == line)).map (fun x => (x.ref.w * x.ref.lane, x.p.addr % 64, x.ref.w))
/-- A line that can be read at once: in the local store, or in the data cache. -/
def State.lineNow (s : State) (p : Place) : Option (List Byte × Option Cache) :=
  if p.isLocal then some (s.peek (lineOf p.addr) 64, none)
  else if p.cached then
    ((s.coreAt s.myCore).dcache.hit? dWays (lineOf p.addr)).map (fun h => (toBytes 64 h.1.toNat, some h.2))
  else none
/-- A vector load's lanes land from one line, at once or by a request (R151, R173). -/
def State.vloadLine (s : State) (d : BitVec 5) (ps : List LanePlace) (line : Nat) (resend : LanePlace → Req) : State :=
  match List.find? (fun x => lineOf x.p.addr == line) ps with
  | none => s
  | some x =>
    let ls := laneMap ps line
    match s.lineNow x.p with
    | some (bs, c) =>
      let s := match c with
        | some c => ls.foldl (fun (s : State) (l : Nat × Nat × Nat) => s.noteHit (line + l.2.1) l.2.2)
            (s.modCore s.myCore (fun y => { y with dcache := c }))
        | none => s
      s.modSlot s.me (fun y => { y with vecs := y.vecs.set 0#512 d.toNat (laneBytes (y.vecs.get 0#512 d.toNat) ls bs) })
    | none =>
      (s.modSlot s.me (fun y => { y with vpend := y.vpend.set 0 d.toNat (y.vpend.get 0 d.toNat + 1) })).post
        { resend x with lanes := ls }
/-- A vector load once every lane has its place: it takes its reservations all at once (R157), vd's inactive lanes become
zero, and each line lands or is asked for. (DEDUCED, log entry 18) -/
def State.vload (s : State) (m : Mods) (a b : BitVec 5) (d : BitVec 3) (ps : List LanePlace) : Out :=
  let lines := lineList ps
  let first (l : Nat) : Option LanePlace := List.find? (fun x => lineOf x.p.addr == l) ps
  let misses := (lines.filter (fun l => match first l with
    | some x => (s.lineNow x.p).isNone
    | none => false)).length
  s.withResv misses (fun s =>
    let req (x : LanePlace) : Req :=
      { s.request { kind := .vload, size := x.ref.w } x.p x.ref.va with install := x.p.cached, rd := d.toNat }
    s.finish m a b (fun t => lines.foldl (fun (t : State) l => t.vloadLine (reg3 d) ps l req) (t.writeVec (reg3 d) 0#512)))
/-- The last lane of each line holds the line's reservation (R173). -/
def lastOfLine (ps : List LanePlace) (x : LanePlace) : Bool :=
  !ps.any (fun y => lineOf y.p.addr == lineOf x.p.addr && x.ref.lane < y.ref.lane)
/-- A vector store once every lane has its place: the lanes are stored in ascending order. (DEDUCED, log entry 18) -/
def State.vstore (s : State) (m : Mods) (a b : BitVec 5) (d : BitVec 3) (ps : List LanePlace) : Out :=
  let v := s.vec (reg3 d)
  let bytes (x : LanePlace) : List Byte := toBytes x.ref.w (lane (8 * x.ref.w) v x.ref.lane)
  s.withResv (lineList (ps.filter (fun x => !x.p.isLocal))).length (fun s =>
    let req (x : LanePlace) : Req :=
      let r := s.request { kind := .store, size := x.ref.w } x.p x.ref.va
      { r with data := bytes x, resv := r.resv && lastOfLine ps x }
    s.finish m a b (fun t => ps.foldl (fun (t : State) x =>
      if x.p.isLocal then t.homeWrite s.cur.vf x.ref.va none x.p.addr (bytes x)
      else (t.storeLine s.myCore x.p.addr (bytes x)).post (req x)) t))

/-- The addresses of the strided and indexed forms (R173); a null index lane is inactive. -/
def strideAddr (base stride : Word) (i : Nat) : Option Word := some (base + stride * word i)
def indexedAddr (e : Bool) (base : Word) (v : VWord) (i : Nat) : Option Word :=
  let x := lane (laneW e) v i
  if x = 2 ^ laneW e - 1 then none else some (base + word (laneW e / 8 * x))
def contigAddr (e : Bool) (base : Word) (i : Nat) : Option Word := some (base + word (laneW e / 8 * i))

def execVldContig (e k : Bool) (d : BitVec 3) (a : BitVec 5) (m : Mods) (s : State) : Out :=
  let base := s.vbase a m
  s.issue m 0 { src := a :: maskSrc k m, vec := [reg3 d] }
    (s.ordered false (s.contigPlaces .load base (activeLanes e (s.vmask k m) (contigAddr e base))
      (fun t ps => t.vload m a 27#5 d ps)))
def execVldStrided (e k : Bool) (d : BitVec 3) (a b : BitVec 5) (m : Mods) (s : State) : Out :=
  s.issue m 0 { src := a :: b :: maskSrc k m, vec := [reg3 d] }
    (s.ordered false (s.lanePlaces .load (activeLanes e (s.vmask k m) (strideAddr (s.vbase a m) (s.gpr b)))
      (fun t ps => t.vload m a b d ps)))
def execVldIndexed (e k : Bool) (d : BitVec 3) (a : BitVec 5) (b : BitVec 3) (m : Mods) (s : State) : Out :=
  s.issue m 0 { src := a :: maskSrc k m, vec := [reg3 d, reg3 b] }
    (s.ordered false (s.lanePlaces .load (activeLanes e (s.vmask k m) (indexedAddr e (s.vbase a m) (s.vec (reg3 b))))
      (fun t ps => t.vload m a 27#5 d ps)))
def execVstContig (e k : Bool) (d : BitVec 3) (a : BitVec 5) (m : Mods) (s : State) : Out :=
  let base := s.vbase a m
  s.issue m 0 { src := a :: maskSrc k m, vec := [reg3 d] }
    (s.ordered false (s.contigPlaces .store base (activeLanes e (s.vmask k m) (contigAddr e base))
      (fun t ps => t.vstore m a 27#5 d ps)))
def execVstStrided (e k : Bool) (d : BitVec 3) (a b : BitVec 5) (m : Mods) (s : State) : Out :=
  s.issue m 0 { src := a :: b :: maskSrc k m, vec := [reg3 d] }
    (s.ordered false (s.lanePlaces .store (activeLanes e (s.vmask k m) (strideAddr (s.vbase a m) (s.gpr b)))
      (fun t ps => t.vstore m a b d ps)))
def execVstIndexed (e k : Bool) (d : BitVec 3) (a : BitVec 5) (b : BitVec 3) (m : Mods) (s : State) : Out :=
  s.issue m 0 { src := a :: maskSrc k m, vec := [reg3 d, reg3 b] }
    (s.ordered false (s.lanePlaces .store (activeLanes e (s.vmask k m) (indexedAddr e (s.vbase a m) (s.vec (reg3 b))))
      (fun t ps => t.vstore m a 27#5 d ps)))

/-! `hacc` as it issues (R182, R183). -/

/-- It takes `lk` for rd and writes it as the reply lands, and a table in a latest-only page faults ACCESS(6), whatever pages
its entries lie in. (DESIGN CHOICE, log entry 83) -/
def State.hacc (s : State) (u : Bool) (d a : BitVec 5) (b : BitVec 3) (m : Mods) : Out :=
  let ea := s.gpr a
  let f := m.fmtA == 0x14#5
  s.issue m 0 { src := [a], vec := [reg3 b, m.rc], dst := [d] }
    (s.ordered false (s.access .both 64 ea (fun s p =>
      if p.lo then s.fail fACCESS 6 ea 1
      else s.withResv (if p.isLocal then 0 else 1) (fun s =>
        let r := { s.request { kind := .hacc u f, size := 8 } p ea with
          rd := d.toNat, keys := s.vec (reg3 b), vals := s.vecC m, mode := s.mode m, seed := s.cur.srseed,
          num := 2 * s.cur.daz.toNat + s.cur.ftz.toNat }
        s.finish m a 27#5 (fun t =>
          (((t.acquireIssue true).pendGpr d (.load t.nextId)).bumpSeed (f && s.mode m == 5)).post r)))))
def execHaccO (d a : BitVec 5) (b : BitVec 3) (m : Mods) (s : State) : Out := s.hacc false d a b m
def execHaccU (d a : BitVec 5) (b : BitVec 3) (m : Mods) (s : State) : Out := s.hacc true d a b m

end Sys2Proof.Machine
end

