-- ==== Sys2Proof/Machine/Net.lean ====
section
/-! DEFINITION. The events of the memory system between the cores and the homes: the die egress and ingress (R262, R263),
the combiner (R271), in-transit discard (R294), walks (R339 to R342), code fetches (R154), the divide unit's results
(R137) and withdrawals (R303). -/

namespace Sys2Proof.Machine

/-! The egress and ingress. -/

/-- The bytes of a line that a load asks for: offset and length. -/
def Req.wanted (r : Req) : List (Nat × Nat) :=
  match r.kind with
  | .vload => r.lanes.map (fun l => (l.2.1, l.2.2))
  | _ => [(r.addr % 64, r.size)]
/-- May a load go on from its die's egress: its core has asked the home of nothing before it that is yet to be served, but
for stores that the egress holds (R152, R256)? -/
def State.egressTurn (s : State) (id : Nat) (r : Req) : Bool :=
  !s.reqs.any (fun e => e.1 < id && e.2.core == r.core && e.2.engine.isNone && e.2.unserved &&
    homeOf e.2.addr == homeOf r.addr && !e.2.held r.die)
/-- A load at its die's egress (R262), in its turn: it takes the held bytes, and goes on to the home for the others; an
acquire at package scope or wider takes none, no load takes a byte that entered before its thread's boundary, and none
takes a store that its own core issued after it (R256). (DEDUCED, log entry 20) -/
def State.egressLoad (s : State) (id : Nat) : State :=
  match s.reqs.find? id with
  | none => s
  | some r =>
    if r.phase != .egress ∨ (r.kind != .load && r.kind != .vload) = true ∨ s.egressTurn id r = false then s
    else
      let offs := r.wanted.flatMap (fun w => (List.range w.2).map (w.1 + ·))
      let line := lineOf r.addr
      let wide := r.acq && 4 ≤ r.scope
      let got : Tab Byte := offs.foldl (fun (t : Tab Byte) o =>
        match s.heldAt r.die (line + o) (fun w q => q.core != r.core || q.issued w < r.issued id) with
        | some (w, b) => if !wide && r.bound ≤ w then t.put o b else t
        | none => t) []
      if offs.all (fun o => (got.find? o).isSome) then
        s.putReq id { r with phase := .replied, data := List.replicate 64 0#8, laid := got, install := false }
      else s.putReq id { r with phase := .ingress, laid := got }
/-- The ingress of a home die lets a request pass (R263). -/
def State.ingressRelease (s : State) (id : Nat) : State :=
  match s.reqs.find? id with
  | none => s
  | some r => if r.phase == .ingress && s.ingressClear id r then s.putReq id { r with phase := .home } else s

/-! The combiner (R271). -/

/-- The group that a request belongs to closes: its 16 cycles are over. -/
def State.groupCloses (s : State) (id : Nat) : State :=
  match s.reqs.find? id with
  | none => s
  | some r =>
    match List.find? (fun g => g.reqs.contains id) (s.clusterAt (clusterOfCore r.core)).groups with
    | some g => if r.phase == .egress then s.closeGroup g else s
    | none => s
/-- A predictor entry unused for 1,024 cycles is dropped. -/
def State.predictorDrop (s : State) (cl line : Nat) : State :=
  let now := ((List.range 8).map (fun i => (s.coreAt (8 * cl + i)).cycle)).foldl max 0
  s.modCluster cl (fun c => { c with predictor := c.predictor.filter (fun e => e.1 != line || now < e.2 + 1024) })

/-! In-transit discard (R294). -/

/-- A latest-only store that shares a buffer with a newer one to its cell is discarded: its core gets a superseded
acknowledgement, and the newer one carries its place in the clocks and stands for it in what its thread has seen (R266,
R295). A marker never is. (DEDUCED, log entry 20) -/
def State.inTransit (s : State) (id : Nat) : State :=
  match s.reqs.find? id with
  | none => s
  | some r =>
    let heir := (s.reqs.filter (fun e => e.1 != id && e.2.kind.isStlo && e.2.unserved && e.2.addr == r.addr &&
      seqClass r.num e.2.num == 3)).head?
    if r.kind == .stlo false && r.unserved && heir.isSome then
      let us := r.thread.toList ++ ((s.coreAt r.core).loq.filter (fun x => x.sent == some id)).flatMap LoStore.also
      let places := if r.crosses then (r.die, r.place) :: r.absorbed else r.absorbed
      let s := match heir with
        | some (j, q) =>
          us.foldl (fun (s : State) u => if q.thread == some u then s else s.sees u [j])
            (s.putReq j { q with absorbed := places ++ q.absorbed, clock := joinClocks q.clock r.clock })
        | none => s
      s.putReq id { r with phase := .replied, outcome := 1 }
    else s

/-! Walks. -/

/-- May a walk be under way (R342): it is among its cluster's first 64 misses, and of those of its die's clusters among
the first 64, in the order in which they arose? -/
def State.walkerFree (s : State) (id : Nat) (w : Walk) : Bool :=
  let before (e : Nat × Walk) (f : Nat × Walk) : Bool := f.1 < e.1 && f.2.result.isNone
  let held (e : Nat × Walk) : Bool := (s.walks.filter (fun f => before e f && f.2.cluster == e.2.cluster)).length < 64
  held (id, w) && (s.walks.filter (fun f => before (id, w) f && f.2.die == w.die && held f)).length < 64
/-- A walker walks the table for a missed page (R339, R342). (DESIGN CHOICE, log entry 23) -/
def State.walkRun (s : State) (id : Nat) : State :=
  match s.walks.find? id with
  | none => s
  | some w =>
    if w.result.isSome || !s.walkerFree id w then s
    else
      match s.walk w.vf (w.page * 4096) (w.joined.any (fun j => j.2.1 == .store))
          (w.joined.any (fun j => j.2.1 == .both)) with
      | (s, f) => { s with walks := s.walks.put id { w with result := some f } }
/-- The slot of an access that has held its entry through the walk keeps it: it stands first for one (R157, R342). -/
def State.keepEntry (s : State) (id u : Nat) (acc : Acc) : State :=
  match (s.threadAt u).slot? with
  | some q =>
    if (s.threadAt u).wait == .walk id && acc != .fetch then
      s.modCore (coreOfSlot q) (fun c => { c with resvWait := q :: dropSlot q c.resvWait })
    else s
  | none => s
/-- A translation enters the micro-TLBs of cores, and once the TLB of each of their clusters (R341). -/
def State.install (s : State) (x : Trans) (cores : List Nat) : State :=
  let s := cores.foldl (fun (s : State) c => s.modCore c (fun c => { c with utlb := c.utlb.fillMicro x })) s
  ((cores.map clusterOfCore).eraseDups).foldl
    (fun (s : State) c => s.modCluster c (fun c => { c with tlb := c.tlb.fillCluster x })) s
/-- The cores whose threads joined a walk and are still there, and whose accesses its result allows. -/
def State.walkCores (s : State) (w : Walk) (f : Found) : List Nat :=
  (w.joined.filterMap (fun j => if (f.forAcc j.2.1).toOption.isSome then ((s.threadAt j.1).slot?).map coreOfSlot else none)).eraseDups
/-- A walk's result reaches one joined access (R340, R342): it keeps its entry, or it faults, once every earlier
instruction of its thread has completed (R10). -/
def State.walkReaches (s : State) (id : Nat) (f : Found) (j : Nat × Acc × Word) : State :=
  let t := s.threadAt j.1
  match f.forAcc j.2.1 with
  | .ok _ => s.keepEntry id j.1 j.2.1
  | .error e =>
    if t.wait != .walk id || t.ended.isSome then s
    else if !s.settled j.1 then s.modThread j.1 (fun t => { t with wait := .settle })
    else
      match s.reissues j.1 with
      | some (q, r) => s.faultReq j.1 q r e.1 e.2.1 e.2.2
      | none => s.raiseFor j.1 e.1 e.2.1 j.2.2 (if j.2.1 == .fetch then 2 else j.2.1.type) e.2.2
/-- A walk ends: the translation enters the TLBs unless a `tlbinv` matched it (R345), and every joined access receives its
translation or fault. -/
def State.walkLands (s : State) (id : Nat) : State :=
  match s.walks.find? id with
  | none => s
  | some w =>
    match w.result with
    | none => s
    | some f =>
      let s := { s with walks := s.walks.del id }
      let s := match f with
        | .leaf x none => if w.drop then s else s.install x (s.walkCores w f)
        | _ => s
      w.joined.foldl (fun (s : State) j => s.walkReaches id f j) s

/-! Code fetches and divide-unit results. -/

/-- A refill of the instruction cache lands (R154): the threads that wait for it go on, or fault with
the address of the word that each waits for (R19). It brings what the core has stored to the line, and what is held in the
die's egress, once the home has applied it (R118). (DEDUCED, log entry 24) -/
def State.fetchLands (s : State) (id : Nat) : State :=
  match s.fetches.find? id with
  | none => s
  | some x =>
    if !s.gathered x.core x.addr 64 then s else
    let s := { s with fetches := s.fetches.del id }
    let bad : Option (Nat × Nat) :=
      if !s.keyReady x.key then some (fACCESS, 13) else if s.poisoned x.addr 64 then some (fMACHINE, 1) else none
    let waits (t : Thread) : Option Word := match t.wait with
      | .fetch i va => if i = id && t.ended.isNone then some va else none
      | _ => none
    match bad with
    | none =>
      let line := BitVec.ofNat 512 (ofBytes ((s.readLine x.key x.addr).getD []))
      s.modCore x.core (fun c => { c with icache := c.icache.fill iWays x.addr line })
    | some (c, k) =>
      s.threads.foldl (fun (s : State) e =>
        match waits e.2 with
        | some va => if s.settled e.1 then s.raiseFor e.1 c k va 2 0
            else s.modThread e.1 (fun t => { t with wait := .settle })
        | none => s) s
/-- The divide unit's result lands at its thread (R137, R139, R168); a killed
one discards it (R138), and one that has ended otherwise still passes a shared on (R60). (DEDUCED, log entry 17) -/
def State.divideLands (s : State) (core : Nat) : State :=
  match (s.coreAt core).div with
  | none => s
  | some d =>
    let s := s.modCore core (fun c => { c with div := none })
    if (s.threadAt d.thread).ended == some .killed then s
    else
      let s := s.orFlags d.thread d.flags
      if d.vec then
        if (s.slotAt d.slot).occ != some d.thread then s
        else s.modSlot d.slot (fun x => { x with vecs := x.vecs.set 0#512 d.rd d.val, vpend := x.vpend.del d.rd })
      else s.landGpr d.thread d.rd (d.val.setWidth 64)

/-! Withdrawals (R303). -/

/-- A request that would close a wait cycle is withdrawn at its home, unless it has been answered. -/
def State.withdrawHome (s : State) (id : Nat) : State :=
  match s.reqs.find? id with
  | none => s
  | some r =>
    match r.thread with
    | none => s
    | some u =>
      match (s.threadAt u).wait with
      | .withdraw q _ => if q = id ∧ r.phase = .armed then s.putReq id { r with phase := .withdrawn } else s
      | _ => s
/-- The acknowledgement lands: the waiter faults WAITCYCLE, once every earlier instruction of its thread has completed
(R10). An `lkacq` faults at its own address; an `ldfe`'s waiter at
the instruction that waits for it. -/
def State.withdrawLands (s : State) (id : Nat) : State :=
  match s.reqs.find? id with
  | none => s
  | some r =>
    if r.phase != .withdrawn then s
    else
      match r.thread with
      | none => s.delReq id
      | some u =>
        match (s.threadAt u).wait with
        | .withdraw _ c =>
          if !s.earlierDone u (if r.kind == .lkacq then r.issued id else s.nextId) id then s else
          let s := s.delReq id
          let pc := if r.kind == .lkacq then r.pc else (s.threadAt u).pc
          (s.modThread u (fun t => { t with pc := pc })).raiseFor u fWAITCYCLE c r.va 3 0
        | _ => s.delReq id

end Sys2Proof.Machine
end

