-- ==== Sys2Proof/Machine/Spill.lean ====
section
/-! DEFINITION. The slot spill path of pre-emption (R357 to R360). -/

namespace Sys2Proof.Machine

/-- The record of a help, or a spill, that a fault of the slot area cancelled (kind 0x08, R171, R347). -/
def State.areaRecord (s : State) (u q : Nat) (e : Nat × Nat × Nat) (va : Nat) : State :=
  s.addRecord
    { queue := 0, src := (s.threadAt u).vf, kind := 8, die := dieOfCore (coreOfSlot q), holder := .none, awaits := false
      stage := .unclaimed, page := 0, level := 0
      body := [(s.threadAt u).identity, faultWord e.1 e.2.1 1 e.2.2, word va, 0#64, locationWord q, 0#64] }
/-- SLOTID of a slot's occupant (R95). -/
def State.slotIdWord (s : State) (x : Slot) (q : Nat) : Word :=
  let t := match x.occ with
    | some u => s.threadAt u
    | none => Thread.blank
  word (t.pinned.toNat * 2 ^ 9 + t.serial.toNat * 2 ^ 8 + x.qowner % 16 * 16 + slotOfSlot q)
/-- The slot image (R359): record and header, v0 to v7, the read table, SLOTID and the frame key, in 2 KiB. -/
def State.slotImage (s : State) (x : Slot) (q u : Nat) : List Byte :=
  let vs := (List.range 8).flatMap (fun v => toBytes 64 (x.vecs.get 0#512 v).toNat)
  let tab := (x.readTab.take 16).flatMap (fun e => [word e.cell, word e.num])
  wordBytes (s.recordOf u (!x.chain.isEmpty)) ++ vs ++
    wordBytes (tab ++ List.replicate (32 - tab.length) 0#64 ++ [s.slotIdWord x q, x.frameKey]) ++ List.replicate 1008 0#8
/-- Is a claim of the slot's occupant, as a helper or as a claimed member, on its way (R76, R305)? -/
def State.claimOut (s : State) (q : Nat) : Bool :=
  match (s.slotAt q).occ with
  | some u => (match (s.threadAt u).wait with
    | .claim _ => true
    | .lease => true
    | _ => false)
  | none => false
/-- Is everything of a slot's threads landed, so that it may be saved (R86, R265)? A claim lands in the slot first (R76). -/
def State.slotQuiet (s : State) (q : Nat) : Bool :=
  let x := s.slotAt q
  x.vpend.isEmpty && x.reserved.isNone && !s.framesOut q && !s.claimOut q && (x.occ.toList ++ x.chain).all (fun u => s.moveWait u == .none)
/-- May a slot's thread be saved as a record of its family's parking list (R357)? -/
def State.recordable (s : State) (q u : Nat) : Bool :=
  let t := s.threadAt u
  t.depth == 0 && (s.slotAt q).chain.isEmpty && !t.pinned && !t.serial
/-- The threads of a slot go with its image: the slot's contents, as they return. (DEDUCED, log entry 57) -/
def State.liftSlot (s : State) (q : Nat) : State × Slot :=
  let x := s.slotAt q
  let s := (x.occ.toList ++ x.chain).foldl (fun (s : State) u => s.modThread u (fun t => { t with loc := .spilled q })) s
  (s.dropWaits q |>.freeSlot q, { x with frames := [], flushing := 0, ibuf := none, removed := false, reserved := none })
/-- The read table of a slot image (R297, R359); a cell of 0 stands for no entry. -/
def readTabOf (ws : List Word) : List ReadEntry :=
  ((List.range 16).map (fun i => (⟨(ws.getD (2 * i) 0#64).toNat, fieldOf (ws.getD (2 * i + 1) 0#64) 0 32⟩ : ReadEntry))).filter
    (fun e => e.cell != 0)
/-- A slot as a slot image gives it: vectors, read table and frame key (R359); what the image does not hold stays. -/
def Slot.reload (x : Slot) (bs : List Byte) : Slot :=
  { x with vecs := vectorsOf (bs.drop 256), readTab := readTabOf (dwords ((bs.drop 768).take 256))
           frameKey := word (ofBytes ((bs.drop 1032).take 8)) }
/-- A slot's slot image, read back (R359). -/
def State.imageRead (s : State) (q vf : Nat) : Except (Nat × Nat × Nat) (List Byte) := s.areaRead q vf (s.imagePlace vf q) 2048
/-- A slot's contents return to it, as its image gives them (R359), or, where the image could not be read, without the
thread's state, which is lost (R346); `none` for what a context image has given already. The threads are back, and the core
wakes and empties its data cache for what landed while they were away (R153), and the handles that the occupant's locals wait
on are looked at (R86). -/
def State.lowerSlot (s : State) (q : Nat) (x : Slot) (image : Option (Except Nat (List Byte))) : State :=
  let y := match image with
    | some (.ok bs) => x.reload bs
    | _ => x
  let s := (s.wake (coreOfSlot q)).putSlot q { y with nextAt := (s.slotAt q).nextAt }
  let s := x.chain.foldl (fun (s : State) u => s.modThread u (fun t => { t with loc := .chain q })) s
  let s := if (x.occ.toList ++ x.chain).any (fun u => (s.threadAt u).emptyCache) then s.emptyCache (coreOfSlot q) else s
  let s := x.chain.foldl (fun (s : State) u => s.modThread u (fun t => { t with emptyCache := false })) s
  match x.occ with
  | some u => (s.modThread u (fun t =>
    let t := match image with
      | some (.ok bs) => t.reload bs
      | some (.error va) => { t with lost := some va }
      | none => t
    { t with loc := .slot q, emptyCache := false })).checkHandles u
  | none => s
/-- A slot is free for other queues: it left the rotation, and the spill engine has taken it (R357). -/
def State.lendSlot (s : State) (q : Nat) : State :=
  (s.modSlot q (fun x => { x with removed := false })).modCore (coreOfSlot q) (fun c => { c with lent := q :: c.lent })
/-- A slot is no longer to be spilled. -/
def State.spilledNow (s : State) (q : Nat) : State :=
  s.modCore (coreOfSlot q) (fun c => { c with spillDue := dropSlot q c.spillDue })
/-- The slot spill path: resident frames, then the slot image, go to the slot area; a fault abandons it, with a record of
kind 0x08 (R359, R360). -/
def State.spillImage (s : State) (q u : Nat) : State :=
  let vf := (s.threadAt u).vf
  match s.spillAll q 8 with
  | .error e => (s.spilledNow q).areaRecord u q (e.1, e.2.1, e.2.2.1) e.2.2.2
  | .ok t =>
    match t.areaWrite q vf (t.imagePlace vf q) (t.slotImage (t.slotAt q) q u) with
    | .error e => (t.spilledNow q).areaRecord u q e (t.imagePlace vf q)
    | .ok t =>
      let x := t.liftSlot q
      (x.1.modFunc vf (fun f => { f with spills := f.spills.put q x.2 })).spilledNow q
/-- The spill engine spills a slot (R357): once all of it has landed, as a held record or by the slot spill path. -/
def State.spillSlot (s : State) (q : Nat) : State :=
  match (s.slotAt q).occ with
  | none => if (s.slotAt q).reserved.isSome then s else (s.spilledNow q).lendSlot q
  | some u =>
    if !(s.slotAt q).removed then s.spilledNow q
    else if !s.slotQuiet q then s
    else if s.recordable q u && (s.threadAt u).killed then ((s.endThread u .killed).spilledNow q).lendSlot q
    else if s.recordable q u then ((s.park u true).spilledNow q).lendSlot q
    else
      let t := s.spillImage q u
      if (t.slotAt q).occ.isNone then t.lendSlot q else t

end Sys2Proof.Machine
end

