-- ==== Sys2Proof/Machine/Turn.lean ====
section
/-! DEFINITION. A core's issue turn up to the instruction's execution (R19, R92, R93, R117, R154): the threads that a
turn parks (R301, R346) or ends (R61), the choice of a slot, the fetch of its next instruction, and the idle turn. -/

namespace Sys2Proof.Machine

/-! Parking. -/

/-- Is slot `q`'s occupant to be parked: it awaits a record's answer, or it is a task that must wait and cannot help,
it is not pinned, and nothing of it is outstanding (R86, R301, R346)? (DEDUCED, log entry 47) -/
def State.parkable (s : State) (q u : Nat) : Bool :=
  let t := s.threadAt u
  let waits := match t.wait with
    | .answer _ => true
    | w => !(s.slotAt q).chain.isEmpty && s.blocking u w && !s.waitOver u w
  waits && !t.pinned && !t.killed && s.moveWait u == .none && !(s.slotAt q).removed
/-- A core parks what it may. (DEDUCED, log entry 47) -/
def State.parkAll (s : State) (core : Nat) : State :=
  (List.range 16).foldl (fun (s : State) i =>
    match (s.slotAt (16 * core + i)).occ with
    | some u => if s.parkable (16 * core + i) u then s.park u false else s
    | none => s) s

/-! The choice of a slot. -/

/-- Is a slot ready (R92)? One that a kill has reached takes its turn to end (R61). -/
def State.slotReady (s : State) (q : Nat) : Bool :=
  let x := s.slotAt q
  match x.occ with
  | none => false
  | some u =>
    !x.removed && !(s.clusterAt (clusterOfCore (coreOfSlot q))).removed && x.nextAt ≤ (s.coreAt (coreOfSlot q)).cycle &&
    ((s.threadAt u).killed || s.waitOver u (s.threadAt u).wait)
/-- The slot that issues in this cycle (R93): at level 2 the cycle's own, else the first ready one after the last. -/
def State.nextSlot (s : State) (core : Nat) : Option Nat :=
  let c := s.coreAt core
  if c.stopped || c.gated then none
  else if s.bound2 (clusterOfCore core) then
    let q := 16 * core + c.cycle % 16
    if s.slotReady q then some q else none
  else ((List.range 16).map (fun i => 16 * core + (c.last + 1 + i) % 16)).find? s.slotReady

/-! The fetch (R19, R117, R154). -/

/-- What a fetch comes to: the words with the state, or the state in which the slot waits or has faulted. -/
inductive Fetched where
  | words (s : State) (ws : List (BitVec 32))
  | stop (s : State)

/-- Is the word at an address outside the image of a launch at level 1 or 2 (R316)? Words that the slot's buffer holds are
fetched all the same (R19). -/
def State.imageFault (s : State) (va : Word) : Bool :=
  let f := s.famAt s.cur.fam
  1 ≤ f.level && (va.toNat < f.image.1 || f.image.1 + f.image.2 < va.toNat + 4)
/-- Steps 1 to 3 of a fetch's check: code lies in translated space, and at level 1 or 2 in the launch's image (R19, R154,
R316). -/
def State.fetchFault (s : State) (va : Word) : Option (Nat × Nat) :=
  if 2 ^ 57 ≤ va.toNat then some (fACCESS, 1)
  else if isVault va.toNat || localBase ≤ va.toNat then some (fACCESS, 3)
  else
    match s.region s.cur.vf va.toNat with
    | .error e => some e
    | .ok _ =>
      if s.imageFault va then some (fDETERM, 2) else none
/-- A fault of the fetch of a word: precise, with the instruction's address and the word's (R19). (DEDUCED, log entry 42) -/
def State.fetchRaise (s : State) (code cause : Nat) (va : Word) : Fetched := .stop (s.raise code cause va 2)
/-- The slot's buffer is refilled with the aligned 32 bytes that hold a word, from the instruction cache; a miss takes a
fetch entry, or waits for one to be free. (DEDUCED, log entry 24) -/
def State.refill (s : State) (va : Word) : Fetched :=
  match s.fetchFault va with
  | some (c, k) => s.fetchRaise c k va
  | none =>
    match s.lookup s.myCore s.cur.vf va.toNat .fetch with
    | (s, none) =>
      let w := s.joinWalk s.uid s.myCore s.cur.vf va.toNat .fetch
      .stop (w.1.suspend (.walk w.2))
    | (s, some t) =>
      let p := s.placeOf s.cur.vf va.toNat t
      if (s.famAt s.cur.fam).level == 2 && (inTier2 p.addr || isHost p.addr) then s.fetchRaise fDETERM 3 va
      else
        match (s.coreAt s.myCore).icache.hit? iWays (lineOf p.addr) with
        | some (l, c) =>
          let half := if p.addr % 64 < 32 then 0 else 256
          let ws := (List.range 8).map (fun i => l.extractLsb' (half + 32 * i) 32)
          .words ((s.modCore s.myCore (fun x => { x with icache := c })).modSlot s.me (fun x => { x with
            ibuf := some (va.toNat - va.toNat % 32, ws) })) ws
        | none =>
          let mine := s.fetches.filter (fun e => e.2.core == s.myCore)
          match List.find? (fun e => e.2.addr == lineOf p.addr) mine with
          | some (id, _) => .stop (s.suspend (.fetch id va))
          | none =>
            if mine.length < 2 then
              .stop ({ s with
                fetches := s.fetches.put s.nextId ⟨s.myCore, lineOf p.addr, s.cur.vf, p.key⟩
                nextId := s.nextId + 1 }.suspend (.fetch s.nextId va))
            else .stop (s.suspend .fetchEntry)
/-- The word at an address, from the slot's buffer. -/
def Slot.held? (x : Slot) (va : Nat) : Option (BitVec 32) :=
  match x.ibuf with
  | some (base, ws) => if base ≤ va ∧ va < base + 32 then ws[(va - base) / 4]? else none
  | none => none
/-- `n` words from an address upward. (DEDUCED, log entry 42) -/
def State.fetchFrom (s : State) (va : Word) : Nat → Fetched
  | 0 => .words s []
  | n + 1 =>
    let next (s : State) : Fetched :=
      match s.mySlot.held? va.toNat with
      | none => .stop s
      | some w =>
        match s.fetchFrom (va + 4#64) n with
        | .words s ws => .words s (w :: ws)
        | .stop s => .stop s
    match s.mySlot.held? va.toNat with
    | some _ => if s.imageFault va then s.fetchRaise fDETERM 2 va else next s
    | none =>
      match s.refill va with
      | .stop s => .stop s
      | .words s _ => next s
/-- How many words an instruction has, from its first (R17). -/
def wordCount (w : BitVec 32) : Nat :=
  match w.toNat % 4 with
  | 0 => 1
  | 3 => 5
  | _ => 3
/-- Every word of the executing thread's next instruction (R19). -/
def State.fetch (s : State) : Fetched :=
  match s.fetchFrom s.cur.pc 1 with
  | .stop s => .stop s
  | .words s [] => .stop s
  | .words s (w :: _) => s.fetchFrom s.cur.pc (wordCount w)

/-! The turn. -/

/-- An idle turn (R93, R115, R357): nothing issues, and the core may spill a slot or a frame. -/
def State.idleTurn (s : State) (core : Nat) : State :=
  let s := s.modCore core (fun c => { c with cycle := c.cycle + 1 })
  match (s.coreAt core).spillDue with
  | q :: _ => s.spillSlot q
  | [] => s.idleSpill core
/-- A turn begins: the core's clock advances, the slot is the one that issued last, and its next turn is at least 8
cycles away (R92, R93). -/
def State.beginTurn (s : State) (q : Nat) : State :=
  let core := coreOfSlot q
  let now := (s.coreAt core).cycle
  let s := (s.modCore core (fun c => { c with cycle := now + 1, last := slotOfSlot q })).modSlot q (fun x =>
    { x with nextAt := now + 8 })
  { s with me := q }.modThread ((s.slotAt q).occ.getD 0) (fun t => { t with wait := .none })
/-- IDLE_TURN as an event: a cycle of a core in which no slot is ready. -/
def State.idleIf (s : State) (core : Nat) : State := if (s.nextSlot core).isNone then s.idleTurn core else s

/-- The executing slot waits for an entry, in the order of R157. -/
def State.waitEntry (s : State) : State :=
  (s.modCore s.myCore (fun c => { c with resvWait := joinSlots s.me c.resvWait })).suspend (.resv 1)
/-- The executing thread issues again the request that a fault's record held (R346, R350): with a new check and translation,
and an entry of its own (R156, R157), or a new fault. -/
def State.reissue (s : State) (id : Nat) (r : Req) : State :=
  let fault (s : State) (c k : Nat) : State := s.faultReq s.uid id r c k 0
  let taken (s : State) : State := s.modCore s.myCore (fun c => { c with resvWait := dropSlot s.me c.resvWait })
  match s.reach s.uid s.myCore r.vf r.kind.acc 1 r.va with
  | .fault c k => fault s c k
  | .miss t w => if s.resvFree s.me 1 then (taken t).suspend (.walk w) else s.waitEntry
  | .ok t p =>
    if (s.famAt s.cur.fam).level == 2 && (inTier2 p.addr || isHost p.addr) then fault t fDETERM 3
    else if p.lo != r.lo then fault t fACCESS (if r.lo then 7 else 6)
    else if !s.resvFree s.me 1 then s.waitEntry
    else
      let t := (taken t).issueAgain id r p
      t.modCur (fun x => { x with wait := t.rewait t.uid })
/-- A core's turn up to the execution of its next instruction (R92, R93): an idle turn, the end of a killed thread (R61)
or of one whose record could not be read back (R346), a request that is issued again (R350), a fetch that waits or faults,
or the words with the state in which they execute. -/
def State.turnStart (s : State) (core : Nat) : Fetched :=
  if Config.coreCount ≤ core then .stop s
  else
    let s := s.parkAll core
    match s.nextSlot core with
    | none => .stop (s.idleTurn core)
    | some q =>
      let s := s.beginTurn q
      if s.cur.killed then .stop (s.endThread s.uid .killed)
      else
        match s.cur.lost with
        | some va => .stop (s.raise fMACHINE 3 (word va) 3)
        | none =>
          match s.reissues s.uid with
          | some (id, r) => .stop (s.reissue id r)
          | none => s.fetch
/-- Words that are no instruction: ILLEGAL, with its cause (R56). -/
def State.illegal (s : State) (e : DecodeError) : State :=
  match e with
  | .illegal c => s.raise fILLEGAL c.toNat 0#64 3
  | .truncated => s

end Sys2Proof.Machine
end

