-- ==== Sys2Proof/Machine/Claim.lean ====
section
/-! DEFINITION. Claims (R73 to R76, R89, R91, R300, R301) and the family events: dependents, ends, breaks, kills and
arrivals, each as its message reaches its place. -/

namespace Sys2Proof.Machine

/-! A core claims (R74), or starts what waits in its own queues (R91, R108). -/

/-- How many members of a family a core holds that count toward the block limit (R72): running, suspended or parked
there, in a slot image, or on their way to one of its free slots; what helpers run or have claimed does not count. -/
def State.heldMembers (s : State) (fk c : Nat) : Nat :=
  (s.threads.filter (fun e => e.2.fam == fk && e.2.fh == s.handleOf fk && e.2.ended.isNone && e.2.core == c &&
    (match e.2.slot? with
     | some q => ((s.slotAt q).chain.getLast?.or (s.slotAt q).occ) == some e.1
     | none => match e.2.loc with
       | .spilled q => let x := s.awaySlot e.1 q
         (x.chain.getLast?.or x.occ) == some e.1
       | .claimed _ => ((s.famAt fk).claims.find? e.1).bind Claim.helper == none
       | _ => true))).length +
  (s.msgs.filter (fun e => match e.2 with
    | .claim g c' _ none _ => g == fk && c' == c
    | _ => false)).length
/-- May a core claim for a deque entry: unclaimed members, its place, the block limit and a free slot? The slot. -/
def State.claimable (s : State) (c : Nat) (d : DqEntry) : Option Nat :=
  let f := s.famAt d.fam
  if s.handleOf d.fam == d.h && f.nextK.isSome && s.inFamily d.fam c && s.heldMembers d.fam c < f.block then
    (s.freeSlots c f.vf f.queue).head?
  else none
/-- The oldest entry of a deque for which a core may claim, with the slot. -/
def State.oldestClaim (s : State) (c from' : Nat) : Option (DqEntry × Nat) :=
  (s.coreAt from').deque.foldl (fun best d =>
    match s.claimable c d with
    | none => best
    | some q => match best with
      | some (b, _) => if d.age < b.age then some (d, q) else best
      | none => some (d, q)) none
/-- A claim for a free slot leaves for the family's home. -/
def State.sendClaim (s : State) (c fk q : Nat) (want : Option Nat) : State :=
  (s.modSlot q (fun x => { x with reserved := some s.nextId })).send (.claim fk c q none want)
/-- A ready parked member that a core with a free slot may resume: of the families whose place includes it, the first
(R300, R301, R346). A serial thread resumes in slot 15 of the core where it parked, which it holds (R91), whichever queue
owns the slot. (DEDUCED, log entry 35) -/
def State.parkedClaim (s : State) (c : Nat) : Option (Nat × Nat × Nat) :=
  (s.threads.filterMap (fun e =>
    if s.parkedReady e.1 && s.inFamily e.2.fam c then
      match (if !e.2.serial then s.freeSlots c e.2.vf e.2.queue
          else if e.2.core == c && (s.slotAt (16 * c + 15)).occ.isNone && (s.slotAt (16 * c + 15)).reserved.isNone then [16 * c + 15]
          else []) with
      | q :: _ => some (e.2.fam, e.2.k, q)
      | [] => none
    else none)).head?
/-- May the serial queue's head enter slot 15 (R91): it is free, no serial thread holds it, and the core is one of the
head's place (R70)? The slot's queue owner is not asked for. (DESIGN CHOICE, log entry 77) -/
def State.serialNext (s : State) (c : Nat) : Option Nat :=
  let q := 16 * c + 15
  match (s.coreAt c).serialq with
  | u :: _ =>
    if (s.slotAt q).occ.isNone && (s.slotAt q).reserved.isNone && s.recordReady u && s.inFamily (s.threadAt u).fam c &&
      !s.threads.any (fun e => e.2.serial && (match e.2.loc with
        | .parked x _ => x == c
        | .claimed x => x == c
        | .spilled y => y == q
        | _ => false)) then some u else none
  | [] => none
/-- What a core's start logic does next (R74, R91, R108): the serial queue's head, a ready record of its run queue, a
claim for its oldest deque entry, or a parked member; a new member comes before a parked one. A record at a core outside
its family's place stays in the queue (R70). (DESIGN CHOICE, log entry 46) -/
def State.coreClaim (s : State) (c : Nat) : State :=
  if (s.coreAt c).stopped || (s.coreAt c).gated then s
  else
    match s.serialNext c with
    | some u => (s.modCore c (fun x => { x with serialq := x.serialq.filter (· != u) })).enterSlot u (16 * c + 15)
    | none =>
      match (s.coreAt c).runq.filterMap (fun u =>
          if s.recordReady u && s.inFamily (s.threadAt u).fam c then
            ((s.freeSlots c (s.threadAt u).vf (s.threadAt u).queue).head?).map (fun q => (u, q))
          else none) with
      | (u, q) :: _ => s.startRecord c u q
      | [] =>
        match s.oldestClaim c c with
        | some (d, q) => s.sendClaim c d.fam q none
        | none =>
          match s.parkedClaim c with
          | some (fk, k, q) => s.sendClaim c fk q (some k)
          | none => s
/-- The cores that an idle core scans (R74): its cluster, quadrant, die and package, each in deal order from itself. -/
def scanOrder (c : Nat) : List Nat :=
  let level (n : Nat) : List Nat := (List.range n).map (fun i => c / n * n + (c + 1 + i) % n)
  (level 8 ++ level 128 ++ level 512 ++
    (List.range Config.coreCount).map (fun i => (c + 1 + i) % Config.coreCount)).filter (· != c)
/-- An idle core steals (R74). -/
def State.steal (s : State) (c : Nat) : State :=
  if (s.coreAt c).stopped || (s.coreAt c).gated || (s.oldestClaim c c).isSome then s
  else
    match (scanOrder c).findSome? (fun x => if (s.coreAt x).deque.isEmpty then none else s.oldestClaim c x) with
    | some (d, q) => s.sendClaim c d.fam q none
    | none => s

/-! A claim at the family's home (R73, R75, R76, R300). -/

/-- What a claim takes: a new member k, or a parked thread. -/
inductive Task where
  | fresh (k : Nat)
  | parked (u : Nat)
  deriving DecidableEq, Repr

/-- The parked member `k` that is ready, or the lowest one, of those that a helper, or a core, may take. -/
def State.parkedTask (s : State) (fk : Nat) (helps : Bool) (k : Option Nat) : Option Task :=
  (((s.famAt fk).parked.find? (fun u => (if helps then s.adoptable u else s.parkedReady u) &&
    (match k with
     | some k => (s.threadAt u).k == k
     | none => true)))).map Task.parked
/-- The task that a claim finds (R300): of a helper for a tag, of a helper for a family, or of a core. -/
def State.taskFor (s : State) (fk : Nat) (helper want : Option Nat) : Option Task :=
  let f := s.famAt fk
  match helper, want with
  | none, some k => s.parkedTask fk false (some k)
  | none, none => f.nextK.map Task.fresh
  | some _, none => match f.nextK with
    | some k => some (.fresh k)
    | none => s.parkedTask fk true none
  | some _, some k =>
    if f.progress ≤ k || f.returned.contains k then
      match f.nextK with
      | some j => some (.fresh j)
      | none => s.parkedTask fk true (some k)
    else s.parkedTask fk true (some k)
/-- Once a family's progress reaches its count its entry leaves every deque (R74). -/
def State.trimDeques (s : State) (fk : Nat) : State :=
  let f := s.famAt fk
  if f.progress < f.count || !f.returned.isEmpty then s
  else { s with cores := s.cores.map (fun e => (e.1, { e.2 with deque := e.2.deque.filter (fun d => d.fam != fk) })) }
/-- CLAIM_AT_HOME: the claim takes a task, whose record leaves for the claimer with what the home knows (R75, R76, R263); a
parked one that moves to another core meets an empty data cache there (R265). (DEDUCED, log entry 35) -/
def State.claimHome (s : State) (id : Nat) : State :=
  match s.msgs.find? id with
  | some (.claim fk core slot helper want) =>
    let s := { s with carried := s.carried.put id (s.famAt fk).clock }
    match s.taskFor fk helper want with
    | none => s.dropClaim id slot helper
    | some (.fresh k) =>
      let u := s.nextId
      let s := s.modFam fk (fun f => { f with
        progress := if f.returned.contains k then f.progress else k + 1
        returned := f.returned.filter (· != k)
        claims := f.claims.put u ⟨id, core, slot, helper, none, (Config.leaseExpiry id).toNat⟩ })
      ((s.makeMember fk k (.claimed core)).trimDeques fk).putMsg id (.landing u core slot helper)
    | some (.parked u) =>
      let old := s.threadAt u
      let s := s.modFam fk (fun f => { f with
        parked := f.parked.filter (· != u), claims := f.claims.put u ⟨id, core, slot, helper, some old, (Config.leaseExpiry id).toNat⟩ })
      (s.modThread u (fun t => { t with loc := .claimed core, emptyCache := t.emptyCache || t.core != core })).putMsg id (.landing u core slot helper)
  | _ => s

/-! A claim lands (R76, R89, R171, R301). -/

/-- A claim is taken back: its k, or its parked record, returns to the family (R76), and the record with what has landed in
it since, for a fill or a kill that reached the copy is not lost (R61, R86). A copy that had landed leaves its
slot and never counts. A k whose family's entries have left the deques comes with new ones, at the tail of every deque of
the place. (DESIGN CHOICE, log entry 77) -/
def State.returnClaim (s : State) (u : Nat) (c : Claim) : State :=
  let t := s.threadAt u
  let fk := t.fam
  let s := s.modFam fk (fun f => { f with claims := f.claims.del u })
  if t.ended.isSome then s
  else
    let s := s.leaveSlot u
    match c.record with
    | some r =>
      let s := (s.modThread u (fun t => { t with loc := r.loc, wait := r.wait, emptyCache := true })).modFam fk (fun f =>
        { f with parked := insertByK s u (f.parked.filter (· != u)) })
      if t.killed then s.endThread u .killed else s
    | none =>
      let work := (List.range 4).foldl (fun (w : Tab FReg) i =>
        if t.reg (22 + i) == ⟨0#64, .pending .pred⟩ then w else w.put (4 * t.k + i) (t.reg (22 + i))) (s.famAt fk).work
      let s := s.modThread u (fun t => { t with ended := some .killed, loc := .ended, wait := .none })
      let s := s.modFam fk (fun f => { f with returned := f.returned ++ [t.k], work := work })
      let f := s.famAt fk
      (s.dealOrder f.vf f.place f.origin).foldl (fun (s : State) c =>
        if (s.coreAt c).deque.any (fun d => d.fam == fk) then s
        else s.modCore c (fun x => { x with deque := x.deque ++ [⟨s.handleOf fk, fk, s.nextId⟩] })) s
/-- A helper's record goes to its slot's area, and the vectors of a pinned one (R111, R171, R301): the state, or the fault
with its address. Bit 0 of the pc word, chained, is 1 at every level (DESIGN CHOICE, log entry 83). -/
def State.saveHelper (s : State) (h q : Nat) : Except ((Nat × Nat × Nat) × Nat) State :=
  let vf := (s.threadAt h).vf
  let d := s.chainDepth q
  let va := s.chainLevel vf q (d + 1)
  match s.areaWrite q vf va (wordBytes (s.recordOf h true)) with
  | .error e => .error (e, va)
  | .ok s =>
    if !(s.threadAt h).pinned then .ok s
    else
      let va := s.saveLevel vf q d
      let bs := (List.range 8).flatMap (fun v => toBytes 64 ((s.slotAt q).vecs.get 0#512 v).toNat)
      match s.areaWrite q vf va bs with
      | .error e => .error (e, va)
      | .ok s => .ok s
/-- The adopted member runs in its helper's slot, above it. -/
def State.adopt (s : State) (u h q : Nat) : State :=
  let s := s.modSlot q (fun x => { x with
    occ := some u, chain := h :: x.chain, vecs := [], vpend := [], ibuf := none, noSpill := false })
  let s := if (s.threadAt u).emptyCache then s.emptyCache (coreOfSlot q) else s
  (s.modThread h (fun t => { t with loc := .chain q, wait := .none })).modThread u (fun t => { t with
    loc := .slot q, emptyCache := false, wait := .lease })
/-- CLAIM_LANDS: a claimed record lands in its slot and is acknowledged; a helper's once its own accesses are complete
(R265). It runs once the acknowledgement has been taken, so that none runs twice. (DEDUCED, log entry 34) -/
def State.claimLands (s : State) (id : Nat) : State :=
  match s.msgs.find? id with
  | some (.landing u _ slot helper) =>
    let t := s.threadAt u
    let arrive (s : State) : State :=
      let s := (s.tellDie (dieOfCore (coreOfSlot slot)) (s.carriedBy id)).delMsg id
      if t.emptyCache && 4 ≤ (s.famAt t.fam).place then s.modThread u (fun t => { t with boundary := s.nextId }) else s
    let claim := (s.famAt t.fam).claims.find? u
    if t.ended.isSome then
      (s.dropClaim id slot helper).modFam t.fam (fun f => { f with claims := f.claims.del u })
    else
      match claim with
      | none => s.dropClaim id slot helper
      | some c =>
        if c.id != id then s.dropClaim id slot helper
        else match helper with
        | none =>
          if s.coreMending (coreOfSlot slot) then s
          else if s.coreGone (coreOfSlot slot) then (s.dropClaim id slot helper).returnClaim u c
          else ((((arrive s).modSlot slot (fun x => { x with reserved := none })).enterSlot u slot).modThread u
            (fun t => { t with wait := .lease })).send (.ack t.fam u c.id)
        | some h =>
          if (s.threadAt h).ended.isSome || (s.threadAt h).wait != .claim id then (s.dropClaim id slot helper).returnClaim u c
          else if s.moveWait h != .none || !(s.slotAt slot).vpend.isEmpty then s
          else
            match s.saveHelper h slot with
            | .error e => ((s.areaRecord h slot e.1 e.2).dropClaim id slot helper).returnClaim u c
            | .ok s => ((arrive s).adopt u h slot).send (.ack t.fam u c.id)
  | _ => s
/-- CLAIM_ACK_AT_HOME: the claim is over, and its thread may run; one that expired is no longer there, and its
acknowledgement is refused, whatever claims have been made of the thread since (R76, R366). -/
def State.claimAck (s : State) (id : Nat) : State :=
  match s.msgs.find? id with
  | some (.ack fk u n) =>
    let s := s.delMsg id
    match (s.famAt fk).claims.find? u with
    | some c =>
      if c.id != n then s
      else
        let s := s.modFam fk (fun f => { f with claims := f.claims.del u })
        if (s.threadAt u).wait == .lease then s.modThread u (fun t => { t with wait := s.rewait u }) else s
    | none => s
  | _ => s
/-- LEASE_EXPIRY: a claim of thread `u` that has not been acknowledged is taken back (R76). (DEDUCED, log entry 34) -/
def State.leaseExpires (s : State) (u : Nat) : State :=
  match (s.famAt (s.threadAt u).fam).claims.find? u with
  | none => s
  | some c =>
    let s := s.returnClaim u c
    -- the copy on its way is discarded where it lands
    match List.find? (fun e => match e.2 with
      | .landing v _ _ _ => v == u
      | _ => false) s.msgs with
    | some (id, .landing _ _ slot helper) => s.dropClaim id slot helper
    | _ => s

/-! The other family events. -/

/-- DEPENDENT_FILL_LANDS, PASS_THROUGH_FORWARD and STUB_RESEND (R75, R79, R87). -/
def State.depLands (s : State) (id : Nat) : State :=
  match s.msgs.find? id with
  | some (.dep fk k i v _) => s.landDep id fk k i v
  | _ => s
def State.depForward (s : State) (id : Nat) : State :=
  match s.msgs.find? id with
  | some (.dep fk k i v _) => s.forwardDep id fk k i v
  | _ => s
/-- The thread that a fill is for. -/
def State.fillThread (s : State) : Msg → Option Nat
  | .dep fk k _ _ _ => s.memberAt fk k
  | .fill _ u => some u
  | .answer _ u => some u
  | .engine _ _ u _ => some u
  | .killThread u => some u
  | _ => none
def State.stubResend (s : State) (id : Nat) : State :=
  match s.msgs.find? id with
  | none => s
  | some m =>
    match s.fillThread m, s.bound.find? id with
    | some u, some _ => { s with bound := s.bound.put id (s.threadAt u).core }
    | _, _ => s
/-- END_REPORT_AT_HOME (R81). (DEDUCED, log entry 27) -/
def State.reportHome (s : State) (id : Nat) : State :=
  match s.msgs.find? id with
  | some (.report fk u) => s.landReport id fk u
  | _ => s
/-- FAMILY_FILL_LANDS (R59) and HWAIT_ANSWER_LANDS (R106). -/
def State.fillLands (s : State) (id : Nat) : State :=
  match s.msgs.find? id with
  | some (.fill h u) => s.landFamily id h u
  | _ => s
def State.answerLands (s : State) (id : Nat) : State :=
  match s.msgs.find? id with
  | some (.answer h u) => s.landWaiter id h u
  | _ => s
/-- BREAK_AT_HOME (R60, R81) and KILL_AT_HOME (R82). -/
def State.breakHome (s : State) (id : Nat) : State :=
  match s.msgs.find? id with
  | some (.brk fk k how) => (s.delMsg id).recordBreak fk k how
  | _ => s
def State.killHome (s : State) (id : Nat) : State :=
  match s.msgs.find? id with
  | some (.kill fk gen) => (s.delMsg id).killAtHome fk gen
  | _ => s
/-- KILL_REACHES_MEMBER (R61). -/
def State.killLands (s : State) (id : Nat) : State :=
  match s.msgs.find? id with
  | some (.killThread u) => (s.delMsg id).killReaches u
  | _ => s
/-- MIGRATION_ARRIVAL (R90, R91, R263, R265, R365): the record joins the owner's run queue or serial queue. It waits while
a stopped core is under repair, and goes to the next core of the cluster once the core is out of every place. At a core
outside its family's place it stays in the queue (R70). (DESIGN CHOICE, log entry 46) -/
def State.migrationArrives (s : State) (id : Nat) : State :=
  match s.msgs.find? id with
  | some (.move u core serial) =>
    if (s.threadAt u).ended.isSome then s.delMsg id
    else if s.coreMending core then s
    else
      let o := if s.coreGone core then core / 8 * 8 + (core + 1) % 8 else core
      let s := ((s.tellDie (dieOfCore o) (s.carriedBy id)).delMsg id).wake o
      if serial then (s.modThread u (fun t => { t with loc := .serialq o })).modCore o (fun x => { x with
        serialq := x.serialq ++ [u] })
      else (s.modThread u (fun t => { t with loc := .runq o })).modCore o (fun x => { x with runq := x.runq ++ [u] })
  | _ => s
/-- HWAIT_ARM_AT_HOME (R106): the wait is armed, or answered at once when the end is fixed. -/
def State.armHome (s : State) (id : Nat) : State :=
  match s.msgs.find? id with
  | some (.arm h u) =>
    let s := s.delMsg id
    let vf := (s.threadAt u).vf
    if s.familyPending vf h then s.modFam (s.famOfHandle vf h) (fun f => { f with waiters := f.waiters ++ [u] })
    else s.sendFill (s.famAt (s.famOfHandle vf h)).clock u (.answer h u)
  | _ => s
/-- ENGINE_HANDLE_FILL_LANDS (R153, R200, R209, R264): the handle fills, an acquire at system scope. -/
def State.engineLands (s : State) (id : Nat) : State :=
  match s.msgs.find? id with
  | some (.engine h w u rd) =>
    if !s.arrives id u then s
    else
      let s := (s.learnAt u (s.carriedBy id)).delMsg id
      if (s.threadAt u).ended.isSome then s else (s.landFill u rd (.engine h) w).acquireFor u
  | _ => s

end Sys2Proof.Machine
end

