-- ==== Sys2Proof/Machine/Answer.lean ====
section
/-! DEFINITION. Fault records in their queues (R347 to R349, R370), the hardware paging service (R354) and the answers
(R350, R352). -/

namespace Sys2Proof.Machine

/-! A record is claimed and written (R348, R349). -/

/-- FQCTL's fields (R336). -/
def Func.fqOn (f : Func) : Bool := bitOf f.fqctl.toNat 8
def Func.fqSize (f : Func) : Nat := 2 ^ bitsOf f.fqctl.toNat 0 5
/-- Has a function's queue room for a record? -/
def Func.fqRoom (f : Func) : Bool := f.fqOn && (f.fqtail - f.fqhead).toNat != f.fqSize
/-- The source dword of a record (R347). -/
def Record.source (r : Record) : Word := word (r.src % 64 + r.kind * 2 ^ 8 + r.die * 2 ^ 16)
/-- The 64 bytes of a record with its sequence number. (DEDUCED, log entry 32) -/
def Record.bytes (r : Record) (seq : Word) : List Byte := wordBytes ([seq, r.source] ++ (r.body ++ List.replicate 6 0#64).take 6)
/-- The device's own write to a physical address: a release at system scope. -/
def State.deviceWrite (s : State) (a : Nat) (bs : List Byte) : State := s.agentStore 0 (word a) none a bs
/-- Has a record not been written yet? -/
def Record.waiting (r : Record) : Bool :=
  match r.stage with
  | .service => true
  | .held => true
  | .unclaimed => true
  | _ => false
/-- Does a record's event causally precede another's, as far as the dies' clocks tell (R263, R349)? (DEDUCED, log entry
32) -/
def Record.precedes (x r : Record) : Bool := x.queue == r.queue && x.place ≤ r.clock.getD x.die 0
/-- FAULT_RECORD_CLAIM (R349): a record takes its sequence number and is written, once its queue has room and those of
causally earlier events are written; FQTAIL goes to the notify address. A record that awaits an answer stays until it has
it. -/
def State.claimRecord (s : State) (id : Nat) : State :=
  match s.records.find? id with
  | none => s
  | some r =>
    let f := s.funcAt r.queue
    if r.stage != .unclaimed || !f.fqRoom || s.records.any (fun e => e.1 < id && e.2.waiting && e.2.precedes r) then s
    else
      let seq := f.fqtail
      let s := s.modFunc r.queue (fun f => { f with fqtail := f.fqtail + 1 })
      let s := s.deviceWrite (f.fqbase.toNat + 64 * (seq.toNat % f.fqSize)) (r.bytes seq)
      let s := if f.notify = 0#64 then s else s.deviceWrite (2 ^ 51 + f.notify.toNat) (toBytes 8 (seq + 1).toNat)
      if r.awaits then s.modRecord id (fun x => { x with stage := .written seq.toNat })
      else { s with records := s.records.del id }

/-! Answers (R350). -/

/-- The operation that a record stopped, by its cluster and entry. -/
def State.copyStopped (s : State) (id : Nat) : Option (Nat × Nat × CopyOp) :=
  s.clusters.findSome? (fun x => (List.find? (fun e => e.2.record == some id) x.2.copies).map (fun e => (x.1, e.1, e.2)))
def State.jobStopped (s : State) (id : Nat) : Option (Nat × Nat × Job) :=
  s.clusters.findSome? (fun x => (List.find? (fun e => e.2.record == some id) x.2.jobs).map (fun e => (x.1, e.1, e.2)))
/-- Is the operation that a record stopped held in a saved context (R201)? -/
def State.heldAway (s : State) (id : Nat) : Bool :=
  s.funcs.any (fun f => match f.2.saved with
    | some x => x.copies.any (fun e => e.2.any (fun c => c.2.record == some id)) ||
        x.jobs.any (fun e => e.2.any (fun j => j.2.record == some id))
    | none => false)
/-- What an answer does at a record's holder: replay or resume (0), or abort (1). -/
def State.holderActs (s : State) (id : Nat) (r : Record) (action : Nat) (setl0 : Bool) (val : Word) : State :=
  match r.holder with
  | .none => s
  | .thread u => s.resumeThread u id r action setl0 val
  | .copy _ _ => match s.copyStopped id with
    | some (cl, e, c) => s.answerCopy cl e c action
    | none => s
  | .job _ _ => match s.jobStopped id with
    | some (cl, e, j) => s.answerJob cl e j action
    | none => s
/-- Must an answer wait: for an operation that a saved context holds (R201), or for an entry with which a request of a
thread that has ended goes out again (R156)? -/
def State.answerHeld (s : State) (rec : Nat) : Bool :=
  s.heldAway rec || s.reqs.any (fun e => e.2.phase == .faulted rec && (match e.2.thread with
    | some u => (s.threadAt u).ended.isSome && Config.reservations ≤ s.reserved e.2.core
    | none => false))
/-- ANSWER_AT_HOLDER: an answer reaches the record's holder, unless it must wait. -/
def State.answerHolder (s : State) (id : Nat) : State :=
  match s.msgs.find? id with
  | some (.reply rec action setl0 val) =>
    if s.answerHeld rec then s else
    let s := s.delMsg id
    match s.records.find? rec with
    | none => s
    | some r => ({ s with records := s.records.del rec }).holderActs rec r action setl0 val
  | _ => s
/-- ANSWER_DOORBELL: the host's write `w` to a function's ansact (R352, R370). -/
def State.answerDoorbell (s : State) (vf : Nat) (w : Word) : State :=
  let f := s.funcAt vf
  if 2 ≤ fieldOf w 0 2 then s
  else
    let x := s.answerRecord vf f.ansrec (fieldOf w 0 2) (bitOf w.toNat 2) f.ansval
    x.1.modFunc vf (fun f => { f with ansres := x.2 })

/-! The hardware paging service (R354). -/

/-- The physical address of the entry of level `lv` that a walk for an address meets: `n` levels above it are left. -/
def State.entryAt (s : State) (va lv : Nat) : Nat → Nat → Option Nat
  | 0, tb => some (tb + 8 * bitsOf va (12 + 9 * lv) 9)
  | n + 1, tb =>
    let e := (s.dwordAt (tb + 8 * bitsOf va (12 + 9 * (lv + n + 1)) 9)).toNat
    if bitOf e 0 && !bitOf e 1 then s.entryAt va lv n (bitsOf e 12 40 * 4096) else none
/-- The leaf entry of a page at level 0 or 1 of a function's table. -/
def State.leafEntry (s : State) (vf va lv : Nat) : Option Nat :=
  s.entryAt va lv (4 - lv) (bitsOf (s.funcAt vf).ctxroot.toNat 12 40 * 4096)
/-- The bytes of a range are copied to another: all that either held is replaced. -/
def moveBytes {α : Type} (m : Tab α) (a b n : Nat) : Tab α :=
  (m.filter (fun e => a ≤ e.1 && e.1 < a + n)).foldl (fun (t : Tab α) e => t.put (e.1 - a + b) e.2)
    (m.filter (fun e => e.1 < b || b + n ≤ e.1))
/-- A latest-only page that comes in from a saved copy that was itself latest-only memory brings the numbers that stand
there; one that left by a `tlbinv` has its own already (R290). (DESIGN CHOICE, log entry 85) -/
def State.savedNumbers (s : State) (vf va size a : Nat) : State :=
  if s.latest.any (fun e => e.vf == vf && e.va == va && e.size == size && e.pa.isNone) then s
  else { s with latest := s.latest.filter (fun e => !e.meets vf va size) ++ [⟨vf, va, size, none, s.numsIn a size⟩] }
/-- A page is copied from its saved copy to a frame, through its key slot where its leaf carries one; a saved copy in host
memory is plain, for no controller encrypts it (R364). (DEDUCED, log entry 43) -/
def State.copyPage (s : State) (key : Option Nat) (a b n : Nat) : State :=
  let s := { s with
    bad := s.bad.filter (fun u => u * 64 + 64 ≤ b || b + n ≤ u * 64) }
  match key with
  | none => { s with mem := moveBytes s.mem a b n }
  | some _ => (List.range (n / 64)).foldl (fun (t : State) i =>
      t.writeBytes key (b + 64 * i) (if isHost a then t.peek (a + 64 * i) 64 else (t.readLine key (a + 64 * i)).getD [])) s
/-- A frame of a function's stack: 4 KiB (level 0) or 2 MiB (level 1); the stack's count falls. -/
def State.takeFrame (s : State) (vf lv : Nat) : Option (Nat × State) :=
  let st := bitsOf (s.funcAt vf).frames.toNat 0 52
  if st = 0 then none
  else
    let n := (s.dwordAt (st + 16 * lv)).toNat
    if n = 0 then none
    else
      let a := (s.dwordAt ((s.dwordAt (st + 16 * lv + 8)).toNat + 8 * (n - 1))).toNat
      some (a, s.poke (st + 16 * lv) (toBytes 8 (n - 1)))
/-- A record of a page that the service has brought in: it is answered replay, and written as served. (DEDUCED, log entry
43) -/
def State.served (s : State) (id : Nat) (r : Record) : State :=
  let bit := if r.kind = 3 then 23 else 24
  let body := r.body.set 1 (word (putBits (r.body.getD 1 0#64).toNat bit 1 1))
  (s.modRecord id (fun x => { x with awaits := false, holder := .none, stage := .unclaimed, body := body })).holderActs
    id r 0 false 0#64
/-- PAGING_SERVICE: a PAGE(2) is served, or forwarded; that of an operation which a saved context holds waits (R201). -/
def State.pagingService (s : State) (id : Nat) : State :=
  match s.records.find? id with
  | none => s
  | some r =>
    let forward := s.modRecord id (fun x => { x with stage := .unclaimed })
    if r.stage != .service || s.heldAway id then s
    else if 2 ≤ r.level then forward
    else
      match s.leafEntry r.queue r.page r.level with
      | none => forward
      | some at' =>
        let e := (s.dwordAt at').toNat
        let size := if r.level = 0 then 2 ^ 12 else 2 ^ 21
        let src := bitsOf e 12 40 * 4096
        let key := if bitOf e 6 then some (bitsOf e 52 7) else none
        if bitOf e 0 then s.served id r
        else if !bitOf e 9 || !bitOf e 1 || bitOf e 7 || !s.pagePopulated src size || s.poisoned src size ||
            !s.keyReady key then forward
        else
          match s.takeFrame r.queue r.level with
          | none => forward
          | some (frame, t) =>
            let e' := putBits (putBits (putBits e 0 1 1) 9 1 0) 12 40 (frame / 4096)
            let t := if bitOf e 5 then (t.savedNumbers r.queue (r.page / size * size) size src).setNums src size [] else t
            ((t.copyPage key src frame size).poke at' (toBytes 8 e')).served id r

end Sys2Proof.Machine
end

