-- ==== Sys2Proof/Machine/Packet.lean ====
section
/-! DEFINITION. Launch queues: the host's writes to a queue, the reading of its packets, and every packet but LAUNCH
(R306 to R310, R318). -/

namespace Sys2Proof.Machine

/-! The host's writes (R306, R307). -/

/-- QUEUE_DOORBELL: a write to a queue's tail. -/
def State.queueDoorbell (s : State) (vf q : Nat) (w : Word) : State :=
  if vf < 64 ∧ q < 16 then s.modQueue vf q (fun x => { x with tail := w }) else s
/-- Does a control word keep R307's map, with a home cluster that has a core of the function? -/
def State.controlOk (s : State) (vf : Nat) (w : Word) : Bool :=
  let cl := fieldOf w 16 4 * 64 + fieldOf w 10 6
  fieldOf w 24 40 == 0 && fieldOf w 1 4 == 0 && 4 ≤ fieldOf w 5 5 && fieldOf w 5 5 ≤ 16 && s.placeHolds vf 1 (8 * cl) cl
/-- QUEUE_CONTROL_WRITE: a write to a queue's control word; one that is refused stops the queue with code 0x05. -/
def State.queueControl (s : State) (vf q : Nat) (w : Word) : State :=
  if 64 ≤ vf ∨ 16 ≤ q then s
  else if s.controlOk vf w then s.modQueue vf q (fun x => { x with control := w })
  else s.queueError vf q 5 (s.queueAt vf q).head.toNat

/-! Reading packets (R306). -/

/-- May a queue read packets: the start has enabled the queues, and the function's and the queue's enable bits are set?
(DEDUCED, log entry 52) -/
def State.queueReads (s : State) (vf q : Nat) : Bool :=
  s.pkg.bootNext == 15 && !s.pkg.halt && (s.funcAt vf).enable && (s.queueAt vf q).enabled
/-- A packet as its read brings it. -/
def Packet.fresh (bs : List Byte) : Packet :=
  { words := dwords bs, stage := 1, admission := 0, record := [], core := 0, fam := none, copy := none, after := [] }
/-- PACKET_READ_LANDS: packet `n`, which the tail has announced, has been read, in ring order. A fault on the read stops
the queue once the packet is at its head (R310). (DEDUCED, log entry 44) (DEDUCED, log entry 52) -/
def State.packetRead (s : State) (vf q n : Nat) : State :=
  let x := s.queueAt vf q
  let ahead := (word n - x.head).toNat
  if !s.queueReads vf q || (x.tail - x.head).toNat ≤ ahead || (x.packets.find? n).isSome ||
    (ahead != 0 && (x.packets.find? (n - 1)).isNone) then s
  else
    match s.vaRead x.core vf (x.slotAddr n).toNat 64 1 with
    | .ok bs => s.putPacket vf q n (Packet.fresh bs)
    | .error _ => if ahead = 0 then s.queueError vf q 4 n else s

/-! Starting packets (R308, R309). -/

/-- Are dwords `i` to 7 of a packet zero? -/
def Packet.clearFrom (p : Packet) (i : Nat) : Bool := (p.words.drop i).all (· == 0#64)
/-- The code of R310 for which a packet stops its queue before it starts, or none. -/
def Packet.bad (p : Packet) : Option Nat :=
  let t := p.type
  let reserved := fieldOf (p.dword 0) 9 23 != 0 ||
    (match t with
     | 1 => !p.clearFrom 5
     | 2 => !p.clearFrom 5
     | 3 => !p.clearFrom 4 || fieldOf (p.dword 3) 1 63 != 0
     | 4 => !p.clearFrom 4 || fieldOf (p.dword 3) 1 63 != 0
     | 5 => !p.clearFrom 2 || fieldOf (p.dword 1) 2 62 != 0
     | _ => !p.clearFrom 2 || fieldOf (p.dword 1) 3 61 != 0 || 6 ≤ fieldOf (p.dword 1) 0 3)
  if t = 0 ∨ 6 < t then some 1
  else if reserved then some 2
  else if t = 5 ∧ fieldOf (p.dword 1) 0 2 = 3 then some 3
  else none
/-- The packet at a queue's head, once it may start (R308): it has been read, an ordered one waits for every earlier one,
and a WAIT_SEQ, SET_DET or FENCE just before it has completed. -/
def State.atHead (s : State) (vf q n : Nat) : Option Packet :=
  let x := s.queueAt vf q
  match x.packets.find? n with
  | none => none
  | some p =>
    let blocked := match x.packets.find? (n - 1) with
      | some b => n != 0 && 4 ≤ b.type && b.stage != 3
      | none => false
    let ordered := bitOf (p.dword 0).toNat 8 || p.type == 6
    if p.stage = 1 ∧ x.head = word n ∧ !blocked = true ∧ (!ordered || x.done == x.head) = true then some p else none
/-- The head packet, when its type is `t`, is taken by `f`; a malformed one stops the queue. -/
def State.begin (s : State) (vf q n t : Nat) (f : State → Packet → State) : State :=
  match s.atHead vf q n with
  | none => s
  | some p =>
    match p.bad with
    | some c => s.queueError vf q c n
    | none => if p.type = t then f s p else s
/-- A packet has started: the head moves past it. -/
def State.started (s : State) (vf q n : Nat) (p : Packet) : State :=
  (s.modQueue vf q (fun x => { x with head := x.head + 1 })).putPacket vf q n { p with stage := 2 }

/-! COPY, and the copy of a launch's local section. -/

/-- A copy that a queue issues for a packet: issuer 0, no launch, run by its home cluster's unit. (DEDUCED, log entry 53) -/
def Packet.copyOp (vf q n core : Nat) (dst src : Word) (size : Nat) : CopyOp :=
  { h := 0#64, op := 0, vf := vf, queue := q, level := 0, core := core, thread := 0, issuer := 0#64, dst := dst
    src := src, size := size, vreg := 8, idx := 0#512, fmt := 0, mode := 0, daz := false, ftz := false, seed := 0
    forked := true, before := 0, chunks := [], cursor := 0, fault := none, record := none, stop := 0, rd := 27
    waiters := [], group := none, packet := some (q, n) }
/-- Has a cluster's copy table a free entry? -/
def Cluster.copyRoom (c : Cluster) : Bool := c.copies.length < Config.copyEntries
/-- COPY: it starts as a `cpy`; a COPY cause or an empty one completes at once. (DEDUCED, log entry 53) -/
def State.copyPacket (s : State) (vf q n : Nat) : State :=
  s.begin vf q n 2 (fun s p =>
    let x := s.queueAt vf q
    let c := Packet.copyOp vf q n x.core (p.dword 1) (p.dword 2) (p.dword 3).toNat
    match c.cause with
    | some k => (s.started vf q n p).packetEnds vf q n (p.dword 4) (word (k * 2 ^ 8 + 3))
    | none =>
      if c.empty then (s.started vf q n p).packetEnds vf q n (p.dword 4) 0#64
      else if !(s.clusterAt x.cluster).copyRoom then s
      else
        let e := (s.clusterAt x.cluster).freeCopy
        ((s.addCopy x.cluster { c with clock := s.clockOf (dieOfCore x.core) }).1).started vf q n { p with copy := some (x.cluster, e) })

/-! SIGNAL and WAIT_SEQ. -/

/-- The place of the 8-byte word of a SIGNAL or WAIT_SEQ, or the fact that its address faults (R310). (DEDUCED, log entry
44) -/
def State.signalPlace (s : State) (vf q : Nat) (acc : Acc) (va : Word) (plain : Bool) : State × Option Place :=
  match s.engineReach (s.queueAt vf q).core vf acc 8 va with
  | (s, .error _) => (s, none)
  | (s, .ok p) => if (plain && p.lo) || !s.keyReady p.key then (s, none) else (s, some p)
/-- SIGNAL: the word is stored or added to as a system-scope release, and the packet completes. -/
def State.signal (s : State) (vf q n : Nat) : State :=
  s.begin vf q n 3 (fun s p =>
    let add := bitOf (p.dword 3).toNat 0
    match s.signalPlace vf q (if add then .both else .store) (p.dword 1) true with
    | (_, none) => s.queueError vf q 4 n
    | (t, some pl) =>
      if add && t.poisoned pl.addr 8 then s.queueError vf q 4 n
      else if inTier2 pl.addr && !t.pkg.cxl.getD (cxlPort pl.addr) true then s
      else
        let w := if add then t.dword pl.key pl.addr + p.dword 2 else p.dword 2
        ((t.homeWrite vf (p.dword 1) pl.key pl.addr (toBytes 8 w.toNat)).started vf q n p).packetDone vf q n)
/-- WAIT_SEQ: the wait leaves for the word's home. -/
def State.waitSeq (s : State) (vf q n : Nat) : State :=
  s.begin vf q n 4 (fun s p =>
    match s.signalPlace vf q .both (p.dword 1) false with
    | (_, none) => s.queueError vf q 4 n
    | (t, some pl) =>
      let core := (t.queueAt vf q).core
      let r : Req := { Req.blank with
        kind := .waitSeq q (!bitOf (p.dword 3).toNat 0), vf := vf, core := core, slot := 16 * core, addr := pl.addr
        va := p.dword 1, size := 8, key := pl.key, opB := p.dword 2, num := n, scope := 5, acq := true
        phase := if homeDie pl.addr == dieOfCore core then .home else .ingress, clock := t.clockOf (dieOfCore core) }
      (t.addReq r).started vf q n p)
/-- WAIT_SEQ_ANSWER: the answer reaches the queue and the packet completes; an error at the home stops the queue. -/
def State.waitSeqAnswer (s : State) (id : Nat) : State :=
  match s.reqs.find? id with
  | none => s
  | some r =>
    match r.kind with
    | .waitSeq q _ =>
      if r.phase != .replied then s
      else
        let s := s.delReq id
        let s := if r.crosses then s.tellDie r.die r.clock else s
        if r.err.isSome then s.queueError r.vf q 4 r.num else s.packetDone r.vf q r.num
    | _ => s

/-! SET_DET (R318). -/

/-- SET_DET: it starts, and stops every queue of the function at its next LAUNCH; one that starts while another is under
way acts after it. -/
def State.setDet (s : State) (vf q n : Nat) : State :=
  s.begin vf q n 5 (fun s p => (s.started vf q n p).modFunc vf (fun f => { f with setDet := f.setDet ++ [(q, n)] }))
/-- Is a launch of a function live: made and not ended, or admitted so far that it keeps its level? -/
def State.launchLive (s : State) (vf : Nat) : Bool :=
  s.families.any (fun e => e.2.vf == vf && e.2.alloc && e.2.fixed.isNone && (match e.2.deliver with
    | .packet _ _ => true
    | _ => false)) ||
  (s.funcAt vf).queues.any (fun q => q.2.packets.any (fun p => p.2.stage == 1 && p.2.fam.isSome))
/-- SET_DET_DRAINED: the launches admitted before have ended; the level is set, and the packet completes. -/
def State.setDetDrained (s : State) (vf : Nat) : State :=
  match (s.funcAt vf).setDet with
  | [] => s
  | (q, n) :: more =>
    if s.launchLive vf then s
    else
      let level := match s.packetAt? vf q n with
        | some p => fieldOf (p.dword 1) 0 2
        | none => (s.funcAt vf).det
      (s.modFunc vf (fun f => { f with det := level, setDet := more })).packetDone vf q n

/-! FENCE. -/

/-- FENCE_PACKET: it starts; it waits for the packets of the function that have started and not completed. -/
def State.fencePacket (s : State) (vf q n : Nat) : State :=
  s.begin vf q n 6 (fun s p =>
    let after := (s.funcAt vf).queues.flatMap (fun x =>
      (x.2.packets.filter (fun e => e.2.stage == 2)).map (fun e => (x.1, e.1)))
    s.started vf q n { p with after := after })
/-- FENCE_PACKET_COMPLETE: every packet that started before it has completed. -/
def State.fencePacketDone (s : State) (vf q n : Nat) : State :=
  match s.packetAt? vf q n with
  | none => s
  | some p =>
    if p.stage = 2 ∧ p.type = 6 ∧ p.after.all (fun x => match s.packetAt? vf x.1 x.2 with
        | some y => y.stage == 3
        | none => true) = true then s.packetDone vf q n
    else s

end Sys2Proof.Machine
end

