-- ==== Sys2Proof/Machine/Launch.lean ====
section
/-! DEFINITION. Admitting a launch (R311 to R316, R319, R394), alone or as one rank of a gang (R380 to R382). -/

namespace Sys2Proof.Machine

/-! Promises (R315). -/

/-- What one instruction leaves of a promise. -/
def formPromise : Instr → Nat
  | .vredAdd t o _ _ _ => if o && t.getLsbD 1 then 0 else 2
  | .haccU _ _ _ _ => 0
  | .cpyrAdd u _ _ _ _ m => if u && !(fmtOf m.fmtA.toNat).isInt then 0 else 2
  | .allredAdd u _ _ _ m => if u && !(fmtOf m.fmtA.toNat).isInt then 0 else 2
  | .famoAdd _ _ _ _ _ _ => 0
  | .mig _ _ => 1
  | .migS _ _ => 1
  | .yield _ => 1
  | _ => 2
/-- The instruction that fields stand for, when it is of a kind that a promise depends on. -/
def promiseForm (r : Raw) : Option Instr :=
  let i : Except IllegalCause Instr :=
    match r.major.toNat with
    | 0x22 => buildFam r
    | 0x24 => buildAtom r
    | 0x2B => buildVmisc r
    | 0x32 => if r.func = 0x005#9 then .ok (.cpyrAdd true false r.rd r.ra r.rb r.m)
        else if r.func = 0x105#9 then .ok (.cpyrAdd true true r.rd r.ra r.rb r.m)
        else if r.func = 0x011#9 then .ok (.allredAdd true r.rd r.ra r.rb r.m)
        else .error .function
    | _ => .error .major
  match i with
  | .ok i => if (fieldFault i r).isNone then some i else none
  | .error _ => none
/-- The promise of words, stepping by each first word's length; words that do not decode leave it. -/
def wordsPromise : Nat → List IWord → Nat
  | 0, _ => 2
  | n + 1, ws =>
    match splitWords ws with
    | none => 2
    | some (r, rest) =>
      let here := match promiseForm r with
        | some i => formPromise i
        | none => 2
      min here (wordsPromise n rest)
/-- Bytes of a range of a function's space, page by page; none where a page cannot be read. -/
def State.rangeBytes (s : State) (core vf : Nat) : List (Word × Nat) → Option (List Byte)
  | [] => some []
  | r :: rs =>
    match s.vaRead core vf r.1.toNat r.2 1 with
    | .error _ => none
    | .ok bs => (s.rangeBytes core vf rs).map (bs ++ ·)
/-- The promise of an image, recorded or decoded now; none where a page cannot be read. -/
def State.promise (s : State) (vf core : Nat) (base : Word) (len : Nat) : Option (State × Nat) :=
  let ps := (s.funcAt vf).promises
  let others := ps.filter (fun e => !(e.1 == base.toNat && e.2.1 == len))
  let note (p : Nat) : State × Nat := (s.modFunc vf (fun f => { f with promises := ((base.toNat, len, p) :: others).take 64 }), p)
  match List.find? (fun e => e.1 == base.toNat && e.2.1 == len) ps with
  | some e => some (note e.2.2)
  | none => (s.rangeBytes core vf (runsOfRange base len)).map (fun bs =>
      let ws := wordsOfBytes bs
      note (wordsPromise ws.length ws))

/-! The record of a launch (R311). -/

def Packet.field (p : Packet) (i : Nat) : Word := (dwords p.record).getD i 0#64
/-- The place code; codes that the map does not name act as the package (DEDUCED, log entry 54). -/
def Packet.place (p : Packet) : Nat := let c := fieldOf (p.field 4) 0 3; if c ≤ 5 then c else 4
def Packet.members (p : Packet) : Except Nat Nat := rangeCount (p.field 1) (p.field 2) (p.field 3) (p.field 0)
def Packet.globals (p : Packet) : List Word := (List.range (min 8 (fieldOf (p.field 4) 7 4))).map (fun j => p.field (8 + j))

/-! Gangs (R380 to R382). -/

/-- Is a queue's next launch a gang launch? -/
def Func.gangOn (f : Func) (q : Nat) : Bool := bitOf f.gangctl.toNat 0 && fieldOf f.gangctl 16 4 == q
/-- The gang's descriptor, at its physical address; none where it is malformed. -/
def State.gangGroup (s : State) (vf : Nat) : Option Group :=
  let d := (s.funcAt vf).gangdesc
  s.groupOfBytes d (s.peek d.toNat 128)
/-- gangstat: its state, and the rank that the last abort named. -/
def gangWord (state silent : Nat) : Word := word (state * 2 ^ 62 + silent % 64 * 2 ^ 8)
def Func.silent (f : Func) : Nat := fieldOf f.gangstat 8 6
/-- The gang launch is over: arm is cleared, and what has come for it is forgotten. -/
def State.gangOver (s : State) (vf gid : Nat) (stat : Word) : State :=
  s.modFunc vf (fun f => { f with
    gangctl := word (putBits f.gangctl.toNat 0 1 0), gangstat := stat, gang := none
    gangIn := f.gangIn.filter (fun x => x.1 != gid), gangNo := f.gangNo.filter (fun x => x.1 != gid) })
/-- An aborted rank (R382): its entry is released, status 0x12 and a record of kind 0x0A are written, and its queue goes
on. -/
def State.gangAbort (s : State) (vf q n gid named pkg : Nat) : State :=
  match s.packetAt? vf q n with
  | none => s
  | some p =>
    let s := match p.fam with
      | some fk => s.modFam fk (fun f => { f with alloc := false })
      | none => s
    let s := s.gangOver vf gid (gangWord 3 named)
    let s := s.addRecord
      { queue := vf, src := vf, kind := 0x0A, die := (s.queueAt vf q).die, holder := .none, awaits := false
        stage := .unclaimed, page := 0, level := 0, body := [p.tag, word q, word gid, word named, word pkg, 0#64] }
    (s.started vf q n { p with fam := none }).packetEnds vf q n (p.dword 4) (word (named * 2 ^ 8 + 0x12))
/-- Is there a message of a rank for a group, from a package that was not lost when it came (R372)? -/
def Group.hears (g : Group) (l : List (Nat × Nat × List Nat)) (r : Nat) : Bool :=
  l.any (fun x => x.1 == g.gid && x.2.1 == r && !x.2.2.contains (g.map.getD r 0))
/-- The lowest rank that the coordinator has not had PREPARED from. -/
def Func.missing (f : Func) (g : Group) : Option Nat :=
  ((List.range g.ranks).drop 1).find? (fun r => !g.hears f.gangIn r || g.hears f.gangNo r)
/-- The coordinator aborts the gang, naming a rank; what comes for the group until it is armed again is for the launch that
it aborted. (DESIGN CHOICE, log entry 56) -/
def State.gangDrop (s : State) (vf q n : Nat) (g : Group) (named : Nat) : State :=
  (s.gangAbort vf q n g.gid named (g.map.getD named 0)).modFunc vf (fun f => { f with
    gangDead := g.gid :: f.gangDead.filter (· != g.gid) })
/-- The coordinator aborts the gang, naming the lowest silent or refusing rank. -/
def State.gangGiveUp (s : State) (vf q n : Nat) (g : Group) : State := s.gangDrop vf q n g (((s.funcAt vf).missing g).getD 0)

/-! Admission (R312). -/

/-- A launch is refused (R313, R316): its completion word is written, with a record for DETERM(1); a rank of a gang waits
for ABORT instead, and the coordinator aborts naming itself (R381). -/
def State.refuseLaunch (s : State) (vf q n : Nat) (p : Packet) (status value : Nat) : State :=
  if (s.funcAt vf).gangOn q then
    match s.gangGroup vf with
    | none => s
    | some g =>
      if g.rank = 0 then s.gangDrop vf q n g 0
      else (s.putPacket vf q n { p with admission := 6 }).modFunc vf (fun f => { f with gang := some (q, n) })
  else
    let s := if status = 0x10 then s.addRecord
        { queue := vf, src := vf, kind := 7, die := (s.queueAt vf q).die, holder := .none, awaits := false
          stage := .unclaimed, page := 0, level := 0, body := [p.tag, word q, p.dword 2, 0#64, 0#64, 0#64] } else s
    (s.started vf q n p).packetEnds vf q n (p.dword 4) (word (value % 2 ^ 56 * 2 ^ 8 + status))

/-- The launch core: the core of the home cluster with the most free slots of the queue, the lowest on a tie. -/
def State.launchCore (s : State) (vf q : Nat) : Nat :=
  let x := s.queueAt vf q
  let cs := ((List.range 8).map (x.core + ·)).filter (fun c => s.owns vf (resCore c) && !s.coreGone c)
  let free (c : Nat) : Nat := (s.freeSlots c vf q).length
  match cs with
  | [] => x.core
  | c :: cs => cs.foldl (fun b c => if free b < free c then c else b) c
/-- The clusters that a level-2 launch takes (R319). -/
def State.takenClusters (s : State) (vf code o : Nat) : List Nat :=
  (List.range (Config.dies * Config.clusters)).filter (fun cl => s.placeHolds vf code o cl)
/-- Does a cluster hold no thread, job, deque entry or record, and no copy of a launch? A COPY packet's belongs to none
(R319, R407). -/
def State.clusterEmpty (s : State) (cl : Nat) : Bool :=
  (List.range 8).all (fun i => !s.coreWorks (8 * cl + i) && (s.coreAt (8 * cl + i)).serialq.isEmpty &&
    (List.range 16).all (fun j => (s.slotAt (16 * (8 * cl + i) + j)).reserved.isNone)) &&
  (s.clusterAt cl).jobs.isEmpty && !(s.clusterAt cl).copies.any (fun e => s.ofLaunch e.2)
/-- The caches and TLBs of a taken cluster are invalidated, and its slots given to the queue. -/
def State.takeCluster (s : State) (vf q cl : Nat) : State :=
  (List.range 8).foldl (fun (s : State) i =>
    let c := 8 * cl + i
    let s := s.modCore c (fun x => { x with icache := Cache.empty, dcache := Cache.empty, utlb := Tlb.empty })
    if s.owns vf (resCore c) then
      (List.range 16).foldl (fun (s : State) j => s.modSlot (16 * c + j) (fun x => { x with qowner := q })) s
    else s) (s.modCluster cl (fun x => { x with tlb := Tlb.empty }))
/-- A taken cluster's array lane is brought on as a filler, once its die has a grant left (R323). -/
def State.lightLane (s : State) (cl : Nat) : State :=
  let d := s.dieAt (dieOfCluster cl)
  if d.fillers.contains cl || d.grants = 0 then s
  else s.modDie (dieOfCluster cl) (fun d => { d with fillers := d.fillers ++ [cl], grants := d.grants - 1 })

/-- The family of an admitted launch is made from its entry and dealt (R312, step 5); an empty range ends at once. -/
def State.admitMake (s : State) (vf q n : Nat) (p : Packet) (fk : Nat) : State :=
  let f := s.famAt fk
  match p.members with
  | .error c => s.refuseLaunch vf q n p 0x11 c
  | .ok count =>
    let s := (s.started vf q n { p with admission := 0 }).modFam fk (fun f => { f with alloc := false })
    if count = 0 then s.packetEnds vf q n (p.dword 4) 0#64
    else
      (s.modFam fk (fun f => { f with gen := (f.gen + 255) % 256 })).makeFamily fk
        { vf := vf, queue := q, level := f.level, origin := p.core, globals := p.globals, first := (p.field 1).toNat
          count := count, step := (p.field 3).toNat, body := p.field 0, place := p.place
          block := fieldOf (p.field 4) 3 4 + 1, links := List.replicate 4 15, vals := [], creator := 0#64
          deliver := .packet q n, fctl := 1#5, srseed := 0#64, adoptMax := 4
          image := ((p.dword 2).toNat, (p.dword 3).toNat), launch := fk }
/-- The copy of the local section, when the record names one, and then the family (R312, step 5). -/
def State.admitCopy (s : State) (vf q n : Nat) (p : Packet) (fk : Nat) : State :=
  let cl := clusterOfCore p.core
  let c : CopyOp := { Packet.copyOp vf q n p.core (word localBase) (p.field 5) (p.field 6).toNat with
    before := s.nextId, clock := s.clockOf (dieOfCore p.core) }
  if p.field 5 = 0#64 ∨ c.empty = true then s.admitMake vf q n p fk
  else if c.cause.isSome then s.queueError vf q 4 n
  else if !(s.clusterAt cl).copyRoom then s.putPacket vf q n { p with admission := 5 }
  else
    let e := (s.clusterAt cl).freeCopy
    (({ s with nextId := s.nextId + 1 }.addCopy cl c).1).putPacket vf q n { p with admission := 2, copy := some (cl, e) }
/-- The gang commits at this rank (R381): it deals. -/
def State.gangDeal (s : State) (vf q n : Nat) (gid : Nat) : State :=
  match s.packetAt? vf q n with
  | none => s
  | some p =>
    let s := s.gangOver vf gid (gangWord 2 (s.funcAt vf).silent)
    match p.fam with
    | some fk => (s.putPacket vf q n { p with admission := 5 }).admitCopy vf q n { p with admission := 5 } fk
    | none => s
/-- The coordinator looks at what has come (R381): a refusal aborts, and every PREPARED commits. (DESIGN CHOICE, log entry
56) -/
def State.gangTry (s : State) (vf : Nat) : State :=
  let f := s.funcAt vf
  match f.gang, s.gangGroup vf with
  | some (q, n), some g =>
    if g.rank != 0 then s
    else if (List.range g.ranks).any (g.hears f.gangNo) then s.gangGiveUp vf q n g
    else if (f.missing g).isNone then s.gangDeal vf q n g.gid
    else s
  | _, _ => s
/-- The entry is taken, at the context's level; then a rank of a gang is prepared, and any other launch goes on. (DEDUCED,
log entry 55) -/
def State.admitTake (s : State) (vf q n : Nat) (p : Packet) (fk : Nat) : State :=
  let f := s.funcAt vf
  let p := { p with fam := some fk, admission := 5 }
  let s := (s.modFam fk (fun x => { Family.blank with
    alloc := true, gen := (x.gen + 1) % 256, vf := vf, queue := q, level := f.det })).putPacket vf q n p
  if f.gangOn q then
    ((s.putPacket vf q n { p with admission := 4 }).modFunc vf (fun f => { f with
      gang := some (q, n), gangstat := gangWord 1 f.silent })).gangTry vf
  else s.admitCopy vf q n p fk
/-- Step 4 at level 2 (R319, R323), and the range's check. The clusters must hold nothing of another launch, nor be taken
by one; a launch that waits for them keeps the core of step 3. -/
def State.admitPlace (s : State) (vf q n : Nat) (p : Packet) (fk : Nat) : State :=
  let range (s : State) : State := match p.members with
    | .error c => s.refuseLaunch vf q n p 0x11 c
    | .ok _ => s.admitTake vf q n p fk
  if (s.funcAt vf).det ≠ 2 then range s
  else
    let cls := s.takenClusters vf (min 4 p.place) p.core
    if p.admission ≠ 7 ∧ !(cls.all (fun cl => s.clusterEmpty cl && !s.bound2 cl && !s.taking cl)) = true then
      s.putPacket vf q n { p with admission := 8 }
    else
      let s := if p.admission = 7 then s else
        (cls.foldl (fun (s : State) cl => s.takeCluster vf q cl) s).putPacket vf q n { p with admission := 7 }
      let s := cls.foldl (fun (s : State) cl => s.lightLane cl) s
      if cls.all (fun cl => (s.dieAt (dieOfCluster cl)).fillers.contains cl) then range s else s
/-- Steps 2 and 3: an arena entry, the launch core. (DEDUCED, log entry 55) -/
def State.admitEntry (s : State) (vf q n : Nat) (p : Packet) : State :=
  match s.freeEntry vf with
  | none => s.putPacket vf q n { p with admission := if 7 ≤ p.admission then p.admission else 1 }
  | some fk =>
    if 7 ≤ p.admission then s.admitPlace vf q n p fk
    else s.admitPlace vf q n { p with core := s.launchCore vf q } fk
/-- Step 1: the record, and the image's promise. -/
def State.admitFresh (s : State) (vf q n : Nat) (p : Packet) : State :=
  let x := s.queueAt vf q
  let f := s.funcAt vf
  let record := if p.record.isEmpty then s.rangeBytes x.core vf (runsOfRange (p.dword 1) 128) else some p.record
  match record with
  | none => s.queueError vf q 4 n
  | some bs =>
    match s.promise vf x.core (p.dword 2) (p.dword 3).toNat with
    | none => s.queueError vf q 4 n
    | some (s, promise) =>
      let p := { p with record := bs }
      let s := s.putPacket vf q n p
      if promise < f.det then s.refuseLaunch vf q n p 0x10 promise
      else s.admitEntry vf q n p
/-- A launch that has not taken its entry: it stops before a SET_DET (R318); a gang whose descriptor is malformed waits,
and one that has been aborted is aborted here (R381). -/
def State.admitStart (s : State) (vf q n : Nat) (p : Packet) : State :=
  let f := s.funcAt vf
  if !f.setDet.isEmpty then s
  else if !f.gangOn q then s.admitFresh vf q n p
  else
    match s.gangGroup vf with
    | none => s.putPacket vf q n { p with admission := 1 }
    | some g =>
      match List.find? (fun a => a.1 == g.gid && !a.2.2.2.contains (g.map.getD 0 0)) f.aborts with
      | some a => (s.modFunc vf (fun f => { f with aborts := f.aborts.filter (fun x => x.1 != g.gid) })).gangAbort
          vf q n g.gid a.2.1 a.2.2.1
      | none => s.admitFresh vf q n p
/-- What an admission that waits does next. -/
def State.admitNext (s : State) (vf q n : Nat) (p : Packet) : State :=
  match p.admission, p.fam with
  | 1, _ => s.admitStart vf q n p
  | 7, _ => s.admitStart vf q n p
  | 8, _ => s.admitStart vf q n p
  | 3, some fk => s.admitMake vf q n p fk
  | 5, some fk => s.admitCopy vf q n p fk
  | _, _ => s

/-! The events. -/

/-- LAUNCH: the launch at a queue's head begins its admission. -/
def State.launch (s : State) (vf q n : Nat) : State :=
  s.begin vf q n 1 (fun s p => if p.admission = 0 then s.admitStart vf q n p else s)
/-- ADMISSION_WAKE: what an admission step waited for has come about. -/
def State.admissionWake (s : State) (vf q n : Nat) : State := s.begin vf q n 1 (fun s p => s.admitNext vf q n p)
/-- LOCAL_SECTION_COPY_LANDS: the copy of the local section completes, and the admission goes on. -/
def State.localCopyLands (s : State) (vf q n : Nat) : State :=
  match s.packetAt? vf q n with
  | none => s
  | some p =>
    match p.admission, p.copy with
    | 2, some (cl, e) => (s.copyComplete cl e).admissionWake vf q n
    | _, _ => s
/-- GANGCTL_ARM: the host's write to gangctl; one that its map forbids is ignored. -/
def State.gangctlWrite (s : State) (vf : Nat) (w : Word) : State :=
  if 64 ≤ vf ∨ fieldOf w 20 12 ≠ 0 ∨ fieldOf w 1 15 ≠ 0 ∨ (bitOf w.toNat 0 ∧ fieldOf w 32 32 = 0) then s
  else s.modFunc vf (fun f => { f with
    gangctl := w, gangDead := if bitOf w.toNat 0 then [] else f.gangDead
    gangstat := if bitOf w.toNat 0 && f.gang.isNone then gangWord 0 f.silent else f.gangstat })
/-- The packages that are lost now. -/
def State.lostNow (s : State) : List Nat := (s.pkg.peers.filter (fun e => e.2.lost)).map Prod.fst
/-- Are a rank's frames accepted (R372)? Where the function's descriptor does not tell the rank's package, the lost packages
are noted with the message, and decide when the descriptor does. -/
def State.rankHeard (s : State) (vf gid rank : Nat) : Bool × List Nat :=
  match s.gangGroup vf with
  | some g => if g.gid = gid then (!s.lostNow.contains (g.map.getD rank 0), []) else (true, s.lostNow)
  | none => (true, s.lostNow)
/-- A rank's message joins a list of them. -/
def noteRank (l : List (Nat × Nat × List Nat)) (gid rank : Nat) (lost : List Nat) : List (Nat × Nat × List Nat) :=
  (gid, rank, lost) :: l.filter (fun x => !(x.1 == gid && x.2.1 == rank))
/-- PREPARED and REFUSED: a rank's message reaches the coordinator. (DESIGN CHOICE, log entry 56) -/
def State.gangPrepared (s : State) (vf gid rank : Nat) : State :=
  let h := s.rankHeard vf gid rank
  if h.1 && !(s.funcAt vf).gangDead.contains gid then
    (s.modFunc vf (fun f => { f with gangIn := noteRank f.gangIn gid rank h.2 })).gangTry vf
  else s
def State.gangRefused (s : State) (vf gid rank : Nat) : State :=
  let h := s.rankHeard vf gid rank
  if h.1 && !(s.funcAt vf).gangDead.contains gid then
    (s.modFunc vf (fun f => { f with gangNo := noteRank f.gangNo gid rank h.2 })).gangTry vf
  else s
/-- The gang launch of a function, when it is a rank other than the coordinator's. -/
def State.gangRank (s : State) (vf : Nat) : Option (Nat × Nat × Group) :=
  match (s.funcAt vf).gang, s.gangGroup vf with
  | some (q, n), some g => if g.rank = 0 then none else some (q, n, g)
  | _, _ => none
/-- COMMIT reaches a rank that has prepared. -/
def State.gangCommit (s : State) (vf gid : Nat) : State :=
  match s.gangRank vf with
  | some (q, n, g) =>
    (match s.packetAt? vf q n with
     | some p => if g.gid = gid ∧ p.admission = 4 ∧ (s.rankHeard vf gid 0).1 = true then s.gangDeal vf q n gid else s
     | none => s)
  | none => s
/-- ABORT reaches a rank; before its own launch of the group, it is kept (R381). -/
def State.gangAborted (s : State) (vf gid named pkg : Nat) : State :=
  let h := s.rankHeard vf gid 0
  let keep : State := s.modFunc vf (fun f => { f with aborts := f.aborts ++ [(gid, named, pkg, h.2)] })
  if !h.1 then s
  else
    match s.gangRank vf with
    | some (q, n, g) => if g.gid = gid then s.gangAbort vf q n gid named pkg else keep
    | none => keep
/-- GANG_TIMEOUT: the coordinator's limit has passed. -/
def State.gangTimeout (s : State) (vf : Nat) : State :=
  match (s.funcAt vf).gang, s.gangGroup vf with
  | some (q, n), some g => if g.rank = 0 then s.gangGiveUp vf q n g else s
  | _, _ => s
/-- The loss of rank 0's package aborts a rank that waits for COMMIT or ABORT, naming 0 (R381). -/
def State.gangOrphan (s : State) (pkg vf : Nat) : State :=
  match s.gangRank vf with
  | some (q, n, g) => if g.map.getD 0 0 = pkg then s.gangAbort vf q n g.gid 0 pkg else s
  | none => s

end Sys2Proof.Machine
end

