-- ==== Sys2Proof/Machine/Preempt.lean ====
section
/-! DEFINITION. The rotation boundary (R94, R314, R356, R357, R359) and the actions of PREEMPT (R355 to R363, R201,
R213). -/

namespace Sys2Proof.Machine

/-! The rotation boundary (R94, R314). -/

/-- Has a queue demand on a core (R314)? A queue is named by function × 16 + queue. (DEDUCED, log entry 58) -/
def State.demands (s : State) (core fq : Nat) : Bool :=
  (s.coreAt core).deque.any (fun d =>
    let f := s.famAt d.fam
    f.vf * 16 + f.queue == fq && f.nextK.isSome && s.inFamily d.fam core) ||
  (s.coreAt core).runq.any (fun u => (s.threadAt u).vf * 16 + (s.threadAt u).queue == fq)
/-- The queues of a core's owner that have demand, less those removed from the rotation (R356). -/
def State.demandList (s : State) (core : Nat) : List Nat :=
  match (s.resAt (resCore core)).owner with
  | some vf => ((List.range 16).map (vf * 16 + ·)).filter (fun fq =>
      !(s.funcAt vf).removed.contains (fq % 16) && s.demands core fq)
  | none => []
/-- The queue that a rewrite goes to: the lowest pass value, the lower number on a tie. -/
def Core.lowestPass (c : Core) (fqs : List Nat) : Option Nat :=
  match fqs with
  | [] => none
  | q :: qs => some (qs.foldl (fun b x => if c.pass.get 0 x < c.pass.get 0 b then x else b) q)
/-- The pass values after the queues' demand is looked at: one whose demand begins takes at least the lowest of those
that had demand already. -/
def Core.meetDemand (c : Core) (fqs : List Nat) : Core :=
  let old := fqs.filter (c.demand.contains ·)
  let low := match c.lowestPass old with
    | some q => c.pass.get 0 q
    | none => 0
  { c with
    demand := fqs
    pass := (fqs.filter (fun q => !c.demand.contains q)).foldl (fun p q => p.put q (max (p.get 0 q) low)) c.pass }
/-- The arbiter rewrites one free slot, to a queue with a weight (R314). -/
def State.rewriteSlot (s : State) (core : Nat) (fqs : List Nat) (q : Nat) : State :=
  match (s.coreAt core).lowestPass (fqs.filter (fun fq => (s.queueAt (fq / 16) (fq % 16)).weight != 0)) with
  | none => s
  | some fq =>
    let w := (s.queueAt (fq / 16) (fq % 16)).weight
    (s.modSlot q (fun x => { x with qowner := fq % 16 })).modCore core (fun c => { c with
      pass := c.pass.put fq (c.pass.get 0 fq + 360360 / max 1 w) })
/-- The slot arbiter at a core's rotation boundary, unless a duty or a level-2 launch has it rest (R314, R319, R402), or
the duty drains, when what arrives is held for its new mode (R403): the free slots whose owner has no demand are rewritten
in ascending number. -/
def State.arbitrate (s : State) (core : Nat) : State :=
  let fqs := s.demandList core
  let s := s.modCore core (fun c => c.meetDemand fqs)
  if s.bound2 (clusterOfCore core) || (s.dutyAt 1).cur || (s.dutyAt 1).draining then s
  else
    match (s.resAt (resCore core)).owner with
    | none => s
    | some vf =>
      (((List.range 16).map (16 * core + ·)).filter (fun q =>
        let x := s.slotAt q
        x.occ.isNone && x.reserved.isNone && !x.removed && !fqs.contains (vf * 16 + x.qowner))).foldl
        (fun (s : State) q => s.rewriteSlot core fqs q) s

/-- The queue that a slot belongs to is removed from the rotation (R356). -/
def State.slotRemoved (s : State) (q : Nat) : Bool :=
  match (s.resAt (resCore (coreOfSlot q))).owner with
  | some vf => (s.funcAt vf).removed.contains (s.slotAt q).qowner
  | none => false
/-- At a boundary the slots of removed queues leave the rotation, and those of restored queues return to it. -/
def State.rotateSlots (s : State) (core : Nat) : State :=
  (List.range 16).foldl (fun (s : State) i =>
    let q := 16 * core + i
    let gone := s.slotRemoved q
    let s := if gone then s else s.modCore core (fun c => { c with lent := dropSlot q c.lent })
    s.modSlot q (fun x => { x with removed := gone && !(s.coreAt core).lent.contains q })) s
/-- May a slot take back what left it: the core works, its queue is in the rotation, and it is free? -/
def State.takesBack (s : State) (vf q : Nat) (y : Slot) : Bool :=
  let x := s.slotAt q
  !(s.clusterAt (clusterOfCore (coreOfSlot q))).removed && !s.coreGone (coreOfSlot q) && !(s.funcAt vf).removed.contains y.qowner &&
  x.occ.isNone && x.reserved.isNone && !x.removed
/-- Spilled slots of queues that are in the rotation return to the slots that they left, once these are free, from their
slot images; one whose image meets a fault other than an error in it waits (R359). What a context image brought back comes
first (R361). (DEDUCED, log entry 57) -/
def State.returnSlots (s : State) (core : Nat) : State :=
  match (s.resAt (resCore core)).owner with
  | none => s
  | some vf =>
    let s := ((s.funcAt vf).loaded.filter (fun e => coreOfSlot e.1 == core)).foldl (fun (s : State) e =>
      if !s.takesBack vf e.1 e.2 then s
      else (s.lowerSlot e.1 e.2 none).modFunc vf (fun f => { f with loaded := f.loaded.del e.1 })) s
    ((s.funcAt vf).spills.filter (fun e => coreOfSlot e.1 == core)).foldl (fun (s : State) e =>
      let back (image : Except Nat (List Byte)) : State :=
        (s.lowerSlot e.1 e.2 (some image)).modFunc vf (fun f => { f with spills := f.spills.del e.1 })
      if !s.takesBack vf e.1 e.2 then s
      else match s.imageRead e.1 vf with
        | .ok bs => back (.ok bs)
        | .error f => if f.1 = fMACHINE then back (.error (s.imagePlace vf e.1)) else s) s
/-- The members that wait for a queue on a core: unclaimed ones, and records of its run queue. -/
def State.membersWaiting (s : State) (core fq : Nat) : Nat :=
  (((s.coreAt core).deque.map (fun d =>
    let f := s.famAt d.fam
    if f.vf * 16 + f.queue == fq && f.nextK.isSome && s.inFamily d.fam core then
      f.count - f.progress + f.returned.length else 0)).sum) +
  ((s.coreAt core).runq.filter (fun u => (s.threadAt u).vf * 16 + (s.threadAt u).queue == fq)).length
/-- The spill engine's work at a boundary (R357): for queues with demand and no free slot, the core's removed slots, lowest
first, as many as members wait; in host-assisted mode, on a core that the host has named (R402); none while the duty
drains (R403). -/
def State.chooseSpills (s : State) (core : Nat) : State :=
  let short := (s.demandList core).filter (fun fq => (s.freeSlots core (fq / 16) (fq % 16)).isEmpty)
  let need := (short.map (fun fq => s.membersWaiting core fq)).sum
  let removed := ((List.range 16).map (16 * core + ·)).filter (fun q => (s.slotAt q).removed)
  if need = 0 || (s.dutyAt 4).draining then s
  else if (s.dutyAt 4).cur && !s.pkg.spillGo.contains core then s
  else (s.modPkg (fun p => { p with spillGo := p.spillGo.filter (· != core) })).modCore core (fun c => { c with
    spillDue := removed.take need })
/-- ROTATION_BOUNDARY of a core. -/
def State.rotationBoundary (s : State) (core : Nat) : State :=
  if core < Config.coreCount then ((((s.rotateSlots core).returnSlots core).arbitrate core).chooseSpills core) else s

/-! Remove and restore (R355, R356). -/

/-- The action under way ends with a result; a save also notes its length. -/
def State.endPreempt (s : State) (result : Nat) (length : Option Nat) : State :=
  s.modPkg (fun p => { p with
    preempt := none
    pstat := word (result * 2 ^ 61 + (length.getD (p.pstat.toNat % 2 ^ 48)) % 2 ^ 48) })
/-- The slots of some queues of a function, less those that the spill engine took. -/
def State.queueSlots (s : State) (vf : Nat) (qs : List Nat) : List Nat :=
  (s.ownedCores vf).flatMap (fun c => ((List.range 16).map (16 * c + ·)).filter (fun q =>
    qs.contains (s.slotAt q).qowner && !(s.coreAt c).lent.contains q))
def State.markRemoved (s : State) (vf : Nat) (qs : List Nat) : State :=
  s.modFunc vf (fun f => { f with removed := f.removed.filter (fun q => !qs.contains q) ++ qs })
/-- PREEMPT_REMOVE: the queues are removed; the action is done once each core has come to its boundary. -/
def State.preemptRemove (s : State) : State :=
  match s.pkg.preempt with
  | none => s
  | some p =>
    if p.action ≠ 1 then s
    else
      let s := s.markRemoved p.vf p.queues
      if (s.queueSlots p.vf p.queues).all (fun q => (s.slotAt q).removed) then s.endPreempt 1 none else s
/-- Held records of restored queues may be claimed again (R357). -/
def State.freeHeld (s : State) (vf : Nat) (qs : List Nat) : State :=
  { s with threads := s.threads.map (fun e =>
      (e.1, if e.2.vf == vf && qs.contains e.2.queue then
        (match e.2.loc with
         | .parked c true => { e.2 with loc := .parked c false }
         | _ => e.2) else e.2)) }
/-- PREEMPT_RESTORE: the queues are in the rotation again; done once each core has come to its boundary. (DEDUCED, log
entry 58) -/
def State.preemptRestore (s : State) : State :=
  match s.pkg.preempt with
  | none => s
  | some p =>
    if p.action ≠ 2 then s
    else
      let s := (s.modFunc p.vf (fun f => { f with removed := f.removed.filter (fun q => !p.queues.contains q) })).freeHeld
        p.vf p.queues
      if (s.queueSlots p.vf p.queues).all (fun q => !(s.slotAt q).removed) then s.endPreempt 1 none else s

/-! The coding of a section's contents (R362). -/

/-- Maximal runs of equal dwords: the dword and its count. -/
def wordRuns : List Word → List (Word × Nat)
  | [] => []
  | w :: ws =>
    match wordRuns ws with
    | (v, n) :: rs => if v = w then (v, n + 1) :: rs else (w, 1) :: (v, n) :: rs
    | [] => [(w, 1)]
def token (kind n : Nat) : Word := word (n * 4 + kind)
/-- The literals gathered so far, as one token. -/
def literals (ws : List Word) : List Word := if ws.isEmpty then [] else token 0 ws.length :: ws
/-- Runs as tokens; `lits` are the literal dwords not yet written. -/
def codeRuns : List (Word × Nat) → List Word → List Word
  | [], lits => literals lits ++ [3#64]
  | (v, n) :: rs, lits =>
    if v = 0#64 then literals lits ++ token 1 n :: codeRuns rs []
    else if 3 ≤ n then literals lits ++ token 2 n :: v :: codeRuns rs []
    else codeRuns rs (lits ++ List.replicate n v)
def codeSection (ws : List Word) : List Word := codeRuns (wordRuns ws) []
/-- The contents that tokens stand for, and the dwords after them; none where they break off. -/
def decodeTokens : Nat → List Word → Option (List Word × List Word)
  | 0, _ => none
  | _ + 1, [] => none
  | fuel + 1, t :: ws =>
    let n := t.toNat / 4
    match t.toNat % 4 with
    | 0 => if ws.length < n then none
      else (decodeTokens fuel (ws.drop n)).map (fun r => (ws.take n ++ r.1, r.2))
    | 1 => (decodeTokens fuel ws).map (fun r => (List.replicate n 0#64 ++ r.1, r.2))
    | 2 => match ws with
      | [] => none
      | v :: ws => (decodeTokens fuel ws).map (fun r => (List.replicate n v ++ r.1, r.2))
    | _ => some ([], ws)

/-! Save (R361). -/

/-- The 64 KiB vault granules that a function owns: die × 64 + cluster, and number. -/
def State.ownedGranules (s : State) (vf : Nat) : List (Nat × Nat) :=
  (s.pkg.res.filter (fun e => 2 ^ 20 ≤ e.1 && e.1 < 2 ^ 24 && e.2.owner == some vf)).map (fun e =>
    ((e.1 - 2 ^ 20) / 64, e.1 % 64))
def granuleBase (cl g : Nat) : Nat := vaultBase + cl / 64 * 2 ^ 28 + cl % 64 * 2 ^ 22 + g * 65536
def State.isDirty (s : State) (a : Nat) : Bool := match dirtyKey a with
  | some k => s.dirty.get false k
  | none => false
/-- A section: its header dword and its coded contents. -/
def imageSection (kind location index : Nat) (ws : List Word) : List Word :=
  word (index * 2 ^ 24 + location * 2 ^ 8 + kind) :: codeSection ws
/-- A core's queues in an image: how many records each queue has, the records, and the deque's first eight entries by handle
and age. (DESIGN CHOICE, log entry 59) -/
def State.queueWords (s : State) (core : Nat) : List Word :=
  let x := s.coreAt core
  word (x.runq.length + x.serialq.length * 2 ^ 32) :: ((x.runq ++ x.serialq).flatMap (fun u => s.recordOf u false) ++
    (x.deque.take 8).flatMap (fun d => [d.h, word d.age]))
/-- Eight dwords of a vector, and the vector of eight dwords. -/
def vecWords (v : VWord) : List Word := (List.range 8).map (fun i => word (lane 64 v i))
def vecOfWords (ws : List Word) : VWord := ofLanes 64 (ws.map BitVec.toNat)
/-- Fields from the low end of a dword, by width and value. -/
def packFields : List (Nat × Nat) → Nat
  | [] => 0
  | (w, v) :: fs => v % 2 ^ w + 2 ^ w * packFields fs
/-- A held copy in an image: its handle, what it does, its cursor, its issuer, its addresses and size, its seed and its index
vector (R201). (DESIGN CHOICE, log entry 59) -/
def CopyOp.words (c : CopyOp) : List Word :=
  [c.h, word (packFields [(8, c.op), (8, c.fmt), (4, c.mode), (1, c.daz.toNat), (1, c.ftz.toNat), (1, c.forked.toNat), (2, c.stop)]),
   word c.cursor, c.issuer, c.dst, c.src, word c.size, word c.seed] ++ vecWords c.idx
/-- The copy as a section gives it; what the section does not hold stays. -/
def CopyOp.reload (c : CopyOp) (ws : List Word) : CopyOp :=
  let w (i : Nat) : Word := ws.getD i 0#64
  { c with
    op := fieldOf (w 1) 0 8, fmt := fieldOf (w 1) 8 8, mode := fieldOf (w 1) 16 4, daz := bitOf (w 1).toNat 20
    ftz := bitOf (w 1).toNat 21, forked := bitOf (w 1).toNat 22, stop := fieldOf (w 1) 23 2
    cursor := (w 2).toNat, issuer := w 3, dst := w 4, src := w 5, size := (w 6).toNat, seed := (w 7).toNat
    idx := vecOfWords ((ws.drop 8).take 8) }
/-- A held job in an image: its handle, its fields, its cursor, its issuer, its address, stride, scale and seed, what
TSHAPE and TMETA held at its admission, and the column sums that it read (R213). (DESIGN CHOICE, log entry 59) -/
def Job.words (j : Job) : List Word :=
  [j.h, word (packFields [(3, j.d), (5, j.a), (5, j.b), (16, j.opt), (4, j.mode), (1, j.daz.toNat), (1, j.ftz.toNat),
     (1, j.forked.toNat), (2, j.stop)]),
   word j.cursor, j.issuer, j.base, j.stride, j.scale, word j.seed] ++
  (List.range 8).map j.shape ++ (List.range 8).map j.header ++ (List.range 4).flatMap (fun i => vecWords (j.colsum.getD i 0#512))
def jobWords : Nat := 56
/-- The job as a section gives it; what the section does not hold stays. -/
def Job.reload (j : Job) (ws : List Word) : Job :=
  let w (i : Nat) : Word := ws.getD i 0#64
  let tab (k : Nat) : Tab Word := (List.range 8).foldl (fun (t : Tab Word) i => t.set 0#64 i (w (k + i))) []
  { j with
    d := fieldOf (w 1) 0 3, a := fieldOf (w 1) 3 5, b := fieldOf (w 1) 8 5, opt := fieldOf (w 1) 13 16
    mode := fieldOf (w 1) 29 4, daz := bitOf (w 1).toNat 33, ftz := bitOf (w 1).toNat 34
    forked := bitOf (w 1).toNat 35, stop := fieldOf (w 1) 36 2
    cursor := (w 2).toNat, issuer := w 3, base := w 4, stride := w 5, scale := w 6, seed := (w 7).toNat
    shapes := tab 8, metas := tab 16
    colsum := if j.colsum.isEmpty then [] else (List.range 4).map (fun i => vecOfWords ((ws.drop (24 + 8 * i)).take 8)) }
def State.occupied (s : State) (cs : List Nat) : List (Nat × Nat) :=
  cs.flatMap (fun c => (List.range 16).filterMap (fun i =>
    ((s.slotAt (16 * c + i)).occ).map (fun u => (16 * c + i, u))))
/-- The slots of a context: those occupied, and what an earlier image brought back of slots that are not (R361). -/
def State.contextSlots (s : State) (vf : Nat) : List (Nat × Slot) :=
  (s.occupied (s.ownedCores vf)).map (fun x => (x.1, s.slotAt x.1)) ++
    (s.funcAt vf).loaded.filter (fun e => (s.slotAt e.1).occ.isNone)
/-- The copies and jobs of a function, by cluster. -/
def State.heldCopies (s : State) (vf : Nat) : List (Nat × Nat × CopyOp) :=
  s.clusters.flatMap (fun e => (e.2.copies.filter (fun c => c.2.vf == vf)).map (fun c => (e.1, c.1, c.2)))
def State.heldJobs (s : State) (vf : Nat) : List (Nat × List (Nat × Job)) :=
  (s.clusters.map (fun e => (e.1, e.2.jobs.filter (fun j => j.2.vf == vf)))).filter (fun x => !x.2.isEmpty)
/-- The sections of a function's context image, by kind, then location and index. (DESIGN CHOICE, log entry 59) -/
def State.imageSections (s : State) (vf : Nat) : List (List Word) :=
  let cs := s.ownedCores vf
  let slots := (s.contextSlots vf).filterMap (fun x => x.2.occ.map (fun u =>
    imageSection 1 (coreOfSlot x.1) (slotOfSlot x.1) (dwords (s.slotImage x.2 x.1 u))))
  let tiles := cs.map (fun c => imageSection 2 c 0 (dwords (s.peek (tileStore c) 131072) ++
    (List.range 8).map (fun i => (s.coreAt c).tshape.get 0#64 i) ++
    (List.range 8).map (fun i => (s.coreAt c).tmeta.get 0#64 i)))
  let stores := cs.flatMap (fun c => ((List.range 3).filter (fun i => s.isDirty (localStore c + 65536 * i))).map (fun i =>
    imageSection 3 c i (dwords (s.peek (localStore c + 65536 * i) 65536))))
  let vaults := ((s.ownedGranules vf).filter (fun g => s.isDirty (granuleBase g.1 g.2))).map (fun g =>
    imageSection 4 (g.1 * 8) g.2 (dwords (s.peek (granuleBase g.1 g.2) 65536)))
  let queues := cs.map (fun c => imageSection 5 c 0 (s.queueWords c))
  let copies := (s.heldCopies vf).map (fun x => imageSection 6 (x.1 * 8) (x.2.1 % 256) x.2.2.words)
  let jobs := (s.heldJobs vf).map (fun x => imageSection 7 (x.1 * 8) 0 (x.2.flatMap (fun j => j.2.words)))
  slots ++ tiles ++ stores ++ vaults ++ queues ++ copies ++ jobs
/-- A context image (R361): header, length and sections. (DESIGN CHOICE, log entry 59) -/
def State.contextImage (s : State) (vf : Nat) : List Byte :=
  let secs := s.imageSections vf
  let body := secs.flatten
  wordBytes (word (secs.length % 2 ^ 32 * 2 ^ 16 + vf) :: word (8 * (body.length + 2)) :: body)
/-- A copy or job as it is held: it keeps its cursor, and what has not passed it begins again (R195, R201, R213); a job of
the data lane starts anew. -/
def CopyOp.held (c : CopyOp) : CopyOp := { c with
  chunks := [], fault := if c.record.isSome then c.fault else none }
def Job.held (j : Job) : Job :=
  { j with rows := [], ready := none, started := j.array && j.started, fault := if j.record.isSome then j.fault else none }
/-- The vector registers of a slot that its jobs which have not started are to write: they do not keep a save waiting. -/
def State.laterVecs (s : State) (q : Nat) : List Nat :=
  (s.clusterAt (clusterOfCore (coreOfSlot q))).jobs.flatMap (fun j =>
    if j.2.kind == .mmaQ && j.2.slot == q && !j.2.started then (List.range 4).map (j.2.opt + ·) else [])
/-- May a function's context be saved now: its slots are out of the rotation and all of them has landed, no started array
job runs, and no chunk or row that has begun its write phase is still to be written? -/
def State.saveReady (s : State) (vf : Nat) : Bool :=
  (s.occupied (s.ownedCores vf)).all (fun x => (s.slotAt x.1).removed &&
    (s.modSlot x.1 (fun y => { y with vpend := y.vpend.filter (fun e => !(s.laterVecs x.1).contains e.1) })).slotQuiet x.1) &&
  (s.ownedCores vf).all (fun c => (List.range 16).all (fun i => (s.slotAt (16 * c + i)).reserved.isNone)) &&
  (s.heldCopies vf).all (fun x => !x.2.2.writes && s.copyAcked x.2.2) &&
  (s.heldJobs vf).all (fun x => x.2.all (fun j =>
    !(j.2.array && j.2.started && j.2.ended.isNone) && !j.2.rows.any (fun y => y.2.begun) && s.engineAcked j.2.h))
/-- The function's state leaves its cores (R361). -/
def State.liftContext (s : State) (vf : Nat) : State :=
  let cs := s.ownedCores vf
  let held : Saved :=
    { slots := [], copies := (s.clusters.map (fun e =>
        (e.1, (e.2.copies.filter (fun c => c.2.vf == vf)).map (fun c => (c.1, c.2.held))))).filter (fun x => !x.2.isEmpty)
      jobs := (s.heldJobs vf).map (fun x => (x.1, x.2.map (fun j => (j.1, j.2.held))))
      cores := cs.map (fun c => (c, s.coreAt c)) }
  let lifted := (s.occupied cs).foldl (fun (p : State × Tab Slot) x =>
    let y := p.1.liftSlot x.1
    (y.1, p.2.put x.1 y.2)) (s, (s.funcAt vf).loaded.filter (fun e => (s.slotAt e.1).occ.isNone))
  let s := lifted.1
  let s := { s with clusters := s.clusters.map (fun e => (e.1, { e.2 with
    copies := e.2.copies.filter (fun c => c.2.vf != vf), jobs := e.2.jobs.filter (fun j => j.2.vf != vf) })) }
  let s := cs.foldl (fun (s : State) c => s.modCore c (fun x => { Core.blank with
    cycle := x.cycle, last := x.last, stopped := x.stopped, gated := x.gated, gateReq := x.gateReq })) s
  s.modFunc vf (fun f => { f with
    loaded := f.loaded.filter (fun e => !((lifted.2.find? e.1).map Slot.occ == some e.2.occ))
    saved := some { held with slots := lifted.2 } })
/-- The resident frames of a context's slots go to their spill places (R359, R361); the slot and the fault where one meets a
fault. -/
def State.spillContext (s : State) (vf : Nat) : Except (Nat × Nat × Nat × Nat × Nat) State :=
  (s.occupied (s.ownedCores vf)).foldl (fun (r : Except (Nat × Nat × Nat × Nat × Nat) State) x =>
    match r with
    | .error e => .error e
    | .ok s => match s.spillAll x.1 8 with
      | .error e => .error (x.1, e)
      | .ok t => .ok t) (.ok s)
/-- PREEMPT_SAVE_IMAGE: every queue of the function is removed, and the image is written once all has come to rest. A
slot-area fault gives it up, with a record (R360). (DESIGN CHOICE, log entry 59) -/
def State.preemptSave (s : State) : State :=
  match s.pkg.preempt with
  | none => s
  | some p =>
    if p.action ≠ 3 then s
    else if (match s.pkg.scrub with | some x => x.vf == p.vf | none => false) then s.endPreempt 2 none
    else
      let s := s.markRemoved p.vf (List.range 16)
      if !s.saveReady p.vf then s
      else match s.spillContext p.vf with
        | .error e =>
          (s.areaRecord ((s.slotAt e.1).occ.getD 0) e.1 (e.2.1, e.2.2.1, e.2.2.2.1) e.2.2.2.2).endPreempt 2 none
        | .ok s =>
          let image := s.contextImage p.vf
          let s := s.deviceWrite (s.funcAt p.vf).ctximg.toNat image
          (s.liftContext p.vf).endPreempt 1 (some image.length)

/-! Load (R361). -/

/-- A section read back: kind, location, index and contents. -/
structure Section where
  kind     : Nat
  location : Nat
  index    : Nat
  words    : List Word

def readSections : Nat → List Word → Option (List Section)
  | 0, _ => some []
  | _ + 1, [] => none
  | n + 1, h :: ws =>
    match decodeTokens (ws.length + 1) ws with
    | none => none
    | some (c, rest) => (readSections n rest).map (fun ss =>
        ⟨fieldOf h 0 8, fieldOf h 8 13, fieldOf h 24 8, c⟩ :: ss)
/-- The image at a function's CTXIMG; none where it is malformed. -/
def State.readImage (s : State) (vf : Nat) : Option (List Section) :=
  let a := (s.funcAt vf).ctximg.toNat
  let n := (s.dwordAt (a + 8)).toNat
  readSections (fieldOf (s.dwordAt a) 16 32) (dwords (s.peek (a + 16) (n - 16)))
/-- Does an uncorrectable error stand in a function's context image, or a link that is down before it (R346, R371)? -/
def State.imageLost (s : State) (vf : Nat) : Bool :=
  let a := (s.funcAt vf).ctximg.toNat
  s.poisoned a 16 || s.poisoned a (max 16 (s.dwordAt (a + 8)).toNat)
/-- The queue, copy and job sections are taken over by what the context holds (R361). -/
def Saved.reload (y : Saved) (x : Section) : Saved :=
  let deque (c : Core) : Core := { c with deque := (List.range c.deque.length).zipWith (fun i d =>
    let ws := x.words.drop (1 + 32 * (c.runq.length + c.serialq.length) + 2 * i)
    if i < 8 && 2 ≤ ws.length then { d with h := ws.getD 0 0#64, age := (ws.getD 1 0#64).toNat } else d) c.deque }
  let job (i : Nat) (j : Nat × Job) : Nat × Job :=
    let ws := (x.words.drop (jobWords * i)).take jobWords
    if ws.headD 0#64 == j.2.h then (j.1, j.2.reload ws) else j
  if x.kind = 5 then { y with cores := y.cores.map (fun e => if e.1 = x.location then (e.1, deque e.2) else e) }
  else if x.kind = 6 then { y with copies := y.copies.map (fun e => if e.1 = x.location / 8 then
      (e.1, e.2.map (fun c => if c.2.h == x.words.headD 0#64 then (c.1, c.2.reload x.words) else c)) else e) }
  else if x.kind = 7 then { y with jobs := y.jobs.map (fun e => if e.1 = x.location / 8 then
      (e.1, (List.range e.2.length).zipWith job e.2) else e) }
  else y
/-- The records of a core's queues are written back from their section (R361). -/
def State.loadQueues (s : State) (vf : Nat) (x : Section) : State :=
  match (s.funcAt vf).saved.bind (fun y => y.cores.find? x.location) with
  | none => s
  | some c =>
    let us := c.runq ++ c.serialq
    ((List.range us.length).zip us).foldl (fun (s : State) e =>
      let ws := (x.words.drop (1 + 32 * e.1)).take 32
      if ws.length = 32 then s.modThread e.2 (fun t => t.reload (wordBytes ws)) else s) s
/-- Does a section name a core? -/
def Section.named (x : Section) : Bool := x.kind == 1 || x.kind == 2 || x.kind == 3 || x.kind == 5
/-- A slot section is written back into the slot that the context holds, and its thread (R359, R361). -/
def State.loadSlot (s : State) (vf : Nat) (x : Section) : State :=
  let q := 16 * x.location + x.index % 16
  let bs := wordBytes x.words
  match (s.funcAt vf).loaded.find? q with
  | none => s
  | some y =>
    let s := match y.occ with
      | some u => s.modThread u (fun t => t.reload bs)
      | none => s
    s.modFunc vf (fun f => { f with loaded := f.loaded.put q (y.reload bs) })
/-- A tile, local-store or vault section is written back. -/
def State.loadSection (s : State) (x : Section) : State :=
  let bs := wordBytes x.words
  if x.kind = 2 then
    (s.poke (tileStore x.location) (bs.take 131072)).modCore x.location (fun c => { c with
      tshape := (List.range 8).foldl (fun (t : Tab Word) i => t.set 0#64 i (x.words.getD (16384 + i) 0#64)) []
      tmeta := (List.range 8).foldl (fun (t : Tab Word) i => t.set 0#64 i (x.words.getD (16392 + i) 0#64)) [] })
  else if x.kind = 3 then s.poke (localStore x.location + 65536 * x.index) (bs.take 65536)
  else if x.kind = 4 then s.poke (granuleBase (x.location / 8) x.index) (bs.take 65536)
  else s
/-- The sections of queues, copies and jobs are written back (R361). -/
def State.loadHeld (s : State) (vf : Nat) (secs : List Section) : State :=
  let s := (secs.filter (fun x => x.kind == 5)).foldl (fun (s : State) x => s.loadQueues vf x) s
  s.modFunc vf (fun f => { f with saved := f.saved.map (fun y => secs.foldl Saved.reload y) })
/-- The regions of a function that an image may omit are zeroed first: a write, which leaves their dirty bits set (R363). -/
def State.clearRegions (s : State) (vf : Nat) : State :=
  let s := (s.ownedCores vf).foldl (fun (s : State) c =>
    (s.zeroRange (localStore c) 196608).markRange (localStore c) 196608) s
  (s.ownedGranules vf).foldl (fun (s : State) g =>
    (s.zeroRange (granuleBase g.1 g.2) 65536).markRange (granuleBase g.1 g.2) 65536) s
/-- The lowest entry number, from `e` where that is free, that `taken` leaves free; one past the table's end waits there for
a place. -/
def freeFrom (taken : Nat → Bool) (e n : Nat) : Nat :=
  if taken e then ((List.range (2 * n + 512)).find? (fun i => !taken i)).getD (2 * n + 512) else e
/-- Held copies and jobs go back to their clusters in admission order, each to its own entry where that is free.
(DESIGN CHOICE, log entry 59) -/
def State.lowerEngines (s : State) (x : Saved) : State :=
  let s := x.copies.foldl (fun (s : State) e => e.2.foldl (fun (s : State) c =>
    s.modCluster e.1 (fun k =>
      { k with copies := k.copies.put (freeFrom (fun i => (k.copies.find? i).isSome) c.1 Config.copyEntries) c.2 })) s) s
  x.jobs.foldl (fun (s : State) e => (e.2.foldl (fun (s : State) j =>
    s.modCluster e.1 (fun k =>
      { k with jobs := k.jobs ++ [(freeFrom (fun i => k.jobs.any (fun y => y.1 == i)) j.1 Config.jobEntries, j.2)] })) s).markReady
    (dieOfCluster e.1)) s
/-- The function's state returns: cores' queues and locks at once, slots at their next boundaries. -/
def State.lowerContext (s : State) (vf : Nat) : State :=
  match (s.funcAt vf).saved with
  | none => s.modFunc vf (fun f => { f with removed := [] })
  | some x =>
    let s := x.cores.foldl (fun (s : State) e => s.modCore e.1 (fun c => { c with
      wlock := e.2.wlock, readers := e.2.readers, deque := e.2.deque ++ c.deque, runq := e.2.runq ++ c.runq
      serialq := e.2.serialq ++ c.serialq, loq := e.2.loq ++ c.loq, pass := e.2.pass, demand := e.2.demand })) s
    let s := s.lowerEngines x
    let s := s.modFunc vf (fun f => { f with
      loaded := x.slots.foldl (fun t e => t.put e.1 e.2) f.loaded, removed := [], saved := none })
    s.freeHeld vf (List.range 16)
/-- PREEMPT_LOAD_IMAGE: the image is written back and the function's queues return; refused when the image names a core
that the function does not own, or is malformed. An image that an uncorrectable error has hit gives the thread that asked for
it MACHINE(3) (R346). (DESIGN CHOICE, log entry 81) -/
def State.preemptLoad (s : State) : State :=
  match s.pkg.preempt with
  | none => s
  | some p =>
    if p.action ≠ 4 then s
    else if s.imageLost p.vf then
      (if (s.threadAt p.thread).ended.isSome then s
        else s.raiseAt p.thread p.pc fMACHINE 3 (s.funcAt p.vf).ctximg 0 0).endPreempt 2 none
    else
      match s.readImage p.vf with
      | none => s.endPreempt 2 none
      | some secs =>
        if secs.any (fun x => x.named && !s.owns p.vf (resCore x.location)) then s.endPreempt 2 none
        else
          let s := ((secs.foldl State.loadSection (s.clearRegions p.vf)).loadHeld p.vf secs).lowerContext p.vf
          ((secs.filter (fun x => x.kind == 1)).foldl (fun (s : State) x => s.loadSlot p.vf x) s).endPreempt 1 none

end Sys2Proof.Machine
end

