-- ==== Sys2Proof/Machine/Host.lean ====
section
/-! DEFINITION. The host and the peers: duties, assignments and slots (R327, R402, R403), the scrub engine (R330, R334),
device memory (R369), ports and peers (R368, R371, R372, R379), and power gating (R76). -/

namespace Sys2Proof.Machine

/-! Host-assisted duties, and ASSIGN (R327, R402). -/

/-- A core named as die [35:32], cluster [29:24] and core [18:16]. -/
def coreNamed (w : Word) : Nat := fieldOf w 32 4 * 512 + fieldOf w 24 6 * 8 + fieldOf w 16 3
/-- SLOTQ: in host-assisted scheduling, the queue-owner field of each free slot in the mask is written. -/
def State.slotqNow (s : State) (w : Word) : State :=
  let c := coreNamed w
  if !(s.dutyAt 1).cur || !s.owns (fieldOf w 48 6) (resCore c) || s.bound2 (clusterOfCore c) then s
  else
    (List.range 16).foldl (fun (s : State) i =>
      let x := s.slotAt (16 * c + i)
      if bitOf w.toNat i && x.occ.isNone && x.reserved.isNone && !x.removed then
        s.modSlot (16 * c + i) (fun x => { x with qowner := fieldOf w 40 4 })
      else s) s
/-- SPILL: in host-assisted spilling, a core is named. -/
def State.spillNow (s : State) (w : Word) : State :=
  if (s.dutyAt 4).cur then s.modPkg (fun p => { p with spillGo := coreNamed w :: p.spillGo.filter (· != coreNamed w) })
  else s
/-- A write for a duty takes effect now, or waits for the new mode while the duty drains (R403). -/
def State.dutyWork (s : State) (n : Nat) (w : Word) : State :=
  if (s.dutyAt n).draining then s.modPkg (fun p => { p with heldWork := p.heldWork ++ [(n, w)] })
  else if n = 1 then s.slotqNow w
  else s.spillNow w
def State.slotq (s : State) (w : Word) : State := s.dutyWork 1 w
def State.spillWrite (s : State) (w : Word) : State := s.dutyWork 4 w
/-- SCRUBGO: the host has zeroed a region of kind 4, by its index. -/
def State.scrubGoWrite (s : State) (w : Word) : State :=
  s.modPkg (fun p => { p with scrubGo := w.toNat :: p.scrubGo.filter (· != w.toNat) })
/-- ASSIGN: the host's request, decided as a `kwr` is; a value that the map forbids is ignored with result 0b00. -/
def State.assignWrite (s : State) (w : Word) : State :=
  match (if rsvSet kASSIGN w then none else assignTarget w.toNat) with
  | none => s.modPkg (fun p => { p with assignRes := 0 })
  | some r =>
    let x := s.assign r (fieldOf w 50 6)
    x.1.modPkg (fun p => { p with assignRes := x.2 })

/-! Duties (R402, R403). -/

/-- DUTY_WRITE: the host's write to a duty register; a reserved bit makes it void. -/
def State.dutyWrite (s : State) (n : Nat) (w : Word) : State :=
  if 6 ≤ n ∨ rsvSet (0x200 + n) w = true then s else s.dutyRequest n (bitOf w.toNat 0)
/-- Has the work that a duty's old mode had taken come to its end? -/
def State.dutyDrained (s : State) (n : Nat) : Bool :=
  let host := (s.dutyAt n).cur
  match n with
  | 0 => s.records.all (fun e => if host then
      !(e.2.awaits && fieldOf (e.2.body.getD 1 0#64) 0 8 == fPAGE && fieldOf (e.2.body.getD 1 0#64) 8 8 == 2 &&
        e.2.stage != .held)
      else e.2.stage != .service)
  | 2 => s.pkg.scrub.all (fun x => x.held || x.kept)
  | 3 => s.pkg.repairs.all Repair.held
  | 4 => s.cores.all (fun e => e.2.spillDue.isEmpty)
  | 5 => !s.clusters.any (fun e => e.2.copies.any (fun c => match c.2.group with
      | some g => s.collBegun g.gid g.seq
      | none => false))
  | _ => true
/-! The scrub engine (R330, R334). -/

/-- The storage of a region: where it begins, and its length. -/
def ScrubRegion.range (r : ScrubRegion) : Nat × Nat :=
  match r.kind with
  | 1 => (localStore r.coreNo, 196608)
  | 2 => (tileStore r.coreNo, 131072)
  | 3 => (vaultBase + r.die * 2 ^ 28 + r.cluster * 2 ^ 22 + r.base.toNat, r.len * 4096)
  | _ => (r.base.toNat, r.len * 4096)
/-- The scrub that the engine runs: none while it waits for a new mode of its duty (R403), or for step 5 of a start
(R334). -/
def State.scrubNow (s : State) : Option Scrub := s.pkg.scrub.filter (fun x => !x.held && !x.kept)
/-- Is a region the host's to zero: of kind 4, in host-assisted mode (R399, R402)? -/
def State.hostScrubs (s : State) (r : ScrubRegion) : Bool := (s.dutyAt 2).cur && r.kind == 4
/-- The boot-record entry and SCRUBPOS as the engine goes on (R330, R333). -/
def State.putScrub (s : State) (x : Scrub) : State :=
  s.modPkg (fun p => { p with
    scrub := some x, scrubPos := scrubPosWord true x.owed x.vf x.next x.count (x.passed / 4096) })
/-- The end of a scrub: its resources are clean and no longer held, and its completion word is written unless the scrub
was owed. -/
def State.scrubEnd (s : State) (x : Scrub) : State :=
  let ks := x.regions.flatMap ScrubRegion.resources
  let s := s.modPkg (fun p => { p with
    res := ks.foldl (fun (t : Tab Res) k => t.put k { (t.get Res.free k) with clean := true }) p.res
    scrub := none, scrubPos := scrubPosWord false false x.vf x.count x.count 0 })
  if x.owed then s else s.scrubReport x.vf x.done (scrubWord 0 0 x.count)
/-- The engine passes over the next 8-byte unit of its region (R330, R331). -/
def State.scrubUnit (s : State) : State :=
  match s.scrubNow with
  | none => s
  | some x =>
    match x.regions[x.next]? with
    | none => s
    | some r =>
      if s.hostScrubs r || r.range.2 ≤ x.passed then s
      else (s.scrubRange (r.range.1 + x.passed) 8 (r.range.1 + r.range.2)).putScrub { x with passed := x.passed + 8 }
/-- SCRUB_REGION_DONE: the engine passes over what is left of its region, and the region is done; in host-assisted mode it
waits at a region of kind 4 until the host has zeroed it. After the last region the next act is the final step (R330,
R334). (DESIGN CHOICE, log entry 61) -/
def State.scrubRegionDone (s : State) : State :=
  match s.scrubNow with
  | none => s
  | some x =>
    match x.regions[x.next]? with
    | none => s.scrubEnd x
    | some r =>
      let host := s.hostScrubs r
      if host && !s.pkg.scrubGo.contains x.next then s
      else
        let s := if host then s else s.scrubRange (r.range.1 + x.passed) (r.range.2 - x.passed) (r.range.1 + r.range.2)
        let x' := { x with next := x.next + 1, passed := 0 }
        (s.putScrub x').modPkg (fun p => { p with scrubGo := p.scrubGo.filter (· != x.next) })

/-! A stopped core (R365 to R367). -/

/-- A thread that the repair ends, with MACHINE(2) and a record of its own. -/
def State.machineEnd (s : State) (u : Nat) : State := s.raiseFor u fMACHINE 2 0#64 3 0
/-- A slot of a stopped core, whose threads are intact (R365, step 2): an unpinned one becomes a ready record of its
family's parking list, and its helper is next; a pinned one goes by the slot spill path, or ends where that meets a fault.
How many ended. (DEDUCED, log entry 62) -/
def State.stopThreads (s : State) (q : Nat) : Nat → State × Nat
  | 0 => (s, 0)
  | n + 1 =>
    match (s.slotAt q).occ with
    | none => (s, 0)
    | some u =>
      if (s.threadAt u).killed then (s.endThread u .killed).stopThreads q n
      else if !(s.threadAt u).pinned then (s.park u false).stopThreads q n
      else
        let t := s.spillImage q u
        if (t.slotAt q).occ.isNone then (t, 0)
        else ((u :: (t.slotAt q).chain).foldl State.machineEnd t, 1 + (t.slotAt q).chain.length)
/-- May the Lodestar take what a slot holds: what its threads wait for before a move has come (R86, R265)? A claim of the
slot's on its way stays there. -/
def State.stopReady (s : State) (q : Nat) : Bool :=
  let x := s.slotAt q
  x.vpend.isEmpty && !s.framesOut q && (x.occ.toList ++ x.chain).all (fun u =>
    s.moveWait u == .none && (s.threadAt u).wait != .lease)
/-- A claim that a slot's occupant has sent no longer has it wait. -/
def State.stopClaim (s : State) (q : Nat) : State :=
  match (s.slotAt q).occ with
  | some u => (match (s.threadAt u).wait with
    | .claim _ => s.helperWaits u
    | _ => s)
  | none => s
/-- A slot of a stopped core: its threads leave it as soon as they may. How many ended. -/
def State.stopSlot (s : State) (q : Nat) : State × Nat :=
  let s := s.stopClaim q
  if s.stopReady q then s.stopThreads q 8 else (s, 0)
/-- The record of a repair (R367). -/
def State.repairRecord (s : State) (core outcome ended spare : Nat) : State :=
  s.addRecord
    { queue := 0, src := ((s.resAt (resCore core)).owner).getD 0, kind := 9, die := dieOfCore core, holder := .none
      awaits := false, stage := .unclaimed, page := 0, level := 0
      body := [word core, word outcome, word ended, word spare, 0#64, 0#64] }
/-- A range of a store that the repair leaves with open contents. -/
def State.openRange (s : State) (a n : Nat) : State :=
  (s.poke a ((List.range n).map (fun i => Config.openByte s.fresh i))).draw
/-- A cluster returns to the rotation, unless another core of it is under repair; its cores have issued nothing since
(R93, R365). -/
def State.clusterBack (s : State) (core : Nat) : State :=
  let cl := clusterOfCore core
  let s := s.modPkg (fun p => { p with repairs := p.repairs.filter (fun r => r.core != core) })
  let s := (List.range 8).foldl (fun (s : State) i => s.modCore (8 * cl + i) (fun c => { c with last := 15 })) s
  s.modCluster cl (fun x => { x with removed := s.pkg.repairs.any (fun r => clusterOfCore r.core == cl) })
/-- The cluster returns with a spare mapped in, whose caches and TLBs are empty: the stopped core's own stores were not
copied. (DEDUCED, log entry 62) -/
def State.mapSpare (s : State) (core spare : Nat) : State :=
  let s := s.modDie (dieOfCore core) (fun d => { d with spares := d.spares.filter (· != spare) })
  let s := (List.range 8).foldl (fun (s : State) i => s.modCore (8 * clusterOfCore core + i) (fun c => { c with
    icache := Cache.empty, dcache := Cache.empty, utlb := Tlb.empty })) s
  let s := (s.clusterBack core).modCluster (clusterOfCore core) (fun x => { x with spare := some spare, tlb := Tlb.empty })
  ((s.modCore core (fun c => { c with stopped := false })).openRange (localStore core) 196608).openRange
    (tileStore core) 131072
/-- The cluster returns without the stopped core: threads whose slot images wait for it end; records that wait in its
queues, and serial ones parked from it, go to the next core. How many ended. (DEDUCED, log entry 62) -/
def State.shrinkPlace (s : State) (core : Nat) : State × Nat :=
  let s := s.clusterBack core
  let here (t : Tab Slot) : List Nat := (t.filter (fun e => coreOfSlot e.1 == core)).flatMap (fun e => e.2.occ.toList ++ e.2.chain)
  let lost := s.funcs.flatMap (fun f => here f.2.spills ++ here f.2.loaded)
  let s := lost.foldl State.machineEnd s
  let away (t : Tab Slot) : Tab Slot := t.filter (fun e => coreOfSlot e.1 != core)
  let keep (f : Func) : Func := { f with spills := away f.spills, loaded := away f.loaded }
  let s := { s with funcs := s.funcs.map (fun (e : Nat × Func) => (e.1, keep e.2)) }
  let next := core / 8 * 8 + (core + 1) % 8
  let c := s.coreAt core
  let move (t : Thread) : Thread := match t.loc with
    | .parked x held => if t.serial && x == core then { t with loc := .parked next held } else t
    | _ => t
  let s := { s with threads := s.threads.map (fun (e : Nat × Thread) => (e.1, move e.2)) }
  let s := c.runq.foldl (fun (s : State) u => s.modThread u (fun t => { t with loc := .runq next })) s
  let s := c.serialq.foldl (fun (s : State) u => s.modThread u (fun t => { t with loc := .serialq next })) s
  let s := s.modCore next (fun x => { x with runq := x.runq ++ c.runq, serialq := x.serialq ++ c.serialq })
  (s.modCore core (fun x => { x with runq := [], serialq := [], deque := [] }), lost.length)
/-- The slots of a core. -/
def slotsOf (core : Nat) : List Nat := (List.range 16).map (16 * core + ·)
/-- The Lodestar goes on with a repair (R365): step 2 for the slots whose threads may leave; once all have, in host-assisted
mode it reports and waits (R402), else it maps a spare in or shrinks the place. -/
def State.repairGo (s : State) (core : Nat) : State :=
  match List.find? (fun r => r.core == core) s.pkg.repairs with
  | none => s
  | some r =>
    if r.held || r.asked then s
    else
      let x := (slotsOf core).foldl (fun (p : State × Nat) q =>
        let y := p.1.stopSlot q
        (y.1, p.2 + y.2)) (s, r.ended)
      let note (r' : Repair) : State := x.1.modPkg (fun p => { p with
        repairs := p.repairs.map (fun y => if y.core = core then r' else y) })
      if (slotsOf core).any (fun q => (x.1.slotAt q).occ.isSome) then note { r with ended := x.2 }
      else if (s.dutyAt 3).cur then (note { r with ended := x.2, asked := true }).repairRecord core 0 x.2 0
      else
        match (x.1.dieAt (dieOfCore core)).spares with
        | n :: _ => (x.1.mapSpare core n).repairRecord core 1 x.2 n
        | [] =>
          let y := x.1.shrinkPlace core
          y.1.repairRecord core 2 (x.2 + y.2) 0
/-- A repair begins: the cluster leaves the rotation, and the threads whose state fails its checks end. -/
def State.repairStart (s : State) (core bad : Nat) : State :=
  let s := s.modCluster (clusterOfCore core) (fun x => { x with removed := true })
  let x := ((slotsOf core).filter (fun q => bitOf bad (slotOfSlot q))).foldl (fun (p : State × Nat) q =>
    let us := (p.1.slotAt q).occ.toList ++ (p.1.slotAt q).chain
    (us.foldl State.machineEnd p.1, p.2 + us.length)) (s, 0)
  (x.1.modPkg (fun p => { p with
    repairs := p.repairs.filter (fun r => r.core != core) ++ [⟨core, 0, x.2, false, false⟩] })).repairGo core
/-- CORE_STOP: a core stops, and the Lodestar repairs its cluster; `bad` marks the slots whose state fails its checks. A
stop that comes while the duty drains waits for the new mode (R403). (DEDUCED, log entry 62) -/
def State.coreStop (s : State) (core bad : Nat) : State :=
  if Config.coreCount ≤ core || (s.coreAt core).stopped then s
  else
    let s := s.modCore core (fun c => { c with stopped := true })
    if (s.dutyAt 3).draining then
      (s.modCluster (clusterOfCore core) (fun x => { x with removed := true })).modPkg (fun p => { p with
        repairs := p.repairs ++ [⟨core, bad, 0, true, false⟩] })
    else s.repairStart core bad
/-- REPAIR: the host's choice for the repair that has waited longest, 1 a spare or 2 to shrink. -/
def State.repairWrite (s : State) (w : Word) : State :=
  match s.pkg.repairs.find? Repair.asked with
  | none => s
  | some r =>
    match w.toNat, (s.dieAt (dieOfCore r.core)).spares with
    | 1, n :: _ => s.mapSpare r.core n
    | 2, _ => (s.shrinkPlace r.core).1
    | _, _ => s

/-! The end of a drain (R403). -/

/-- What came while a duty drained goes to its new mode. -/
def State.dutyTakes (s : State) (n : Nat) : State :=
  match n with
  | 0 => { s with records := s.records.map (fun e =>
      (e.1, if e.2.stage == .held then { e.2 with stage := if (s.dutyAt 0).cur then .unclaimed else .service } else e.2)) }
  | 2 => s.modPkg (fun p => { p with scrub := p.scrub.map (fun x => { x with held := false }) })
  | 3 => (s.pkg.repairs.filter Repair.held).foldl (fun (s : State) r => s.repairStart r.core r.bad) s
  | 5 => s.pkg.heldColl.foldl (fun (s : State) e => s.collMessage e.1 e.2.1 e.2.2.1 e.2.2.2.1 e.2.2.2.2)
      (s.modPkg (fun p => { p with heldColl := [] }))
  | _ =>
    let now := s.pkg.heldWork.filter (fun e => e.1 == n)
    now.foldl (fun (s : State) e => s.dutyWork n e.2)
      (s.modPkg (fun p => { p with heldWork := p.heldWork.filter (fun e => e.1 != n) }))
/-- DUTY_DRAIN_END: a draining duty's mode changes to the one last requested, once the work of the old mode is done. -/
def State.dutyDrainEnd (s : State) (n : Nat) : State :=
  let d := s.dutyAt n
  if 6 ≤ n || !d.draining || !s.dutyDrained n then s
  else (s.modPkg (fun p => { p with duties := p.duties.set n ⟨false, d.req, d.req⟩ })).dutyTakes n

/-! Device memory (R369). -/

/-- What the host may reach: device memory, and its own (R148, R369). -/
def State.hostReaches (s : State) (a : Nat) : Bool := s.populated a && (a < 2 ^ 42 || isHost a)
/-- An access of the host that waits behind a write that a link holds, in the host's order (R369, R371). -/
def State.holdHost (s : State) (i : HostAct) : State := s.modPkg (fun p => { p with hostHeld := p.hostHeld ++ [i] })
/-- The lines of a host write, in order: raw bytes; what is unpopulated is dropped, and from the first line that would go
over a CXL link that is down the write is held (R369, R371). -/
def State.hostLines (s : State) : List (Nat × Nat) → List Byte → State
  | [], _ => s
  | r :: rs, bs =>
    if s.hostReaches r.1 && s.linkDown r.1 then s.holdHost (.memory true r.1 bs.length (ofBytes bs))
    else (if s.hostReaches r.1 then s.homeWrite 0 (word r.1) none r.1 (bs.take r.2) else s).hostLines rs (bs.drop r.2)
/-- A host write to device memory or to its own. -/
def State.hostWrite (s : State) (a : Nat) (bs : List Byte) : State := s.hostLines (runsOf a bs.length) bs
/-- HOST_MEMORY_ACCESS: a read changes nothing. -/
def State.hostAccess (s : State) (wr : Bool) (a len v : Nat) : State :=
  if wr then s.hostWrite a (toBytes len v) else s
/-- What a host read brings: an arena entry's bytes where one stands (R66), ciphertext of an encrypted page, zeros where
nothing is populated; and no bytes, but poison, where an uncorrectable error or a link that is down stands in the way
(R346, R369, R371). A read behind a write that a link holds has not come to its turn, and brings nothing yet (R369).
(DEDUCED, log entry 33) -/
def State.hostRead (s : State) (a n : Nat) : Option (List Byte) :=
  let t := s.families.foldl (fun (t : State) e => t.entryShown e.1) s
  if s.poisoned a n || !s.pkg.hostHeld.isEmpty then none
  else some ((List.range n).map (fun i => if s.hostReaches (a + i) then t.byteAt (a + i) else 0#8))

/-! Links, ports and peers (R368, R371, R372, R379). -/

def State.ucieFails (s : State) (m : Nat) : State := s.modPkg (fun p => { p with ucie := p.ucie.set m false })
def State.cxlLink (s : State) (port : Nat) (up : Bool) : State := s.modPkg (fun p => { p with cxl := p.cxl.set port up })
/-- The writes of the device's own agents that a link held are applied, in order, as it comes up (R371). -/
def State.releaseAgents (s : State) : State :=
  ((s.reqs.filter (fun e => e.2.engine == some agentName)).map Prod.fst).foldl
    (fun (s : State) id => s.serveAtHome id (fun _ => true)) s
def State.peerAt (s : State) (pkg : Nat) : Peer := s.pkg.peers.get ⟨false, 0⟩ pkg
def State.putPeer (s : State) (pkg : Nat) (x : Peer) : State := s.modPkg (fun p => { p with peers := p.peers.put pkg x })
/-- A peer is lost; a gang that waits for its coordinator there aborts (R381). -/
def State.peerLost (s : State) (pkg : Nat) : State :=
  (List.range Config.functions).foldl (fun (s : State) vf => s.gangOrphan pkg vf)
    (s.putPeer pkg { s.peerAt pkg with lost := true })
/-- RANK_LOST: a lost rank stops the operations of its groups (R379). -/
def State.rankLostEvent (s : State) (pkg : Nat) : State := if (s.peerAt pkg).lost then s.rankLost pkg else s
/-- KEEPALIVE: one is answered, or not; the sixteenth in a row that is not makes the peer lost. -/
def State.keepalive (s : State) (pkg : Nat) (answered : Bool) : State :=
  let x := s.peerAt pkg
  let n := if answered then 0 else x.unanswered + 1
  let s := s.putPeer pkg { x with unanswered := n }
  if 16 ≤ n then s.peerLost pkg else s
/-- Is every port to a peer down (R372)? -/
def State.cutOff (s : State) (pkg : Nat) : Bool :=
  (List.range 18).all (fun i => Config.portPeer i != pkg || !s.pkg.ports.getD i false)
/-- The ports as a start leaves them: a peer to which none leads is lost (R372, R397). -/
def State.setPorts (s : State) (up : List Bool) : State :=
  let s := s.modPkg (fun p => { p with ports := up })
  (List.range 18).foldl (fun (s : State) i =>
    let pkg := Config.portPeer i
    if s.cutOff pkg && !(s.peerAt pkg).lost then s.peerLost pkg else s) s
/-- PEER_PORT_DOWN: a port goes down; a peer that no port leads to any more is lost. -/
def State.portDown (s : State) (port : Nat) : State :=
  let s := s.modPkg (fun p => { p with ports := p.ports.set port false })
  if s.cutOff (Config.portPeer port) then s.peerLost (Config.portPeer port) else s
def State.portUp (s : State) (port : Nat) : State := s.modPkg (fun p => { p with ports := p.ports.set port true })
/-- PEER_ADMIT: the host admits a lost peer again. -/
def State.peerAdmit (s : State) (pkg : Nat) : State := s.putPeer pkg ⟨false, 0⟩
/-- ALLRED_MESSAGE: a contribution arrives; a lost peer's frames are refused, and one to a collective that has not begun here
waits while duty 5 drains (R403). -/
def State.collArrives (s : State) (pkg gid seq chunk rank : Nat) (p : CollPart) : State :=
  if (s.peerAt pkg).lost then s
  else if s.collHolds gid seq then s.modPkg (fun x => { x with heldColl := x.heldColl ++ [(gid, seq, chunk, rank, p)] })
  else s.collMessage gid seq chunk rank p

/-! Power gating (R76). -/

/-- Has a core an occupied slot, or a claim of its own not yet acknowledged (R76)? -/
def State.coreInUse (s : State) (core : Nat) : Bool :=
  (slotsOf core).any (fun q => (s.slotAt q).occ.isSome || (s.slotAt q).reserved.isSome) ||
  s.families.any (fun f => f.2.claims.any (fun c => c.2.core == core))
/-- A gating request that waits takes effect once the core is idle (R76). -/
def State.gate (s : State) (core : Nat) : State :=
  if !(s.coreAt core).gateReq || s.coreInUse core then s
  else s.modCore core (fun c => { c with gateReq := false, gated := true })
/-- GATING_REQUEST: a core is gated once it has no occupied slot and no claim outstanding; until then the request waits.
(DESIGN CHOICE, log entry 46) -/
def State.gatingRequest (s : State) (core : Nat) : State :=
  if Config.coreCount ≤ core then s else (s.modCore core (fun c => { c with gateReq := true })).gate core

end Sys2Proof.Machine
end

