-- ==== Sys2Proof/Machine/Boot.lean ====
section
/-! DEFINITION. The start and its boot record (R397 to R400, R334), attestation (R401), power and temperature (R404,
R405), and the management space (R370, R406). -/

namespace Sys2Proof.Machine

/-! The boot record (R398). -/

/-- Result codes: 0 not run, 1 begun, 2 ok, 3 failed, 4 skipped, 5 alternative taken. -/
def State.bootResult (s : State) (i : Nat) : Nat := (s.pkg.boot.get (0, 0) i).1
def State.bootWrite (s : State) (i result : Nat) : State :=
  s.modPkg (fun p => { p with boot := p.boot.put i (result, (p.boot.get (0, 0) i).2) })
/-- A step's entry reads begun, with one more attempt. -/
def State.bootBegin (s : State) (i : Nat) : State :=
  s.modPkg (fun p => { p with bootNext := i, boot := p.boot.put i (1, (p.boot.get (0, 0) i).2 + 1) })
/-- The start halts before, or at, a step: an owed scrub stands still until step 5 runs again. (DESIGN CHOICE, log entry
83) -/
def State.bootHalt (s : State) (i : Nat) : State :=
  s.modPkg (fun p => { p with
    bootNext := i, halt := true, haltStep := i, scrub := p.scrub.map (fun x => { x with kept := true }) })
/-- A duty takes its mode at its step. -/
def State.setDuty (s : State) (n : Nat) (host : Bool) : State :=
  s.modPkg (fun p => { p with duties := p.duties.set n ⟨false, host, host⟩ })
/-- An optional step that does not succeed leaves its resources absent: second tier, or ports, and with them their peers. -/
def State.bootAbsent (s : State) (i : Nat) : State :=
  if i = 12 then s.modPkg (fun p => { p with cxl := List.replicate 8 false, cxlFit := List.replicate 8 false })
  else s.setPorts (List.replicate 18 false)
/-- Step 5 begins: the owed scrub, in the mode that the last start's record gives (R334, R399). -/
def State.beginOwed (s : State) (last5 : Nat) : State :=
  let s := s.modPkg (fun p => { p with duties := p.duties.set 2 ⟨false, s.bootResult 8 == 5 || last5 == 3, false⟩ })
  match s.pkg.scrub with
  | none => s
  | some x => s.modPkg (fun p => { p with
      scrub := some { x with owed := true, done := none, passed := 0, held := false, kept := false }, scrubGo := []
      scrubPos := scrubPosWord true true x.vf x.next x.count 0 })
/-- The start comes to step `i`: its entry of the last start decides whether it runs, is passed over, takes its
alternative, or halts the start (R398). -/
def State.bootStep (s : State) (i : Nat) : Nat → State
  | 0 => s
  | fuel + 1 =>
    if 15 ≤ i then s.modPkg (fun p => { p with bootNext := 15 })
    else
      let last := s.bootResult i
      if last = 1 ∨ last = 3 then
        if i = 12 ∨ i = 13 then ((s.bootWrite i 4).bootAbsent i).bootStep (i + 1) fuel
        else if 6 ≤ i ∧ i ≤ 11 then (((s.bootBegin i).bootWrite i 5).setDuty (i - 6) true).bootStep (i + 1) fuel
        else if i = 5 then (s.bootBegin 5).beginOwed last
        else s.bootHalt i
      else if i = 5 then (s.bootBegin 5).beginOwed last
      else s.bootBegin i

/-! START (R397). -/

/-- A reset of the package (R203, R326, R327, R398): what lives in persistent store, fuses and memory stays; key slots are
emptied, unowned and clean, and every byte of the tile files is zero. A scrub that ran is kept for step 5 (R334). (DESIGN
CHOICE, log entry 63) -/
def State.powerUp (s : State) : State :=
  { State.reset with
    mem := s.mem.filter (fun e => e.1 < 2 ^ 61), nums := s.nums, latest := s.latest
    bad := s.bad.filter (fun u => 64 * u < 2 ^ 61), dirty := s.dirty, agenda := s.agenda, fresh := s.fresh, nextId := s.nextId
    pkg := { Package.blank with
      res := s.pkg.res.filter (fun e => e.1 < 2 ^ 24), scrub := s.pkg.scrub.map (fun x => { x with kept := true })
      boot := s.pkg.boot, starts := s.pkg.starts
      trips := s.pkg.trips, image := s.pkg.image, signature := s.pkg.signature, version := s.pkg.version
      fuse := s.pkg.fuse } }
/-- The firmware check of step 0 (R400). -/
def Package.imageGood (p : Package) : Bool := Config.sm2Verify (sm3 p.image ++ p.signature) && p.fuse ≤ p.version
/-- What a step that has run leaves, beside its result: `mask` names the spare clusters in use (step 2, two bits a die),
the UCIe modules (step 4), CXL ports (step 12) and scale-out ports (step 13) that work. -/
def State.bootEffect (s : State) (i mask : Nat) : State :=
  match i with
  | 0 => s.modPkg (fun p => { p with fuse := max p.fuse p.version })
  | 2 => (List.range Config.dies).foldl (fun (s : State) d => s.modDie d (fun x => { x with
      spares := (if bitOf mask (2 * d) then [] else [64]) ++ (if bitOf mask (2 * d + 1) then [] else [65]) })) s
  | 4 => s.modPkg (fun p => { p with ucie := (List.range 4).map (bitOf mask) })
  | 12 => s.modPkg (fun p => { p with cxl := (List.range 8).map (bitOf mask), cxlFit := (List.range 8).map (bitOf mask) })
  | 13 => s.setPorts ((List.range 18).map (bitOf mask))
  | _ => if 6 ≤ i ∧ i ≤ 11 then s.setDuty (i - 6) false else s
/-- Does a step that runs succeed? Step 0 by its checks, steps 12 and 13 when every port works, any other as `ok` says. -/
def State.bootOk (s : State) (i mask : Nat) (ok : Bool) : Bool :=
  match i with
  | 0 => s.pkg.imageGood
  | 12 => ok && mask % 2 ^ 8 == 2 ^ 8 - 1
  | 13 => ok && mask % 2 ^ 18 == 2 ^ 18 - 1
  | _ => ok
/-- The step that has begun comes to its end, and the start goes on to the next (R397, R398). (DEDUCED, log entry 64) -/
def State.bootRun (s : State) (ok : Bool) (mask : Nat) : State :=
  let i := s.pkg.bootNext
  if s.pkg.halt || 15 ≤ i || s.bootResult i != 1 || (i == 5 && ok && s.pkg.scrub.isSome) then s
  else if s.bootOk i mask ok then ((s.bootEffect i mask).bootWrite i 2).bootStep (i + 1) 16
  else if i = 12 ∨ i = 13 then
    ((if ok then s.bootEffect i mask else s.bootAbsent i).bootWrite i 3).bootStep (i + 1) 16
  else (s.bootWrite i 3).bootHalt i
/-- START: a reset or power-up begins the start (`again`), or the step that has begun ends with a result. -/
def State.start (s : State) (again ok : Bool) (mask : Nat) : State :=
  if again then (s.powerUp.modPkg (fun p => { p with starts := p.starts + 1 })).bootStep 0 16
  else s.bootRun ok mask
/-- BOOTCLR: the host clears the halted step's entry, and the start runs the step again (R398). (DEDUCED, log entry 64) -/
def State.bootclr (s : State) (w : Word) : State :=
  if !s.pkg.halt || w.toNat != s.pkg.haltStep then s
  else
    ((s.modPkg (fun p => { p with halt := false, haltStep := 0xFF })).bootWrite s.pkg.haltStep 0).bootStep
      s.pkg.haltStep 16
/-- FIRMWARE_IMAGE_WRITE: the host writes an image, with its signature and version (R400). -/
def State.imageWrite (s : State) (len v sig version : Nat) : State :=
  s.modPkg (fun p => { p with image := toBytes len v, signature := toBytes 64 sig, version := version })

/-! Attestation (R401). -/

/-- The boot record, as numbers: each step's result and attempts, the trips, and the scrub entry. -/
def State.bootEntries (s : State) : List (Nat × Nat) :=
  (List.range 15).map (fun i => s.pkg.boot.get (0, 0) i) ++ [(s.pkg.trips, 0)] ++
  (match s.pkg.scrub with
   | none => []
   | some x => (x.vf, x.count) :: (x.next, 0) :: x.regions.map (fun r => (r.map.toNat, r.base.toNat)))
/-- The report's first 128 bytes, and the signature over their digest. The boot record's bytes are open, one string for each
record. (DESIGN CHOICE, log entry 8) -/
def State.attestReport (s : State) (a : Nat) : List Byte :=
  let nonce := s.peek (2 ^ 51 + a + 192) 32
  let head := nonce ++ sm3 s.pkg.image ++ sm3 (Config.bootBytes s.bootEntries) ++
    wordBytes [word s.pkg.pkgId, word s.pkg.fuse, word s.pkg.starts, 0#64]
  head ++ toBytes 64 (Config.sm2Sign (sm3 head)).toNat
/-- ATTEST: the report is written at a host physical address. -/
def State.attest (s : State) (w : Word) : State := s.deviceWrite (2 ^ 51 + w.toNat) (s.attestReport w.toNat)

/-! Power and temperature (R404, R405). -/

/-- A die at 115 °C resets the package; the next start records the trip and runs every step normally. (DESIGN CHOICE, log
entry 63) -/
def State.thermalTrip (s : State) : State :=
  let s := s.modPkg (fun p => { p with
    trips := p.trips + 1
    boot := p.boot.map (fun e => (e.1, if e.2.1 = 1 ∨ e.2.1 = 3 then (0, e.2.2) else e.2)) })
  s.start true true 0
/-- A reading: PWRSTAT shows it, the device throttles exactly while it says so, and a die at 115 °C resets the package.
(DESIGN CHOICE, log entry 66) -/
def State.powerReading (s : State) (power temp die : Nat) : State :=
  if 115 ≤ temp then s.thermalTrip
  else s.modPkg (fun p => { p with
    pwrstat := word (temp % 256 * 2 ^ 36 + die % 16 * 2 ^ 32 + power % 65536)
    throttle := p.pwrcap < power || 100 ≤ temp })

/-! The management space (R370, R406). -/

/-- Function 0's context registers at 0x1100. -/
def ctxField (i : Nat) : Nat := if i = 7 then 0x10E else 0x103 + i
/-- A host write to a field of function 0's page. -/
def State.packageWrite (s : State) (o : Nat) (w : Word) : State :=
  if 0x1000 ≤ o ∧ o < 0x1030 ∧ o % 8 = 0 then s.dutyWrite ((o - 0x1000) / 8) w
  else if 0x1100 ≤ o ∧ o < 0x1140 ∧ o % 8 = 0 then
    let k := ctxField ((o - 0x1100) / 8)
    if rsvSet k w then s
    else
      match s.ctxWrite k 0 w with
      | .ok t => t
      | .error _ => s
  else
    match o with
    | 0x1040 => s.slotq w
    | 0x1048 => s.scrubGoWrite w
    | 0x1050 => s.repairWrite w
    | 0x1058 => s.spillWrite w
    | 0x1060 => s.bootclr w
    | 0x1068 => s.attest w
    | 0x1070 =>
      (match s.pwrcapWrite w with
       | .ok t => t
       | .error _ => s)
    | 0x1080 => s.assignWrite w
    | _ => if o = Config.packageIdOffset then s.modPkg (fun p => { p with pkgId := w.toNat % 256 }) else s
/-- MANAGEMENT_WRITE: a host write of a dword at an offset of the management space; one to a field that is not listed, or
that is read-only, changes nothing. -/
def State.managementWrite (s : State) (off : Nat) (w : Word) : State :=
  let vf := off / 2 ^ 16
  let o := off % 2 ^ 16
  if 64 ≤ vf then s
  else if o < 0x400 then
    (match o % 64 with
     | 0x00 => s.modQueue vf (o / 64) (fun x => { x with base := w &&& ~~~63#64 })
     | 0x08 => s.queueControl vf (o / 64) w
     | 0x10 => s.queueDoorbell vf (o / 64) w
     | 0x28 => s.modQueue vf (o / 64) (fun x => { x with doneaddr := w })
     | _ => s)
  else
    match o with
    | 0x408 => s.modFunc vf (fun f => { f with fqhead := w })
    | 0x410 => s.modFunc vf (fun f => { f with ansrec := w })
    | 0x418 => s.modFunc vf (fun f => { f with ansval := w })
    | 0x420 => s.answerDoorbell vf w
    | 0x430 => if w.toNat % 8 = 0 ∧ w.toNat < 2 ^ 51 then s.modFunc vf (fun f => { f with notify := w }) else s
    | 0x440 => s.modFunc vf (fun f => { f with gangdesc := w })
    | 0x448 => s.gangctlWrite vf w
    | _ => if vf = 0 then s.packageWrite o w else s
/-- What a host read of a dword of the management space brings. -/
def State.managementRead (s : State) (off : Nat) : Word :=
  let vf := off / 2 ^ 16
  let o := off % 2 ^ 16
  let f := s.funcAt vf
  if o < 0x400 then
    let x := f.queueAt (o / 64)
    match o % 64 with
    | 0x00 => x.base
    | 0x08 => x.control
    | 0x10 => x.tail
    | 0x18 => x.head
    | 0x20 => x.done
    | 0x28 => x.doneaddr
    | 0x30 => x.error
    | _ => 0#64
  else
    match o with
    | 0x400 => f.fqtail
    | 0x408 => f.fqhead
    | 0x410 => f.ansrec
    | 0x418 => f.ansval
    | 0x428 => word (f.ansres * 2 ^ 62)
    | 0x430 => f.notify
    | 0x440 => f.gangdesc
    | 0x448 => f.gangctl
    | 0x450 => f.gangstat
    | _ =>
      if vf != 0 then 0#64
      else if 0x1000 ≤ o ∧ o < 0x1030 ∧ o % 8 = 0 then (s.dutyAt ((o - 0x1000) / 8)).word
      else
        match o with
        | 0x1030 => s.bootstat
        | 0x1038 => s.pkg.scrubPos
        | 0x1070 => word s.pkg.pwrcap
        | 0x1078 => s.pkg.pwrstat
        | 0x1088 => word (s.pkg.assignRes * 2 ^ 62)
        | 0x1100 => s.ctxctl 0
        | 0x1108 => f.ctxroot
        | 0x1110 => f.arena
        | 0x1118 => f.slotarea
        | 0x1120 => f.fqbase
        | 0x1128 => f.fqctl
        | 0x1130 => f.fqhead
        | 0x1138 => f.frames
        | _ => if o = Config.packageIdOffset then word s.pkg.pkgId else 0#64

end Sys2Proof.Machine
end

