-- ==== Sys2Proof/Machine/Events.lean ====
section
/-! DEFINITION. The events: the acts of cores, homes, engines, queues and the Lodestar, and the inputs of the host and of
other packages, each a row of the opcode table. An event whose message, operation or condition is not there changes
nothing. -/

namespace Sys2Proof.Machine

/-! Kinds of request. -/

def ReqKind.isAtom : ReqKind → Bool
  | .atom _ => true
  | _ => false
def ReqKind.isWait : ReqKind → Bool
  | .wait _ => true
  | .waitSeq _ _ => true
  | _ => false
def ReqKind.isHacc : ReqKind → Bool
  | .hacc _ _ => true
  | _ => false
/-- A store, a window frame's or an element's of a reducing copy among them (R152, R194). -/
def ReqKind.isStore : ReqKind → Bool
  | .store => true
  | .frameWrite => true
  | .red _ _ _ => true
  | _ => false
/-! The host's accesses (R369). -/

/-- What an access of the host does when its turn comes. -/
def State.hostEvent (s : State) : HostAct → State
  | .memory wr a len v => s.hostAccess wr a len v
  | .management off w => s.managementWrite off w
  | .answer vf w => s.answerDoorbell vf w
  | .tail vf q w => s.queueDoorbell vf q w
  | .control vf q w => s.queueControl vf q w
  | .gangctl vf w => s.gangctlWrite vf w
  | .duty n w => s.dutyWrite n w
  | .assign w => s.assignWrite w
  | .slotq w => s.slotq w
  | .spill w => s.spillWrite w
  | .scrubGo w => s.scrubGoWrite w
  | .repair w => s.repairWrite w
  | .bootclr w => s.bootclr w
  | .attest w => s.attest w
  | .peerAdmit pkg => s.peerAdmit pkg
  | .image len v sig version => s.imageWrite len v sig version
/-- Die 0 applies the host's accesses in the order in which the host issued them: one comes to its turn at once, or waits
behind a write that a link holds (R369, R371). -/
def State.fromHost (s : State) (i : HostAct) : State := if s.pkg.hostHeld.isEmpty then s.hostEvent i else s.holdHost i
/-- A link is up: the writes that it held are applied, the host's with what waited behind them in the host's order. -/
def State.releaseHeld (s : State) : State :=
  let s := s.releaseAgents
  s.pkg.hostHeld.foldl State.fromHost (s.modPkg (fun p => { p with hostHeld := [] }))

/-- COPY_FORK of an operation of the copy unit (0) or the matrix engine (1). -/
def State.forkEngine (s : State) (unit cl e : Nat) : State :=
  match unit with
  | 0 => s.forkCopy cl e
  | 1 => s.forkJob cl e
  | _ => s
/-- THROTTLE: a reading above the cap or at 100 °C; THROTTLE_END: one that is neither; one of 115 °C or more is
a trip, whichever row brings it (R405). (DESIGN CHOICE, log entry 66) -/
def State.throttleOn (s : State) (power temp die : Nat) : State :=
  if s.pkg.pwrcap < power ∨ 100 ≤ temp then s.powerReading power temp die else s
def State.throttleOff (s : State) (power temp die : Nat) : State :=
  if temp < 115 ∧ (s.pkg.pwrcap < power ∨ 100 ≤ temp) then s else s.powerReading power temp die

/-! The rows. -/

/-- PREEMPT_REMOVE (R356). -/
def execPreemptRemove (s : State) : Out := .next s.preemptRemove
/-- PREEMPT_RESTORE (R356). -/
def execPreemptRestore (s : State) : Out := .next s.preemptRestore
/-- PREEMPT_SAVE_IMAGE (R361). -/
def execPreemptSaveImage (s : State) : Out := .next s.preemptSave
/-- PREEMPT_LOAD_IMAGE (R361). -/
def execPreemptLoadImage (s : State) : Out := .next s.preemptLoad
/-- IDLE_TURN (R93). -/
def execIdleTurn (core : Nat) (s : State) : Out := .next (s.idleIf core)
/-- ROTATION_BOUNDARY (R314). -/
def execRotationBoundary (core : Nat) (s : State) : Out := .next (s.rotationBoundary core)
/-- REPLY_LANDS (R34). -/
def execReplyLands (id : Nat) (s : State) : Out := .next (s.landReply id)
/-- STORE_ACKNOWLEDGED (R152). -/
def execStoreAcknowledged (id : Nat) (s : State) : Out := .next (s.storeAcked id)
/-- DIVIDE_RESULT_LANDS (R137). -/
def execDivideResultLands (core : Nat) (s : State) : Out := .next (s.divideLands core)
/-- CODE_FETCH_LANDS (R154). -/
def execCodeFetchLands (id : Nat) (s : State) : Out := .next (s.fetchLands id)
/-- LOAD_AT_HOME (R149). -/
def execLoadAtHome (id : Nat) (s : State) : Out := .next (s.serveAtHome id (fun k => k == .load || k == .vload || k == .frameRead))
/-- STORE_AT_HOME (R152). -/
def execStoreAtHome (id : Nat) (s : State) : Out := .next (s.serveAtHome id ReqKind.isStore)
/-- EGRESS_LOAD (R262). -/
def execEgressLoad (id : Nat) (s : State) : Out := .next (s.egressLoad id)
/-- INGRESS_RELEASE (R263). -/
def execIngressRelease (id : Nat) (s : State) : Out := .next (s.ingressRelease id)
/-- ATOMIC_AT_HOME (R268). -/
def execAtomicAtHome (id : Nat) (s : State) : Out := .next (s.serveAtHome id ReqKind.isAtom)
/-- COMBINER_GROUP_CLOSE (R271). -/
def execCombinerGroupClose (id : Nat) (s : State) : Out := .next (s.groupCloses id)
/-- PREDICTOR_ENTRY_DROP (R271). -/
def execPredictorEntryDrop (cl line : Nat) (s : State) : Out := .next (s.predictorDrop cl line)
/-- LDFE_AT_HOME (R166). -/
def execLdfeAtHome (id : Nat) (s : State) : Out := .next (s.serveAtHome id (· == .ldfe))
/-- STFE_AT_HOME (R166). -/
def execStfeAtHome (id : Nat) (s : State) : Out := .next (s.serveAtHome id (· == .stfe))
/-- TKGET_AT_HOME (R251). -/
def execTkgetAtHome (id : Nat) (s : State) : Out := .next (s.serveAtHome id (· == .tkget))
/-- TKWAIT_AT_HOME (R251). -/
def execTkwaitAtHome (id : Nat) (s : State) : Out := .next (s.serveAtHome id (· == .tkwait))
/-- TKADV_AT_HOME (R251). -/
def execTkadvAtHome (id : Nat) (s : State) : Out := .next (s.serveAtHome id (· == .tkadv))
/-- WAIT_AT_HOME (R274). -/
def execWaitAtHome (id : Nat) (s : State) : Out := .next (s.serveAtHome id ReqKind.isWait)
/-- LKACQ_AT_HOME (R277). -/
def execLkacqAtHome (id : Nat) (s : State) : Out := .next (s.serveAtHome id (· == .lkacq))
/-- LKREL_AT_HOME (R277). -/
def execLkrelAtHome (id : Nat) (s : State) : Out := .next (s.serveAtHome id (· == .lkrel))
/-- BAR_JOIN_AT_HOME (R280). -/
def execBarJoinAtHome (id : Nat) (s : State) : Out := .next (s.serveAtHome id (· == .barJoin))
/-- BAR_ARRIVE_AT_HOME (R280). -/
def execBarArriveAtHome (id : Nat) (s : State) : Out := .next (s.serveAtHome id (· == .barArrive))
/-- BAR_DROP_AT_HOME (R280). -/
def execBarDropAtHome (id : Nat) (s : State) : Out := .next (s.serveAtHome id (· == .barDrop))
/-- HACC_AT_HOME (R182). -/
def execHaccAtHome (id : Nat) (s : State) : Out := .next (s.serveAtHome id ReqKind.isHacc)
/-- ARMED_REPLY_LANDS (R253). -/
def execArmedReplyLands (id : Nat) (s : State) : Out := .next (s.landArmed id)
/-- SERVED_ANSWER_LANDS (R253). -/
def execServedAnswerLands (id : Nat) (s : State) : Out := .next (s.landAnswer id)
/-- LDLO_AT_HOME (R287). -/
def execLdloAtHome (id : Nat) (s : State) : Out := .next (s.serveAtHome id (· == .ldlo))
/-- STLO_AT_HOME (R292). -/
def execStloAtHome (id : Nat) (s : State) : Out := .next (s.serveAtHome id ReqKind.isStlo)
/-- LDLO_REPLY_LANDS (R297). -/
def execLdloReplyLands (id : Nat) (s : State) : Out := .next (s.landLdlo id)
/-- LATEST_ONLY_ACK_LANDS (R288). -/
def execLatestOnlyAckLands (id : Nat) (s : State) : Out := .next (s.landLatest id)
/-- IN_TRANSIT_DISCARD (R294). -/
def execInTransitDiscard (id : Nat) (s : State) : Out := .next (s.inTransit id)
/-- TRANSLATION_WALK (R339). -/
def execTranslationWalk (id : Nat) (s : State) : Out := .next (s.walkRun id)
/-- WALK_RESULT_LANDS (R342). -/
def execWalkResultLands (id : Nat) (s : State) : Out := .next (s.walkLands id)
/-- CLAIM_AT_HOME (R73). -/
def execClaimAtHome (id : Nat) (s : State) : Out := .next (s.claimHome id)
/-- CORE_CLAIM (R74). -/
def execCoreClaim (core : Nat) (s : State) : Out := .next (s.coreClaim core)
/-- STEAL (R74). -/
def execSteal (core : Nat) (s : State) : Out := .next (s.steal core)
/-- CLAIM_LANDS (R76). -/
def execClaimLands (id : Nat) (s : State) : Out := .next (s.claimLands id)
/-- CLAIM_ACK_AT_HOME (R76). -/
def execClaimAckAtHome (id : Nat) (s : State) : Out := .next (s.claimAck id)
/-- LEASE_EXPIRY (R76). -/
def execLeaseExpiry (thread : Nat) (s : State) : Out := .next (s.leaseExpires thread)
/-- DEPENDENT_FILL_LANDS (R408). -/
def execDependentFillLands (id : Nat) (s : State) : Out := .next (s.depLands id)
/-- PASS_THROUGH_FORWARD (R79). -/
def execPassThroughForward (id : Nat) (s : State) : Out := .next (s.depForward id)
/-- STUB_RESEND (R87). -/
def execStubResend (id : Nat) (s : State) : Out := .next (s.stubResend id)
/-- END_REPORT_AT_HOME (R81). -/
def execEndReportAtHome (id : Nat) (s : State) : Out := .next (s.reportHome id)
/-- FAMILY_FILL_LANDS (R59). -/
def execFamilyFillLands (id : Nat) (s : State) : Out := .next (s.fillLands id)
/-- HWAIT_ANSWER_LANDS (R106). -/
def execHwaitAnswerLands (id : Nat) (s : State) : Out := .next (s.answerLands id)
/-- BREAK_AT_HOME (R60). -/
def execBreakAtHome (id : Nat) (s : State) : Out := .next (s.breakHome id)
/-- KILL_AT_HOME (R82). -/
def execKillAtHome (id : Nat) (s : State) : Out := .next (s.killHome id)
/-- KILL_REACHES_MEMBER (R61). -/
def execKillReachesMember (id : Nat) (s : State) : Out := .next (s.killLands id)
/-- MIGRATION_ARRIVAL (R90). -/
def execMigrationArrival (id : Nat) (s : State) : Out := .next (s.migrationArrives id)
/-- COPY_FORK (R199). -/
def execCopyFork (unit cl e : Nat) (s : State) : Out := .next (s.forkEngine unit cl e)
/-- COPY_CHUNK_CHECK (R190). -/
def execCopyChunkCheck (cl e chunk : Nat) (s : State) : Out := .next (s.copyCheck cl e chunk)
/-- COPY_CHUNK_WRITE (R190). -/
def execCopyChunkWrite (cl e chunk : Nat) (s : State) : Out := .next (s.copyWrite cl e chunk)
/-- COPY_COMPLETE (R189). -/
def execCopyComplete (cl e : Nat) (s : State) : Out := .next (s.copyComplete cl e)
/-- ENGINE_HANDLE_FILL_LANDS (R200). -/
def execEngineHandleFillLands (id : Nat) (s : State) : Out := .next (s.engineLands id)
/-- JOB_START (R208). -/
def execJobStart (cl e : Nat) (s : State) : Out := .next (s.startJob cl e)
/-- TILE_ROW_TRANSFER (R212). -/
def execTileRowTransfer (cl e r : Nat) (s : State) : Out := .next (s.moveRow cl e r)
/-- JOB_END (R208). -/
def execJobEnd (cl e : Nat) (s : State) : Out := .next (s.endJob cl e)
/-- JOB_HANDLE_FILL (R209). -/
def execJobHandleFill (cl e : Nat) (s : State) : Out := .next (s.fillJob cl e)
/-- SNOWPLOUGH_STEP (R321). -/
def execSnowploughStep (die : Nat) (s : State) : Out := .next (s.slewStep die)
/-- LEVEL2_REPLY_RELEASE (R320). -/
def execLevel2ReplyRelease (id : Nat) (s : State) : Out := .next (s.releaseReply id)
/-- FAULT_RECORD_CLAIM (R349). -/
def execFaultRecordClaim (id : Nat) (s : State) : Out := .next (s.claimRecord id)
/-- PAGING_SERVICE (R354). -/
def execPagingService (id : Nat) (s : State) : Out := .next (s.pagingService id)
/-- ANSWER_AT_HOLDER (R350). -/
def execAnswerAtHolder (id : Nat) (s : State) : Out := .next (s.answerHolder id)
/-- ANSWER_DOORBELL (R370). -/
def execAnswerDoorbell (vf : Nat) (w : Word) (s : State) : Out := .next (s.fromHost (.answer vf w))
/-- QUEUE_DOORBELL (R306). -/
def execQueueDoorbell (vf q : Nat) (w : Word) (s : State) : Out := .next (s.fromHost (.tail vf q w))
/-- QUEUE_CONTROL_WRITE (R307). -/
def execQueueControlWrite (vf q : Nat) (w : Word) (s : State) : Out := .next (s.fromHost (.control vf q w))
/-- PACKET_READ_LANDS (R306). -/
def execPacketReadLands (vf q i : Nat) (s : State) : Out := .next (s.packetRead vf q i)
/-- LAUNCH (R312). -/
def execLaunch (vf q i : Nat) (s : State) : Out := .next (s.launch vf q i)
/-- ADMISSION_WAKE (R312). -/
def execAdmissionWake (vf q i : Nat) (s : State) : Out := .next (s.admissionWake vf q i)
/-- LOCAL_SECTION_COPY_LANDS (R312). -/
def execLocalSectionCopyLands (vf q i : Nat) (s : State) : Out := .next (s.localCopyLands vf q i)
/-- COPY (R309). -/
def execCopy (vf q i : Nat) (s : State) : Out := .next (s.copyPacket vf q i)
/-- SIGNAL (R309). -/
def execSignal (vf q i : Nat) (s : State) : Out := .next (s.signal vf q i)
/-- WAIT_SEQ (R309). -/
def execWaitSeq (vf q i : Nat) (s : State) : Out := .next (s.waitSeq vf q i)
/-- WAIT_SEQ_ANSWER (R309). -/
def execWaitSeqAnswer (id : Nat) (s : State) : Out := .next (s.waitSeqAnswer id)
/-- SET_DET (R318). -/
def execSetDet (vf q i : Nat) (s : State) : Out := .next (s.setDet vf q i)
/-- SET_DET_DRAINED (R318). -/
def execSetDetDrained (vf : Nat) (s : State) : Out := .next (s.setDetDrained vf)
/-- FENCE_PACKET (R309). -/
def execFencePacket (vf q i : Nat) (s : State) : Out := .next (s.fencePacket vf q i)
/-- FENCE_PACKET_COMPLETE (R309). -/
def execFencePacketComplete (vf q i : Nat) (s : State) : Out := .next (s.fencePacketDone vf q i)
/-- SCRUB_REGION_DONE (R330). -/
def execScrubRegionDone (s : State) : Out := .next s.scrubRegionDone
/-- SCRUBGO (R402). -/
def execScrubgo (w : Word) (s : State) : Out := .next (s.fromHost (.scrubGo w))
/-- CORE_STOP (R365). -/
def execCoreStop (core bad : Nat) (s : State) : Out := .next (s.coreStop core bad)
/-- REPAIR (R402). -/
def execRepair (w : Word) (s : State) : Out := .next (s.fromHost (.repair w))
/-- SLOTQ (R402). -/
def execSlotq (w : Word) (s : State) : Out := .next (s.fromHost (.slotq w))
/-- SPILL (R402). -/
def execSpill (w : Word) (s : State) : Out := .next (s.fromHost (.spill w))
/-- ASSIGN (R327). -/
def execAssign (w : Word) (s : State) : Out := .next (s.fromHost (.assign w))
/-- MANAGEMENT_WRITE (R370). -/
def execManagementWrite (off : Nat) (w : Word) (s : State) : Out := .next (s.fromHost (.management off w))
/-- HOST_MEMORY_ACCESS (R369). -/
def execHostMemoryAccess (wr : Bool) (addr len v : Nat) (s : State) : Out := .next (s.fromHost (.memory wr addr len v))
/-- GANGCTL_ARM (R380). -/
def execGangctlArm (vf : Nat) (w : Word) (s : State) : Out := .next (s.fromHost (.gangctl vf w))
/-- PREPARED (R381). (DESIGN CHOICE, log entry 68) -/
def execPrepared (vf gid rank : Nat) (s : State) : Out := .next (s.gangPrepared vf gid rank)
/-- REFUSED (R381). -/
def execRefused (vf gid rank : Nat) (s : State) : Out := .next (s.gangRefused vf gid rank)
/-- COMMIT (R381). -/
def execCommit (vf gid : Nat) (s : State) : Out := .next (s.gangCommit vf gid)
/-- ABORT (R382). -/
def execAbort (vf gid rank pkg : Nat) (s : State) : Out := .next (s.gangAborted vf gid rank pkg)
/-- GANG_TIMEOUT (R381). -/
def execGangTimeout (vf : Nat) (s : State) : Out := .next (s.gangTimeout vf)
/-- ALLRED_MESSAGE (R376). (DESIGN CHOICE, log entry 68) -/
def execAllredMessage (pkg gid seq chunk rank op fmt size mode len v : Nat) (s : State) : Out :=
  .next (s.collArrives pkg gid seq chunk rank ⟨op, fmt, size, mode, toBytes len v⟩)
/-- RANK_LOST (R379). -/
def execRankLost (pkg : Nat) (s : State) : Out := .next (s.rankLostEvent pkg)
/-- KEEPALIVE (R372). -/
def execKeepalive (pkg : Nat) (answered : Bool) (s : State) : Out := .next (s.keepalive pkg answered)
/-- PEER_PORT_DOWN (R372). -/
def execPeerPortDown (port : Nat) (s : State) : Out := .next (s.portDown port)
/-- UCIE_MODULE_FAILURE (R368). -/
def execUcieModuleFailure (module : Nat) (s : State) : Out := .next (s.ucieFails module)
/-- CXL_LINK_DOWN (R371). -/
def execCxlLinkDown (port : Nat) (s : State) : Out := .next (s.cxlLink port false)
/-- CXL_LINK_RETRAIN (R371). -/
def execCxlLinkRetrain (port : Nat) (s : State) : Out := .next ((s.cxlLink port true).releaseHeld)
/-- START (R397). -/
def execStart (again ok : Bool) (mask : Nat) (s : State) : Out := .next (s.start again ok mask)
/-- BOOTCLR (R398). -/
def execBootclr (w : Word) (s : State) : Out := .next (s.fromHost (.bootclr w))
/-- ATTEST (R401). -/
def execAttest (w : Word) (s : State) : Out := .next (s.fromHost (.attest w))
/-- DUTY_WRITE (R403). -/
def execDutyWrite (duty : Nat) (w : Word) (s : State) : Out := .next (s.fromHost (.duty duty w))
/-- DUTY_DRAIN_END (R403). -/
def execDutyDrainEnd (duty : Nat) (s : State) : Out := .next (s.dutyDrainEnd duty)
/-- THROTTLE (R405). -/
def execThrottle (power temp die : Nat) (s : State) : Out := .next (s.throttleOn power temp die)
/-- THERMAL_TRIP (R405). -/
def execThermalTrip (_ : Nat) (s : State) : Out := .next s.thermalTrip
/-- WITHDRAWAL_AT_HOME (R303). -/
def execWithdrawalAtHome (id : Nat) (s : State) : Out := .next (s.withdrawHome id)
/-- WITHDRAWAL_ACK_LANDS (R303). -/
def execWithdrawalAckLands (id : Nat) (s : State) : Out := .next (s.withdrawLands id)
/-- HWAIT_ARM_AT_HOME (R106). -/
def execHwaitArmAtHome (id : Nat) (s : State) : Out := .next (s.armHome id)
/-- PEER_ADMIT (R372). -/
def execPeerAdmit (pkg : Nat) (s : State) : Out := .next (s.fromHost (.peerAdmit pkg))
/-- SCALE_OUT_PORT_UP (R372). -/
def execScaleOutPortUp (port : Nat) (s : State) : Out := .next (s.portUp port)
/-- FIRMWARE_IMAGE_WRITE (R400). -/
def execFirmwareImageWrite (len v sig version : Nat) (s : State) : Out := .next (s.fromHost (.image len v sig version))
/-- GATING_REQUEST (R76). -/
def execGatingRequest (core : Nat) (s : State) : Out := .next (s.gatingRequest core)
/-- THROTTLE_END (R405). -/
def execThrottleEnd (power temp die : Nat) (s : State) : Out := .next (s.throttleOff power temp die)

end Sys2Proof.Machine
end

