-- ==== Sys2Proof/Machine/Agenda.lean ====
section
/-! DEFINITION. What the machine does when the agenda of coming moves is empty: the model's own choice among the moves
that the state allows. -/

namespace Sys2Proof.Machine

/-- What becomes of a request where it stands. -/
def State.reqAct (s : State) (id : Nat) (r : Req) : State :=
  match r.phase with
  | .egress => s.egressLoad id
  | .ingress => s.serveAtHome id (fun _ => true)
  | .home => s.serveAtHome id (fun _ => true)
  | .arming => s.landArmed id
  | .replied =>
    if s.timed r then s.releaseReply id
    else if r.kind.fills || r.kind == .frameRead then s.landReply id
    else if r.kind.acked || r.kind == .frameWrite then s.storeAcked id
    else if r.kind.answered then s.landAnswer id
    else if r.kind == .ldlo then s.landLdlo id
    else if r.kind.isStlo then s.landLatest id
    else s.waitSeqAnswer id
  | .withdrawn => s.withdrawLands id
  | .armed => s.withdrawHome id
  | .faulted _ => s
/-- What becomes of a message. -/
def State.msgAct (s : State) (id : Nat) : Msg → State
  | .claim .. => s.claimHome id
  | .landing .. => s.claimLands id
  | .ack .. => s.claimAck id
  | .dep .. => (s.depLands id).depForward id
  | .fill .. => s.fillLands id
  | .arm .. => s.armHome id
  | .answer .. => s.answerLands id
  | .brk .. => s.breakHome id
  | .kill .. => s.killHome id
  | .killThread .. => s.killLands id
  | .report .. => s.reportHome id
  | .move .. => s.migrationArrives id
  | .engine .. => s.engineLands id
  | .reply .. => s.answerHolder id
/-- What an operation of the copy unit does next. -/
def State.copyAct (s : State) (cl e : Nat) (c : CopyOp) : State :=
  if !c.forked then s.forkCopy cl e
  else match List.find? (fun x => (s.copyUnit? cl e x.1).isSome) c.chunks with
    | some (n, _) => s.copyWrite cl e n
    | none => if c.mayCheck c.front then s.copyCheck cl e c.front else s.copyComplete cl e
/-- What a job does next. -/
def State.jobAct (s : State) (cl e : Nat) (j : Job) : State :=
  if j.ended.isSome then s.fillJob cl e
  else if j.stop != 0 && !j.started then s.endJob cl e
  else if !j.forked then s.forkJob cl e
  else if !j.started then s.startJob cl e
  else match List.find? (fun x => (s.rowUnit? cl e x.1).isSome) j.rows with
    | some (r, _) => s.rowUnits cl e r 40
    | none => if j.mayMove j.cursor then s.moveRow cl e j.cursor else s.endJob cl e
/-- What a launch queue does next. -/
def State.queueAct (s : State) (vf q : Nat) (x : Queue) : State :=
  let n := x.head.toNat
  match x.packets.find? n with
  | none => if x.head = x.tail then s else s.packetRead vf q n
  | some p =>
    match p.type with
    | 1 => if p.admission = 0 then s.launch vf q n
        else if p.admission = 2 then s.localCopyLands vf q n else s.admissionWake vf q n
    | 2 => s.copyPacket vf q n
    | 3 => s.signal vf q n
    | 4 => s.waitSeq vf q n
    | 5 => s.setDet vf q n
    | 6 => s.fencePacket vf q n
    | _ => s.launch vf q n
/-- What an agent could do next, one entry for each. (DESIGN CHOICE, log entry 5) -/
def State.acts (s : State) : List State :=
  s.reqs.map (fun e => s.reqAct e.1 e.2) ++
  s.msgs.map (fun e => s.msgAct e.1 e.2) ++
  s.walks.map (fun e => if e.2.result.isNone then s.walkRun e.1 else s.walkLands e.1) ++
  s.fetches.map (fun e => s.fetchLands e.1) ++
  s.cores.map (fun e => if e.2.div.isSome then s.divideLands e.1 else s.coreClaim e.1) ++
  s.clusters.flatMap (fun e => e.2.copies.map (fun c => s.copyAct e.1 c.1 c.2) ++
    e.2.jobs.map (fun j => s.jobAct e.1 j.1 j.2) ++ e.2.groups.map (fun g => s.groupCloses (g.reqs.headD 0))) ++
  s.records.map (fun e => if e.2.stage == .service then s.pagingService e.1 else s.claimRecord e.1) ++
  s.funcs.flatMap (fun f => s.setDetDrained f.1 :: f.2.queues.flatMap (fun q => s.queueAct f.1 q.1 q.2 ::
    q.2.packets.map (fun p => if p.2.type = 6 then s.fencePacketDone f.1 q.1 p.1 else s))) ++
  s.pkg.repairs.map (fun r => s.repairGo r.core) ++ s.cores.map (fun e => s.gate e.1) ++
  [s.preemptRemove, s.preemptRestore, s.preemptSave, s.preemptLoad, s.scrubRegionDone]
/-- A part of an event that goes on by parts, where it is one: a unit of a chunk's or row's write phase (R190, R212), or of a
scrub (R331); a repair's next slots (R365); a gating request that waited (R76). -/
def State.part (s : State) : Instr → Option State
  | .copyChunkWrite cl e n => some (s.copyUnit cl e n)
  | .tileRowTransfer cl e r => some (s.rowPart cl e r)
  | .scrubRegionDone => some s.scrubUnit
  | .coreStop core _ => some (s.repairGo core)
  | .gatingRequest core => some (s.gate core)
  | _ => none
/-- An uncorrectable error arises in a 64-byte unit (R346). (DESIGN CHOICE, log entry 16) -/
def State.upset (s : State) (unit : Nat) : State := { s with bad := unit :: s.bad.filter (· != unit) }
/-- The core whose turn comes when no other move is given: the lowest with a ready slot. -/
def State.readyCore (s : State) : Option Nat :=
  (s.slots.map (fun e => coreOfSlot e.1)).find? (fun c => c < Config.coreCount && (s.nextSlot c).isSome)
/-- The core that waits for its next turn alone: the lowest with an occupied slot that only its 8 cycles, or at level 2 its
own cycle, keep from being ready (R92, R93, R319). -/
def State.waitingCore (s : State) : Option Nat :=
  (List.find? (fun (e : Nat × Slot) => (s.modSlot e.1 (fun x => { x with nextAt := 0 })).slotReady e.1) s.slots).map
    (fun e => coreOfSlot e.1)
/-- What waits for nothing but a time: rotation boundaries (R314), the Snowplough (R321), and the ends of draining duties
(R403). -/
def State.timedActs (s : State) : List State :=
  s.cores.map (fun e => s.rotationBoundary e.1) ++ s.dies.map (fun e => s.slewStep e.1) ++
  (List.range 6).map (fun n => s.dutyDrainEnd n)
/-- Without a ready slot: the first act that changes something; else an idle turn of a core that waits for its next turn;
else the first timed act that changes something; else an idle turn of core 0. (DESIGN CHOICE, log entry 60) -/
def State.otherwise (s : State) : State :=
  match s.acts.find? (fun t => t != s) with
  | some t => t
  | none =>
    match s.waitingCore with
    | some c => s.idleTurn c
    | none => (s.timedActs.find? (fun t => t != s)).getD (s.idleTurn 0)

end Sys2Proof.Machine
end

