-- ==== Sys2Proof/Machine/Fp.lean ====
section
/-! DEFINITION. The scalar float instructions (R42, R131 to R137). -/

namespace Sys2Proof.Machine

/-- The format that the width bit selects (R42). -/
def fpFmt (w : Bool) : FloatFmt := if w then f64 else f32
/-- A general register read as a float operand, with daz (R133). -/
def State.fpArg (s : State) (w : Bool) (r : BitVec 5) : FVal :=
  (fpFmt w).daz s.cur.daz ((fpFmt w).decode (s.gpr r).toNat)

/-- A float result written, and its flags (R129, R133). -/
def State.fpOut (s : State) (m : Mods) (d a b : BitVec 5) (src : List (BitVec 5)) (rounds : Bool) (res : FRes) : Out :=
  s.issue m 0 { src := src, dst := [d] }
    (s.finish m a b (fun t => (t.writeGpr d (word res.1)).floatDone m rounds res.2))
/-- A two-operand float function. -/
def State.fpBin (s : State) (f : FloatFmt → FEnv → FVal → FVal → FRes) (w : Bool) (d a b : BitVec 5) (m : Mods) : Out :=
  s.fpOut m d a b [a, b] true (f (fpFmt w) (s.fenv m 0) (s.fpArg w a) (s.fpArg w b))
/-- `fma` and `fnma`. -/
def State.fpFma (s : State) (negate : Bool) (w : Bool) (d a b : BitVec 5) (m : Mods) : Out :=
  s.fpOut m d a b [a, b, m.rc] true
    ((fpFmt w).fma (s.fenv m 0) negate (s.fpArg w a) (s.fpArg w b) (s.fpArg w m.rc))
/-- `fmin` and `fmax` (R134). -/
def State.fpMinMax (s : State) (isMax : Bool) (w : Bool) (d a b : BitVec 5) (m : Mods) : Out :=
  s.fpOut m d a b [a, b] false ((fpFmt w).minMax isMax s.cur.daz (s.gpr a).toNat (s.gpr b).toNat)
/-- `fabs` and `fneg`: the sign bit replaced, every other bit of the width passed through (R134). -/
def State.fpSign (s : State) (f : Nat → Nat) (w : Bool) (d a : BitVec 5) (m : Mods) : Out :=
  let n := (fpFmt w).width
  let x := fieldOf (s.gpr a) 0 n
  s.fpOut m d a 27#5 [a] false (putBits x (n - 1) 1 (f (bitsOf x (n - 1) 1)), 0#5)
/-- `fcmp` (R135). -/
def State.fpCmp (s : State) (cc : Nat) (w : Bool) (p : BitVec 3) (a b : BitVec 5) (m : Mods) : Out :=
  let r := fcmp cc (s.fpArg w a) (s.fpArg w b)
  s.issue m 0 { src := [a, b] } (s.finish m a b (fun t => (t.setPred p r.1).floatDone m false r.2))

def execFadd (w : Bool) (d a b : BitVec 5) (m : Mods) (s : State) : Out := s.fpBin FloatFmt.add w d a b m
def execFsub (w : Bool) (d a b : BitVec 5) (m : Mods) (s : State) : Out :=
  s.fpBin (fun f e x y => f.add e x y.flip) w d a b m
def execFmul (w : Bool) (d a b : BitVec 5) (m : Mods) (s : State) : Out := s.fpBin FloatFmt.mul w d a b m
/-- `fdiv` on the divide unit: its flags enter FSTAT when it lands (R138), its seed is captured at issue (R236). -/
def execFdiv (w : Bool) (d a b : BitVec 5) (m : Mods) (s : State) : Out :=
  let r := (fpFmt w).div (s.fenv m 0) (s.fpArg w a) (s.fpArg w b)
  s.issue m 0 { src := [a, b], dst := [d] }
    (s.divide m a b d false (BitVec.ofNat 512 r.1) r.2 (fun t => t.bumpSeed (s.mode m == 5)))
/-- `fsqrt` on the divide unit. -/
def execFsqrt (w : Bool) (d a : BitVec 5) (m : Mods) (s : State) : Out :=
  let r := (fpFmt w).sqrt (s.fenv m 0) (s.fpArg w a)
  s.issue m 0 { src := [a], dst := [d] }
    (s.divide m a 27#5 d false (BitVec.ofNat 512 r.1) r.2 (fun t => t.bumpSeed (s.mode m == 5)))
def execFmin (w : Bool) (d a b : BitVec 5) (m : Mods) (s : State) : Out := s.fpMinMax false w d a b m
def execFmax (w : Bool) (d a b : BitVec 5) (m : Mods) (s : State) : Out := s.fpMinMax true w d a b m
def execFabs (w : Bool) (d a : BitVec 5) (m : Mods) (s : State) : Out := s.fpSign (fun _ => 0) w d a m
def execFneg (w : Bool) (d a : BitVec 5) (m : Mods) (s : State) : Out := s.fpSign (fun x => 1 - x) w d a m
def execFma (w : Bool) (d a b : BitVec 5) (m : Mods) (s : State) : Out := s.fpFma false w d a b m
def execFnma (w : Bool) (d a b : BitVec 5) (m : Mods) (s : State) : Out := s.fpFma true w d a b m
def execFcmpEq (w : Bool) (p : BitVec 3) (a b : BitVec 5) (m : Mods) (s : State) : Out := s.fpCmp 0 w p a b m
def execFcmpNe (w : Bool) (p : BitVec 3) (a b : BitVec 5) (m : Mods) (s : State) : Out := s.fpCmp 1 w p a b m
def execFcmpLt (w : Bool) (p : BitVec 3) (a b : BitVec 5) (m : Mods) (s : State) : Out := s.fpCmp 2 w p a b m
def execFcmpLe (w : Bool) (p : BitVec 3) (a b : BitVec 5) (m : Mods) (s : State) : Out := s.fpCmp 3 w p a b m
def execFcmpUn (w : Bool) (p : BitVec 3) (a b : BitVec 5) (m : Mods) (s : State) : Out := s.fpCmp 4 w p a b m
/-- `fclass` (R135): the one-hot mask. -/
def execFclass (w : Bool) (d a : BitVec 5) (m : Mods) (s : State) : Out :=
  s.fpOut m d a 27#5 [a] false ((fpFmt w).classOf (s.gpr a).toNat, 0#5)
/-- `fcvt` (R136): an i32 result is sign-extended, every other zero-extended. -/
def execFcvt (d a : BitVec 5) (m : Mods) (s : State) : Out :=
  let r := convert (fmtOf m.fmtA.toNat) (fmtOf m.fmtB.toNat) (s.fenv m 0) (s.gpr a).toNat
  let v := match fmtOf m.fmtB.toNat with
    | .int true w => (sextN w r.1).toNat
    | _ => r.1
  s.fpOut m d a 27#5 [a] true (v, r.2)

end Sys2Proof.Machine
end

