-- ==== Sys2Proof/Machine/Int.lean ====
section
/-! DEFINITION. The integer instructions (R39, R40, R121 to R126): arithmetic, logic, shifts, fields, addresses and
compares. -/

namespace Sys2Proof.Machine

/-! What they compute. -/

/-- The signed high half of a product. -/
def mulHigh (a b : Word) : Word := wordOfInt (a.toInt * b.toInt / 2 ^ 64)
/-- The unsigned high half of a product. -/
def mulHighU (a b : Word) : Word := word (a.toNat * b.toNat / 2 ^ 64)
/-- The quotients and remainders of R121, zero divisors included. -/
def quotS (a b : Word) : Word := if b = 0#64 then BitVec.allOnes 64 else a.sdiv b
def quotU (a b : Word) : Word := if b = 0#64 then BitVec.allOnes 64 else a.udiv b
def remS (a b : Word) : Word := if b = 0#64 then a else a.srem b
def remU (a b : Word) : Word := if b = 0#64 then a else a.umod b
/-- A shift amount: B[5:0]. -/
def amount (b : Word) : Nat := fieldOf b 0 6
def minS (a b : Word) : Word := if a.slt b then a else b
def maxS (a b : Word) : Word := if b.slt a then a else b
def minU (a b : Word) : Word := if a.ult b then a else b
def maxU (a b : Word) : Word := if b.ult a then a else b

/-- The bits of a word from bit 63 down, and from bit 0 up. -/
def bitsDown (a : Word) : List Bool := (List.range 64).map (fun i => a.getLsbD (63 - i))
def bitsUp (a : Word) : List Bool := (List.range 64).map (fun i => a.getLsbD i)
def countLead (a : Word) : Word := word ((bitsDown a).takeWhile (fun b => !b)).length
def countTrail (a : Word) : Word := word ((bitsUp a).takeWhile (fun b => !b)).length
def countOnes (a : Word) : Word := word ((bitsUp a).filter id).length
def swapBytes (a : Word) : Word := word (ofBytes (toBytes 8 a.toNat).reverse)

/-- The field of R124 at `pos` of `width` bits, cut at bit 63, sign- or zero-extended. -/
def fieldS (a : Word) (pos width : Nat) : Word :=
  sextN (min width (64 - pos)) (fieldOf a pos (min width (64 - pos)))
def fieldU (a : Word) (pos width : Nat) : Word := word (fieldOf a pos (min width (64 - pos)))
/-- A field of `c` replaced by the low bits of `a` (R124). -/
def fieldInsert (c a : Word) (pos width : Nat) : Word := word (putBits c.toNat pos (min width (64 - pos)) a.toNat)
/-- The position and width that operand B of the INT forms names (R124). -/
def fieldPos (b : Word) : Nat := fieldOf b 0 6
def fieldWidth (b : Word) : Nat := fieldOf b 8 6 + 1

/-! The forms. -/

/-- A two-operand INT function (R31, R121). -/
def State.intOp (s : State) (f : Word → Word → Word) (d a b : BitVec 5) (imm : Bool) (m : Mods) : Out :=
  s.issue m 0 { src := intSources a b imm, dst := [d] }
    (s.finish m a b (fun t => t.writeGpr d (f (s.gpr a) (s.opB b imm m))))
/-- A two-operand INT function on the divide unit (R137). -/
def State.intDiv (s : State) (f : Word → Word → Word) (d a b : BitVec 5) (imm : Bool) (m : Mods) : Out :=
  s.issue m 0 { src := intSources a b imm, dst := [d] }
    (s.divide m a b d false ((f (s.gpr a) (s.opB b imm m)).setWidth 512) 0#5 id)
/-- A one-source form: one-operand functions and immediates (R30, R39, R122). -/
def State.unary (s : State) (f : Word → Word) (d a : BitVec 5) (m : Mods) : Out :=
  s.issue m 0 { src := [a], dst := [d] } (s.finish m a 27#5 (fun t => t.writeGpr d (f (s.gpr a))))
/-- `lea` (R125). -/
def State.lea (s : State) (scale : Nat) (d a b : BitVec 5) (m : Mods) : Out :=
  s.issue m 0 { src := [a, b], dst := [d] }
    (s.finish m a b (fun t => t.writeGpr d (s.gpr a + s.gpr b * word scale + disp m)))
/-- An integer compare with an immediate (R126). -/
def State.cmpImm (s : State) (f : Word → Word → Bool) (p : BitVec 3) (a : BitVec 5) (i : BitVec 14) (m : Mods) : Out :=
  s.issue m 0 { src := [a] } (s.finish m a 27#5 (fun t => t.setPred p (f (s.gpr a) (imm32 i m))))
/-- An integer compare of two registers (R126). -/
def State.cmpReg (s : State) (f : Word → Word → Bool) (p : BitVec 3) (a b : BitVec 5) (m : Mods) : Out :=
  s.issue m 0 { src := [a, b] } (s.finish m a b (fun t => t.setPred p (f (s.gpr a) (s.gpr b))))

/-! The instructions. -/

def execAdd (d a b : BitVec 5) (imm : Bool) (m : Mods) (s : State) : Out := s.intOp (fun x y => x + y) d a b imm m
def execSub (d a b : BitVec 5) (imm : Bool) (m : Mods) (s : State) : Out := s.intOp (fun x y => x - y) d a b imm m
def execMul (d a b : BitVec 5) (imm : Bool) (m : Mods) (s : State) : Out := s.intOp (fun x y => x * y) d a b imm m
def execMulh (d a b : BitVec 5) (imm : Bool) (m : Mods) (s : State) : Out := s.intOp mulHigh d a b imm m
def execMulhu (d a b : BitVec 5) (imm : Bool) (m : Mods) (s : State) : Out := s.intOp mulHighU d a b imm m
def execAnd (d a b : BitVec 5) (imm : Bool) (m : Mods) (s : State) : Out := s.intOp (fun x y => x &&& y) d a b imm m
def execOr (d a b : BitVec 5) (imm : Bool) (m : Mods) (s : State) : Out := s.intOp (fun x y => x ||| y) d a b imm m
def execXor (d a b : BitVec 5) (imm : Bool) (m : Mods) (s : State) : Out := s.intOp (fun x y => x ^^^ y) d a b imm m
def execAndn (d a b : BitVec 5) (imm : Bool) (m : Mods) (s : State) : Out := s.intOp (fun x y => x &&& ~~~y) d a b imm m
def execShl (d a b : BitVec 5) (imm : Bool) (m : Mods) (s : State) : Out := s.intOp (fun x y => x <<< amount y) d a b imm m
def execShr (d a b : BitVec 5) (imm : Bool) (m : Mods) (s : State) : Out := s.intOp (fun x y => x >>> amount y) d a b imm m
def execSar (d a b : BitVec 5) (imm : Bool) (m : Mods) (s : State) : Out := s.intOp (fun x y => x.sshiftRight (amount y)) d a b imm m
def execRol (d a b : BitVec 5) (imm : Bool) (m : Mods) (s : State) : Out := s.intOp (fun x y => x.rotateLeft (amount y)) d a b imm m
def execRor (d a b : BitVec 5) (imm : Bool) (m : Mods) (s : State) : Out := s.intOp (fun x y => x.rotateRight (amount y)) d a b imm m
def execMin (d a b : BitVec 5) (imm : Bool) (m : Mods) (s : State) : Out := s.intOp minS d a b imm m
def execMax (d a b : BitVec 5) (imm : Bool) (m : Mods) (s : State) : Out := s.intOp maxS d a b imm m
def execMinu (d a b : BitVec 5) (imm : Bool) (m : Mods) (s : State) : Out := s.intOp minU d a b imm m
def execMaxu (d a b : BitVec 5) (imm : Bool) (m : Mods) (s : State) : Out := s.intOp maxU d a b imm m
def execBfxReg (d a b : BitVec 5) (imm : Bool) (m : Mods) (s : State) : Out := s.intOp (fun x y => fieldS x (fieldPos y) (fieldWidth y)) d a b imm m
def execBfxuReg (d a b : BitVec 5) (imm : Bool) (m : Mods) (s : State) : Out := s.intOp (fun x y => fieldU x (fieldPos y) (fieldWidth y)) d a b imm m
/-- `bfi` (R124): the C register keeps the bits outside the field. -/
def execBfi (d a b : BitVec 5) (imm : Bool) (m : Mods) (s : State) : Out :=
  s.issue m 0 { src := intSources a b imm ++ [m.rc], dst := [d] }
    (s.finish m a b (fun t => t.writeGpr d
      (fieldInsert (s.gpr m.rc) (s.gpr a) (fieldPos (s.opB b imm m)) (fieldWidth (s.opB b imm m)))))
def execDiv (d a b : BitVec 5) (imm : Bool) (m : Mods) (s : State) : Out := s.intDiv quotS d a b imm m
def execDivu (d a b : BitVec 5) (imm : Bool) (m : Mods) (s : State) : Out := s.intDiv quotU d a b imm m
def execRem (d a b : BitVec 5) (imm : Bool) (m : Mods) (s : State) : Out := s.intDiv remS d a b imm m
def execRemu (d a b : BitVec 5) (imm : Bool) (m : Mods) (s : State) : Out := s.intDiv remU d a b imm m
def execMov (d a : BitVec 5) (m : Mods) (s : State) : Out := s.unary id d a m
def execClz (d a : BitVec 5) (m : Mods) (s : State) : Out := s.unary countLead d a m
def execCtz (d a : BitVec 5) (m : Mods) (s : State) : Out := s.unary countTrail d a m
def execPopc (d a : BitVec 5) (m : Mods) (s : State) : Out := s.unary countOnes d a m
def execBswap (d a : BitVec 5) (m : Mods) (s : State) : Out := s.unary swapBytes d a m
def execSxb (d a : BitVec 5) (m : Mods) (s : State) : Out := s.unary (fun x => sextN 8 x.toNat) d a m
def execSxh (d a : BitVec 5) (m : Mods) (s : State) : Out := s.unary (fun x => sextN 16 x.toNat) d a m
def execSxw (d a : BitVec 5) (m : Mods) (s : State) : Out := s.unary (fun x => sextN 32 x.toNat) d a m
def execZxw (d a : BitVec 5) (m : Mods) (s : State) : Out := s.unary (fun x => word (fieldOf x 0 32)) d a m
def execLea1 (d a b : BitVec 5) (m : Mods) (s : State) : Out := s.lea 1 d a b m
def execLea2 (d a b : BitVec 5) (m : Mods) (s : State) : Out := s.lea 2 d a b m
def execLea4 (d a b : BitVec 5) (m : Mods) (s : State) : Out := s.lea 4 d a b m
def execLea8 (d a b : BitVec 5) (m : Mods) (s : State) : Out := s.lea 8 d a b m
def execAddi (d a : BitVec 5) (i : BitVec 14) (m : Mods) (s : State) : Out := s.unary (fun x => x + imm32 i m) d a m
def execMuli (d a : BitVec 5) (i : BitVec 14) (m : Mods) (s : State) : Out := s.unary (fun x => x * imm32 i m) d a m
def execAndi (d a : BitVec 5) (i : BitVec 14) (m : Mods) (s : State) : Out := s.unary (fun x => x &&& imm32 i m) d a m
def execOri (d a : BitVec 5) (i : BitVec 14) (m : Mods) (s : State) : Out := s.unary (fun x => x ||| imm32 i m) d a m
def execXori (d a : BitVec 5) (i : BitVec 14) (m : Mods) (s : State) : Out := s.unary (fun x => x ^^^ imm32 i m) d a m
def execShlImm (d a : BitVec 5) (n : BitVec 6) (m : Mods) (s : State) : Out := s.unary (fun x => x <<< n.toNat) d a m
def execShrImm (d a : BitVec 5) (n : BitVec 6) (m : Mods) (s : State) : Out := s.unary (fun x => x >>> n.toNat) d a m
def execSarImm (d a : BitVec 5) (n : BitVec 6) (m : Mods) (s : State) : Out := s.unary (fun x => x.sshiftRight n.toNat) d a m
def execRolImm (d a : BitVec 5) (n : BitVec 6) (m : Mods) (s : State) : Out := s.unary (fun x => x.rotateLeft n.toNat) d a m
def execRorImm (d a : BitVec 5) (n : BitVec 6) (m : Mods) (s : State) : Out := s.unary (fun x => x.rotateRight n.toNat) d a m
def execBfxImm (d a : BitVec 5) (p w : BitVec 6) (m : Mods) (s : State) : Out := s.unary (fun x => fieldS x p.toNat (w.toNat + 1)) d a m
def execBfxuImm (d a : BitVec 5) (p w : BitVec 6) (m : Mods) (s : State) : Out := s.unary (fun x => fieldU x p.toNat (w.toNat + 1)) d a m
/-- `mov` of an immediate (R123). -/
def execMovi (d : BitVec 5) (i : BitVec 14) (m : Mods) (s : State) : Out := s.unary (fun _ => imm32 i m) d 27#5 m
def execCmpEqImm (p : BitVec 3) (a : BitVec 5) (i : BitVec 14) (m : Mods) (s : State) : Out :=
  s.cmpImm (fun x y => x == y) p a i m
def execCmpNeImm (p : BitVec 3) (a : BitVec 5) (i : BitVec 14) (m : Mods) (s : State) : Out :=
  s.cmpImm (fun x y => x != y) p a i m
def execCmpLtImm (p : BitVec 3) (a : BitVec 5) (i : BitVec 14) (m : Mods) (s : State) : Out :=
  s.cmpImm (fun x y => x.slt y) p a i m
def execCmpLeImm (p : BitVec 3) (a : BitVec 5) (i : BitVec 14) (m : Mods) (s : State) : Out :=
  s.cmpImm (fun x y => x.sle y) p a i m
def execCmpGtImm (p : BitVec 3) (a : BitVec 5) (i : BitVec 14) (m : Mods) (s : State) : Out :=
  s.cmpImm (fun x y => y.slt x) p a i m
def execCmpGeImm (p : BitVec 3) (a : BitVec 5) (i : BitVec 14) (m : Mods) (s : State) : Out :=
  s.cmpImm (fun x y => y.sle x) p a i m
def execCmpLtuImm (p : BitVec 3) (a : BitVec 5) (i : BitVec 14) (m : Mods) (s : State) : Out :=
  s.cmpImm (fun x y => x.ult y) p a i m
def execCmpLeuImm (p : BitVec 3) (a : BitVec 5) (i : BitVec 14) (m : Mods) (s : State) : Out :=
  s.cmpImm (fun x y => x.ule y) p a i m
def execCmpGtuImm (p : BitVec 3) (a : BitVec 5) (i : BitVec 14) (m : Mods) (s : State) : Out :=
  s.cmpImm (fun x y => y.ult x) p a i m
def execCmpGeuImm (p : BitVec 3) (a : BitVec 5) (i : BitVec 14) (m : Mods) (s : State) : Out :=
  s.cmpImm (fun x y => y.ule x) p a i m
def execCmpTstImm (p : BitVec 3) (a : BitVec 5) (i : BitVec 14) (m : Mods) (s : State) : Out :=
  s.cmpImm (fun x y => (x &&& y) != 0#64) p a i m
def execCmpTstzImm (p : BitVec 3) (a : BitVec 5) (i : BitVec 14) (m : Mods) (s : State) : Out :=
  s.cmpImm (fun x y => (x &&& y) == 0#64) p a i m
def execCmpEq (p : BitVec 3) (a b : BitVec 5) (m : Mods) (s : State) : Out := s.cmpReg (fun x y => x == y) p a b m
def execCmpNe (p : BitVec 3) (a b : BitVec 5) (m : Mods) (s : State) : Out := s.cmpReg (fun x y => x != y) p a b m
def execCmpLt (p : BitVec 3) (a b : BitVec 5) (m : Mods) (s : State) : Out := s.cmpReg (fun x y => x.slt y) p a b m
def execCmpLe (p : BitVec 3) (a b : BitVec 5) (m : Mods) (s : State) : Out := s.cmpReg (fun x y => x.sle y) p a b m
def execCmpGt (p : BitVec 3) (a b : BitVec 5) (m : Mods) (s : State) : Out := s.cmpReg (fun x y => y.slt x) p a b m
def execCmpGe (p : BitVec 3) (a b : BitVec 5) (m : Mods) (s : State) : Out := s.cmpReg (fun x y => y.sle x) p a b m
def execCmpLtu (p : BitVec 3) (a b : BitVec 5) (m : Mods) (s : State) : Out := s.cmpReg (fun x y => x.ult y) p a b m
def execCmpLeu (p : BitVec 3) (a b : BitVec 5) (m : Mods) (s : State) : Out := s.cmpReg (fun x y => x.ule y) p a b m
def execCmpGtu (p : BitVec 3) (a b : BitVec 5) (m : Mods) (s : State) : Out := s.cmpReg (fun x y => y.ult x) p a b m
def execCmpGeu (p : BitVec 3) (a b : BitVec 5) (m : Mods) (s : State) : Out := s.cmpReg (fun x y => y.ule x) p a b m
def execCmpTst (p : BitVec 3) (a b : BitVec 5) (m : Mods) (s : State) : Out := s.cmpReg (fun x y => (x &&& y) != 0#64) p a b m
def execCmpTstz (p : BitVec 3) (a b : BitVec 5) (m : Mods) (s : State) : Out := s.cmpReg (fun x y => (x &&& y) == 0#64) p a b m

end Sys2Proof.Machine
end

