-- ==== Sys2Proof/Machine/Pred.lean ====
section
/-! DEFINITION. Predicate logic (R127). -/

namespace Sys2Proof.Machine

/-- A predicate from two predicates. -/
def State.predOp (s : State) (f : Bool → Bool → Bool) (d a b : BitVec 3) (m : Mods) : Out :=
  s.issue m 0 {} (s.finish m 27#5 27#5 (fun t => t.setPred d (f (s.cur.getPred a) (s.cur.getPred b))))

def execPand (d a b : BitVec 3) (m : Mods) (s : State) : Out := s.predOp (fun x y => x && y) d a b m
def execPor (d a b : BitVec 3) (m : Mods) (s : State) : Out := s.predOp (fun x y => x || y) d a b m
def execPxor (d a b : BitVec 3) (m : Mods) (s : State) : Out := s.predOp (fun x y => x != y) d a b m
def execPandn (d a b : BitVec 3) (m : Mods) (s : State) : Out := s.predOp (fun x y => x && !y) d a b m
def execPnot (d a : BitVec 3) (m : Mods) (s : State) : Out := s.predOp (fun x _ => !x) d a 0#3 m
def execPmov (d a : BitVec 3) (m : Mods) (s : State) : Out := s.predOp (fun x _ => x) d a 0#3 m
/-- `prd`: p7 to p1, and bit 0 set. -/
def execPrd (d : BitVec 5) (m : Mods) (s : State) : Out :=
  s.issue m 0 { dst := [d] }
    (s.finish m 27#5 27#5 (fun t => t.writeGpr d (word (putBits s.cur.pred.toNat 0 1 1))))
/-- `pwr`: p1 to p7 from bits [7:1]. -/
def execPwr (a : BitVec 5) (m : Mods) (s : State) : Out :=
  s.issue m 0 { src := [a] }
    (s.finish m a 27#5 (fun t => t.modCur (fun x => { x with
      pred := BitVec.ofNat 8 (fieldOf (s.gpr a) 1 7 * 2 + x.pred.toNat % 2) })))

end Sys2Proof.Machine
end

