-- ==== Sys2Proof/Machine/Dispatch.lean ====
section
/-! DEFINITION. The meaning of every instruction and event, one arm for each. -/

namespace Sys2Proof.Machine

def exec (i : Instr) (s : State) : Host.Outcome State Fault Refusal :=
  match i with
  | .add d a b imm m => Sys2Proof.Machine.execAdd d a b imm m s
  | .sub d a b imm m => Sys2Proof.Machine.execSub d a b imm m s
  | .mul d a b imm m => Sys2Proof.Machine.execMul d a b imm m s
  | .mulh d a b imm m => Sys2Proof.Machine.execMulh d a b imm m s
  | .mulhu d a b imm m => Sys2Proof.Machine.execMulhu d a b imm m s
  | .div d a b imm m => Sys2Proof.Machine.execDiv d a b imm m s
  | .divu d a b imm m => Sys2Proof.Machine.execDivu d a b imm m s
  | .rem d a b imm m => Sys2Proof.Machine.execRem d a b imm m s
  | .remu d a b imm m => Sys2Proof.Machine.execRemu d a b imm m s
  | .and d a b imm m => Sys2Proof.Machine.execAnd d a b imm m s
  | .or d a b imm m => Sys2Proof.Machine.execOr d a b imm m s
  | .xor d a b imm m => Sys2Proof.Machine.execXor d a b imm m s
  | .andn d a b imm m => Sys2Proof.Machine.execAndn d a b imm m s
  | .shl d a b imm m => Sys2Proof.Machine.execShl d a b imm m s
  | .shr d a b imm m => Sys2Proof.Machine.execShr d a b imm m s
  | .sar d a b imm m => Sys2Proof.Machine.execSar d a b imm m s
  | .rol d a b imm m => Sys2Proof.Machine.execRol d a b imm m s
  | .ror d a b imm m => Sys2Proof.Machine.execRor d a b imm m s
  | .min d a b imm m => Sys2Proof.Machine.execMin d a b imm m s
  | .max d a b imm m => Sys2Proof.Machine.execMax d a b imm m s
  | .minu d a b imm m => Sys2Proof.Machine.execMinu d a b imm m s
  | .maxu d a b imm m => Sys2Proof.Machine.execMaxu d a b imm m s
  | .mov d a m => Sys2Proof.Machine.execMov d a m s
  | .clz d a m => Sys2Proof.Machine.execClz d a m s
  | .ctz d a m => Sys2Proof.Machine.execCtz d a m s
  | .popc d a m => Sys2Proof.Machine.execPopc d a m s
  | .bswap d a m => Sys2Proof.Machine.execBswap d a m s
  | .sxb d a m => Sys2Proof.Machine.execSxb d a m s
  | .sxh d a m => Sys2Proof.Machine.execSxh d a m s
  | .sxw d a m => Sys2Proof.Machine.execSxw d a m s
  | .zxw d a m => Sys2Proof.Machine.execZxw d a m s
  | .bfxReg d a b imm m => Sys2Proof.Machine.execBfxReg d a b imm m s
  | .bfxuReg d a b imm m => Sys2Proof.Machine.execBfxuReg d a b imm m s
  | .bfi d a b imm m => Sys2Proof.Machine.execBfi d a b imm m s
  | .lea1 d a b m => Sys2Proof.Machine.execLea1 d a b m s
  | .lea2 d a b m => Sys2Proof.Machine.execLea2 d a b m s
  | .lea4 d a b m => Sys2Proof.Machine.execLea4 d a b m s
  | .lea8 d a b m => Sys2Proof.Machine.execLea8 d a b m s
  | .addi d a im m => Sys2Proof.Machine.execAddi d a im m s
  | .muli d a im m => Sys2Proof.Machine.execMuli d a im m s
  | .andi d a im m => Sys2Proof.Machine.execAndi d a im m s
  | .ori d a im m => Sys2Proof.Machine.execOri d a im m s
  | .xori d a im m => Sys2Proof.Machine.execXori d a im m s
  | .shlImm d a n m => Sys2Proof.Machine.execShlImm d a n m s
  | .shrImm d a n m => Sys2Proof.Machine.execShrImm d a n m s
  | .sarImm d a n m => Sys2Proof.Machine.execSarImm d a n m s
  | .rolImm d a n m => Sys2Proof.Machine.execRolImm d a n m s
  | .rorImm d a n m => Sys2Proof.Machine.execRorImm d a n m s
  | .bfxImm d a p w m => Sys2Proof.Machine.execBfxImm d a p w m s
  | .bfxuImm d a p w m => Sys2Proof.Machine.execBfxuImm d a p w m s
  | .movi d im m => Sys2Proof.Machine.execMovi d im m s
  | .cmpEqImm p a im m => Sys2Proof.Machine.execCmpEqImm p a im m s
  | .cmpNeImm p a im m => Sys2Proof.Machine.execCmpNeImm p a im m s
  | .cmpLtImm p a im m => Sys2Proof.Machine.execCmpLtImm p a im m s
  | .cmpLeImm p a im m => Sys2Proof.Machine.execCmpLeImm p a im m s
  | .cmpGtImm p a im m => Sys2Proof.Machine.execCmpGtImm p a im m s
  | .cmpGeImm p a im m => Sys2Proof.Machine.execCmpGeImm p a im m s
  | .cmpLtuImm p a im m => Sys2Proof.Machine.execCmpLtuImm p a im m s
  | .cmpLeuImm p a im m => Sys2Proof.Machine.execCmpLeuImm p a im m s
  | .cmpGtuImm p a im m => Sys2Proof.Machine.execCmpGtuImm p a im m s
  | .cmpGeuImm p a im m => Sys2Proof.Machine.execCmpGeuImm p a im m s
  | .cmpTstImm p a im m => Sys2Proof.Machine.execCmpTstImm p a im m s
  | .cmpTstzImm p a im m => Sys2Proof.Machine.execCmpTstzImm p a im m s
  | .cmpEq p a b m => Sys2Proof.Machine.execCmpEq p a b m s
  | .cmpNe p a b m => Sys2Proof.Machine.execCmpNe p a b m s
  | .cmpLt p a b m => Sys2Proof.Machine.execCmpLt p a b m s
  | .cmpLe p a b m => Sys2Proof.Machine.execCmpLe p a b m s
  | .cmpGt p a b m => Sys2Proof.Machine.execCmpGt p a b m s
  | .cmpGe p a b m => Sys2Proof.Machine.execCmpGe p a b m s
  | .cmpLtu p a b m => Sys2Proof.Machine.execCmpLtu p a b m s
  | .cmpLeu p a b m => Sys2Proof.Machine.execCmpLeu p a b m s
  | .cmpGtu p a b m => Sys2Proof.Machine.execCmpGtu p a b m s
  | .cmpGeu p a b m => Sys2Proof.Machine.execCmpGeu p a b m s
  | .cmpTst p a b m => Sys2Proof.Machine.execCmpTst p a b m s
  | .cmpTstz p a b m => Sys2Proof.Machine.execCmpTstz p a b m s
  | .pand d a b m => Sys2Proof.Machine.execPand d a b m s
  | .por d a b m => Sys2Proof.Machine.execPor d a b m s
  | .pxor d a b m => Sys2Proof.Machine.execPxor d a b m s
  | .pandn d a b m => Sys2Proof.Machine.execPandn d a b m s
  | .pnot d a m => Sys2Proof.Machine.execPnot d a m s
  | .pmov d a m => Sys2Proof.Machine.execPmov d a m s
  | .prd d m => Sys2Proof.Machine.execPrd d m s
  | .pwr a m => Sys2Proof.Machine.execPwr a m s
  | .fadd w d a b m => Sys2Proof.Machine.execFadd w d a b m s
  | .fsub w d a b m => Sys2Proof.Machine.execFsub w d a b m s
  | .fmul w d a b m => Sys2Proof.Machine.execFmul w d a b m s
  | .fdiv w d a b m => Sys2Proof.Machine.execFdiv w d a b m s
  | .fsqrt w d a m => Sys2Proof.Machine.execFsqrt w d a m s
  | .fmin w d a b m => Sys2Proof.Machine.execFmin w d a b m s
  | .fmax w d a b m => Sys2Proof.Machine.execFmax w d a b m s
  | .fabs w d a m => Sys2Proof.Machine.execFabs w d a m s
  | .fneg w d a m => Sys2Proof.Machine.execFneg w d a m s
  | .fma w d a b m => Sys2Proof.Machine.execFma w d a b m s
  | .fnma w d a b m => Sys2Proof.Machine.execFnma w d a b m s
  | .fcmpEq w p a b m => Sys2Proof.Machine.execFcmpEq w p a b m s
  | .fcmpNe w p a b m => Sys2Proof.Machine.execFcmpNe w p a b m s
  | .fcmpLt w p a b m => Sys2Proof.Machine.execFcmpLt w p a b m s
  | .fcmpLe w p a b m => Sys2Proof.Machine.execFcmpLe w p a b m s
  | .fcmpUn w p a b m => Sys2Proof.Machine.execFcmpUn w p a b m s
  | .fclass w d a m => Sys2Proof.Machine.execFclass w d a m s
  | .fcvt d a m => Sys2Proof.Machine.execFcvt d a m s
  | .nop m => Sys2Proof.Machine.execNop m s
  | .krd d k m => Sys2Proof.Machine.execKrd d k m s
  | .kwr k a m => Sys2Proof.Machine.execKwr k a m s
  | .fence m => Sys2Proof.Machine.execFence m s
  | .trap n m => Sys2Proof.Machine.execTrap n m s
  | .rft m => Sys2Proof.Machine.execRft m s
  | .tlbinv a m => Sys2Proof.Machine.execTlbinv a m s
  | .kslz a m => Sys2Proof.Machine.execKslz a m s
  | .scrb a m => Sys2Proof.Machine.execScrb a m s
  | .ldB d a im m => Sys2Proof.Machine.execLdB d a im m s
  | .ldBu d a im m => Sys2Proof.Machine.execLdBu d a im m s
  | .ldH d a im m => Sys2Proof.Machine.execLdH d a im m s
  | .ldHu d a im m => Sys2Proof.Machine.execLdHu d a im m s
  | .ldW d a im m => Sys2Proof.Machine.execLdW d a im m s
  | .ldWu d a im m => Sys2Proof.Machine.execLdWu d a im m s
  | .ldD d a im m => Sys2Proof.Machine.execLdD d a im m s
  | .stB d a im m => Sys2Proof.Machine.execStB d a im m s
  | .stH d a im m => Sys2Proof.Machine.execStH d a im m s
  | .stW d a im m => Sys2Proof.Machine.execStW d a im m s
  | .stD d a im m => Sys2Proof.Machine.execStD d a im m s
  | .ldfe d a im m => Sys2Proof.Machine.execLdfe d a im m s
  | .stfe d a im m => Sys2Proof.Machine.execStfe d a im m s
  | .ldIndexed sc z d a b m => Sys2Proof.Machine.execLdIndexed sc z d a b m s
  | .stIndexed sc z d a b m => Sys2Proof.Machine.execStIndexed sc z d a b m s
  | .ldlo d a m => Sys2Proof.Machine.execLdlo d a m s
  | .stlo a b m => Sys2Proof.Machine.execStlo a b m s
  | .stloMd a b m => Sys2Proof.Machine.execStloMd a b m s
  | .b o m => Sys2Proof.Machine.execB o m s
  | .bt p o m => Sys2Proof.Machine.execBt p o m s
  | .bf p o m => Sys2Proof.Machine.execBf p o m s
  | .callLit m => Sys2Proof.Machine.execCallLit m s
  | .callReg a m => Sys2Proof.Machine.execCallReg a m s
  | .jmp a m => Sys2Proof.Machine.execJmp a m s
  | .ret m => Sys2Proof.Machine.execRet m s
  | .wflush m => Sys2Proof.Machine.execWflush m s
  | .wdepth d m => Sys2Proof.Machine.execWdepth d m s
  | .create d a b m => Sys2Proof.Machine.execCreate d a b m s
  | .spawn a b m => Sys2Proof.Machine.execSpawn a b m s
  | .sync a m => Sys2Proof.Machine.execSync a m s
  | .brk a m => Sys2Proof.Machine.execBrk a m s
  | .kill a m => Sys2Proof.Machine.execKill a m s
  | .mig a m => Sys2Proof.Machine.execMig a m s
  | .migS a m => Sys2Proof.Machine.execMigS a m s
  | .yield m => Sys2Proof.Machine.execYield m s
  | .htest d a m => Sys2Proof.Machine.execHtest d a m s
  | .hwait a m => Sys2Proof.Machine.execHwait a m s
  | .hcancel a m => Sys2Proof.Machine.execHcancel a m s
  | .ifence m => Sys2Proof.Machine.execIfence m s
  | .amoAdd w o d a b m => Sys2Proof.Machine.execAmoAdd w o d a b m s
  | .amoAnd w o d a b m => Sys2Proof.Machine.execAmoAnd w o d a b m s
  | .amoOr w o d a b m => Sys2Proof.Machine.execAmoOr w o d a b m s
  | .amoXor w o d a b m => Sys2Proof.Machine.execAmoXor w o d a b m s
  | .amoMin w o d a b m => Sys2Proof.Machine.execAmoMin w o d a b m s
  | .amoMax w o d a b m => Sys2Proof.Machine.execAmoMax w o d a b m s
  | .amoMinu w o d a b m => Sys2Proof.Machine.execAmoMinu w o d a b m s
  | .amoMaxu w o d a b m => Sys2Proof.Machine.execAmoMaxu w o d a b m s
  | .amoXchg w o d a b m => Sys2Proof.Machine.execAmoXchg w o d a b m s
  | .cas w o d a b m => Sys2Proof.Machine.execCas w o d a b m s
  | .famoAdd w o d a b m => Sys2Proof.Machine.execFamoAdd w o d a b m s
  | .famoMin w o d a b m => Sys2Proof.Machine.execFamoMin w o d a b m s
  | .famoMax w o d a b m => Sys2Proof.Machine.execFamoMax w o d a b m s
  | .tkget d a m => Sys2Proof.Machine.execTkget d a m s
  | .tkwait a b m => Sys2Proof.Machine.execTkwait a b m s
  | .tkadv a m => Sys2Proof.Machine.execTkadv a m s
  | .waiteq a b m => Sys2Proof.Machine.execWaiteq a b m s
  | .waitne a b m => Sys2Proof.Machine.execWaitne a b m s
  | .lkacq a m => Sys2Proof.Machine.execLkacq a m s
  | .lkrel a m => Sys2Proof.Machine.execLkrel a m s
  | .barJoin a m => Sys2Proof.Machine.execBarJoin a m s
  | .barArrive a m => Sys2Proof.Machine.execBarArrive a m s
  | .barDrop a m => Sys2Proof.Machine.execBarDrop a m s
  | .vldContig e k d a m => Sys2Proof.Machine.execVldContig e k d a m s
  | .vldStrided e k d a b m => Sys2Proof.Machine.execVldStrided e k d a b m s
  | .vldIndexed e k d a b m => Sys2Proof.Machine.execVldIndexed e k d a b m s
  | .vstContig e k d a m => Sys2Proof.Machine.execVstContig e k d a m s
  | .vstStrided e k d a b m => Sys2Proof.Machine.execVstStrided e k d a b m s
  | .vstIndexed e k d a b m => Sys2Proof.Machine.execVstIndexed e k d a b m s
  | .vadd t d a b m => Sys2Proof.Machine.execVadd t d a b m s
  | .vsub t d a b m => Sys2Proof.Machine.execVsub t d a b m s
  | .vmul t d a b m => Sys2Proof.Machine.execVmul t d a b m s
  | .vmulh t d a b m => Sys2Proof.Machine.execVmulh t d a b m s
  | .vmin t d a b m => Sys2Proof.Machine.execVmin t d a b m s
  | .vmax t d a b m => Sys2Proof.Machine.execVmax t d a b m s
  | .vminu t d a b m => Sys2Proof.Machine.execVminu t d a b m s
  | .vmaxu t d a b m => Sys2Proof.Machine.execVmaxu t d a b m s
  | .vand t d a b m => Sys2Proof.Machine.execVand t d a b m s
  | .vor t d a b m => Sys2Proof.Machine.execVor t d a b m s
  | .vxor t d a b m => Sys2Proof.Machine.execVxor t d a b m s
  | .vshl t d a b m => Sys2Proof.Machine.execVshl t d a b m s
  | .vshr t d a b m => Sys2Proof.Machine.execVshr t d a b m s
  | .vsar t d a b m => Sys2Proof.Machine.execVsar t d a b m s
  | .vadds t d a b m => Sys2Proof.Machine.execVadds t d a b m s
  | .vaddus t d a b m => Sys2Proof.Machine.execVaddus t d a b m s
  | .vsubs t d a b m => Sys2Proof.Machine.execVsubs t d a b m s
  | .vsubus t d a b m => Sys2Proof.Machine.execVsubus t d a b m s
  | .vabs t d a m => Sys2Proof.Machine.execVabs t d a m s
  | .vneg t d a m => Sys2Proof.Machine.execVneg t d a m s
  | .vcmpEq t d a b m => Sys2Proof.Machine.execVcmpEq t d a b m s
  | .vcmpLt t d a b m => Sys2Proof.Machine.execVcmpLt t d a b m s
  | .vcmpLe t d a b m => Sys2Proof.Machine.execVcmpLe t d a b m s
  | .vcmpLtu t d a b m => Sys2Proof.Machine.execVcmpLtu t d a b m s
  | .vcmpLeu t d a b m => Sys2Proof.Machine.execVcmpLeu t d a b m s
  | .vmad t d a b m => Sys2Proof.Machine.execVmad t d a b m s
  | .vfadd w d a b m => Sys2Proof.Machine.execVfadd w d a b m s
  | .vfsub w d a b m => Sys2Proof.Machine.execVfsub w d a b m s
  | .vfmul w d a b m => Sys2Proof.Machine.execVfmul w d a b m s
  | .vfdiv w d a b m => Sys2Proof.Machine.execVfdiv w d a b m s
  | .vfsqrt w d a m => Sys2Proof.Machine.execVfsqrt w d a m s
  | .vfmin w d a b m => Sys2Proof.Machine.execVfmin w d a b m s
  | .vfmax w d a b m => Sys2Proof.Machine.execVfmax w d a b m s
  | .vfabs w d a m => Sys2Proof.Machine.execVfabs w d a m s
  | .vfneg w d a m => Sys2Proof.Machine.execVfneg w d a m s
  | .vfma w d a b m => Sys2Proof.Machine.execVfma w d a b m s
  | .vfnma w d a b m => Sys2Proof.Machine.execVfnma w d a b m s
  | .vfcmpEq w d a b m => Sys2Proof.Machine.execVfcmpEq w d a b m s
  | .vfcmpLt w d a b m => Sys2Proof.Machine.execVfcmpLt w d a b m s
  | .vfcmpLe w d a b m => Sys2Proof.Machine.execVfcmpLe w d a b m s
  | .vfcmpUn w d a b m => Sys2Proof.Machine.execVfcmpUn w d a b m s
  | .vmov d a m => Sys2Proof.Machine.execVmov d a m s
  | .vbcastW d a m => Sys2Proof.Machine.execVbcastW d a m s
  | .vbcastD d a m => Sys2Proof.Machine.execVbcastD d a m s
  | .vextW d a b m => Sys2Proof.Machine.execVextW d a b m s
  | .vextD d a b m => Sys2Proof.Machine.execVextD d a b m s
  | .vinsW d a b m => Sys2Proof.Machine.execVinsW d a b m s
  | .vinsD d a b m => Sys2Proof.Machine.execVinsD d a b m s
  | .vcvt d a m => Sys2Proof.Machine.execVcvt d a m s
  | .nzscan e d a m => Sys2Proof.Machine.execNzscan e d a m s
  | .vcompress e d a b m => Sys2Proof.Machine.execVcompress e d a b m s
  | .vperm e d a b m => Sys2Proof.Machine.execVperm e d a b m s
  | .vrel m => Sys2Proof.Machine.execVrel m s
  | .vredAdd t o d a m => Sys2Proof.Machine.execVredAdd t o d a m s
  | .vredMin t o d a m => Sys2Proof.Machine.execVredMin t o d a m s
  | .vredMax t o d a m => Sys2Proof.Machine.execVredMax t o d a m s
  | .haccO d a b m => Sys2Proof.Machine.execHaccO d a b m s
  | .haccU d a b m => Sys2Proof.Machine.execHaccU d a b m s
  | .cpy d a b m => Sys2Proof.Machine.execCpy d a b m s
  | .cpyRegSize d a b m => Sys2Proof.Machine.execCpyRegSize d a b m s
  | .gth d a b m => Sys2Proof.Machine.execGth d a b m s
  | .sct d a b m => Sys2Proof.Machine.execSct d a b m s
  | .cpyrAdd u rs d a b m => Sys2Proof.Machine.execCpyrAdd u rs d a b m s
  | .cpyrMin u rs d a b m => Sys2Proof.Machine.execCpyrMin u rs d a b m s
  | .cpyrMax u rs d a b m => Sys2Proof.Machine.execCpyrMax u rs d a b m s
  | .allredAdd u d a b m => Sys2Proof.Machine.execAllredAdd u d a b m s
  | .allredMin u d a b m => Sys2Proof.Machine.execAllredMin u d a b m s
  | .allredMax u d a b m => Sys2Proof.Machine.execAllredMax u d a b m s
  | .tld d t a m => Sys2Proof.Machine.execTld d t a m s
  | .tst d t a m => Sys2Proof.Machine.execTst d t a m s
  | .tzero d t m => Sys2Proof.Machine.execTzero d t m s
  | .tmov d t sc m => Sys2Proof.Machine.execTmov d t sc m s
  | .mma D d a b m => Sys2Proof.Machine.execMma D d a b m s
  | .mmaQ D d a b m => Sys2Proof.Machine.execMmaQ D d a b m s
  | .mmaSp D d a b m => Sys2Proof.Machine.execMmaSp D d a b m s
  | .sca D d a b m => Sys2Proof.Machine.execSca D d a b m s
  | .prune D d a m => Sys2Proof.Machine.execPrune D d a m s
  | .kwrFstat a m => Sys2Proof.Machine.execKwrFstat a m s
  | .krdFstat d m => Sys2Proof.Machine.execKrdFstat d m s
  | .krdAdoptmax d m => Sys2Proof.Machine.execKrdAdoptmax d m s
  | .kwrTshape im a m => Sys2Proof.Machine.execKwrTshape im a m s
  | .kwrTmeta im a m => Sys2Proof.Machine.execKwrTmeta im a m s
  | .kwrAssign a m => Sys2Proof.Machine.execKwrAssign a m s
  | .keyload a m => Sys2Proof.Machine.execKeyload a m s
  | .preemptRemove => Sys2Proof.Machine.execPreemptRemove s
  | .preemptRestore => Sys2Proof.Machine.execPreemptRestore s
  | .preemptSaveImage => Sys2Proof.Machine.execPreemptSaveImage s
  | .preemptLoadImage => Sys2Proof.Machine.execPreemptLoadImage s
  | .idleTurn core => Sys2Proof.Machine.execIdleTurn core s
  | .rotationBoundary core => Sys2Proof.Machine.execRotationBoundary core s
  | .replyLands id => Sys2Proof.Machine.execReplyLands id s
  | .storeAcknowledged id => Sys2Proof.Machine.execStoreAcknowledged id s
  | .divideResultLands core => Sys2Proof.Machine.execDivideResultLands core s
  | .codeFetchLands id => Sys2Proof.Machine.execCodeFetchLands id s
  | .loadAtHome id => Sys2Proof.Machine.execLoadAtHome id s
  | .storeAtHome id => Sys2Proof.Machine.execStoreAtHome id s
  | .egressLoad id => Sys2Proof.Machine.execEgressLoad id s
  | .ingressRelease id => Sys2Proof.Machine.execIngressRelease id s
  | .atomicAtHome id => Sys2Proof.Machine.execAtomicAtHome id s
  | .combinerGroupClose id => Sys2Proof.Machine.execCombinerGroupClose id s
  | .predictorEntryDrop cl line => Sys2Proof.Machine.execPredictorEntryDrop cl line s
  | .ldfeAtHome id => Sys2Proof.Machine.execLdfeAtHome id s
  | .stfeAtHome id => Sys2Proof.Machine.execStfeAtHome id s
  | .tkgetAtHome id => Sys2Proof.Machine.execTkgetAtHome id s
  | .tkwaitAtHome id => Sys2Proof.Machine.execTkwaitAtHome id s
  | .tkadvAtHome id => Sys2Proof.Machine.execTkadvAtHome id s
  | .waitAtHome id => Sys2Proof.Machine.execWaitAtHome id s
  | .lkacqAtHome id => Sys2Proof.Machine.execLkacqAtHome id s
  | .lkrelAtHome id => Sys2Proof.Machine.execLkrelAtHome id s
  | .barJoinAtHome id => Sys2Proof.Machine.execBarJoinAtHome id s
  | .barArriveAtHome id => Sys2Proof.Machine.execBarArriveAtHome id s
  | .barDropAtHome id => Sys2Proof.Machine.execBarDropAtHome id s
  | .haccAtHome id => Sys2Proof.Machine.execHaccAtHome id s
  | .armedReplyLands id => Sys2Proof.Machine.execArmedReplyLands id s
  | .servedAnswerLands id => Sys2Proof.Machine.execServedAnswerLands id s
  | .ldloAtHome id => Sys2Proof.Machine.execLdloAtHome id s
  | .stloAtHome id => Sys2Proof.Machine.execStloAtHome id s
  | .ldloReplyLands id => Sys2Proof.Machine.execLdloReplyLands id s
  | .latestOnlyAckLands id => Sys2Proof.Machine.execLatestOnlyAckLands id s
  | .inTransitDiscard id => Sys2Proof.Machine.execInTransitDiscard id s
  | .translationWalk id => Sys2Proof.Machine.execTranslationWalk id s
  | .walkResultLands id => Sys2Proof.Machine.execWalkResultLands id s
  | .claimAtHome id => Sys2Proof.Machine.execClaimAtHome id s
  | .coreClaim core => Sys2Proof.Machine.execCoreClaim core s
  | .steal core => Sys2Proof.Machine.execSteal core s
  | .claimLands id => Sys2Proof.Machine.execClaimLands id s
  | .claimAckAtHome id => Sys2Proof.Machine.execClaimAckAtHome id s
  | .leaseExpiry thread => Sys2Proof.Machine.execLeaseExpiry thread s
  | .dependentFillLands id => Sys2Proof.Machine.execDependentFillLands id s
  | .passThroughForward id => Sys2Proof.Machine.execPassThroughForward id s
  | .stubResend id => Sys2Proof.Machine.execStubResend id s
  | .endReportAtHome id => Sys2Proof.Machine.execEndReportAtHome id s
  | .familyFillLands id => Sys2Proof.Machine.execFamilyFillLands id s
  | .hwaitAnswerLands id => Sys2Proof.Machine.execHwaitAnswerLands id s
  | .breakAtHome id => Sys2Proof.Machine.execBreakAtHome id s
  | .killAtHome id => Sys2Proof.Machine.execKillAtHome id s
  | .killReachesMember id => Sys2Proof.Machine.execKillReachesMember id s
  | .migrationArrival id => Sys2Proof.Machine.execMigrationArrival id s
  | .copyFork unit cl e => Sys2Proof.Machine.execCopyFork unit cl e s
  | .copyChunkCheck cl e chunk => Sys2Proof.Machine.execCopyChunkCheck cl e chunk s
  | .copyChunkWrite cl e chunk => Sys2Proof.Machine.execCopyChunkWrite cl e chunk s
  | .copyComplete cl e => Sys2Proof.Machine.execCopyComplete cl e s
  | .engineHandleFillLands id => Sys2Proof.Machine.execEngineHandleFillLands id s
  | .jobStart cl e => Sys2Proof.Machine.execJobStart cl e s
  | .tileRowTransfer cl e r => Sys2Proof.Machine.execTileRowTransfer cl e r s
  | .jobEnd cl e => Sys2Proof.Machine.execJobEnd cl e s
  | .jobHandleFill cl e => Sys2Proof.Machine.execJobHandleFill cl e s
  | .snowploughStep die => Sys2Proof.Machine.execSnowploughStep die s
  | .level2ReplyRelease id => Sys2Proof.Machine.execLevel2ReplyRelease id s
  | .faultRecordClaim id => Sys2Proof.Machine.execFaultRecordClaim id s
  | .pagingService id => Sys2Proof.Machine.execPagingService id s
  | .answerAtHolder id => Sys2Proof.Machine.execAnswerAtHolder id s
  | .answerDoorbell vf w => Sys2Proof.Machine.execAnswerDoorbell vf w s
  | .queueDoorbell vf q w => Sys2Proof.Machine.execQueueDoorbell vf q w s
  | .queueControlWrite vf q w => Sys2Proof.Machine.execQueueControlWrite vf q w s
  | .packetReadLands vf q im => Sys2Proof.Machine.execPacketReadLands vf q im s
  | .launch vf q im => Sys2Proof.Machine.execLaunch vf q im s
  | .admissionWake vf q im => Sys2Proof.Machine.execAdmissionWake vf q im s
  | .localSectionCopyLands vf q im => Sys2Proof.Machine.execLocalSectionCopyLands vf q im s
  | .copy vf q im => Sys2Proof.Machine.execCopy vf q im s
  | .signal vf q im => Sys2Proof.Machine.execSignal vf q im s
  | .waitSeq vf q im => Sys2Proof.Machine.execWaitSeq vf q im s
  | .waitSeqAnswer id => Sys2Proof.Machine.execWaitSeqAnswer id s
  | .setDet vf q im => Sys2Proof.Machine.execSetDet vf q im s
  | .setDetDrained vf => Sys2Proof.Machine.execSetDetDrained vf s
  | .fencePacket vf q im => Sys2Proof.Machine.execFencePacket vf q im s
  | .fencePacketComplete vf q im => Sys2Proof.Machine.execFencePacketComplete vf q im s
  | .scrubRegionDone => Sys2Proof.Machine.execScrubRegionDone s
  | .scrubgo w => Sys2Proof.Machine.execScrubgo w s
  | .coreStop core bad => Sys2Proof.Machine.execCoreStop core bad s
  | .repair w => Sys2Proof.Machine.execRepair w s
  | .slotq w => Sys2Proof.Machine.execSlotq w s
  | .spill w => Sys2Proof.Machine.execSpill w s
  | .assign w => Sys2Proof.Machine.execAssign w s
  | .managementWrite off w => Sys2Proof.Machine.execManagementWrite off w s
  | .hostMemoryAccess wr addr len v => Sys2Proof.Machine.execHostMemoryAccess wr addr len v s
  | .gangctlArm vf w => Sys2Proof.Machine.execGangctlArm vf w s
  | .prepared vf gid rank => Sys2Proof.Machine.execPrepared vf gid rank s
  | .refused vf gid rank => Sys2Proof.Machine.execRefused vf gid rank s
  | .commit vf gid => Sys2Proof.Machine.execCommit vf gid s
  | .abort vf gid rank pkg => Sys2Proof.Machine.execAbort vf gid rank pkg s
  | .gangTimeout vf => Sys2Proof.Machine.execGangTimeout vf s
  | .allredMessage pkg gid seq chunk rank op fmt size mode len v => Sys2Proof.Machine.execAllredMessage pkg gid seq chunk rank op fmt size mode len v s
  | .rankLost pkg => Sys2Proof.Machine.execRankLost pkg s
  | .keepalive pkg answered => Sys2Proof.Machine.execKeepalive pkg answered s
  | .peerPortDown port => Sys2Proof.Machine.execPeerPortDown port s
  | .ucieModuleFailure module => Sys2Proof.Machine.execUcieModuleFailure module s
  | .cxlLinkDown port => Sys2Proof.Machine.execCxlLinkDown port s
  | .cxlLinkRetrain port => Sys2Proof.Machine.execCxlLinkRetrain port s
  | .start again ok mask => Sys2Proof.Machine.execStart again ok mask s
  | .bootclr w => Sys2Proof.Machine.execBootclr w s
  | .attest w => Sys2Proof.Machine.execAttest w s
  | .dutyWrite duty w => Sys2Proof.Machine.execDutyWrite duty w s
  | .dutyDrainEnd duty => Sys2Proof.Machine.execDutyDrainEnd duty s
  | .throttle power temp die => Sys2Proof.Machine.execThrottle power temp die s
  | .thermalTrip die => Sys2Proof.Machine.execThermalTrip die s
  | .withdrawalAtHome id => Sys2Proof.Machine.execWithdrawalAtHome id s
  | .withdrawalAckLands id => Sys2Proof.Machine.execWithdrawalAckLands id s
  | .hwaitArmAtHome id => Sys2Proof.Machine.execHwaitArmAtHome id s
  | .peerAdmit pkg => Sys2Proof.Machine.execPeerAdmit pkg s
  | .scaleOutPortUp port => Sys2Proof.Machine.execScaleOutPortUp port s
  | .firmwareImageWrite len v sig version => Sys2Proof.Machine.execFirmwareImageWrite len v sig version s
  | .gatingRequest core => Sys2Proof.Machine.execGatingRequest core s
  | .throttleEnd power temp die => Sys2Proof.Machine.execThrottleEnd power temp die s

end Sys2Proof.Machine
end

