-- ==== Sys2Proof/Machine/Step.lean ====
section
/-! DEFINITION. One step: the next move of the agenda, or the model's own choice of one; and where the host places an
instruction. -/

namespace Sys2Proof.Machine

/-- An issue turn of a core: what its turn comes to before execution, and the execution of the decoded instruction. -/
noncomputable def State.turn (s : State) (core : Nat) : Out :=
  match s.turnStart core with
  | .stop t => .next t
  | .words t ws =>
    match decodeWords ws with
    | .ok (i, _) => exec i t
    | .error e => .next (t.illegal e)

/-- One step. An agenda's event is a row without words; an instruction with words executes by a turn alone. (DESIGN
CHOICE, log entry 5) (DESIGN CHOICE, log entry 60) -/
noncomputable def step (s : State) : Host.Outcome State Fault Refusal :=
  match s.agenda with
  | .turn core :: rest => ({ s with agenda := rest }).turn core
  | .event i :: rest => if (toRaw i).isNone then exec i { s with agenda := rest } else .next { s with agenda := rest }
  | .part i :: rest => .next (({ s with agenda := rest }.part i).getD { s with agenda := rest })
  | .upset unit :: rest => .next ({ s with agenda := rest }.upset unit)
  | [] =>
    match s.readyCore with
    | some core => s.turn core
    | none => .next s.otherwise

/-- The address of a placed instruction. -/
def placedPc : Word := 0x1000#64
/-- The instruction of `nbits` bits `w` as the next of a new thread of function 0 in slot 0 of core 0: its words stand in
the slot's instruction buffer, from which a turn fetches (R117), and core 0's turn is the next move. -/
def State.withFetchWord (s : State) (nbits w : Nat) : State :=
  let u := s.nextId
  let ws := wordsOfBytes (tableBytes nbits w) ++ List.replicate 3 0#32
  let s := s.modCluster 0 (fun x => { x with removed := false })
  let s := s.modCore 0 (fun x => { x with stopped := false, gated := false, last := 15, cycle := 0 })
  let s := s.putSlot 0 { Slot.blank with occ := some u, ibuf := some (placedPc.toNat, ws) }
  { s.putThread u { Thread.blank with loc := .slot 0, pc := placedPc } with nextId := u + 1, agenda := [.turn 0] }

end Sys2Proof.Machine
end

