-- ==== Sys2Proof/WellFormed.lean ====
section
/-! DEFINITION. Which instructions are well formed: those whose fields the encoding tables permit and whose
operands stand in the one form in which the decoder gives them. The machine's own steps have no encoding, so every
one of them is well formed. -/

namespace Sys2Proof

/-- The fields that the length does not hold are zero (R17, R23). -/
def Mods.fits (m : Mods) : Bool :=
  match m.len.toNat with
  | 0 => m == Mods.base
  | 1 => m.lit == 0#64
  | 2 => { m with len := 0#2, lit := 0#64 } == Mods.base
  | _ => true

/-- The operands stand in the decoder's form: an immediate that a constructor holds as operands is not held again
in `m`; the register rows of `krd` and `kwr` are not written with the general constructors; `bt` of p0 is `b`
(R109); an indexed size is one that exists (R44). -/
def canonical (i : Instr) : Bool :=
  match i with
  | .shlImm _ _ _ m => m == m.noImm
  | .shrImm _ _ _ m => m == m.noImm
  | .sarImm _ _ _ m => m == m.noImm
  | .rolImm _ _ _ m => m == m.noImm
  | .rorImm _ _ _ m => m == m.noImm
  | .bfxImm _ _ _ _ m => m == m.noImm
  | .bfxuImm _ _ _ _ m => m == m.noImm
  | .krd _ k _ => k != 0x002#10 && k != 0x020#10
  | .kwr k _ _ => k != 0x002#10 && k != 0x101#10 && k != 0x112#10 && k.extractLsb' 3 7 != 2#7 && k.extractLsb' 3 7 != 3#7
  | .bt p _ _ => p != 0#3
  | .ldIndexed _ z _ _ _ _ => z != 7#3
  | .stIndexed _ z _ _ _ _ => z == 0#3 || z == 2#3 || z == 4#3 || z == 6#3
  | _ => true

/-- The check of well-formedness: the length's form, the decoder's form, and the encoding tables (R56). -/
def wellFormed (i : Instr) : Bool :=
  match toRaw i with
  | none => true
  | some r => r.m.fits && canonical i && fieldFault i r == none

/-- An instruction that the encoding tables permit. (DEDUCED, log entry 13) -/
abbrev WellFormed (i : Instr) : Prop := wellFormed i = true

end Sys2Proof
end

