-- ==== Sys2Proof/Safety.lean ====
section
/-! DEFINITION. The terms in which claims are stated: when an instruction is ready, what an instruction leaves as it was,
and the invariants of the machine. -/

namespace Sys2Proof.Machine

/-- Do the operands of an instruction allow it (R34, R78, R168, R264)? Every source is full, every vector register has
landed, no destination is pending, and a shared that it writes is empty and may be written now. -/
def State.operandsReady (s : State) (n : Need) : Prop :=
  (∀ r ∈ n.src, s.cur.fe r.toNat = .full) ∧ (∀ v ∈ n.vec, s.mySlot.vpend.get 0 v.toNat = 0) ∧
  ∀ r ∈ n.dst, (∀ f, s.cur.fe r.toNat ≠ .pending f) ∧
    (18 ≤ r.toNat → r.toNat < 22 → s.cur.fe r.toNat ≠ .full ∧
      ((s.famAt s.cur.fam).place = 0 ∨ s.releaseReady s.uid = true))

/-- A thread stands in the executing slot, the guard holds, and the operands are ready (R16, R34); a privileged form
(`priv` not 0) is executed by a thread of function 0 (R324). -/
structure State.Ready (s : State) (m : Mods) (priv : Nat) (n : Need) : Prop where
  here : s.uid?.isSome = true
  guard : s.guardHolds m = true
  allowed : priv = 0 ∨ s.cur.vf = 0
  operands : s.operandsReady n

/-- The registers that an instruction's consume bits name (R24). -/
def consumed (m : Mods) (a b : BitVec 5) : List (BitVec 5) :=
  (if m.consA then [a] else []) ++ (if m.consB then [b] else []) ++ (if m.consC then [m.rc] else [])

/-- Is a register one that an instruction can write: a local, a shared or lk (R33)? -/
def writable (r : BitVec 5) : Bool := r.toNat < 10 || (18 ≤ r.toNat && r.toNat < 22) || r.toNat == 29

/-- Is a register one whose write sends its value to the successor (R77)? -/
def isShared (r : BitVec 5) : Bool := 18 ≤ r.toNat && r.toNat < 22

/-- The registers of the executing thread that neither `d` nor a consume names are as they were, value and
full/empty state; pc apart. -/
def State.keepsRegs (s t : State) (m : Mods) (a b d : BitVec 5) : Prop :=
  ∀ r : BitVec 5, r ≠ d → r ∉ consumed m a b → r ≠ 31#5 →
    t.gpr r = s.gpr r ∧ t.cur.fe r.toNat = s.cur.fe r.toNat

/-- The registers that a consume names and that the instruction does not write are empty afterwards (R24). -/
def State.consumes (t : State) (m : Mods) (a b d : BitVec 5) : Prop :=
  ∀ r ∈ consumed m a b, r.toNat < 10 → r ≠ d → t.cur.fe r.toNat = .empty

/-- Nothing outside the executing thread changes but messages on their way: every other thread, memory, slots, cores,
clusters, dies, requests, families, functions, walks, fetches, records, the package. -/
def State.keepsMachine (s t : State) : Prop :=
  (∀ u, u ≠ s.uid → t.threadAt u = s.threadAt u) ∧
  { t with threads := s.threads, msgs := s.msgs, bound := s.bound, carried := s.carried, nextId := s.nextId } = s
/-- No message leaves. -/
def State.keepsMsgs (s t : State) : Prop :=
  t.msgs = s.msgs ∧ t.bound = s.bound ∧ t.carried = s.carried ∧ t.nextId = s.nextId

/-- The effect of an instruction on the general registers: `d` takes `v` and is full where it is a register that can be
written (R33; a write of z is discarded), pc moves past the instruction's words, the consumed registers are empty, every
other register is as it was, nothing outside the thread changes, and only a write of a shared sends a message (R77). -/
def State.regResult (s t : State) (m : Mods) (a b d : BitVec 5) (v : Word) : Prop :=
  (writable d = true → t.gpr d = v ∧ t.cur.fe d.toNat = .full) ∧
  t.cur.pc = s.cur.pc + word (lenBytes m) ∧
  s.keepsRegs t m a b d ∧ t.consumes m a b d ∧ s.keepsMachine t ∧ (isShared d = false → s.keepsMsgs t)

/-- Beside its full/empty registers, lk and pc, every register of the executing thread is as it was: predicates, FCTL,
FSTAT, SRSEED, the answer registers, its depth and the rest. -/
def State.keepsThread (s t : State) : Prop :=
  { t.cur with regs := s.cur.regs, lk := s.cur.lk, pc := s.cur.pc } = s.cur
/-- The same, with FSTAT and SRSEED apart. -/
def State.keepsThreadFp (s t : State) : Prop :=
  { t.cur with regs := s.cur.regs, lk := s.cur.lk, pc := s.cur.pc, fstat := s.cur.fstat, srseed := s.cur.srseed } = s.cur
/-- The same, with the predicates apart. -/
def State.keepsThreadPred (s t : State) : Prop :=
  { t.cur with regs := s.cur.regs, lk := s.cur.lk, pc := s.cur.pc, pred := s.cur.pred } = s.cur

/-- The same, with FSTAT and the predicates apart. -/
def State.keepsThreadFcmp (s t : State) : Prop :=
  { t.cur with regs := s.cur.regs, lk := s.cur.lk, pc := s.cur.pc, pred := s.cur.pred, fstat := s.cur.fstat } = s.cur

/-- The effect of an instruction on the predicates (R25, R126): `p` takes `v`, every other predicate and every general
register is as it was, pc moves past the instruction's words, the consumed registers are empty, and nothing outside the
thread changes. -/
def State.predResult (s t : State) (m : Mods) (a b : BitVec 5) (p : BitVec 3) (v : Bool) : Prop :=
  (p ≠ 0#3 → t.cur.getPred p = v) ∧ (∀ q, q ≠ p → t.cur.getPred q = s.cur.getPred q) ∧
  t.cur.pc = s.cur.pc + word (lenBytes m) ∧
  s.keepsRegs t m a b 27#5 ∧ t.consumes m a b 27#5 ∧ s.keepsMachine t ∧ s.keepsMsgs t

/-- The effect of a float instruction that writes a general register (R129, R133, R236): the result's bits, its flags
added to FSTAT, and SRSEED advanced when the instruction rounds and its mode is stochastic. -/
def State.floatResult (s t : State) (m : Mods) (a b d : BitVec 5) (rounds : Bool) (r : FRes) : Prop :=
  s.regResult t m a b d (word r.1) ∧ t.cur.fstat = s.cur.fstat ||| r.2 ∧
  t.cur.srseed = (if rounds = true ∧ s.mode m = 5 then s.cur.srseed + 1#64 else s.cur.srseed) ∧ s.keepsThreadFp t

/-- What every completed instruction of the executing thread does to the threads beside its own effect: pc moves past its
words, the consumed registers are empty, every general register but `d` is as it was, and so is every other thread. -/
def State.advancesRegs (s t : State) (m : Mods) (a b d : BitVec 5) : Prop :=
  t.cur.pc = s.cur.pc + word (lenBytes m) ∧ s.keepsRegs t m a b d ∧ t.consumes m a b d ∧
  ∀ u, u ≠ s.uid → t.threadAt u = s.threadAt u
/-- The same, and every byte of memory is as it was. -/
def State.advances (s t : State) (m : Mods) (a b d : BitVec 5) : Prop :=
  s.advancesRegs t m a b d ∧ ∀ x, t.byteAt x = s.byteAt x

/-- A memory access of the executing thread passes its checks (R160, R164): no acquire of the thread is outstanding, a
release has its conditions, the address reaches place `p` (the state after the lookup is `s1`), a level-2 thread stays
within the package's first tier (R407), and `n` reservations are free (R157). -/
structure State.Reaches (s : State) (rel : Bool) (acc : Acc) (size : Nat) (ea : Word) (n : Nat) (s1 : State) (p : Place) :
    Prop where
  idle : s.acquiring s.uid = false
  release : rel = true → s.releaseReady s.uid = true
  place : s.reach s.uid s.myCore s.cur.vf acc size ea = .ok s1 p
  determ : (s.famAt s.cur.fam).level ≠ 2 ∨ (inTier2 p.addr = false ∧ isHost p.addr = false)
  free : s1.resvFree s1.me n = true

/-- A request stands under the name `id`, and the instruction leaves it there. One to the core's own local store is served
within the instruction (R146, R270), and answered within it too but for a wait, lock or barrier instruction, whose thread
waits for the reply. -/
def State.posts (u t : State) (id : Nat) (r : Req) : Prop :=
  u.reqs.find? id = some r ∧
  let v := if isLocalStore r.addr = true then u.serveAtHome id (fun _ => true) else u
  t = if r.kind.isReply = true then v.suspend (.reply id)
    else if isLocalStore r.addr = true then (((v.landReply id).landAck id).landAnswer id).landArmed id
    else v

/-- The request of the executing thread that an instruction with effective address `ea` at place `p` makes (R156, R258). -/
def Req.of (r : Req) (s : State) (kind : ReqKind) (size : Nat) (ea : Word) (p : Place) (scope : Nat) (acq rel : Bool) :
    Prop :=
  r.kind = kind ∧ r.thread = some s.uid ∧ r.core = s.myCore ∧ r.slot = s.me ∧ r.vf = s.cur.vf ∧ r.addr = p.addr ∧ r.va = ea ∧
  r.size = size ∧ r.lo = p.lo ∧ r.key = p.key ∧ r.scope = scope ∧ r.acq = acq ∧ r.rel = rel ∧ r.pc = s.cur.pc

/-- What an instruction that writes vector register `d` leaves (R168, R169): every other vector register of the slot and the
rest of the slot, every other slot, every general register but the consumed ones, memory and the rest of the machine; it
pins the thread. FSTAT and SRSEED apart, the thread keeps the rest. -/
def State.vecFrame (s t : State) (m : Mods) (a b : BitVec 5) (d : BitVec 3) : Prop :=
  s.advances t m a b 27#5 ∧ t.cur.vpin = true ∧
  (∀ r : BitVec 5, r ≠ d.setWidth 5 → t.vec r = s.vec r) ∧
  (∀ q, q ≠ s.me → t.slotAt q = s.slotAt q) ∧ { t.mySlot with vecs := s.mySlot.vecs } = s.mySlot ∧
  { t.cur with regs := s.cur.regs, pc := s.cur.pc, vpin := s.cur.vpin, fstat := s.cur.fstat, srseed := s.cur.srseed } = s.cur ∧
  { t with threads := s.threads, slots := s.slots } = s

/-- The lanes of a vector access reach their places one after the other, each aligned to its width, none of a store on a
latest-only page (R173). -/
def State.lanesReach (acc : Acc) : State → List LaneRef → State → List LanePlace → Prop
  | s, [], t, ps => t = s ∧ ps = []
  | s, l :: ls, t, ps => ∃ u p rest, s.reach s.uid s.myCore s.cur.vf acc l.w l.va = .ok u p ∧
      (acc.writes = true → p.lo = false) ∧ State.lanesReach acc u ls t rest ∧ ps = ⟨l, p⟩ :: rest

/-- The executing thread may take a fault at once: it runs, it is not chained beneath itself, and its earlier instructions
are complete (R10). -/
structure State.mayFault (s : State) : Prop where
  runs : s.cur.ended = none
  alone : s.uid ∉ s.mySlot.chain
  settled : s.settled s.uid = true

/-- A cause of an exception that ends the thread is recorded for its function (R346, R347): a new record of kind 2 with
the thread's identity, the fault word, the address and the thread's pc, and the thread ends with the fault. -/
def State.faultsEnd (s t : State) (code cause : Nat) (addr : Word) : Prop :=
  (t.threadAt s.uid).ended = some (.fault code cause) ∧ (t.threadAt s.uid).loc = .ended ∧
  ∃ r, t.records.find? s.nextId = some r ∧ r.queue = s.cur.vf ∧ r.kind = 2 ∧ r.awaits = false ∧
    r.body.getD 0 0#64 = s.cur.identity ∧ (r.body.getD 1 0#64).toNat % 2 ^ 16 = code + cause * 2 ^ 8 ∧
    r.body.getD 2 0#64 = addr ∧ r.body.getD 3 0#64 = s.cur.pc

/-- Every byte of memory outside `a` to `a + n - 1` reads as before. -/
def State.keepsBytes (s t : State) (a n : Nat) : Prop := ∀ x, x < a ∨ a + n ≤ x → t.byteAt x = s.byteAt x

/-- Memory is in its canonical form. -/
def State.memWf (s : State) : Prop := Memory.wf s.mem = true

/-- What a taken transfer leaves (R109, R154): the next instruction's address, an empty instruction buffer, the consumed
registers empty, and everything else as it was. -/
def State.transfers (s t : State) (m : Mods) (a : BitVec 5) (pc : Word) : Prop :=
  t.cur.pc = pc ∧ t.mySlot.ibuf = none ∧ s.keepsRegs t m a 27#5 27#5 ∧ t.consumes m a 27#5 27#5 ∧ s.keepsThread t ∧
  (∀ u, u ≠ s.uid → t.threadAt u = s.threadAt u) ∧ (∀ q, q ≠ s.me → t.slotAt q = s.slotAt q) ∧
  { t.mySlot with ibuf := s.mySlot.ibuf } = s.mySlot ∧ { t with threads := s.threads, slots := s.slots } = s

/-- The executing thread has taken the reservation that it asked for, and waits in no order for one (R157). -/
def State.tookResv (s : State) : State :=
  s.modCore s.myCore (fun c => { c with resvWait := dropSlot s.me c.resvWait })

/-- A thread ends (R15, R61, R81): how, it is in no slot, it waits for nothing, and its end report leaves for its
family's home. -/
def State.threadEnds (t : State) (u : Nat) (how : Ended) : Prop :=
  (t.threadAt u).ended = some how ∧ (t.threadAt u).loc = .ended ∧ (t.threadAt u).wait = .none ∧
  ∃ id, t.msgs.find? id = some (.report (t.threadAt u).fam u)

/-- A request stands at its home and is next there (R152, R158, R263), it belongs to no combined group, its key slot is
filled and no uncorrectable error stands in its bytes (R326, R346). -/
structure State.AtHome (s : State) (id : Nat) (r : Req) : Prop where
  here : s.reqs.find? id = some r
  turn : s.readyAtHome id r = true
  alone : r.group = none
  clear : r.err = none
  key : s.keyReady r.key = true
  clean : s.poisoned r.addr (max r.size 1) = false

/-- The reply of a request is on its way, with its data (R156). -/
def State.repliedWith (t : State) (id : Nat) (data : List Byte) : Prop :=
  ∃ q, t.reqs.find? id = some q ∧ q.phase = .replied ∧ q.data = data ∧ q.err = none
/-- A request is armed or queued at its home, and the "armed" reply is on its way with the word's value (R253). -/
def State.armedWith (t : State) (id : Nat) (w : Word) : Prop :=
  ∃ q, t.reqs.find? id = some q ∧ q.phase = .arming ∧ q.opC = w

/-- A job but for its place in the order of its die's grants, which the limiter gives it (R321). -/
def Job.unplaced (j : Job) : Job := { j with ready := none }

/-- Bytes laid into placed runs of plain pages, in order (R190). -/
def State.pokeRuns (s : State) : List (Nat × Nat × Word × Option Nat) → List Byte → State
  | [], _ => s
  | r :: rs, bs => (s.poke r.1 (bs.take r.2.1)).pokeRuns rs (bs.drop r.2.1)

/-- The bytes that a home writes, through the controller of their page (R364), and every other byte of memory as it was. -/
def State.homeWrites (s t : State) (key : Option Nat) (a : Nat) (bs : List Byte) : Prop :=
  t.mem = (s.writeBytes key a bs).mem

/-- A completion word of a packet written (R309, R313): `t` holds it at its address, wherever that address leads from the
memory, package and context of `s`, and no other byte has changed but for the marks of the walk. -/
def State.wordWritten (s t : State) (vf core : Nat) (va w : Word) : Prop :=
  ∃ u : State, u.mem = s.mem ∧ u.pkg = s.pkg ∧ u.bad = s.bad ∧ (u.funcAt vf).ctxroot = (s.funcAt vf).ctxroot ∧
    (u.funcAt vf).prot = (s.funcAt vf).prot ∧
    ∀ v pl, u.engineReach core vf .store 8 va = (v, .ok pl) → pl.lo = false → v.keyReady pl.key = true →
      inTier2 pl.addr = false → v.homeWrites t pl.key pl.addr (toBytes 8 w.toNat)

end Sys2Proof.Machine
end

