-- ==== Sys2Proof/Certificates/Slice0/Obligations.lean ====
section
/-! DEFINITION. The statements about the machine. -/

open Sys2Proof Sys2Proof.Machine

/-! Integer instructions. -/

/-- R121, R122, R24, R33 to R35, R77: what each two-operand integer instruction outside the divide unit writes, in the
register and the immediate form, and each one-operand one; everything else stays. A write of z writes nothing. -/
def Obligations.IntegerResults : Prop :=
  (
  ∀ op ∈ ([(Instr.add, fun x y => x + y), (Instr.sub, fun x y => x - y), (Instr.mul, fun x y => x * y),
      (Instr.mulh, fun x y => BitVec.ofInt 64 (x.toInt * y.toInt / 2 ^ 64)),
      (Instr.mulhu, fun x y => BitVec.ofNat 64 (x.toNat * y.toNat / 2 ^ 64)),
      (Instr.and, fun x y => x &&& y), (Instr.or, fun x y => x ||| y), (Instr.xor, fun x y => x ^^^ y),
      (Instr.andn, fun x y => x &&& ~~~y),
      (Instr.shl, fun x y => BitVec.ofNat 64 (x.toNat * 2 ^ (y.toNat % 64))),
      (Instr.shr, fun x y => BitVec.ofNat 64 (x.toNat / 2 ^ (y.toNat % 64))),
      (Instr.sar, fun x y => BitVec.ofInt 64 (x.toInt / 2 ^ (y.toNat % 64))),
      (Instr.rol, fun x y => x <<< (y.toNat % 64) ||| x >>> (64 - y.toNat % 64)),
      (Instr.ror, fun x y => x >>> (y.toNat % 64) ||| x <<< (64 - y.toNat % 64)),
      (Instr.min, fun x y => if x.toInt < y.toInt then x else y),
      (Instr.max, fun x y => if y.toInt < x.toInt then x else y),
      (Instr.minu, fun x y => if x.toNat < y.toNat then x else y),
      (Instr.maxu, fun x y => if y.toNat < x.toNat then x else y)] :
      List ((BitVec 5 → BitVec 5 → BitVec 5 → Bool → Mods → Instr) × (Word → Word → Word))),
    ∀ (d a b : BitVec 5) (imm : Bool) (m : Mods) (s : State),
      s.Ready m 0 { src := if imm then [a] else [a, b], dst := [d] } →
      ∃ t, exec (op.1 d a b imm m) s = .next t ∧ s.keepsThread t ∧
        s.regResult t m a b d (op.2 (s.gpr a)
          (if imm then (if m.len = 1#2 then m.w2.signExtend 64 else m.lit) else s.gpr b))) ∧
  (
  ∀ op ∈ ([(Instr.mov, fun x => x),
      (Instr.clz, fun x => BitVec.ofNat 64 (if x = 0#64 then 64 else 63 - Nat.log2 x.toNat)),
      (Instr.ctz, fun x => BitVec.ofNat 64 ((List.range 64).findIdx (fun i => x.toNat / 2 ^ i % 2 == 1))),
      (Instr.popc, fun x => BitVec.ofNat 64 ((List.range 64).map (fun i => x.toNat / 2 ^ i % 2)).sum),
      (Instr.bswap, fun x => BitVec.ofNat 64 ((List.range 8).map (fun i => x.toNat / 256 ^ i % 256 * 256 ^ (7 - i))).sum),
      (Instr.sxb, fun x => (x.setWidth 8).signExtend 64), (Instr.sxh, fun x => (x.setWidth 16).signExtend 64),
      (Instr.sxw, fun x => (x.setWidth 32).signExtend 64), (Instr.zxw, fun x => (x.setWidth 32).setWidth 64)] :
      List ((BitVec 5 → BitVec 5 → Mods → Instr) × (Word → Word))),
    ∀ (d a : BitVec 5) (m : Mods) (s : State), s.Ready m 0 { src := [a], dst := [d] } →
      ∃ t, exec (op.1 d a m) s = .next t ∧ s.keepsThread t ∧ s.regResult t m a 27#5 d (op.2 (s.gpr a)))

/-- R124, R125: fields extracted and inserted by operand B, and addresses formed; the field is cut at bit 63, and `bfi`
keeps the bits of the C register outside the field. -/
def Obligations.FieldAndAddressResults : Prop :=
  (∀ op ∈ ([(Instr.bfxReg, fun f w => (BitVec.ofInt 64 (Int.bmod f (2 ^ w)))), (Instr.bfxuReg, fun f _ => BitVec.ofNat 64 f)] :
      List ((BitVec 5 → BitVec 5 → BitVec 5 → Bool → Mods → Instr) × (Nat → Nat → Word))),
    ∀ (d a b : BitVec 5) (imm : Bool) (m : Mods) (s : State),
      s.Ready m 0 { src := if imm then [a] else [a, b], dst := [d] } →
      let y := if imm then (if m.len = 1#2 then m.w2.signExtend 64 else m.lit) else s.gpr b
      let w := min (y.toNat / 2 ^ 8 % 64 + 1) (64 - y.toNat % 64)
      ∃ t, exec (op.1 d a b imm m) s = .next t ∧ s.keepsThread t ∧
        s.regResult t m a b d (op.2 ((s.gpr a).toNat / 2 ^ (y.toNat % 64) % 2 ^ w) w)) ∧
  (∀ (d a b : BitVec 5) (imm : Bool) (m : Mods) (s : State),
      s.Ready m 0 { src := (if imm then [a] else [a, b]) ++ [m.rc], dst := [d] } →
      let y := if imm then (if m.len = 1#2 then m.w2.signExtend 64 else m.lit) else s.gpr b
      let w := min (y.toNat / 2 ^ 8 % 64 + 1) (64 - y.toNat % 64)
      let p := y.toNat % 64
      ∃ t v, exec (.bfi d a b imm m) s = .next t ∧ s.keepsThread t ∧ s.regResult t m a b d v ∧
        ∀ i, i < 64 → v.getLsbD i = if p ≤ i ∧ i < p + w then (s.gpr a).getLsbD (i - p) else (s.gpr m.rc).getLsbD i) ∧
  (∀ op ∈ ([(Instr.lea1, 1), (Instr.lea2, 2), (Instr.lea4, 4), (Instr.lea8, 8)] :
      List ((BitVec 5 → BitVec 5 → BitVec 5 → Mods → Instr) × Nat)),
    ∀ (d a b : BitVec 5) (m : Mods) (s : State), s.Ready m 0 { src := [a, b], dst := [d] } →
      ∃ t, exec (op.1 d a b m) s = .next t ∧ s.keepsThread t ∧
        s.regResult t m a b d (BitVec.ofNat 64 ((s.gpr a).toNat + (s.gpr b).toNat * op.2 + (m.w2.signExtend 64).toNat)))

/-- R30, R39, R121, R123, R124: what the immediate majors write. -/
def Obligations.ImmediateResults : Prop :=
  (∀ op ∈ ([(Instr.addi, fun x y => x + y), (Instr.muli, fun x y => x * y), (Instr.andi, fun x y => x &&& y),
      (Instr.ori, fun x y => x ||| y), (Instr.xori, fun x y => x ^^^ y)] :
      List ((BitVec 5 → BitVec 5 → BitVec 14 → Mods → Instr) × (Word → Word → Word))),
    ∀ (d a : BitVec 5) (i : BitVec 14) (m : Mods) (s : State), s.Ready m 0 { src := [a], dst := [d] } →
      ∃ t, exec (op.1 d a i m) s = .next t ∧ s.keepsThread t ∧ s.regResult t m a 27#5 d (op.2 (s.gpr a)
        (if m.len = 0#2 then i.signExtend 64 else if m.len = 1#2 then m.w2.signExtend 64 else m.lit))) ∧
  (∀ op ∈ ([(Instr.shlImm, fun x n => BitVec.ofNat 64 (x.toNat * 2 ^ n)), (Instr.shrImm, fun x n => BitVec.ofNat 64 (x.toNat / 2 ^ n)),
      (Instr.sarImm, fun x n => BitVec.ofInt 64 (x.toInt / 2 ^ n)),
      (Instr.rolImm, fun x n => x <<< n ||| x >>> (64 - n)), (Instr.rorImm, fun x n => x >>> n ||| x <<< (64 - n))] :
      List ((BitVec 5 → BitVec 5 → BitVec 6 → Mods → Instr) × (Word → Nat → Word))),
    ∀ (d a : BitVec 5) (n : BitVec 6) (m : Mods) (s : State), s.Ready m 0 { src := [a], dst := [d] } →
      ∃ t, exec (op.1 d a n m) s = .next t ∧ s.keepsThread t ∧ s.regResult t m a 27#5 d (op.2 (s.gpr a) n.toNat)) ∧
  (∀ (d a : BitVec 5) (p w : BitVec 6) (m : Mods) (s : State), s.Ready m 0 { src := [a], dst := [d] } →
      p.toNat + (w.toNat + 1) ≤ 64 →
      let f := (s.gpr a).toNat / 2 ^ p.toNat % 2 ^ (w.toNat + 1)
      (∃ t, exec (.bfxImm d a p w m) s = .next t ∧ s.keepsThread t ∧
        s.regResult t m a 27#5 d (BitVec.ofInt 64 (Int.bmod f (2 ^ (w.toNat + 1))))) ∧
      (∃ t, exec (.bfxuImm d a p w m) s = .next t ∧ s.keepsThread t ∧ s.regResult t m a 27#5 d (BitVec.ofNat 64 f))) ∧
  (∀ (d : BitVec 5) (i : BitVec 14) (m : Mods) (s : State), s.Ready m 0 { src := [27#5], dst := [d] } →
      ∃ t, exec (.movi d i m) s = .next t ∧ s.keepsThread t ∧ s.regResult t m 27#5 27#5 d
        (if m.len = 0#2 then i.signExtend 64 else if m.len = 1#2 then m.w2.signExtend 64 else m.lit))

/-- R126: what each integer compare writes, against an immediate and against a register. -/
def Obligations.IntegerCompareResults : Prop :=
  ∀ op ∈ ([(Instr.cmpEqImm, Instr.cmpEq, fun x y => decide (x = y)), (Instr.cmpNeImm, Instr.cmpNe, fun x y => decide (x ≠ y)),
      (Instr.cmpLtImm, Instr.cmpLt, fun x y => decide (x.toInt < y.toInt)), (Instr.cmpLeImm, Instr.cmpLe, fun x y => decide (x.toInt ≤ y.toInt)),
      (Instr.cmpGtImm, Instr.cmpGt, fun x y => decide (x.toInt > y.toInt)), (Instr.cmpGeImm, Instr.cmpGe, fun x y => decide (x.toInt ≥ y.toInt)),
      (Instr.cmpLtuImm, Instr.cmpLtu, fun x y => decide (x.toNat < y.toNat)), (Instr.cmpLeuImm, Instr.cmpLeu, fun x y => decide (x.toNat ≤ y.toNat)),
      (Instr.cmpGtuImm, Instr.cmpGtu, fun x y => decide (x.toNat > y.toNat)), (Instr.cmpGeuImm, Instr.cmpGeu, fun x y => decide (x.toNat ≥ y.toNat)),
      (Instr.cmpTstImm, Instr.cmpTst, fun x y => decide (x &&& y ≠ 0#64)), (Instr.cmpTstzImm, Instr.cmpTstz, fun x y => decide (x &&& y = 0#64))] :
      List ((BitVec 3 → BitVec 5 → BitVec 14 → Mods → Instr) × (BitVec 3 → BitVec 5 → BitVec 5 → Mods → Instr) ×
        (Word → Word → Bool))),
    (∀ (p : BitVec 3) (a : BitVec 5) (i : BitVec 14) (m : Mods) (s : State), s.Ready m 0 { src := [a] } →
      ∃ t, exec (op.1 p a i m) s = .next t ∧ s.keepsThreadPred t ∧ s.predResult t m a 27#5 p (op.2.2 (s.gpr a)
        (if m.len = 0#2 then i.signExtend 64 else if m.len = 1#2 then m.w2.signExtend 64 else m.lit))) ∧
    (∀ (p : BitVec 3) (a b : BitVec 5) (m : Mods) (s : State), s.Ready m 0 { src := [a, b] } →
      ∃ t, exec (op.2.1 p a b m) s = .next t ∧ s.keepsThreadPred t ∧ s.predResult t m a b p (op.2.2 (s.gpr a) (s.gpr b)))

/-- R127: the predicate-logic instructions; p0 reads true as a source, and `prd` and `pwr` move all seven. -/
def Obligations.PredicateLogicResults : Prop :=
  (∀ op ∈ ([(Instr.pand, fun x y => x && y), (Instr.por, fun x y => x || y), (Instr.pxor, fun x y => x != y),
      (Instr.pandn, fun x y => x && !y)] : List ((BitVec 3 → BitVec 3 → BitVec 3 → Mods → Instr) × (Bool → Bool → Bool))),
    ∀ (d a b : BitVec 3) (m : Mods) (s : State), s.Ready m 0 {} →
      ∃ t, exec (op.1 d a b m) s = .next t ∧ s.keepsThreadPred t ∧
        s.predResult t m 27#5 27#5 d (op.2 (s.cur.getPred a) (s.cur.getPred b))) ∧
  (∀ (d a : BitVec 3) (m : Mods) (s : State), s.Ready m 0 {} →
      (∃ t, exec (.pnot d a m) s = .next t ∧ s.keepsThreadPred t ∧ s.predResult t m 27#5 27#5 d (!s.cur.getPred a)) ∧
      (∃ t, exec (.pmov d a m) s = .next t ∧ s.keepsThreadPred t ∧ s.predResult t m 27#5 27#5 d (s.cur.getPred a))) ∧
  (∀ s : State, s.cur.getPred 0#3 = true) ∧
  (∀ (d : BitVec 5) (m : Mods) (s : State), s.Ready m 0 { dst := [d] } →
      ∃ t v, exec (.prd d m) s = .next t ∧ s.keepsThread t ∧ s.regResult t m 27#5 27#5 d v ∧ v.toNat < 256 ∧
        ∀ p : BitVec 3, v.getLsbD p.toNat = s.cur.getPred p) ∧
  (∀ (a : BitVec 5) (m : Mods) (s : State), s.Ready m 0 { src := [a] } →
      ∃ t, exec (.pwr a m) s = .next t ∧ s.keepsThreadPred t ∧ s.keepsRegs t m a 27#5 27#5 ∧ t.consumes m a 27#5 27#5 ∧
        s.keepsMachine t ∧ s.keepsMsgs t ∧ t.cur.pc = s.cur.pc + word (lenBytes m) ∧
        ∀ p : BitVec 3, p ≠ 0#3 → t.cur.getPred p = (s.gpr a).getLsbD p.toNat)

/-! Scalar float instructions. -/

/-- R131, R133, R134, R136, R236: what the float instructions outside the divide unit write, in both widths, from operands
read with daz and under the effective rounding mode; the flags are sticky, and FCTL stays.
The model's own reading in it: log entries 14 and 15. -/
def Obligations.FloatArithmeticResults : Prop :=
  ∀ (w : Bool) (d a b : BitVec 5) (m : Mods) (s : State),
    let f := if w then f64 else f32
    let x (r : BitVec 5) : FVal := f.daz (s.cur.fctl.getLsbD 4) (f.decode (s.gpr r).toNat)
    let mode := if m.round = 0#3 then s.cur.fctl.toNat % 8 else m.round.toNat
    let e : FEnv := { mode := mode, daz := s.cur.fctl.getLsbD 4, ftz := s.cur.fctl.getLsbD 3,
                      draw := if mode = 5 then drawOf s.cur.srseed.toNat 0 else 0 }
    (s.Ready m 0 { src := [a, b], dst := [d] } →
      (∃ t, exec (.fadd w d a b m) s = .next t ∧ s.floatResult t m a b d true (f.add e (x a) (x b))) ∧
      (∃ t, exec (.fsub w d a b m) s = .next t ∧ s.floatResult t m a b d true (f.add e (x a) (x b).flip)) ∧
      (∃ t, exec (.fmul w d a b m) s = .next t ∧ s.floatResult t m a b d true (f.mul e (x a) (x b))) ∧
      (∃ t, exec (.fmin w d a b m) s = .next t ∧
        s.floatResult t m a b d false (f.minMax false (s.cur.fctl.getLsbD 4) (s.gpr a).toNat (s.gpr b).toNat)) ∧
      (∃ t, exec (.fmax w d a b m) s = .next t ∧
        s.floatResult t m a b d false (f.minMax true (s.cur.fctl.getLsbD 4) (s.gpr a).toNat (s.gpr b).toNat))) ∧
    (s.Ready m 0 { src := [a, b, m.rc], dst := [d] } →
      (∃ t, exec (.fma w d a b m) s = .next t ∧ s.floatResult t m a b d true (f.fma e false (x a) (x b) (x m.rc))) ∧
      (∃ t, exec (.fnma w d a b m) s = .next t ∧ s.floatResult t m a b d true (f.fma e true (x a) (x b) (x m.rc)))) ∧
    (s.Ready m 0 { src := [a], dst := [d] } →
      ∃ t v, exec (.fcvt d a m) s = .next t ∧ s.floatResult t m a 27#5 d true v ∧
        let r := convert (fmtOf m.fmtA.toNat) (fmtOf m.fmtB.toNat) e (s.gpr a).toNat
        v.2 = r.2 ∧ (∀ n, fmtOf m.fmtB.toNat = .int true n → word v.1 = (BitVec.ofNat n r.1).signExtend 64) ∧
          ((∀ n, fmtOf m.fmtB.toNat ≠ .int true n) → word v.1 = BitVec.ofNat 64 r.1))

/-- R132, R134, R135: `fabs` and `fneg` change the sign bit alone and set no flag, NaNs included; `fclass` sets the bit of
its operand's class alone and no flag; and an operation on a NaN operand gives the canonical quiet NaN of its result's
width, whatever the payloads, or 0 in an integer format, and sets nv exactly when an operand is a signalling NaN, a fused
product is of zero and infinity, or the result is an integer. `fdiv` and `fsqrt` capture them in the divide unit. -/
def Obligations.FloatSignClassAndNaN : Prop :=
  (
  ∀ (w : Bool) (d a : BitVec 5) (m : Mods) (s : State), s.Ready m 0 { src := [a], dst := [d] } →
    let n := if w then 64 else 32
    let x := (s.gpr a).toNat % 2 ^ n
    let fb := if w then 52 else 23
    let neg := x / 2 ^ (n - 1) = 1
    let ex := x / 2 ^ fb % 2 ^ (n - 1 - fb)
    let fr := x % 2 ^ fb
    (∃ t v, exec (.fabs w d a m) s = .next t ∧ s.regResult t m a 27#5 d v ∧ s.keepsThread t ∧
      ∀ i, v.getLsbD i = (decide (i < n - 1) && (s.gpr a).getLsbD i)) ∧
    (∃ t v, exec (.fneg w d a m) s = .next t ∧ s.regResult t m a 27#5 d v ∧ s.keepsThread t ∧
      ∀ i, v.getLsbD i = (decide (i < n) && ((s.gpr a).getLsbD i != decide (i = n - 1)))) ∧
    (∃ t, exec (.fclass w d a m) s = .next t ∧ s.keepsThread t ∧ s.regResult t m a 27#5 d (word (2 ^
      (if ex = 2 ^ (n - 1 - fb) - 1 then
        (if fr = 0 then (if neg then 0 else 7) else if fr / 2 ^ (fb - 1) = 1 then 9 else 8)
      else if ex = 0 then (if fr = 0 then (if neg then 3 else 4) else if neg then 2 else 5)
      else if neg then 1 else 6))))) ∧
  (∀ (w : Bool) (d a b : BitVec 5) (m : Mods) (s : State),
    let f := if w then f64 else f32
    let x (r : BitVec 5) : FVal := f.daz (s.cur.fctl.getLsbD 4) (f.decode (s.gpr r).toNat)
    let gives (i : Instr) (b' : BitVec 5) (set : Bool) : Prop := ∃ t, exec i s = .next t ∧
      s.regResult t m a b' d (if w then 0x7FF8000000000000#64 else 0x7FC00000#64) ∧
      t.cur.fstat = (if set = true then s.cur.fstat ||| 0x10#5 else s.cur.fstat)
    let captures (i : Instr) (set : Bool) : Prop :=
      (s.coreAt s.myCore).div = none → (s.coreAt s.myCore).divWait = [] → ∃ t e, exec i s = .next t ∧
        (t.coreAt s.myCore).div = some e ∧ e.val = (if w then 0x7FF8000000000000#512 else 0x7FC00000#512) ∧
        e.flags = if set = true then 0x10#5 else 0#5
    (s.Ready m 0 { src := [a, b], dst := [d] } → (x a).isNan = true ∨ (x b).isNan = true →
      (∀ i ∈ [Instr.fadd w d a b m, .fsub w d a b m, .fmul w d a b m], gives i b ((x a).isSnan || (x b).isSnan)) ∧
      captures (.fdiv w d a b m) ((x a).isSnan || (x b).isSnan)) ∧
    (s.Ready m 0 { src := [a, b, m.rc], dst := [d] } →
      (x a).isNan = true ∨ (x b).isNan = true ∨ (x m.rc).isNan = true →
      ∀ i ∈ [Instr.fma w d a b m, .fnma w d a b m], gives i b ((x a).isSnan || (x b).isSnan || (x m.rc).isSnan ||
        ((x a).isZero && (x b).isInf) || ((x a).isInf && (x b).isZero))) ∧
    (s.Ready m 0 { src := [a], dst := [d] } → (x a).isNan = true → captures (.fsqrt w d a m) (x a).isSnan)) ∧
  (∀ (d a : BitVec 5) (m : Mods) (s : State) (f : FloatFmt), s.Ready m 0 { src := [a], dst := [d] } →
    fmtOf m.fmtA.toNat = .float f → (f.decode (s.gpr a).toNat).isNan = true →
    let target := m.fmtB.toNat
    let integer : Prop := target ∈ [0x1A, 0x1B, 0x1D, 0x1E]
    ∃ t v, exec (.fcvt d a m) s = .next t ∧ s.regResult t m a 27#5 d v ∧
      (target = 0x12 → v = 0x7E00#64) ∧ (target = 0x13 → v = 0x7FC0#64) ∧ (target = 0x14 → v = 0x7FC00000#64) ∧
      (target = 0x18 → v = 0x7FF8000000000000#64) ∧ (integer → v = 0#64) ∧
      ((f.decode (s.gpr a).toNat).isSnan = true ∨ integer → t.cur.fstat = s.cur.fstat ||| 0x10#5) ∧
      (¬ (f.decode (s.gpr a).toNat).isSnan = true → ¬ integer → t.cur.fstat = s.cur.fstat))

/-- R135: the float compares: each writes its predicate from the operands read with daz, an unordered pair is equal to and
less than nothing, and nv is set for any NaN by lt and le and for a signalling NaN by the others. -/
def Obligations.FloatCompareResults : Prop :=
  ∀ op ∈ ([(Instr.fcmpEq, fun x y => x.eqNum y, false), (Instr.fcmpNe, fun x y => !x.eqNum y, false),
      (Instr.fcmpLt, fun x y => !x.isNan && !y.isNan && x.lt y, true),
      (Instr.fcmpLe, fun x y => !x.isNan && !y.isNan && (x.lt y || x.eqNum y), true),
      (Instr.fcmpUn, fun x y => x.isNan || y.isNan, false)] :
      List ((Bool → BitVec 3 → BitVec 5 → BitVec 5 → Mods → Instr) × (FVal → FVal → Bool) × Bool)),
    ∀ (w : Bool) (p : BitVec 3) (a b : BitVec 5) (m : Mods) (s : State), s.Ready m 0 { src := [a, b] } →
      let f := if w then f64 else f32
      let x := f.daz (s.cur.fctl.getLsbD 4) (f.decode (s.gpr a).toNat)
      let y := f.daz (s.cur.fctl.getLsbD 4) (f.decode (s.gpr b).toNat)
      ∃ t, exec (op.1 w p a b m) s = .next t ∧ s.predResult t m a b p (op.2.1 x y) ∧ s.keepsThreadFcmp t ∧
        t.cur.fstat = (if x.isSnan = true ∨ y.isSnan = true ∨ (op.2.2 = true ∧ (x.isNan = true ∨ y.isNan = true))
          then s.cur.fstat ||| 0x10#5 else s.cur.fstat)

/-! The divide unit. -/

/-- R61, R121, R137, R138, R168, R176, R236: an operation on the core's idle divide unit leaves its destination empty with
a fill pending, and captures its result and its flags, computed with the rounding mode and modes of its issue; `vfdiv` and
`vfsqrt` take it with the results of all their lanes; and the result lands: the unit is free, the destination takes the
value, and the flags enter FSTAT only then; a result for a killed thread is discarded.
The model's own reading in it: log entry 17. -/
def Obligations.DivideUnit : Prop :=
  (
  ∀ (d a b : BitVec 5) (m : Mods) (s : State), (s.coreAt s.myCore).div = none → (s.coreAt s.myCore).divWait = [] →
    let issued (i : Instr) (b' : BitVec 5) (v : Nat) (fl : Flags) : Prop := ∃ t, exec i s = .next t ∧
      (t.coreAt s.myCore).div = some ⟨s.uid, s.me, d.toNat, false, BitVec.ofNat 512 v, fl⟩ ∧
      (hasFe d.toNat = true → t.cur.fe d.toNat = .pending .divide) ∧ s.advances t m a b' d ∧ s.keepsThreadFp t ∧
      t.cur.fstat = s.cur.fstat ∧ { t with threads := s.threads, cores := s.cores } = s ∧
      (∀ c, c ≠ s.myCore → t.coreAt c = s.coreAt c)
    (∀ imm : Bool, s.Ready m 0 { src := if imm then [a] else [a, b], dst := [d] } →
      let x := s.gpr a
      let y := if imm then (if m.len = 1#2 then m.w2.signExtend 64 else m.lit) else s.gpr b
      issued (.div d a b imm m) b (if y = 0#64 then 2 ^ 64 - 1 else (BitVec.ofInt 64 (x.toInt.tdiv y.toInt)).toNat) 0#5 ∧
      issued (.divu d a b imm m) b (if y = 0#64 then 2 ^ 64 - 1 else x.toNat / y.toNat) 0#5 ∧
      issued (.rem d a b imm m) b (if y = 0#64 then x.toNat else (BitVec.ofInt 64 (x.toInt.tmod y.toInt)).toNat) 0#5 ∧
      issued (.remu d a b imm m) b (if y = 0#64 then x.toNat else x.toNat % y.toNat) 0#5) ∧
    (∀ w : Bool,
      let f := if w then f64 else f32
      let x (r : BitVec 5) : FVal := f.daz (s.cur.fctl.getLsbD 4) (f.decode (s.gpr r).toNat)
      (s.Ready m 0 { src := [a, b], dst := [d] } →
        issued (.fdiv w d a b m) b (f.div (s.fenv m 0) (x a) (x b)).1 (f.div (s.fenv m 0) (x a) (x b)).2) ∧
      (s.Ready m 0 { src := [a], dst := [d] } →
        issued (.fsqrt w d a m) 27#5 (f.sqrt (s.fenv m 0) (x a)).1 (f.sqrt (s.fenv m 0) (x a)).2))) ∧
  (
  ∀ (core : Nat) (d : DivOp) (s : State), (s.coreAt core).div = some d →
    ∃ t, exec (.divideResultLands core) s = .next t ∧ (t.coreAt core).div = none ∧ t.mem = s.mem ∧
      ((s.threadAt d.thread).ended = some .killed → t.threads = s.threads ∧ t.slots = s.slots ∧ t.msgs = s.msgs) ∧
      ((s.threadAt d.thread).ended ≠ some .killed →
        (t.threadAt d.thread).fstat = (s.threadAt d.thread).fstat ||| d.flags ∧
        (d.vec = false → d.rd < 10 ∨ 18 ≤ d.rd ∧ d.rd < 22 → (t.threadAt d.thread).reg d.rd = ⟨d.val.setWidth 64, .full⟩) ∧
        (d.vec = true → (s.slotAt d.slot).occ = some d.thread →
          (t.slotAt d.slot).vecs.get 0#512 d.rd = d.val ∧ (t.slotAt d.slot).vpend.get 0 d.rd = 0))) ∧
  (
  ∀ (t : Bool) (d a b : BitVec 3) (m : Mods) (s : State), (s.coreAt s.myCore).div = none → (s.coreAt s.myCore).divWait = [] →
    let f := if t then f64 else f32
    let w := if t then 64 else 32
    let x (v : BitVec 3) (i : Nat) : FVal := f.daz (s.cur.fctl.getLsbD 4) (f.decode (lane w (s.vec (v.setWidth 5)) i))
    let issued (i : Instr) (r : Nat → FRes) : Prop := ∃ u e, exec i s = .next u ∧ (u.coreAt s.myCore).div = some e ∧
      e.thread = s.uid ∧ e.slot = s.me ∧ e.rd = d.toNat ∧ e.vec = true ∧
      e.flags = (List.range (512 / w)).foldl (fun acc j => acc ||| (r j).2) 0#5 ∧
      (∀ j, j < 512 / w → lane w e.val j = (r j).1 % 2 ^ w) ∧
      u.mySlot.vpend.get 0 d.toNat = 1 ∧ u.mySlot.vecs = s.mySlot.vecs ∧ u.cur.vpin = true ∧ s.advances u m 27#5 27#5 27#5
    (s.Ready m 0 { vec := [d.setWidth 5, a.setWidth 5, b.setWidth 5] } →
      issued (.vfdiv t d a b m) (fun i => f.div (s.fenv m i) (x a i) (x b i))) ∧
    (s.Ready m 0 { vec := [d.setWidth 5, a.setWidth 5] } → issued (.vfsqrt t d a m) (fun i => f.sqrt (s.fenv m i) (x a i))))

/-! Control registers and system instructions. -/

/-- R37, R95, R128, R129, R140, R298, R333, R335, R336, R352, R355, R364, R402, R404, R406: what `krd` of each register
without a wait of its own reads: the thread's own registers, the place where it runs, the context that VFSEL selects, and
the package's; a privileged register only for a thread of function 0. -/
def Obligations.ControlRegisterReads : Prop :=
  ∀ e ∈ (([(0x001, fun s => s.cur.fctl.setWidth 64), (0x003, fun s => s.cur.srseed),
      (0x008, fun s => BitVec.ofNat 64 ((if s.cur.depth ≠ 0 ∨ s.cur.vpin = true then 512 else 0) +
        (if s.cur.serial = true then 256 else 0) + (s.slotAt s.me).qowner % 16 * 16 + s.me % 16)),
      (0x009, fun s => BitVec.ofNat 64 (s.me / 16 % 8)), (0x00A, fun s => BitVec.ofNat 64 (s.me / 128 % 64)),
      (0x00B, fun s => BitVec.ofNat 64 (s.me / 8192)), (0x00C, fun s => BitVec.ofNat 64 s.cur.vf),
      (0x00D, fun s => BitVec.ofNat 64 (s.famAt s.cur.fam).level), (0x100, fun s => s.pkg.scrubPos),
      (0x101, fun s => BitVec.ofNat 64 (s.cur.assignRes * 2 ^ 62)), (0x102, fun s => BitVec.ofNat 64 s.cur.vfsel),
      (0x103, fun s => BitVec.ofNat 64 ((if (s.funcAt s.cur.vfsel).prot = true then 128 else 0) +
        (s.funcAt s.cur.vfsel).det * 16 + (if s.funcActive s.cur.vfsel = true then 2 else 0) +
        (if (s.funcAt s.cur.vfsel).enable = true then 1 else 0))),
      (0x104, fun s => (s.funcAt s.cur.vfsel).ctxroot),
      (0x105, fun s => (s.funcAt s.cur.vfsel).arena), (0x106, fun s => (s.funcAt s.cur.vfsel).slotarea),
      (0x107, fun s => (s.funcAt s.cur.vfsel).fqbase), (0x108, fun s => (s.funcAt s.cur.vfsel).fqctl),
      (0x109, fun s => (s.funcAt s.cur.vfsel).fqhead), (0x10A, fun s => (s.funcAt s.cur.vfsel).fqtail),
      (0x10B, fun s => s.cur.ansrec), (0x10C, fun s => s.cur.ansval),
      (0x10D, fun s => BitVec.ofNat 64 (s.cur.ansres * 2 ^ 62 + (if s.cur.setl0 = true then 4 else 0) + s.cur.ansact)),
      (0x10E, fun s => (s.funcAt s.cur.vfsel).frames), (0x10F, fun _ => 0#64),
      (0x110, fun s => BitVec.ofNat 64 (s.pkg.pstat.toNat % 2 ^ 63 + (if s.pkg.preempt.isSome = true then 2 ^ 63 else 0))),
      (0x111, fun s => (s.funcAt s.cur.vfsel).ctximg),
      (0x112, fun s => BitVec.ofNat 64 ((s.funcAt s.cur.vfsel).keyResult * 2 ^ 62)),
      (0x206, fun s => BitVec.ofNat 64 ((if s.pkg.halt = true then 2 ^ 63 else 0) + s.pkg.haltStep * 2 ^ 32 +
        s.pkg.starts % 2 ^ 32)),
      (0x207, fun s => BitVec.ofNat 64 s.pkg.pwrcap), (0x208, fun s => s.pkg.pwrstat)] :
      List (Nat × (State → Word))) ++
      (List.range 8).map (fun i => ((0x010 + i, fun s => (s.coreAt (s.me / 16)).tshape.get 0#64 i) : Nat × (State → Word))) ++
      (List.range 8).map (fun i => ((0x018 + i, fun s => (s.coreAt (s.me / 16)).tmeta.get 0#64 i) : Nat × (State → Word))) ++
      (List.range 6).map (fun i => ((0x200 + i, fun s => BitVec.ofNat 64 ((if (s.dutyAt i).draining = true then 2 ^ 63 else 0) +
        (if (s.dutyAt i).cur = true then 2 ^ 32 else 0) + (if (s.dutyAt i).req = true then 1 else 0))) :
        Nat × (State → Word))) :
      List (Nat × (State → Word))),
    ∀ (d : BitVec 5) (m : Mods) (s : State),
      (s.Ready m (if 0x100 ≤ e.1 then 2 else 0) { dst := [d] } →
        ∃ t, exec (.krd d (BitVec.ofNat 10 e.1) m) s = .next t ∧ s.keepsThread t ∧ s.regResult t m 27#5 27#5 d (e.2 s)) ∧
      (0x100 ≤ e.1 → s.uid?.isSome = true → s.guardHolds m = true → s.cur.vf ≠ 0 → s.mayFault →
        ∃ t, exec (.krd d (BitVec.ofNat 10 e.1) m) s = .next t ∧ s.faultsEnd t fPRIV 2 0#64)

/-- R7, R128, R140, R298, R335, R336, R352, R355, R403 to R405: what `kwr` of the thread's own registers, of the selected
context, of PREEMPT, of a duty and of PWRCAP writes; a reserved bit faults ILLEGAL(4), any other value that the register's
map forbids ILLEGAL(6), and neither writes anything. A field that is only read takes no part, and a write of a register
that is read alone changes nothing.
The model's own reading in it: log entry 49 (PREEMPT: all is needed for actions 3 and 4, and a second action waits for the
first) and log entry 66 (PWRCAP sets the throttle from the power and temperature last shown). -/
def Obligations.ControlRegisterWrites : Prop :=
  ∀ (a : BitVec 5) (m : Mods) (s : State),
    let w := s.gpr a
    let n := w.toNat
    let done (k : Nat) (f : Thread → Thread) : Prop := ∃ t, exec (.kwr (BitVec.ofNat 10 k) a m) s = .next t ∧
      s.advances t m a 27#5 27#5 ∧ s.keepsMachine t ∧
      { t.cur with regs := s.cur.regs, pc := s.cur.pc } = f s.cur
    let ctx (k : Nat) (f : Func → Func) : Prop := ∃ t, exec (.kwr (BitVec.ofNat 10 k) a m) s = .next t ∧
      s.advances t m a 27#5 27#5 ∧ s.keepsThread t ∧ t.funcAt s.cur.vfsel = f (s.funcAt s.cur.vfsel) ∧
      (∀ v, v ≠ s.cur.vfsel → t.funcAt v = s.funcAt v) ∧ { t with threads := s.threads, funcs := s.funcs } = s
    let pkg (k : Nat) (f : Package → Package) : Prop := ∃ t, exec (.kwr (BitVec.ofNat 10 k) a m) s = .next t ∧
      s.advances t m a 27#5 27#5 ∧ t.pkg = f s.pkg ∧ { t with threads := s.threads, pkg := s.pkg } = s
    let bad (k c : Nat) : Prop := s.mayFault → ∃ t, exec (.kwr (BitVec.ofNat 10 k) a m) s = .next t ∧
      s.faultsEnd t fILLEGAL c 0#64 ∧ t.funcs = s.funcs ∧ t.pkg = s.pkg ∧
      (t.threadAt s.uid).fctl = s.cur.fctl ∧ (t.threadAt s.uid).adoptMax = s.cur.adoptMax ∧
      (t.threadAt s.uid).vfsel = s.cur.vfsel ∧ (t.threadAt s.uid).ansact = s.cur.ansact
    let asked (i : Nat) : Duty :=
      ⟨(s.dutyAt i).draining || w.getLsbD 0 != (s.dutyAt i).cur, (s.dutyAt i).cur, w.getLsbD 0⟩
    -- a register whose reserved bits are those of `rsv`, and whose other values are allowed where `ok` says so
    let rules (k : Nat) (rsv ok : Prop) (write : Prop) : Prop :=
      (rsv → bad k 4) ∧ (¬ rsv → ¬ ok → bad k 6) ∧ (¬ rsv → ok → write)
    let ignored (k : Nat) : Prop := done k id ∧ ∃ t, exec (.kwr (BitVec.ofNat 10 k) a m) s = .next t ∧ s.keepsMsgs t
    (s.Ready m 0 { src := [a] } →
      (∀ e ∈ ([(0x008, 10), (0x009, 3), (0x00A, 6), (0x00B, 4), (0x00C, 6), (0x00D, 2)] : List (Nat × Nat)),
        rules e.1 (2 ^ e.2 ≤ n) True (ignored e.1)) ∧
      rules 0x001 (32 ≤ n) (1 ≤ n % 8 ∧ n % 8 ≤ 5) (done 0x001 (fun x => { x with fctl := w.setWidth 5 })) ∧
      done 0x003 (fun x => { x with srseed := w }) ∧
      rules 0x020 (n / 2 ^ 33 ≠ 0 ∨ n / 2 ^ 11 % 2 ^ 21 ≠ 0 ∨ n / 2 ^ 3 % 2 ^ 5 ≠ 0) (n % 8 ≠ 0)
        (done 0x020 (fun x => { x with adoptMax := n % 8, mdsup := x.mdsup && !w.getLsbD 32 }))) ∧
    (s.Ready m 2 { src := [a] } →
      rules 0x100 (n / 2 ^ 48 % 2 ^ 8 ≠ 0) True (ignored 0x100) ∧ rules 0x110 (n / 2 ^ 48 % 2 ^ 13 ≠ 0) True (ignored 0x110) ∧
      rules 0x206 (n / 2 ^ 40 % 2 ^ 23 ≠ 0) True (ignored 0x206) ∧
      rules 0x208 (2 ^ 44 ≤ n ∨ n / 2 ^ 16 % 2 ^ 16 ≠ 0) True (ignored 0x208) ∧
      rules 0x102 (64 ≤ n) True (done 0x102 (fun x => { x with vfsel := n })) ∧
      done 0x10B (fun x => { x with ansrec := w }) ∧ done 0x10C (fun x => { x with ansval := w }) ∧
      rules 0x10D (n / 2 ^ 3 % 2 ^ 59 ≠ 0) (n % 4 < 2) (done 0x10D (fun x => { x with setl0 := w.getLsbD 2, ansact := n % 4 })) ∧
      rules 0x10F (2 ^ 20 ≤ n ∨ n / 2 ^ 11 % 2 ^ 4 ≠ 0 ∨ n / 2 ^ 6 % 2 ^ 2 ≠ 0)
        (1 ≤ n / 2 ^ 8 % 8 ∧ n / 2 ^ 8 % 8 ≤ 4 ∧ n % 2 ^ 6 ≠ 0 ∧ (3 ≤ n / 2 ^ 8 % 8 → w.getLsbD 15 = true))
        ((s.pkg.preempt = none → ∃ t, exec (.kwr 0x10F#10 a m) s = .next t ∧ s.advances t m a 27#5 27#5 ∧ t.cur.wait = .act ∧
          t.pkg = { s.pkg with preempt := some (⟨s.uid, n % 2 ^ 6,
            (if w.getLsbD 15 = true then List.range 16 else [n / 2 ^ 16 % 16]), n / 2 ^ 8 % 8, s.cur.pc⟩ : Preempt) }) ∧
         (s.pkg.preempt ≠ none → ∃ t, exec (.kwr 0x10F#10 a m) s = .next t ∧ t.cur.wait = .act ∧ t.cur.pc = s.cur.pc ∧
          t.pkg = s.pkg)) ∧
      rules 0x207 (2 ^ 16 ≤ n) (1000 ≤ n ∧ n ≤ 5200) (pkg 0x207 (fun p => { p with
        pwrcap := n, throttle := decide (n < p.pwrstat.toNat % 2 ^ 16 ∨ 100 ≤ p.pwrstat.toNat / 2 ^ 36 % 2 ^ 8) })) ∧
      (∀ i, i < 6 → rules (0x200 + i) (n / 2 ^ 33 % 2 ^ 30 ≠ 0 ∨ n / 2 % 2 ^ 31 ≠ 0) True
        (pkg (0x200 + i) (fun p => { p with duties := p.duties.set i (asked i) }))) ∧
      (s.cur.vfsel = 0 → ∀ k ∈ [0x103, 0x104, 0x105, 0x106, 0x107, 0x108, 0x10A, 0x10E, 0x111], rsvSet k w = false → bad k 6) ∧
      ctx 0x109 (fun f => { f with fqhead := w }) ∧
      (s.cur.vfsel ≠ 0 → ignored 0x10A ∧
        rules 0x103 (2 ^ 8 ≤ n ∨ w.getLsbD 6 = true ∨ n / 4 % 4 ≠ 0) True
          (ctx 0x103 (fun f => { f with prot := w.getLsbD 7, enable := w.getLsbD 0 })) ∧
        rules 0x104 (2 ^ 52 ≤ n ∨ n % 4096 ≠ 0) (isHbm n = true ∧ isHbm (n + 4095) = true) (ctx 0x104 (fun f => { f with ctxroot := w })) ∧
        rules 0x105 (2 ^ 57 ≤ n ∨ n / 2 ^ 5 % 8 ≠ 0) (n / 2 ^ 8 % 16 = 0 ∧ n % 2 ^ 5 ≤ 24) (ctx 0x105 (fun f => { f with arena := w })) ∧
        rules 0x106 (2 ^ 57 ≤ n) (n % 4096 = 0) (ctx 0x106 (fun f => { f with slotarea := w })) ∧
        rules 0x107 (2 ^ 52 ≤ n) (n % 64 = 0 ∧ (isHbm n = true ∨ isHost n = true)) (ctx 0x107 (fun f => { f with fqbase := w })) ∧
        rules 0x108 (2 ^ 9 ≤ n ∨ n / 2 ^ 5 % 8 ≠ 0) (6 ≤ n % 2 ^ 5 ∧ n % 2 ^ 5 ≤ 20) (ctx 0x108 (fun f => { f with fqctl := w })) ∧
        rules 0x10E (2 ^ 52 ≤ n) (isHbm n = true) (ctx 0x10E (fun f => { f with frames := w })) ∧
        rules 0x111 (2 ^ 52 ≤ n) (n % 4096 = 0 ∧ isHbm n = true) (ctx 0x111 (fun f => { f with ctximg := w }))))

/-- R129, R139, R141, R153, R260, R262, R298: `nop` only advances; `fence` completes once nothing of the thread is
outstanding, empties the core's data cache at cluster scope or wider, and marks the thread's boundary at package scope or
wider; FSTAT is read and cleared once every divide-unit operation of the thread has landed, a written 1 clearing its flag;
ADOPTMAX is read once every `stlo.md` has been acknowledged. Each waits otherwise. -/
def Obligations.FencesAndStatus : Prop :=
  (
  ∀ (m : Mods) (s : State), s.Ready m 0 {} →
    (∃ t, exec (.nop m) s = .next t ∧ s.regResult t m 27#5 27#5 27#5 0#64 ∧ s.keepsThread t) ∧
    (s.fenceReady s.uid = true →
      let scope := if m.len = 0#2 then 5 else m.scope.toNat
      ∃ t, exec (.fence m) s = .next t ∧ s.advances t m 27#5 27#5 27#5 ∧ s.keepsMsgs t ∧
        (2 ≤ scope → (t.coreAt s.myCore).dcache.lines = []) ∧
        (scope < 2 → t.cores = s.cores) ∧ (∀ c, c ≠ s.myCore → t.coreAt c = s.coreAt c) ∧
        t.cur.boundary = if 4 ≤ scope then s.nextId else s.cur.boundary) ∧
    (s.fenceReady s.uid = false →
      ∃ t, exec (.fence m) s = .next t ∧ t.cur.pc = s.cur.pc ∧ s.keepsMachine t ∧ s.keepsMsgs t ∧
        { t.cur with wait := s.cur.wait, noHelp := s.cur.noHelp } = s.cur ∧
        t.cur.wait = .fence (if m.len = 0#2 then 5 else m.scope.toNat))) ∧
  (
  (∀ (d : BitVec 5) (m : Mods) (s : State), s.Ready m 0 { dst := [d] } →
    (s.dividing s.uid = false → ∃ t, exec (.krdFstat d m) s = .next t ∧ s.keepsThread t ∧
      s.regResult t m 27#5 27#5 d (s.cur.fstat.setWidth 64)) ∧
    (s.dividing s.uid = true → ∃ t, exec (.krdFstat d m) s = .next t ∧ t.cur.wait = .divided ∧ t.cur.pc = s.cur.pc) ∧
    (s.markersOut s.uid = false → ∃ t, exec (.krdAdoptmax d m) s = .next t ∧ s.keepsThread t ∧
      s.regResult t m 27#5 27#5 d (BitVec.ofNat 64
        (s.cur.mdsup.toNat * 2 ^ 32 + (s.slotAt s.me).chain.length * 2 ^ 8 + s.cur.adoptMax))) ∧
    (s.markersOut s.uid = true → ∃ t, exec (.krdAdoptmax d m) s = .next t ∧ t.cur.wait = .markers ∧ t.cur.pc = s.cur.pc)) ∧
  (∀ (a : BitVec 5) (m : Mods) (s : State), s.Ready m 0 { src := [a] } →
    (s.dividing s.uid = true → ∃ t, exec (.kwrFstat a m) s = .next t ∧ t.cur.wait = .divided ∧ t.cur.pc = s.cur.pc ∧
      t.cur.fstat = s.cur.fstat) ∧
    (s.dividing s.uid = false → 32 ≤ (s.gpr a).toNat → s.mayFault →
      ∃ t, exec (.kwrFstat a m) s = .next t ∧ s.faultsEnd t fILLEGAL 4 0#64) ∧
    (s.dividing s.uid = false → (s.gpr a).toNat < 32 → ∃ t, exec (.kwrFstat a m) s = .next t ∧ s.advances t m a 27#5 27#5 ∧ s.keepsMachine t ∧
      s.keepsMsgs t ∧ t.cur.fstat = s.cur.fstat &&& ~~~((s.gpr a).setWidth 5))))

/-- R346 to R352, R354, R370: `trap` makes a record of kind 4 with its identity, n, its address and l0 to l2, and waits
for its answer; an answer makes the thread ready, or ends it with its fault; `rft` and the host's doorbell answer a record
that awaits one and otherwise send nothing; a record is claimed once its queue has room and those of causally earlier
events are written, takes the next sequence number, is written to its slot, and FQTAIL goes to the notify address; and the
hardware paging service takes a frame, copies the page, writes the leaf and answers replay, or forwards.
The model's own choice in it: the die and the causal place of a record (log entry 32), the bytes that a page-in copies
(43), and result 2 for a second answer to one record (70). -/
def Obligations.RecordsAndAnswers : Prop :=
  (
  ∀ (n : BitVec 5) (m : Mods) (s : State), s.Ready m 0 {} → s.releaseReady s.uid = true →
    let low (r : Nat) : Word := if (s.cur.reg r).st = .full then (s.cur.reg r).val else 0#64
    ∃ t, exec (.trap n m) s = .next t ∧ s.advances t m 27#5 27#5 27#5 ∧ t.cur.wait = .answer s.nextId ∧
      (∀ id, id ≠ s.nextId → t.records.find? id = s.records.find? id) ∧
      ∃ r, t.records.find? s.nextId = some r ∧ r.queue = s.cur.vf ∧ r.kind = 4 ∧ r.holder = .thread s.uid ∧
        r.awaits = true ∧ r.stage = .unclaimed ∧
        r.body = [s.cur.identity, n.setWidth 64, s.cur.pc, low 0, low 1, low 2]) ∧
  (
  ∀ (id rec action u : Nat) (setl0 : Bool) (val : Word) (r : Record) (s : State),
    s.msgs.find? id = some (.reply rec action setl0 val) → s.records.find? rec = some r → r.holder = .thread u →
    (s.threadAt u).ended = none → s.heldAway rec = false → (∀ e ∈ s.reqs, e.2.phase ≠ .faulted rec) →
    ∃ t, exec (.answerAtHolder id) s = .next t ∧ t.records.find? rec = none ∧
      (action ≠ 1 → t.msgs.find? id = none ∧ (t.threadAt u).ended = none ∧ (t.threadAt u).wait = s.rewait u ∧
        (t.threadAt u).pc = (s.threadAt u).pc ∧ t.mem = s.mem ∧
        (t.threadAt u).reg 0 = (if r.kind = 4 ∧ setl0 = true then ⟨val, .full⟩ else (s.threadAt u).reg 0)) ∧
      (action = 1 → (t.threadAt u).ended = some (if r.kind = 4 then .fault fTRAP 0
        else .fault ((r.body.getD 1 0#64).toNat % 256) ((r.body.getD 1 0#64).toNat / 256 % 256)))) ∧
  (
  ∀ (m : Mods) (s : State), s.Ready m 1 {} → s.releaseReady s.uid = true →
    ∃ t, exec (.rft m) s = .next t ∧ s.advances t m 27#5 27#5 27#5 ∧
      (∀ (id : Nat) (r : Record), s.recordSeq s.cur.vfsel s.cur.ansrec = some id → s.records.find? id = some r →
        t.cur.ansres = 1 ∧ t.records.find? id = some { r with stage := .answered s.cur.ansrec.toNat } ∧
        t.msgs.find? s.nextId = some (.reply id s.cur.ansact s.cur.setl0 s.cur.ansval)) ∧
      (s.recordSeq s.cur.vfsel s.cur.ansrec = none → t.cur.ansres = 2 ∧ t.records = s.records ∧ s.keepsMsgs t)) ∧
  (
  ∀ (id : Nat) (r : Record) (s : State), s.records.find? id = some r →
    let f := s.funcAt r.queue
    let slot := f.fqbase.toNat + 64 * (f.fqtail.toNat % f.fqSize)
    (r.stage = .unclaimed → f.fqOn = true → (f.fqtail - f.fqhead).toNat ≠ f.fqSize → s.bad = [] → inTier2 slot = false →
      (∀ e ∈ s.reqs, e.2.engine ≠ some agentName) →
      (∀ e ∈ s.records, e.1 < id → e.2.waiting = true → e.2.precedes r = false) →
      ∃ t, exec (.faultRecordClaim id) s = .next t ∧ (t.funcAt r.queue).fqtail = f.fqtail + 1#64 ∧ t.threads = s.threads ∧
        (f.notify = 0#64 → s.keepsBytes t slot 64 ∧ ∀ i, i < 8 → ofBytes ((List.range 8).map (fun j => t.byteAt (slot + 8 * i + j))) =
          (if i = 0 then f.fqtail.toNat else if i = 1 then (BitVec.ofNat 64 (r.src % 64 + r.kind * 2 ^ 8 + r.die * 2 ^ 16)).toNat
            else (r.body.getD (i - 2) 0#64).toNat)) ∧
        (f.notify ≠ 0#64 → t.dwordAt (2 ^ 51 + f.notify.toNat) = f.fqtail + 1#64) ∧
        t.records.find? id = (if r.awaits = true then some { r with stage := .written f.fqtail.toNat } else none)) ∧
    (r.stage = .unclaimed → f.fqOn = false ∨ (f.fqtail - f.fqhead).toNat = f.fqSize →
      exec (.faultRecordClaim id) s = .next s) ∧
    (∀ e ∈ s.records, e.1 < id → e.2.waiting = true → e.2.precedes r = true → exec (.faultRecordClaim id) s = .next s) ∧
    (r.stage = .service → s.heldAway id = false →
      (2 ≤ r.level ∨ s.leafEntry r.queue r.page r.level = none →
        ∃ t, exec (.pagingService id) s = .next t ∧ t.records.find? id = some { r with stage := .unclaimed } ∧
          { t with records := s.records } = s) ∧
      (∀ at' frame u, r.level < 2 → s.leafEntry r.queue r.page r.level = some at' → s.takeFrame r.queue r.level = some (frame, u) →
        let e := (s.dwordAt at').toNat
        let size := if r.level = 0 then 2 ^ 12 else 2 ^ 21
        let src := e / 2 ^ 12 % 2 ^ 40 * 4096
        e.testBit 0 = false → e.testBit 1 = true → e.testBit 9 = true → e.testBit 7 = false → e.testBit 6 = false →
        s.pagePopulated src size = true → s.poisoned src size = false → s.memWf → (∀ v, r.holder ≠ .thread v) → frame < 2 ^ 52 →
        at' + 8 ≤ frame ∨ frame + size ≤ at' →
        ∃ t q, exec (.pagingService id) s = .next t ∧ (∀ i, i < size → t.byteAt (frame + i) = u.byteAt (src + i)) ∧
          (t.dwordAt at').toNat = e + 1 - 2 ^ 9 - src + frame / 4096 * 4096 ∧
          t.records.find? id = some q ∧ q.awaits = false ∧ q.stage = .unclaimed ∧
          ((q.body.getD 1 0#64).toNat.testBit (if r.kind = 3 then 23 else 24) = true ∨ r.body.length < 2))) ∧
    (∀ (vf : Nat) (w : Word), s.pkg.hostHeld = [] → w.toNat % 4 < 2 →
      let g := s.funcAt vf
      ∃ t, exec (.answerDoorbell vf w) s = .next t ∧ t.mem = s.mem ∧ t.threads = s.threads ∧
        (∀ k, s.recordSeq vf g.ansrec = some k → (t.funcAt vf).ansres = 1 ∧
          t.msgs.find? s.nextId = some (.reply k (w.toNat % 4) (w.toNat.testBit 2) g.ansval)) ∧
        (s.recordSeq vf g.ansrec = none → (t.funcAt vf).ansres = 2 ∧ t.records = s.records ∧ t.msgs = s.msgs)) ∧
    (∀ (vf : Nat) (w : Word), s.pkg.hostHeld = [] → 2 ≤ w.toNat % 4 → exec (.answerDoorbell vf w) s = .next s))

/-- R326, R330, R332, R344, R345, R364: `tlbinv` leaves no matching translation in any TLB and makes every matching walk
in flight install nothing; `kslz` empties a key slot that is filled and leaves it unowned and clean, and changes nothing
of one that is empty; KEYLOAD loads an owned empty slot of the selected function, or is refused with the code of its
reason; and a `scrb` whose descriptor passes its checks is recorded with its entries and marks SCRUBPOS busy.
The model's own reading in it: log entry 10. -/
def Obligations.ProtectionRegisters : Prop :=
  (
  ∀ (a : BitVec 5) (m : Mods) (s : State), s.Ready m 1 { src := [a] } →
    let w := s.gpr a
    (w.toNat < 2 ^ 57 → w.toNat / 2 ^ 8 % 16 = 0 → w.toNat / 2 ^ 6 % 4 ≠ 3 → s.releaseReady s.uid = true →
      let hit (vf va size : Nat) : Prop := (w.toNat / 2 ^ 6 % 4 = 2) ∨ (vf = w.toNat % 64 ∧
        (w.toNat / 2 ^ 6 % 4 = 1 ∨ w.toNat / 2 ^ 6 % 4 = 0 ∧
          va ≤ w.toNat / 2 ^ 12 * 4096 ∧ w.toNat / 2 ^ 12 * 4096 < va + size))
      ∃ t, exec (.tlbinv a m) s = .next t ∧ s.advances t m a 27#5 27#5 ∧ s.keepsThread t ∧ s.keepsMsgs t ∧
        (∀ c, ∀ e ∈ (t.coreAt c).utlb.entries, ¬ hit e.2.vf e.2.va e.2.size) ∧
        (∀ c, ∀ e ∈ (t.clusterAt c).tlb.entries, ¬ hit e.2.vf e.2.va e.2.size) ∧
        ∀ id x, t.walks.find? id = some x → hit x.vf (x.page * 4096) 4096 → x.drop = true) ∧
    (w.toNat ≤ 127 → ∃ t, exec (.kslz a m) s = .next t ∧ s.advances t m a 27#5 27#5 ∧ s.keepsThread t ∧ s.keepsMsgs t ∧
      t.pkg.keys.find? w.toNat = none ∧ (s.pkg.keys.find? w.toNat ≠ none → t.resAt (resKey w.toNat) = ⟨none, true⟩) ∧
      (s.pkg.keys.find? w.toNat = none → t.pkg = s.pkg) ∧
      ∀ n, n ≠ w.toNat → t.pkg.keys.find? n = s.pkg.keys.find? n) ∧
    (127 < w.toNat → s.mayFault → ∃ t, exec (.kslz a m) s = .next t ∧ s.faultsEnd t fILLEGAL 6 0#64)) ∧
  (
  ∀ (a : BitVec 5) (m : Mods) (s : State), s.Ready m 2 { src := [a] } →
    let w := (s.gpr a).toNat
    w / 2 ^ 59 % 8 = 0 → w % 2 ^ 7 = 0 → s.cur.vfsel ≠ 0 → isHbm (w / 2 ^ 7 % 2 ^ 45 * 128) = true →
      let n := w / 2 ^ 52 % 128
      let keys := Config.sm2Decrypt (s.peek (w / 2 ^ 7 % 2 ^ 45 * 128) 128)
      let mine : Prop := (s.resAt (resKey n)).owner = some s.cur.vfsel ∧ s.pkg.keys.find? n = none
      ∃ t, exec (.keyload a m) s = .next t ∧ s.advances t m a 27#5 27#5 ∧ s.keepsThread t ∧
        (¬ mine → (t.funcAt s.cur.vfsel).keyResult = 2 ∧ t.pkg = s.pkg) ∧
        (mine → keys = none → (t.funcAt s.cur.vfsel).keyResult = 3 ∧ t.pkg = s.pkg) ∧
        (∀ k1 k2, mine → keys = some (k1, k2) → (t.funcAt s.cur.vfsel).keyResult = 1 ∧
          t.pkg.keys.find? n = some (k2 ++ k1) ∧ (t.resAt (resKey n)).clean = false)) ∧
  (
  ∀ (a : BitVec 5) (m : Mods) (s s1 : State) (p : Place) (hdr : List Byte) (rs : List ScrubRegion), s.Ready m 1 { src := [a] } →
    s.reach s.uid s.myCore s.cur.vf .load 64 (s.gpr a) = .ok s1 p → (s.famAt s.cur.fam).level ≠ 2 → s1.pkg.scrub = none →
    s1.descRead s1.myCore s1.cur.vf (s1.famAt s1.cur.fam).level (s.gpr a).toNat 32 = .ok hdr →
    let h (i : Nat) : Nat := ofBytes ((hdr.drop (8 * i)).take 8)
    hdr.length = 32 → h 2 = 0 → 1 ≤ h 0 → h 0 < 64 → 1 ≤ h 1 → h 1 ≤ 64 → h 3 = 0 →
    s1.scrubEntries s1.myCore s1.cur.vf (s1.famAt s1.cur.fam).level (s.gpr a).toNat (h 1) 0 = .ok rs →
    ∃ t, exec (.scrb a m) s = .next t ∧ t.cur.pc = s1.cur.pc + word (lenBytes m) ∧ t.mem = s1.mem ∧ t.threads = (s1.putThread s1.uid t.cur).threads ∧
      ((s1.scrubCheck (h 0) 0 rs).1 = 0 →
        t.pkg.scrub = some (⟨h 0, h 1, none, rs, 0, 0, false, (s1.dutyAt 2).draining, false⟩ : Scrub) ∧
        t.pkg.scrubPos = BitVec.ofNat 64 (2 ^ 63 + h 0 * 2 ^ 56 + h 1 * 2 ^ 32)) ∧
      ((s1.scrubCheck (h 0) 0 rs).1 ≠ 0 → t.pkg = s1.pkg))

/-- R203, R328, R363: a `kwr` of ASSIGN is decided at once, as the rule's pseudocode says: a scrub that names the
resource, or work on a core, refuses it; an owner that differs and has not been scrubbed refuses it; else the function
owns it, and it is unclean where it was another's. Only an assignment that is granted changes anything, and that resource
alone: a core's local store and tiles or a granule that a new function takes read as zero (R203, R363), every other byte
is as it was, and the slots of a core that is granted are free.
The model's own choice in it: what counts as work on a core, its serial queue among it (log entry 50). -/
def Obligations.AssignmentDecided : Prop :=
  ∀ (a : BitVec 5) (m : Mods) (s : State), s.Ready m 2 { src := [a] } →
    let w := (s.gpr a).toNat
    ∀ k, w / 2 ^ 56 % 64 = 0 → w / 2 ^ 20 % 2 ^ 28 = 0 → assignTarget w = some k →
      let vf := w / 2 ^ 50 % 64
      let res := if s.scrubHolds k = true then 2 else if k < 2 ^ 20 ∧ s.coreBusy k = true then 3
        else if (s.resAt k).owner ≠ none ∧ (s.resAt k).owner ≠ some vf ∧ (s.resAt k).clean = false then 2 else 1
      let g := k - 2 ^ 20
      let regions : List (Nat × Nat) := if k < 2 ^ 20 then [(localStore k, 196608), (tileStore k, 131072)]
        else if k < 2 ^ 24 then [(vaultBase + g / 4096 * 2 ^ 28 + g / 64 % 64 * 2 ^ 22 + g % 64 * 65536, 65536)] else []
      ∃ t, exec (.kwrAssign a m) s = .next t ∧ s.advancesRegs t m a 27#5 27#5 ∧ t.cur.assignRes = res ∧
        (res = 1 → (t.resAt k).owner = some vf ∧
          (t.resAt k).clean = (decide ((s.resAt k).owner = some vf) && (s.resAt k).clean) ∧
          (k < 2 ^ 20 → ∀ i, i < 16 → (t.slotAt (16 * k + i)).occ = none) ∧
          (∀ x, (∀ q ∈ regions, x < q.1 ∨ q.1 + q.2 ≤ x) → t.byteAt x = s.byteAt x) ∧
          ((s.resAt k).owner = some vf → t.mem = s.mem) ∧
          ((s.resAt k).owner ≠ some vf → ∀ q ∈ regions, ∀ x, x < q.2 → t.byteAt (q.1 + x) = 0#8)) ∧
        (res ≠ 1 → t.pkg = s.pkg ∧ t.mem = s.mem) ∧ ∀ j, j ≠ k → t.resAt j = s.resAt j

/-- R140, R204, R205, R239, R241, R242, R248: a `kwr` of a tile's shape or sparse header that its map and its causes allow
writes the core's register and no other. A set RSV bit faults ILLEGAL(4), before any cause; a bad shape faults the lowest of
SHAPE(1) to SHAPE(3) that applies, and a bad nonzero header the lowest of META(2) to META(5); a fault leaves the registers
unchanged. -/
def Obligations.TileRegisterWrites : Prop :=
  ∀ (i : BitVec 3) (a : BitVec 5) (m : Mods) (s : State), s.Ready m 0 { src := [a] } →
    let w := s.gpr a
    let h := w.toNat
    let stops (i : Instr) (code c : Nat) : Prop := s.mayFault → ∃ t, exec i s = .next t ∧ s.faultsEnd t code c 0#64 ∧
      ∀ k, (t.coreAt k).tshape = (s.coreAt k).tshape ∧ (t.coreAt k).tmeta = (s.coreAt k).tmeta
    let fmt := h / 2 ^ 16 % 2 ^ 5
    let cols := h / 2 ^ 6 % 2 ^ 9 + 1
    let shape : Nat := if 0x17 < fmt ∧ fmt ≠ 0x1A then 1 else if 256 < cols * shapeWidth w / 8 then 2
      else if fmt = 0x17 ∧ cols % 2 = 1 then 3 else 0
    let n := h % 8
    let mm := h / 8 % 16 + 1
    let sparse : Nat := if h = 0 then 0
      else if h / 2 ^ 12 % 16 ≠ (h % 16) ^^^ (h / 16 % 16) ^^^ (h / 256 % 16) ^^^ 15 then 2
      else if n = 0 ∨ mm ≤ n then 3 else if mm ∉ [2, 4, 8, 16] then 4
      else if h / 256 % 2 = 1 ∧ ¬ (n = 1 ∧ mm = 2) ∧ ¬ (n = 2 ∧ mm = 4) then 5 else 0
    let shapeRsv : Prop := 2 ^ 21 ≤ h ∨ h / 2 ^ 15 % 2 = 1
    let metaRsv : Prop := 2 ^ 16 ≤ h ∨ h / 2 ^ 9 % 8 ≠ 0
    (¬ shapeRsv → shape = 0 →
      ∃ t, exec (.kwrTshape i a m) s = .next t ∧ s.advances t m a 27#5 27#5 ∧ s.keepsThread t ∧ s.keepsMsgs t ∧
        (t.coreAt s.myCore).tshape.get 0#64 i.toNat = w ∧
        (∀ j, j ≠ i.toNat → (t.coreAt s.myCore).tshape.get 0#64 j = (s.coreAt s.myCore).tshape.get 0#64 j) ∧
        (t.coreAt s.myCore).tmeta = (s.coreAt s.myCore).tmeta ∧ ∀ c, c ≠ s.myCore → t.coreAt c = s.coreAt c) ∧
    (¬ metaRsv → sparse = 0 →
      ∃ t, exec (.kwrTmeta i a m) s = .next t ∧ s.advances t m a 27#5 27#5 ∧ s.keepsThread t ∧ s.keepsMsgs t ∧
        (t.coreAt s.myCore).tmeta.get 0#64 i.toNat = w ∧
        (∀ j, j ≠ i.toNat → (t.coreAt s.myCore).tmeta.get 0#64 j = (s.coreAt s.myCore).tmeta.get 0#64 j) ∧
        (t.coreAt s.myCore).tshape = (s.coreAt s.myCore).tshape ∧ ∀ c, c ≠ s.myCore → t.coreAt c = s.coreAt c) ∧
    (shapeRsv → stops (.kwrTshape i a m) fILLEGAL 4) ∧ (metaRsv → stops (.kwrTmeta i a m) fILLEGAL 4) ∧
    (¬ shapeRsv → shape ≠ 0 → stops (.kwrTshape i a m) fSHAPE shape) ∧
    (¬ metaRsv → sparse ≠ 0 → stops (.kwrTmeta i a m) fMETA sparse)

/-! Scalar memory instructions. -/

/-- R44, R156, R161, R162, R258: a load, by its size and sign, in the displacement and the indexed form: from the core's own
local store it gives the bytes at once; a plain load of a line in the data cache gives the line's bytes; any other leaves its
destination empty with a fill pending and sends one request to the home. Memory stays.
The model's own reading in it: log entry 74. -/
def Obligations.LoadsRead : Prop :=
  let reads (i : Instr) (m : Mods) (src : List (BitVec 5)) (a b d : BitVec 5) (ea : Word) (size : Nat) (signed : Bool)
      (s : State) : Prop :=
    s.Ready m 0 { src := src, dst := [d] } → ∀ s1 p,
      let acq : Bool := m.scope != 0#3
      let hit := if p.cached = true ∧ p.isLocal = false ∧ ¬ (acq = true ∧ 2 ≤ m.scope.toNat)
        then (s1.coreAt s.myCore).dcache.hit? dWays (lineOf p.addr) else none
      s.Reaches false .load size ea (if p.isLocal = true ∨ hit.isSome = true then 0 else 1) s1 p →
      ∃ t, exec i s = .next t ∧ s.advances t m a b d ∧
        (p.isLocal = true → writable d = true →
          t.gpr d = extend signed ((List.range size).map (fun k => s.byteAt (p.addr + k))) ∧ t.cur.fe d.toNat = .full) ∧
        (∀ l c, hit = some (l, c) → writable d = true →
          t.gpr d = extend signed (((toBytes 64 l.toNat).drop (p.addr % 64)).take size) ∧ t.cur.fe d.toNat = .full) ∧
        (p.isLocal = false → hit = none →
          (hasFe d.toNat = true → t.cur.fe d.toNat = .pending (.load s.nextId)) ∧
          ∃ r, t.reqs.find? s.nextId = some r ∧ r.of s .load size ea p m.scope.toNat acq false ∧ r.rd = d.toNat ∧
            r.signed = signed ∧ r.install = p.cached)
  (∀ op ∈ ([(Instr.ldB, 1, true), (Instr.ldBu, 1, false), (Instr.ldH, 2, true), (Instr.ldHu, 2, false), (Instr.ldW, 4, true),
      (Instr.ldWu, 4, false), (Instr.ldD, 8, false)] : List ((BitVec 5 → BitVec 5 → BitVec 14 → Mods → Instr) × Nat × Bool)),
    ∀ (d a : BitVec 5) (i : BitVec 14) (m : Mods) (s : State),
      reads (op.1 d a i m) m [a] a 27#5 d
        (s.gpr a + if m.len = 0#2 then i.signExtend 64 else if m.len = 1#2 then m.w2.signExtend 64 else m.lit) op.2.1 op.2.2 s) ∧
  (∀ z ∈ ([(0, 1, true), (1, 1, false), (2, 2, true), (3, 2, false), (4, 4, true), (5, 4, false), (6, 8, false)] :
      List (Nat × Nat × Bool)), ∀ (sc : BitVec 2) (d a b : BitVec 5) (m : Mods) (s : State),
      reads (.ldIndexed sc (BitVec.ofNat 3 z.1) d a b m) m [a, b] a b d
        (s.gpr a + s.gpr b * BitVec.ofNat 64 (2 ^ sc.toNat) + m.w2.signExtend 64) z.2.1 z.2.2 s)

/-- R44, R146, R152, R156, R162, R164, R291: a store, by its size, in both forms: into the core's own local store it writes
exactly its bytes at once; elsewhere it sends one request with its bytes and memory stays until the home applies it; to a
latest-only page it faults ACCESS(6).
The model's own reading in it: log entry 74. -/
def Obligations.StoresWrite : Prop :=
  let writes (i : Instr) (m : Mods) (src : List (BitVec 5)) (a b d : BitVec 5) (ea : Word) (size : Nat) (s : State) : Prop :=
    s.Ready m 0 { src := src } → ∀ s1 p,
      s.Reaches (m.scope != 0#3) .store size ea (if p.isLocal = true then 0 else 1) s1 p →
      (p.lo = false → ∃ t, exec i s = .next t ∧ s.advancesRegs t m a b 27#5 ∧
        (p.isLocal = true → (∀ u ∈ s.bad, u < p.addr / 64 ∨ (p.addr + size - 1) / 64 < u) →
          (∀ k, k < size → t.byteAt (p.addr + k) = BitVec.ofNat 8 ((s.gpr d).toNat / 256 ^ k)) ∧ s.keepsBytes t p.addr size) ∧
        (p.isLocal = false → (∀ x, t.byteAt x = s.byteAt x) ∧ ∃ r, t.reqs.find? s.nextId = some r ∧
          r.of s .store size ea p m.scope.toNat false (m.scope != 0#3) ∧ r.data = toBytes size (s.gpr d).toNat)) ∧
      (p.lo = true → s.mayFault → ∃ t, exec i s = .next t ∧ s.faultsEnd t fACCESS 6 ea)
  (∀ op ∈ ([(Instr.stB, 1), (Instr.stH, 2), (Instr.stW, 4), (Instr.stD, 8)] :
      List ((BitVec 5 → BitVec 5 → BitVec 14 → Mods → Instr) × Nat)),
    ∀ (d a : BitVec 5) (i : BitVec 14) (m : Mods) (s : State),
      writes (op.1 d a i m) m [a, d] a 27#5 d
        (s.gpr a + if m.len = 0#2 then i.signExtend 64 else if m.len = 1#2 then m.w2.signExtend 64 else m.lit) op.2 s) ∧
  (∀ z ∈ ([(0, 1), (2, 2), (4, 4), (6, 8)] : List (Nat × Nat)), ∀ (sc : BitVec 2) (d a b : BitVec 5) (m : Mods) (s : State),
      writes (.stIndexed sc (BitVec.ofNat 3 z.1) d a b m) m [a, b, d] a b d
        (s.gpr a + s.gpr b * BitVec.ofNat 64 (2 ^ sc.toNat) + m.w2.signExtend 64) z.2 s)

/-- R160: an address above the 57-bit space faults ACCESS(1) and one that its size does not divide ALIGN(0), by every scalar
load and store of the displacement form; the thread ends with the recorded fault and memory stays.
The model's own reading in it: log entry 12. -/
def Obligations.AddressChecks : Prop :=
  ∀ op ∈ ([(Instr.ldB, 1, false), (Instr.ldBu, 1, false), (Instr.ldH, 2, false), (Instr.ldHu, 2, false),
      (Instr.ldW, 4, false), (Instr.ldWu, 4, false), (Instr.ldD, 8, false), (Instr.stB, 1, true), (Instr.stH, 2, true),
      (Instr.stW, 4, true), (Instr.stD, 8, true)] : List ((BitVec 5 → BitVec 5 → BitVec 14 → Mods → Instr) × Nat × Bool)),
    ∀ (d a : BitVec 5) (i : BitVec 14) (m : Mods) (s : State),
      s.Ready m 0 (if op.2.2 then { src := [a, d] } else { src := [a], dst := [d] }) → s.acquiring s.uid = false →
      (op.2.2 = true → m.scope ≠ 0#3 → s.releaseReady s.uid = true) → s.mayFault →
      let ea := s.gpr a + if m.len = 0#2 then i.signExtend 64 else if m.len = 1#2 then m.w2.signExtend 64 else m.lit
      (2 ^ 57 ≤ ea.toNat → ∃ t, exec (op.1 d a i m) s = .next t ∧ s.faultsEnd t fACCESS 1 ea ∧ t.mem = s.mem) ∧
      (ea.toNat < 2 ^ 57 → ea.toNat % op.2.1 ≠ 0 →
        ∃ t, exec (op.1 d a i m) s = .next t ∧ s.faultsEnd t fALIGN 0 ea ∧ t.mem = s.mem)

/-- R182, R183, R267, R268, R270, R271: an atomic, in both widths and with its order, sends one request for its operation
with its operands, under the effective rounding mode and seed, and leaves its destination pending; in the core's own local
store the request is served and answered within the instruction. `hacc` sends its keys, values and rounding state as one
acquire, empties the core's data cache, and leaves rd pending.
The model's own reading in it: log entry 74. -/
def Obligations.MemoryUpdatesLeave : Prop :=
  (
  let sends (i : Instr) (m : Mods) (src : List (BitVec 5)) (o : BitVec 2) (d a b : BitVec 5) (op size : Nat) (c : Word)
      (s : State) : Prop :=
    s.Ready m 0 { src := src, dst := [d] } → ∀ s1 p, p.lo = false →
      s.Reaches (o.getLsbD 1) .both size (s.gpr a + m.w2.signExtend 64) (if p.isLocal = true then 0 else 1) s1 p →
      ∃ u t r, exec i s = .next t ∧ u.posts t s.nextId r ∧ s.advances u m a b d ∧
        (hasFe d.toNat = true → u.cur.fe d.toNat = .pending (.load s.nextId)) ∧
        r.of s (.atom op) size (s.gpr a + m.w2.signExtend 64) p m.scope.toNat (o.getLsbD 0) (o.getLsbD 1) ∧
        r.rd = d.toNat ∧ r.opB = s.gpr b ∧ r.opC = c ∧ r.mode = s.mode m ∧ r.seed = s.cur.srseed
  (∀ op ∈ ([(Instr.amoAdd, 0), (Instr.amoAnd, 1), (Instr.amoOr, 2), (Instr.amoXor, 3), (Instr.amoMin, 4), (Instr.amoMax, 5),
      (Instr.amoMinu, 6), (Instr.amoMaxu, 7), (Instr.amoXchg, 8)] :
      List ((Bool → BitVec 2 → BitVec 5 → BitVec 5 → BitVec 5 → Mods → Instr) × Nat)),
    ∀ (w : Bool) (o : BitVec 2) (d a b : BitVec 5) (m : Mods) (s : State),
      sends (op.1 w o d a b m) m [a, b] o d a b (op.2 + 16 * w.toNat) (if w then 4 else 8) 0#64 s) ∧
  (∀ (w : Bool) (o : BitVec 2) (d a b : BitVec 5) (m : Mods) (s : State),
      sends (.cas w o d a b m) m [a, b, m.rc] o d a b (9 + 16 * w.toNat) (if w then 4 else 8) (s.gpr m.rc) s) ∧
  (∀ op ∈ ([(Instr.famoAdd, 0x20), (Instr.famoMin, 0x21), (Instr.famoMax, 0x22)] :
      List ((Bool → BitVec 2 → BitVec 5 → BitVec 5 → BitVec 5 → Mods → Instr) × Nat)),
    ∀ (w : Bool) (o : BitVec 2) (d a b : BitVec 5) (m : Mods) (s : State),
      sends (op.1 w o d a b m) m [a, b] o d a b (op.2 + 8 * w.toNat) (if w then 8 else 4) 0#64 s)) ∧
  (
  ∀ op ∈ ([(Instr.haccO, false), (Instr.haccU, true)] : List ((BitVec 5 → BitVec 5 → BitVec 3 → Mods → Instr) × Bool)),
    ∀ (d a : BitVec 5) (b : BitVec 3) (m : Mods) (s s1 : State) (p : Place),
      s.Ready m 0 { src := [a], vec := [b.setWidth 5, m.rc], dst := [d] } → p.lo = false →
      s.Reaches false .both 64 (s.gpr a) (if p.isLocal = true then 0 else 1) s1 p →
      let f : Bool := m.fmtA == 0x14#5
      ∃ u t r, exec (op.1 d a b m) s = .next t ∧ u.posts t s.nextId r ∧ s.advances u m a 27#5 d ∧
        r.kind = .hacc op.2 f ∧ r.thread = some s.uid ∧ r.addr = p.addr ∧ r.va = s.gpr a ∧ r.rd = d.toNat ∧
        r.keys = s.vec (b.setWidth 5) ∧ r.vals = s.vec m.rc ∧ r.mode = s.mode m ∧ r.seed = s.cur.srseed ∧
        (hasFe d.toNat = true → u.cur.fe d.toNat = .pending (.load s.nextId)) ∧ (u.coreAt s.myCore).dcache.lines = [])

/-- R48, R166, R251, R253, R274, R276, R277, R280, R289: full/empty accesses, tickets, waits, locks and barriers send one
request each; a ticket, wait, lock or barrier instruction is an acquire or a release at system scope when no scope is
given, and a full/empty access is one only when a scope is given; a load of one leaves its destination pending, and a
wait, lock or barrier instruction waits for the reply.
The model's own reading in it: log entry 74. -/
def Obligations.SynchronisationLeaves : Prop :=
  let sends (i : Instr) (m : Mods) (n : Need) (kind : ReqKind) (ea : Word) (scope : Nat) (acq rel : Bool) (a b d : BitVec 5)
      (opB : Option Word) (pend : Option Fill) (anyPage : Bool) (s : State) : Prop :=
    s.Ready m 0 n → ∀ s1 p, (anyPage = true ∨ p.lo = false) →
      s.Reaches rel .both 8 ea (if p.isLocal = true then 0 else 1) s1 p →
      ∃ u t r, exec i s = .next t ∧ u.posts t s.nextId r ∧ s.advances u m a b d ∧ r.of s kind 8 ea p scope acq rel ∧
        (∀ v, opB = some v → r.opB = v) ∧
        (∀ f, pend = some f → r.rd = d.toNat ∧ (hasFe d.toNat = true → u.cur.fe d.toNat = .pending f)) ∧
        (kind.isReply = true → t.cur.wait = .reply s.nextId)
  ∀ (d a b : BitVec 5) (i : BitVec 14) (m : Mods) (s : State),
    let sync := if m.scope = 0#3 then 5 else m.scope.toNat
    let ea := s.gpr a + if m.len = 0#2 then i.signExtend 64 else if m.len = 1#2 then m.w2.signExtend 64 else m.lit
    sends (.ldfe d a i m) m { src := [a], dst := [d] } .ldfe ea m.scope.toNat (m.scope != 0#3) false a 27#5 d none
      (some (.ldfe s.nextId ea)) false s ∧
    sends (.stfe d a i m) m { src := [a, d] } .stfe ea m.scope.toNat false (m.scope != 0#3) a 27#5 27#5 (some (s.gpr d)) none false s ∧
    sends (.tkget d a m) m { src := [a], dst := [d] } .tkget (s.gpr a) sync true false a 27#5 d none (some (.load s.nextId)) false s ∧
    sends (.tkwait a b m) m { src := [a, b] } .tkwait (s.gpr a) sync true false a b 27#5 (some (s.gpr b)) none false s ∧
    sends (.tkadv a m) m { src := [a] } .tkadv (s.gpr a) sync false true a 27#5 27#5 none none false s ∧
    sends (.waiteq a b m) m { src := [a, b] } (.wait true) (s.gpr a) sync true false a b 27#5 (some (s.gpr b)) none true s ∧
    sends (.waitne a b m) m { src := [a, b] } (.wait false) (s.gpr a) sync true false a b 27#5 (some (s.gpr b)) none true s ∧
    sends (.lkacq a m) m { src := [a] } .lkacq (s.gpr a) sync true false a 27#5 27#5 (some s.cur.tag) none false s ∧
    sends (.lkrel a m) m { src := [a] } .lkrel (s.gpr a) sync false true a 27#5 27#5 none none false s ∧
    sends (.barJoin a m) m { src := [a] } .barJoin (s.gpr a) sync false true a 27#5 27#5 (some s.cur.tag) none false s ∧
    sends (.barArrive a m) m { src := [a] } .barArrive (s.gpr a) sync false true a 27#5 27#5 (some s.cur.tag) none false s ∧
    sends (.barDrop a m) m { src := [a] } .barDrop (s.gpr a) sync false true a 27#5 27#5 (some s.cur.tag) none false s

/-- R287, R288, R293, R296, R297: a latest-only load of a latest-only page sends one request and leaves both destinations
pending; a latest-only store that clashes with no number joins the core's store queue, or is sent at once.
The model's own reading in it: log entry 21. -/
def Obligations.LatestOnlyLeaves : Prop :=
  (∀ (d a : BitVec 5) (m : Mods) (s s1 : State) (p : Place), s.Ready m 0 { src := [a], dst := [d, m.rc] } → p.lo = true →
      s.Reaches false .load 8 (s.gpr a + m.w2.signExtend 64) 1 s1 p → s.readOut s.me < 16 →
      isLocalStore p.addr = false →
      ∃ t r, exec (.ldlo d a m) s = .next t ∧ t.reqs.find? s.nextId = some r ∧
        r.of s .ldlo 8 (s.gpr a + m.w2.signExtend 64) p m.scope.toNat (m.scope != 0#3) false ∧ r.rd = d.toNat ∧ r.rc = m.rc.toNat ∧
        (hasFe d.toNat = true → t.cur.fe d.toNat = .pending (.load s.nextId)) ∧
        (hasFe m.rc.toNat = true → t.cur.fe m.rc.toNat = .pending (.load s.nextId)) ∧
        t.cur.pc = s.cur.pc + word (lenBytes m) ∧ t.mem = s.mem ∧ ∀ u, u ≠ s.uid → t.threadAt u = s.threadAt u) ∧
  (∀ op ∈ ([(Instr.stlo, false), (Instr.stloMd, true)] : List ((BitVec 5 → BitVec 5 → Mods → Instr) × Bool)),
    ∀ (a b : BitVec 5) (m : Mods) (s s1 : State) (p : Place), s.Ready m 0 { src := [a, b, m.rc] } → p.lo = true →
      s.Reaches (m.scope != 0#3) .store 8 (s.gpr a + m.w2.signExtend 64) 1 s1 p →
      let n := (s.gpr m.rc).toNat % 2 ^ 32
      (s1.seqClash p.addr n = false → (∀ y ∈ (s.coreAt s.myCore).loq, y.cell ≠ p.addr) →
        ∃ t x, exec (op.1 a b m) s = .next t ∧ x ∈ (t.coreAt s.myCore).loq ∧ x.cell = p.addr ∧ x.val = s.gpr b ∧ x.num = n ∧
          x.md = op.2 ∧ x.thread = s.uid ∧ s.advances t m a b 27#5) ∧
      (s1.seqClash p.addr n = true → s.mayFault →
        ∃ t, exec (op.1 a b m) s = .next t ∧ s.faultsEnd t fSEQ 1 (s.gpr a + m.w2.signExtend 64)))

/-! Vector instructions. -/

/-- R168, R169, R174: the two- and one-operand integer lane instructions and `vmad`, in both lane widths, lane by lane modulo
the width; signed lanes are read in two's complement, shift amounts are taken modulo the width, and the saturating forms
clamp. -/
def Obligations.VectorIntegerLanes : Prop :=
  let sg (w x : Nat) : Int := if x < 2 ^ (w - 1) then (x : Int) else (x : Int) - 2 ^ w
  (∀ op ∈ ([(Instr.vadd, fun _ x y => (x : Int) + y), (Instr.vsub, fun _ x y => (x : Int) - y), (Instr.vmul, fun _ x y => (x : Int) * y),
      (Instr.vmulh, fun w x y => sg w x * sg w y / 2 ^ w), (Instr.vmin, fun w x y => min (sg w x) (sg w y)),
      (Instr.vmax, fun w x y => max (sg w x) (sg w y)), (Instr.vminu, fun _ x y => ((min x y : Nat) : Int)),
      (Instr.vmaxu, fun _ x y => ((max x y : Nat) : Int)), (Instr.vand, fun _ x y => ((x &&& y : Nat) : Int)),
      (Instr.vor, fun _ x y => ((x ||| y : Nat) : Int)), (Instr.vxor, fun _ x y => ((x ^^^ y : Nat) : Int)),
      (Instr.vshl, fun w x y => (x : Int) * 2 ^ (y % w)), (Instr.vshr, fun w x y => (x : Int) / 2 ^ (y % w)),
      (Instr.vsar, fun w x y => sg w x / 2 ^ (y % w)),
      (Instr.vadds, fun w x y => max (-2 ^ (w - 1)) (min (2 ^ (w - 1) - 1) (sg w x + sg w y))),
      (Instr.vaddus, fun w x y => min (2 ^ w - 1) ((x : Int) + y)),
      (Instr.vsubs, fun w x y => max (-2 ^ (w - 1)) (min (2 ^ (w - 1) - 1) (sg w x - sg w y))),
      (Instr.vsubus, fun _ x y => max 0 ((x : Int) - y))] :
      List ((Bool → BitVec 3 → BitVec 3 → BitVec 3 → Mods → Instr) × (Nat → Nat → Nat → Int))),
    ∀ (t : Bool) (d a b : BitVec 3) (m : Mods) (s : State),
      s.Ready m 0 { vec := [d.setWidth 5, a.setWidth 5, b.setWidth 5] } →
      let w := if t then 64 else 32
      ∃ u, exec (op.1 t d a b m) s = .next u ∧ s.vecFrame u m 27#5 27#5 d ∧ u.cur.fstat = s.cur.fstat ∧ u.cur.srseed = s.cur.srseed ∧
        ∀ i, i < 512 / w → (lane w (u.vec (d.setWidth 5)) i : Int) =
          op.2 w (lane w (s.vec (a.setWidth 5)) i) (lane w (s.vec (b.setWidth 5)) i) % 2 ^ w) ∧
  (∀ (t : Bool) (d a b : BitVec 3) (m : Mods) (s : State),
      let w := if t then 64 else 32
      (s.Ready m 0 { vec := [d.setWidth 5, a.setWidth 5] } →
        (∃ u, exec (.vabs t d a m) s = .next u ∧ s.vecFrame u m 27#5 27#5 d ∧ u.cur.fstat = s.cur.fstat ∧
          ∀ i, i < 512 / w → (lane w (u.vec (d.setWidth 5)) i : Int) = |sg w (lane w (s.vec (a.setWidth 5)) i)| % 2 ^ w) ∧
        (∃ u, exec (.vneg t d a m) s = .next u ∧ s.vecFrame u m 27#5 27#5 d ∧ u.cur.fstat = s.cur.fstat ∧
          ∀ i, i < 512 / w → (lane w (u.vec (d.setWidth 5)) i : Int) = -sg w (lane w (s.vec (a.setWidth 5)) i) % 2 ^ w)) ∧
      (m.rc.toNat < 8 → s.Ready m 0 { vec := [d.setWidth 5, a.setWidth 5, b.setWidth 5, m.rc] } →
        ∃ u, exec (.vmad t d a b m) s = .next u ∧ s.vecFrame u m 27#5 27#5 d ∧ u.cur.fstat = s.cur.fstat ∧
          ∀ i, i < 512 / w → lane w (u.vec (d.setWidth 5)) i = (lane w (s.vec (a.setWidth 5)) i *
            lane w (s.vec (b.setWidth 5)) i + lane w (s.vec m.rc) i) % 2 ^ w))

/-- R174, R175: the vector compares write a mask, lane i in bit i and zero above, to a general register; the float ones set
nv as the scalar compares do. -/
def Obligations.VectorCompares : Prop :=
  let sg (w x : Nat) : Int := if x < 2 ^ (w - 1) then (x : Int) else (x : Int) - 2 ^ w
  (∀ op ∈ ([(Instr.vcmpEq, fun _ x y => decide (x = y)), (Instr.vcmpLt, fun w x y => decide (sg w x < sg w y)),
      (Instr.vcmpLe, fun w x y => decide (sg w x ≤ sg w y)), (Instr.vcmpLtu, fun _ x y => decide (x < y)),
      (Instr.vcmpLeu, fun _ x y => decide (x ≤ y))] :
      List ((Bool → BitVec 5 → BitVec 3 → BitVec 3 → Mods → Instr) × (Nat → Nat → Nat → Bool))),
    ∀ (t : Bool) (d : BitVec 5) (a b : BitVec 3) (m : Mods) (s : State),
      s.Ready m 0 { vec := [a.setWidth 5, b.setWidth 5], dst := [d] } →
      let w := if t then 64 else 32
      ∃ u v, exec (op.1 t d a b m) s = .next u ∧ s.regResult u m 27#5 27#5 d v ∧ s.keepsThread u ∧
        ∀ i, v.getLsbD i = (decide (i < 512 / w) &&
          op.2 w (lane w (s.vec (a.setWidth 5)) i) (lane w (s.vec (b.setWidth 5)) i))) ∧
  (∀ op ∈ ([(Instr.vfcmpEq, 0), (Instr.vfcmpLt, 2), (Instr.vfcmpLe, 3), (Instr.vfcmpUn, 4)] :
      List ((Bool → BitVec 5 → BitVec 3 → BitVec 3 → Mods → Instr) × Nat)),
    ∀ (t : Bool) (d : BitVec 5) (a b : BitVec 3) (m : Mods) (s : State),
      s.Ready m 0 { vec := [a.setWidth 5, b.setWidth 5], dst := [d] } →
      let f := if t then f64 else f32
      let n := if t then 8 else 16
      let x (v : VWord) (i : Nat) : FVal := f.daz (s.cur.fctl.getLsbD 4) (f.decode (lane f.width v i))
      let r (i : Nat) : Bool × Flags := fcmp op.2 (x (s.vec (a.setWidth 5)) i) (x (s.vec (b.setWidth 5)) i)
      ∃ u v, exec (op.1 t d a b m) s = .next u ∧ s.regResult u m 27#5 27#5 d v ∧ s.keepsThreadFp u ∧
        u.cur.fstat = s.cur.fstat ||| (List.range n).foldl (fun acc i => acc ||| (r i).2) 0#5 ∧
        u.cur.srseed = s.cur.srseed ∧ ∀ i, v.getLsbD i = (decide (i < n) && (r i).1))

/-- R175, R178, R236: the float lane instructions outside the divide unit and `vcvt`: lane i takes the scalar result of lanes
i, with draw i in stochastic mode, FSTAT takes the flags of every lane, and every bit above the result's lanes is zero.
The model's own reading in it: log entries 14 and 15. -/
def Obligations.VectorFloatLanes : Prop :=
  ∀ (t : Bool) (d a b : BitVec 3) (m : Mods) (s : State),
    let f := if t then f64 else f32
    let w := if t then 64 else 32
    let daz := s.cur.fctl.getLsbD 4
    let raw (v : BitVec 5) (i : Nat) : Nat := lane w (s.vec v) i
    let x (v : BitVec 5) (i : Nat) : FVal := f.daz daz (f.decode (raw v i))
    let a' : BitVec 5 := a.setWidth 5
    let b' : BitVec 5 := b.setWidth 5
    let lanesAre (i : Instr) (n wide : Nat) (rounds : Bool) (r : Nat → FRes) : Prop :=
      ∃ u, exec i s = .next u ∧ s.vecFrame u m 27#5 27#5 d ∧
        u.cur.fstat = s.cur.fstat ||| (List.range n).foldl (fun acc j => acc ||| (r j).2) 0#5 ∧
        u.cur.srseed = (if rounds = true ∧ s.mode m = 5 then s.cur.srseed + 1#64 else s.cur.srseed) ∧
        (∀ j, j < n → lane wide (u.vec (d.setWidth 5)) j = (r j).1 % 2 ^ wide) ∧
        ∀ k, n * wide ≤ k → (u.vec (d.setWidth 5)).getLsbD k = false
    (s.Ready m 0 { vec := [d.setWidth 5, a', b'] } →
      lanesAre (.vfadd t d a b m) (512 / w) w true (fun i => f.add (s.fenv m i) (x a' i) (x b' i)) ∧
      lanesAre (.vfsub t d a b m) (512 / w) w true (fun i => f.add (s.fenv m i) (x a' i) (x b' i).flip) ∧
      lanesAre (.vfmul t d a b m) (512 / w) w true (fun i => f.mul (s.fenv m i) (x a' i) (x b' i)) ∧
      lanesAre (.vfmin t d a b m) (512 / w) w false (fun i => f.minMax false daz (raw a' i) (raw b' i)) ∧
      lanesAre (.vfmax t d a b m) (512 / w) w false (fun i => f.minMax true daz (raw a' i) (raw b' i))) ∧
    (m.rc.toNat < 8 → s.Ready m 0 { vec := [d.setWidth 5, a', b', m.rc] } →
      lanesAre (.vfma t d a b m) (512 / w) w true (fun i => f.fma (s.fenv m i) false (x a' i) (x b' i) (x m.rc i)) ∧
      lanesAre (.vfnma t d a b m) (512 / w) w true (fun i => f.fma (s.fenv m i) true (x a' i) (x b' i) (x m.rc i))) ∧
    (s.Ready m 0 { vec := [d.setWidth 5, a'] } →
      lanesAre (.vfabs t d a m) (512 / w) w false (fun i => (raw a' i % 2 ^ (w - 1), 0#5)) ∧
      lanesAre (.vfneg t d a m) (512 / w) w false
        (fun i => (if raw a' i < 2 ^ (w - 1) then raw a' i + 2 ^ (w - 1) else raw a' i - 2 ^ (w - 1), 0#5)) ∧
      (let p := fmtOf m.fmtA.toNat
       let q := fmtOf m.fmtB.toNat
       lanesAre (.vcvt d a m) (if p.width = 64 ∨ q.width = 64 then 8 else 16) q.width true
        (fun i => convert p q (s.fenv m i) (lane p.width (s.vec a') i))))

/-- R142, R170, R177, R179, R180: moves, broadcasts, lane extraction and insertion, packing and release; a reduction of
integer lanes gives the sum of the lanes modulo their width, the least or the greatest, sign-extended, in the ordered form
and, whatever pairing is chosen, in the unordered form; a float `.o` reduction, of its lanes with daz applied, follows the
tree of neighbours, whose least and greatest are those of R134 and whose sums round and take their draws in the tree's
order.
The model's own choice in it: the pairing of the `.u` form, which is free (log entry 9). -/
def Obligations.VectorMovesAndReductions : Prop :=
  (
  ∀ (d a b : BitVec 3) (g h : BitVec 5) (m : Mods) (s : State),
    let va (w i : Nat) : Nat := lane w (s.vec (a.setWidth 5)) i
    (s.Ready m 0 { vec := [d.setWidth 5, a.setWidth 5] } → ∃ u, exec (.vmov d a m) s = .next u ∧
      s.vecFrame u m 27#5 27#5 d ∧ u.vec (d.setWidth 5) = s.vec (a.setWidth 5)) ∧
    (s.Ready m 0 { src := [g], vec := [d.setWidth 5] } →
      (∃ u, exec (.vbcastW d g m) s = .next u ∧ s.vecFrame u m g 27#5 d ∧
        ∀ i, i < 16 → lane 32 (u.vec (d.setWidth 5)) i = (s.gpr g).toNat % 2 ^ 32) ∧
      (∃ u, exec (.vbcastD d g m) s = .next u ∧ s.vecFrame u m g 27#5 d ∧
        ∀ i, i < 8 → lane 64 (u.vec (d.setWidth 5)) i = (s.gpr g).toNat)) ∧
    (s.Ready m 0 { src := [h], vec := [a.setWidth 5], dst := [g] } →
      (∃ u, exec (.vextW g a h m) s = .next u ∧ s.keepsThread u ∧
        s.regResult u m 27#5 h g (BitVec.ofNat 64 (va 32 ((s.gpr h).toNat % 16)))) ∧
      (∃ u, exec (.vextD g a h m) s = .next u ∧ s.keepsThread u ∧
        s.regResult u m 27#5 h g (BitVec.ofNat 64 (va 64 ((s.gpr h).toNat % 8))))) ∧
    (s.Ready m 0 { src := [g, h], vec := [d.setWidth 5] } →
      (∃ u, exec (.vinsW d g h m) s = .next u ∧ s.vecFrame u m g h d ∧ ∀ i, i < 16 → lane 32 (u.vec (d.setWidth 5)) i =
        if i = (s.gpr h).toNat % 16 then (s.gpr g).toNat % 2 ^ 32 else lane 32 (s.vec (d.setWidth 5)) i) ∧
      (∃ u, exec (.vinsD d g h m) s = .next u ∧ s.vecFrame u m g h d ∧ ∀ i, i < 8 → lane 64 (u.vec (d.setWidth 5)) i =
        if i = (s.gpr h).toNat % 8 then (s.gpr g).toNat else lane 64 (s.vec (d.setWidth 5)) i)) ∧
    (∀ e : Bool,
      let w := if e then 64 else 32
      let n := 512 / w
      (s.Ready m 0 { src := [h], vec := [d.setWidth 5, a.setWidth 5] } →
        let kept := (List.range n).filter (fun i => (s.gpr h).getLsbD i)
        ∃ u, exec (.vcompress e d a h m) s = .next u ∧ s.vecFrame u m 27#5 h d ∧ ∀ i, i < n →
          lane w (u.vec (d.setWidth 5)) i = if i < kept.length then va w (kept.getD i 0) else 0) ∧
      (s.Ready m 0 { vec := [d.setWidth 5, a.setWidth 5, b.setWidth 5] } →
        ∃ u, exec (.vperm e d a b m) s = .next u ∧ s.vecFrame u m 27#5 27#5 d ∧ ∀ i, i < n →
          lane w (u.vec (d.setWidth 5)) i = va w (lane w (s.vec (b.setWidth 5)) i % n)) ∧
      (s.Ready m 0 { vec := [d.setWidth 5, a.setWidth 5], dst := [m.rc] } →
        let live := (List.range n).filter (fun i => va w i != 0)
        ∃ u, exec (.nzscan e d a m) s = .next u ∧ (writable m.rc = true → u.gpr m.rc = BitVec.ofNat 64 live.length) ∧
          u.cur.pc = s.cur.pc + word (lenBytes m) ∧ (∀ x, u.byteAt x = s.byteAt x) ∧ s.keepsRegs u m 27#5 27#5 m.rc ∧
          (∀ r : BitVec 5, r ≠ d.setWidth 5 → u.vec r = s.vec r) ∧
          ∀ i, i < n → lane w (u.vec (d.setWidth 5)) i = if i < live.length then live.getD i 0 else 2 ^ w - 1)) ∧
    (s.Ready m 0 {} → s.mySlot.vpend = [] → ∃ u, exec (.vrel m) s = .next u ∧ s.advances u m 27#5 27#5 27#5 ∧
      (∀ r, u.vec r = 0#512) ∧ u.cur.vpin = false ∧ ∀ q, q ≠ s.me → u.slotAt q = s.slotAt q)) ∧
  (
  let sg (w x : Nat) : Int := if x < 2 ^ (w - 1) then (x : Int) else (x : Int) - 2 ^ w
  ∀ (t : BitVec 2) (o : Bool) (d : BitVec 5) (a : BitVec 3) (m : Mods) (s : State),
    s.Ready m 0 { vec := [a.setWidth 5], dst := [d] } →
    let w := if t = 0#2 ∨ t = 2#2 then 32 else 64
    let n := 512 / w
    let x (i : Nat) : Nat := lane w (s.vec (a.setWidth 5)) i
    let frame (u : State) : Prop := u.cur.pc = s.cur.pc + word (lenBytes m) ∧ s.keepsRegs u m 27#5 27#5 d ∧
      s.keepsThreadFp u ∧ (∀ y, u.byteAt y = s.byteAt y) ∧ u.slots = s.slots
    (∃ u, exec (.vredAdd t o d a m) s = .next u ∧ frame u ∧ (t.toNat < 2 → writable d = true →
      u.gpr d = (BitVec.ofNat w ((List.range n).map x).sum).signExtend 64)) ∧
    (∃ u, exec (.vredMin t o d a m) s = .next u ∧ frame u ∧ (t.toNat < 2 → writable d = true →
      ∃ i, i < n ∧ u.gpr d = BitVec.ofInt 64 (sg w (x i)) ∧ ∀ j, j < n → sg w (x i) ≤ sg w (x j))) ∧
    (∃ u, exec (.vredMax t o d a m) s = .next u ∧ frame u ∧ (t.toNat < 2 → writable d = true →
      ∃ i, i < n ∧ u.gpr d = BitVec.ofInt 64 (sg w (x i)) ∧ ∀ j, j < n → sg w (x j) ≤ sg w (x i))) ∧
    (2 ≤ t.toNat → o = false →
      let f := if t = 2#2 then f32 else f64
      let reduces (i : Instr) (op : Nat → Nat → Nat → FRes) : Prop :=
        let y := redTree op n n ((List.range n).map (fun i => f.dazBits (s.cur.fctl.getLsbD 4) (x i)))
        ∃ u, exec i s = .next u ∧ (writable d = true → u.gpr d = BitVec.ofNat 64 y.1) ∧ u.cur.fstat = s.cur.fstat ||| y.2
      reduces (.vredAdd t o d a m) (fun c p q => f.add (s.fenv m c) (f.decode p) (f.decode q)) ∧
      reduces (.vredMin t o d a m) (fun _ p q => f.minMax false false p q) ∧
      reduces (.vredMax t o d a m) (fun _ p q => f.minMax true false p q)))

/-- R168, R172, R173: the vector loads and stores in their three forms, masked and unmasked: with every active lane in the
core's own local store, a load takes its lanes at once, its inactive lanes zero, and a store writes exactly its lanes'
bytes; with no active line at hand, a load leaves vd pending on one request for each line, and a store sends one request
for each lane, whose names ascend with the lanes: the requests leave in ascending lane order.
The model's own reading in it: log entry 18. -/
def Obligations.VectorMemory : Prop :=
  ∀ (e k : Bool) (d b : BitVec 3) (a g : BitVec 5) (m : Mods) (s s1 : State) (ps : List LanePlace),
    s.acquiring s.uid = false → (s.famAt s.cur.fam).level ≠ 2 →
    let w := if e then 64 else 32
    let n := 512 / w
    let base := s.gpr a + m.w2.signExtend 64
    let ix (i : Nat) : Nat := lane w (s.vec (b.setWidth 5)) i
    let mask := if k then some (s.gpr m.rc) else none
    let ksrc := if k then [m.rc] else []
    let line := activeLanes e mask (fun i => some (base + BitVec.ofNat 64 (w / 8 * i)))
    let stride := activeLanes e mask (fun i => some (base + s.gpr g * BitVec.ofNat 64 i))
    let index := activeLanes e mask (fun i => if ix i = 2 ^ w - 1 then none else some (base + BitVec.ofNat 64 (w / 8 * ix i)))
    let contig (acc : Acc) : Prop := ∃ p, s.reach s.uid s.myCore s.cur.vf acc 64 base = .ok s1 p ∧
      (acc = .store → p.lo = false) ∧ ps = line.map (fun l => ⟨l, { p with addr := p.addr + l.w * l.lane }⟩)
    let loads (i : Instr) (g' : BitVec 5) : Prop :=
      ((∀ x ∈ ps, x.p.isLocal = true ∧ x.p.addr % 64 + x.ref.w ≤ 64) →
        ∃ t, exec i s = .next t ∧ s.advances t m a g' 27#5 ∧ t.cur.vpin = true ∧
          (∀ r : BitVec 5, r ≠ d.setWidth 5 → t.vec r = s.vec r) ∧
          (∀ x ∈ ps, lane w (t.vec (d.setWidth 5)) x.ref.lane =
            ofBytes ((List.range (w / 8)).map (fun j => s.byteAt (x.p.addr + j)))) ∧
          ∀ j, j < n → (∀ x ∈ ps, x.ref.lane ≠ j) → lane w (t.vec (d.setWidth 5)) j = 0) ∧
      ((∀ x ∈ ps, s1.lineNow x.p = none ∧ x.p.isLocal = false) → s1.resvFree s1.me (lineList ps).length = true →
        ∃ t, exec i s = .next t ∧ s.advances t m a g' 27#5 ∧ t.cur.vpin = true ∧
          t.mySlot.vpend.get 0 d.toNat = (lineList ps).length ∧
          ∀ l ∈ lineList ps, ∃ id r, t.reqs.find? id = some r ∧ r.kind = .vload ∧ r.thread = some s.uid ∧ r.slot = s.me ∧
            lineOf r.addr = l ∧ r.rd = d.toNat ∧ r.lanes = laneMap ps l)
    let stores (i : Instr) (g' : BitVec 5) : Prop :=
      ((∀ x ∈ ps, x.p.isLocal = true ∧ ∀ u ∈ s.bad, u < x.p.addr / 64 ∨ (x.p.addr + x.ref.w - 1) / 64 < u) →
        ∃ t, exec i s = .next t ∧ s.advancesRegs t m a g' 27#5 ∧ t.mySlot.vecs = s.mySlot.vecs ∧
          (∀ y, (∀ x ∈ ps, y < x.p.addr ∨ x.p.addr + x.ref.w ≤ y) → t.byteAt y = s.byteAt y) ∧
          ∀ x ∈ ps, (∀ z ∈ ps, z.ref.lane ≤ x.ref.lane ∨ z.p.addr + z.ref.w ≤ x.p.addr ∨ x.p.addr + x.ref.w ≤ z.p.addr) →
            ∀ j, j < x.ref.w → t.byteAt (x.p.addr + j) = BitVec.ofNat 8 (lane w (s.vec (d.setWidth 5)) x.ref.lane / 256 ^ j)) ∧
      ((∀ x ∈ ps, x.p.isLocal = false) → s1.resvFree s1.me (lineList ps).length = true →
        ∃ t, exec i s = .next t ∧ s.advances t m a g' 27#5 ∧ t.mySlot.vecs = s.mySlot.vecs ∧
          ∃ name : Nat → Nat, (∀ x ∈ ps, s.nextId ≤ name x.ref.lane) ∧
            (∀ x ∈ ps, ∀ z ∈ ps, x.ref.lane < z.ref.lane → name x.ref.lane < name z.ref.lane) ∧
            ∀ x ∈ ps, ∃ r, t.reqs.find? (name x.ref.lane) = some r ∧ r.kind = .store ∧ r.thread = some s.uid ∧
              r.addr = x.p.addr ∧ r.va = x.ref.va ∧ r.data = toBytes x.ref.w (lane w (s.vec (d.setWidth 5)) x.ref.lane))
    (s.Ready m 0 { src := a :: ksrc, vec := [d.setWidth 5] } →
      (contig .load → loads (.vldContig e k d a m) 27#5) ∧ (contig .store → stores (.vstContig e k d a m) 27#5)) ∧
    (s.Ready m 0 { src := a :: g :: ksrc, vec := [d.setWidth 5] } →
      (s.lanesReach .load stride s1 ps → loads (.vldStrided e k d a g m) g) ∧
      (s.lanesReach .store stride s1 ps → stores (.vstStrided e k d a g m) g)) ∧
    (s.Ready m 0 { src := a :: ksrc, vec := [d.setWidth 5, b.setWidth 5] } →
      (s.lanesReach .load index s1 ps → loads (.vldIndexed e k d a b m) 27#5) ∧
      (s.lanesReach .store index s1 ps → stores (.vstIndexed e k d a b m) 27#5))

/-! Control. -/

/-- R22, R58, R109, R25: a branch that is taken goes to the word after it plus four times its offset, and one that is not
taken only advances; `jmp` goes to its register's address when that lies ahead and is aligned, and faults ILLEGAL
otherwise. -/
def Obligations.BranchesAndJumps : Prop :=
  (∀ (o : BitVec 19) (p : BitVec 3) (m : Mods) (s : State), s.Ready m 0 {} →
    let takes (i : Instr) : Prop := ∃ t, exec i s = .next t ∧
      s.transfers t m 27#5 (s.cur.pc + 4#64 + BitVec.ofNat 64 (4 * o.toNat))
    let passes (i : Instr) : Prop := ∃ t, exec i s = .next t ∧ s.regResult t m 27#5 27#5 27#5 0#64 ∧ s.keepsThread t
    takes (.b o m) ∧
    (s.cur.getPred p = true → takes (.bt p o m) ∧ passes (.bf p o m)) ∧
    (s.cur.getPred p = false → takes (.bf p o m) ∧ passes (.bt p o m))) ∧
  (∀ (a : BitVec 5) (m : Mods) (s : State), s.Ready m 0 { src := [a] } →
    ((s.gpr a).toNat % 4 = 0 → s.cur.pc.toNat < (s.gpr a).toNat →
      ∃ t, exec (.jmp a m) s = .next t ∧ s.transfers t m a (s.gpr a)) ∧
    ((s.gpr a).toNat % 4 ≠ 0 ∨ (s.gpr a).toNat ≤ s.cur.pc.toNat → s.mayFault →
      ∃ t, exec (.jmp a m) s = .next t ∧ s.faultsEnd t fILLEGAL 7 0#64))

/-- R110, R112, R113, R138: a call, once the thread's loads and divisions have landed, makes a frame of l0 to l9, lk, the
return address and the predicates, goes one level deeper, puts the return address into lk and transfers, and every other
register but ws keeps its value and its state; with eight frames resident it first sends the oldest to memory and waits
for the acknowledgement; at a depth of 512 it faults ACCESS. `ret` at depth 0 ends the thread; deeper, it takes its
resident top frame back and leaves l0 alone, or asks for the frame and waits for it.
The model's own reading in it: log entry 25. -/
def Obligations.CallsAndReturns : Prop :=
  (∀ (i : Instr) (a : BitVec 5) (m : Mods) (s : State) (target : Word),
    ((i = .callLit m ∧ a = 27#5 ∧ target = m.lit ∧ s.Ready m 0 {}) ∨
      (i = .callReg a m ∧ target = s.gpr a ∧ s.Ready m 0 { src := [a] })) →
    let waits (w : Wait) : Prop := ∃ t, exec i s = .next t ∧ t.cur.wait = w ∧ t.cur.pc = s.cur.pc ∧ s.keepsMachine t
    (target.toNat % 4 = 0 → s.slotDepth s.me < 512 →
      (s.loadsLanded s.uid = false → waits .loads) ∧
      (s.loadsLanded s.uid = true → s.dividing s.uid = true → waits .divided) ∧
      (s.loadsLanded s.uid = true → s.dividing s.uid = false →
        (s.mySlot.frames.length < 8 →
          ∃ t f, exec i s = .next t ∧ t.mySlot.frames = f :: s.mySlot.frames ∧
            (∀ r, r < 10 → f.locals.get FReg.zero r = ((s.consume m a 27#5).cur).reg r) ∧
            f.lk = s.cur.lk ∧ f.ret = s.cur.pc + word (lenBytes m) ∧ f.pred = s.cur.pred ∧
            t.cur.pc = target ∧ t.cur.lk = s.cur.pc + word (lenBytes m) ∧ t.cur.depth = s.cur.depth + 1 ∧
            t.cur.pred = s.cur.pred ∧ t.mySlot.ibuf = none ∧ t.mem = s.mem ∧ t.cur.fctl = s.cur.fctl ∧
            (∀ r : BitVec 5, r ∉ consumed m a 27#5 → r ∉ [29#5, 30#5, 31#5] →
              t.gpr r = s.gpr r ∧ t.cur.fe r.toNat = s.cur.fe r.toNat) ∧ t.consumes m a 27#5 27#5 ∧
            (∀ u, u ≠ s.uid → t.threadAt u = s.threadAt u)) ∧
        (8 ≤ s.mySlot.frames.length → s.framesOut s.me = true → waits .frames) ∧
        (∀ s1, 8 ≤ s.mySlot.frames.length → s.framesOut s.me = false → s.resvFree s.me 1 = true →
          (s.tookResv.modSlot s.me (fun x => { x with noSpill := false })).sendFrame s.me (some s.uid) = .ok s1 →
          exec i s = .next (s1.suspend .frames)))) ∧
    (target.toNat % 4 ≠ 0 → s.mayFault → ∃ t, exec i s = .next t ∧ s.faultsEnd t fILLEGAL 7 0#64) ∧
    (target.toNat % 4 = 0 → 512 ≤ s.slotDepth s.me → s.mayFault →
      ∃ t, exec i s = .next t ∧ s.faultsEnd t fACCESS 5 0#64)) ∧
  (∀ (m : Mods) (s : State), s.Ready m 0 {} →
    (s.cur.depth = 0 → s.cur.ended = none → ∃ t, exec (.ret m) s = .next t ∧ t.threadEnds s.uid .ret ∧ t.mem = s.mem) ∧
    (s.cur.depth ≠ 0 → s.loadsLanded s.uid = true → s.dividing s.uid = false →
      (∀ f rest, s.mySlot.frames = f :: rest →
        ∃ t, exec (.ret m) s = .next t ∧ t.cur.pc = f.ret ∧ t.cur.lk = f.lk ∧ t.cur.pred = f.pred ∧
          t.cur.depth = s.cur.depth - 1 ∧ t.mySlot.frames = rest ∧ t.mySlot.ibuf = none ∧
          (m.consC = false → t.cur.reg 0 = s.cur.reg 0) ∧ t.cur.fctl = s.cur.fctl ∧ t.mem = s.mem ∧
          (∀ r, 1 ≤ r → r < 10 → (∀ w, (f.locals.get FReg.zero r).st ≠ .pending w) → t.cur.reg r = f.locals.get FReg.zero r) ∧
          (∀ u, u ≠ s.uid → t.threadAt u = s.threadAt u)) ∧
      (s.mySlot.frames = [] → s.framesOut s.me = true →
        ∃ t, exec (.ret m) s = .next t ∧ t.cur.wait = .frames ∧ t.cur.pc = s.cur.pc ∧ s.keepsMachine t) ∧
      (∀ s1, s.mySlot.frames = [] → s.framesOut s.me = false → s.resvFree s.me 1 = true → s.tookResv.askFrame = .ok s1 →
        exec (.ret m) s = .next (s1.suspend .frames)))) ∧
  (∀ (s s1 : State) (p : Place), s.areaReach s.myCore s.cur.vf (s.slotLevel s.me) .load
      (s.spillPlace s.cur.vf s.me (s.slotDepth s.me)) = .ok (s1, p) →
    ∃ t r, s.askFrame = .ok t ∧ t.reqs.find? s1.nextId = some r ∧ r.kind = .frameRead ∧ r.thread = some s.uid ∧ r.slot = s.me ∧
      r.addr = p.addr ∧ r.key = p.key ∧ r.size = 128 ∧ r.resv = true ∧ t.mem = s1.mem ∧ t.threads = s1.threads)

/-- R110, R112, R113, R115, R116, R118, R155: a frame that is sealed for a place under a key passes the checks there; the
oldest resident frame that is not on its way leaves, sealed, as one write to its place, with an entry; once the last write
of a slot is acknowledged those frames are resident no longer, and a frame read back is resident when it passes its check
and else ends the thread with MACHINE(5) once its earlier instructions are complete. `wflush` sends every resident frame
and waits, and only advances once none is resident; `wdepth` reads the depth; and `ifence`, once every store of the slot,
and every one that its thread has read the value of, is acknowledged, empties the slot's buffer and the core's instruction
cache.
The model's own reading in it: log entries 11, 25 and 80. -/
def Obligations.WindowInstructions : Prop :=
  (∀ (f : Frame) (va : Nat) (key : Word), f.ret.toNat % 4 = 0 → frameGood (f.sealed va key) va key = true) ∧
  (∀ (q : Nat) (u : Option Nat) (f : Frame) (p : Place) (s s1 : State),
    let x := s.slotAt q
    let n := x.frames.length - x.flushing
    let va := s.spillPlace (s.slotVf q) q (s.slotDepth q + 1 - n)
    x.frames[n - 1]? = some f → s.areaReach (coreOfSlot q) (s.slotVf q) (s.slotLevel q) .store va = .ok (s1, p) →
    ∃ t r, s.sendFrame q u = .ok t ∧ t.reqs.find? s1.nextId = some r ∧ r.kind = .frameWrite ∧ r.thread = u ∧ r.slot = q ∧
      r.addr = p.addr ∧ r.key = p.key ∧ r.data = f.sealed va x.frameKey ∧ r.resv = true ∧ t.mem = s1.mem ∧
      t.threads = s1.threads ∧ (t.slotAt q).flushing = (s1.slotAt q).flushing + 1 ∧ (t.slotAt q).frames = (s1.slotAt q).frames) ∧
  (∀ (id : Nat) (r : Req) (s : State), s.reqs.find? id = some r → r.phase = .replied → s.timed r = false → r.acq = false →
    r.err = none → r.engine = none →
    let x := s.slotAt r.slot
    (r.kind = .frameWrite → ∃ t, exec (.storeAcknowledged id) s = .next t ∧ t.reqs.find? id = none ∧ t.mem = s.mem ∧
      t.threads = s.threads ∧ ((∀ e ∈ s.reqs, e.1 ≠ id → e.2.slot = r.slot → e.2.kind.isFrame = false) →
        (t.slotAt r.slot).frames = x.frames.take (x.frames.length - x.flushing) ∧ (t.slotAt r.slot).flushing = 0)) ∧
    (∀ u, r.kind = .frameRead → r.thread = some u → s.gone u = false →
      (frameGood r.data r.va.toNat x.frameKey = true → ∃ t, exec (.replyLands id) s = .next t ∧ t.reqs.find? id = none ∧
        t.mem = s.mem ∧ t.threads = s.threads ∧ ∃ f, (t.slotAt r.slot).frames = [f] ∧
          f.lk = (dwords r.data).getD 10 0#64 ∧ f.ret = (dwords r.data).getD 11 0#64) ∧
      (frameGood r.data r.va.toNat x.frameKey = false →
        (s.earlierDone u id id = true → ∃ t, exec (.replyLands id) s = .next t ∧
          (t.threadAt u).ended = some (.fault fMACHINE 5)) ∧
        (s.earlierDone u id id = false → exec (.replyLands id) s = .next s)))) ∧
  (∀ (m : Mods) (s : State), s.Ready m 0 {} →
    (s.framesOut s.me = true → ∃ t, exec (.wflush m) s = .next t ∧ t.cur.wait = .frames ∧ t.cur.pc = s.cur.pc ∧ s.keepsMachine t) ∧
    (s.framesOut s.me = false → s.mySlot.frames = [] →
      ∃ t, exec (.wflush m) s = .next t ∧ s.keepsThread t ∧ s.regResult t m 27#5 27#5 27#5 0#64) ∧
    (∀ s1, s.framesOut s.me = false → s.mySlot.frames ≠ [] → s.resvFree s.me s.mySlot.frames.length = true →
      s.tookResv.sendFrames s.me (some s.uid) s.mySlot.frames.length = .ok s1 →
      exec (.wflush m) s = .next (s1.suspend .frames))) ∧
  (∀ (d : BitVec 5) (m : Mods) (s : State), s.Ready m 0 { dst := [d] } →
    ∃ t, exec (.wdepth d m) s = .next t ∧ s.keepsThread t ∧ s.regResult t m 27#5 27#5 d (BitVec.ofNat 64 s.cur.depth)) ∧
  (∀ (m : Mods) (s : State), s.Ready m 0 {} → s.slotStoresAcked s.me = true → s.seenAcked s.uid = true →
    ∃ t, exec (.ifence m) s = .next t ∧ s.advances t m 27#5 27#5 27#5 ∧ s.keepsThread t ∧ s.keepsMsgs t ∧
      t.mySlot.ibuf = none ∧ (t.coreAt s.myCore).icache.lines = [] ∧
      (t.coreAt s.myCore).dcache = (s.coreAt s.myCore).dcache ∧ ∀ c, c ≠ s.myCore → t.coreAt c = s.coreAt c)

/-! Families and threads. -/

/-- R46, R59, R62 to R67, R97, R98, R235: `create` and `spawn`: a range with members takes the lowest free entry of the
function's arena, whose family has the range, body, globals, links and the creator's modes; `create` leaves its handle and
link registers pending on it. An empty range fills the handle with zero at once, keeps every link local and makes nothing;
a bad range or a full arena faults FAMILY and makes nothing. Either way that completes, SRSEED steps. -/
def Obligations.FamiliesMade : Prop :=
  ∀ (own : Bool) (d a b : BitVec 5) (m : Mods) (s : State),
    let i : Instr := if own then .create d a b m else .spawn a b m
    let links := usedLinks (mkLinks m.w2)
    s.Ready m 0 { src := [a, b, m.rc] ++ links.map (fun l => BitVec.ofNat 5 l.2) ++ mkGlobals m.w2, dst := if own then [d] else [] } →
    let lo := (s.gpr a).toInt
    let hi := (s.gpr b).toInt
    let step := (s.gpr m.rc).toInt
    let n := (hi - lo + step - 1) / step
    let kept (t : State) : Prop := ∀ fk, (t.famAt fk).alloc = (s.famAt fk).alloc
    (step ≤ 0 → s.mayFault → ∃ t, exec i s = .next t ∧ s.faultsEnd t fFAMILY 1 0#64 ∧ kept t) ∧
    (0 < step → m.lit.toNat % 4 ≠ 0 → s.mayFault →
      ∃ t, exec i s = .next t ∧ s.faultsEnd t fFAMILY 4 0#64 ∧ kept t) ∧
    (0 < step → m.lit.toNat % 4 = 0 → hi ≤ lo →
      ∃ t, exec i s = .next t ∧ t.families = s.families ∧ t.mem = s.mem ∧ t.cur.srseed = s.cur.srseed + 1#64 ∧
        t.cur.pc = s.cur.pc + word (lenBytes m) ∧ s.keepsRegs t m a b (if own then d else 27#5) ∧
        (∀ u, u ≠ s.uid → t.threadAt u = s.threadAt u) ∧
        (own = true → writable d = true → t.gpr d = 0#64 ∧ t.cur.fe d.toNat = .full)) ∧
    (0 < step → m.lit.toNat % 4 = 0 → lo < hi → lo < 0 → s.mayFault →
      ∃ t, exec i s = .next t ∧ s.faultsEnd t fFAMILY 2 0#64 ∧ kept t) ∧
    (0 < step → m.lit.toNat % 4 = 0 → lo < hi → 0 ≤ lo → 2 ^ 40 - 1 < n ∨ 2 ^ 40 - 1 < lo + (n - 1) * step → s.mayFault →
      ∃ t, exec i s = .next t ∧ s.faultsEnd t fFAMILY 3 0#64 ∧ kept t) ∧
    (0 < step → m.lit.toNat % 4 = 0 → lo < hi → 0 ≤ lo → n ≤ 2 ^ 40 - 1 → lo + (n - 1) * step ≤ 2 ^ 40 - 1 →
      (s.freeEntry s.cur.vf = none → s.mayFault →
        ∃ t, exec i s = .next t ∧ s.faultsEnd t fFAMILY 5 0#64 ∧ kept t) ∧
      (∀ fk, s.freeEntry s.cur.vf = some fk → fk / 2 ^ 24 = s.cur.vf → s.uid < s.nextId →
        ∃ t, exec i s = .next t ∧ t.mem = s.mem ∧ t.cur.pc = s.cur.pc + word (lenBytes m) ∧
          t.cur.srseed = s.cur.srseed + 1#64 ∧ t.cur.made = s.cur.made ++ [t.handleOf fk] ∧
          (∀ u, u ≠ s.uid → u < s.nextId → t.threadAt u = s.threadAt u) ∧
          (∀ g, g ≠ fk → t.famAt g = s.famAt g) ∧
          (own = true → hasFe d.toNat = true → (∀ l ∈ links, l.2 ≠ d.toNat) →
            t.cur.fe d.toNat = .pending (.family (t.handleOf fk))) ∧
          (own = true → ∀ l ∈ links, l.2 < 10 → (∀ l' ∈ links, l'.2 = l.2 → l' = l) →
            t.cur.fe l.2 = .pending (.link (t.handleOf fk) l.1)) ∧
          let f := t.famAt fk
          f.alloc = true ∧ f.gen = ((s.famAt fk).gen + 1) % 256 ∧ f.vf = s.cur.vf ∧ f.queue = s.cur.queue ∧
          f.level = (s.famAt s.cur.fam).level ∧ f.globals = (mkGlobals m.w2).map s.gpr ∧ f.first = (s.gpr a).toNat ∧
          (f.count : Int) = n ∧ f.step = (s.gpr m.rc).toNat ∧ f.body = m.lit ∧ f.links = mkLinks m.w2 ∧ f.origin = s.myCore ∧
          f.fctl = s.cur.fctl ∧ f.srseed = s.cur.srseed ∧ f.adoptMax = s.cur.adoptMax ∧ f.fixed = none ∧ f.endedK = [] ∧
          f.deliver = (if own then .thread s.uid d.toNat links else .nobody)))

/-- R102 to R106: what a register names, and LINK(1) or FAMILY(7) where it names nothing that it may; `kill` and `hcancel`
send a kill to a family's home or stop an engine operation, and change nothing where nothing is named; `htest` reads the
handle of what still runs, 1 for a register that waits for anything else, and zero otherwise; `hwait` completes at once
where nothing runs, helps, or leaves its wait with what runs and empties its register only once that is over; one on the
register of its own pending operation waits until that is full; `sync` only waits for its register.
The model's own reading in it: log entry 29 (`htest` waits for a pending destination; `hwait` on a register that waits for
anything else reads it as a handle value once it is full). -/
def Obligations.NamedOperations : Prop :=
  ∀ (d a : BitVec 5) (m : Mods) (s : State) (h : Word),
    let fk := s.famOfHandle s.cur.vf h
    let inHandle : Prop := h.toNat < 2 ^ 57 ∧ s.inArena s.cur.vf (h.toNat / 256 * 256) = true ∧ s.handleOf fk = h
    -- what the register names
    (s.cur.fe a.toNat = .pending (.family h) → s.named a = .ok (.family true h)) ∧
    (s.cur.fe a.toNat = .pending (.engine h) → s.named a = .ok (.engine true h)) ∧
    (∀ f, s.cur.fe a.toNat = .pending f → (∀ g, f ≠ .family g) → (∀ g, f ≠ .engine g) → s.named a = .ok .waiting) ∧
    (s.cur.fe a.toNat = .empty → s.named a = .error (fLINK, 1)) ∧
    (s.cur.fe a.toNat = .full → s.gpr a = 0#64 → s.named a = .ok .nothing) ∧
    (s.cur.fe a.toNat = .full → s.gpr a = h → h.getLsbD 63 = true → s.named a = .ok (.engine false h)) ∧
    (s.cur.fe a.toNat = .full → s.gpr a = h → h ≠ 0#64 → h.getLsbD 63 = false →
      (inHandle → s.named a = .ok (.family false h)) ∧ (¬ inHandle → s.named a = .error (fFAMILY, 7))) ∧
    (∀ c k, s.named a = .error (c, k) → s.Ready m 0 { dst := [d] } → s.cur.ownWait = false → s.mayFault →
      ∀ i ∈ [Instr.kill a m, .hcancel a m, .htest d a m, .hwait a m],
        ∃ t, exec i s = .next t ∧ s.faultsEnd t c k 0#64) ∧
    (s.Ready m 0 {} → ∀ i ∈ [Instr.kill a m, Instr.hcancel a m],
      (∀ o, s.named a = .ok (.family o h) →
        ∃ t, exec i s = .next t ∧ s.advances t m 27#5 27#5 27#5 ∧ t.msgs.find? s.nextId = some (.kill fk (h.toNat % 256))) ∧
      (∀ o, s.named a = .ok (.engine o h) →
        ∃ t, exec i s = .next t ∧ s.advances t m 27#5 27#5 27#5 ∧ s.keepsMsgs t ∧
          (∀ cl e c, (s.clusterAt cl).copies.find? e = some c →
            (t.clusterAt cl).copies.find? e = some (if c.h = h ∧ c.stop = 0 then { c with stop := 2 } else c)) ∧
          ∀ cl e j, (e, j) ∈ (s.clusterAt cl).jobs →
            (e, if j.h = h ∧ j.stop = 0 then { j with stop := 2 } else j) ∈ (t.clusterAt cl).jobs) ∧
      (s.named a = .ok .nothing ∨ s.named a = .ok .waiting →
        ∃ t, exec i s = .next t ∧ s.regResult t m 27#5 27#5 27#5 0#64 ∧ s.keepsThread t)) ∧
    (s.Ready m 0 { dst := [d] } →
      let reads (v : Word) : Prop := ∃ t, exec (.htest d a m) s = .next t ∧ s.keepsThread t ∧ s.regResult t m 27#5 27#5 d v
      (s.named a = .ok .nothing → reads 0#64) ∧ (s.named a = .ok .waiting → reads 1#64) ∧
      (s.named a = .ok (.family true h) ∨ s.named a = .ok (.engine true h) → reads h) ∧
      (s.named a = .ok (.family false h) → reads (if s.familyPending s.cur.vf h = true then h else 0#64)) ∧
      (s.named a = .ok (.engine false h) → reads (if s.enginePending h = true then h else 0#64))) ∧
    (s.Ready m 0 {} →
      let waits (w : Wait) : Prop := ∃ t, exec (.hwait a m) s = .next t ∧ t.cur.wait = w ∧ t.cur.pc = s.cur.pc ∧
        (∀ r, t.cur.reg r = s.cur.reg r) ∧ s.keepsMachine t ∧ s.keepsMsgs t
      (s.cur.ownWait = true → s.cur.fe a.toNat = .full →
        ∃ t, exec (.hwait a m) s = .next t ∧ s.regResult t m a 27#5 27#5 0#64 ∧ t.cur.ownWait = false ∧
          { t.cur with regs := s.cur.regs, lk := s.cur.lk, pc := s.cur.pc, ownWait := true } = s.cur) ∧
      (s.named a = .ok (.engine true h) → waits (.reg a.toNat)) ∧
      (s.named a = .ok (.family true h) → s.cycleFamily s.uid fk = none → s.mayHelp s.uid fk = false →
        waits (.reg a.toNat)) ∧
      (∀ f, s.cur.fe a.toNat = .pending f → (∀ g, f ≠ .family g) → (∀ g, f ≠ .engine g) → (∀ id ea, f ≠ .ldfe id ea) →
        waits (.reg a.toNat)) ∧
      (s.cur.ownWait = false →
        let ends : Prop := ∃ t, exec (.hwait a m) s = .next t ∧ s.regResult t m a 27#5 27#5 0#64 ∧ s.keepsThread t
        -- the register still holds its value; the landing of the answer empties those that are owed
        let leaves (t : State) (w : Wait) : Prop := t.cur.pc = s.cur.pc + word (lenBytes m) ∧ (∀ r, t.cur.reg r = s.cur.reg r) ∧
          t.cur.wait = w ∧ t.cur.owes = (if m.consA = true ∧ a.toNat < 10 then [a.toNat] else []) ∧
          (∀ u, u ≠ s.uid → t.threadAt u = s.threadAt u) ∧ t.mem = s.mem
        (s.named a = .ok .nothing → ends) ∧
        (s.named a = .ok (.family false h) → s.familyPending s.cur.vf h = false → ends) ∧
        (s.named a = .ok (.engine false h) → s.enginePending h = false → ends) ∧
        (s.named a = .ok (.family false h) → s.familyPending s.cur.vf h = true → s.cycleFamily s.uid fk = none →
          (s.mayHelp s.uid fk = false ∨ s.hasTask fk = false →
            ∃ t, exec (.hwait a m) s = .next t ∧ leaves t (.family h) ∧ t.msgs.find? s.nextId = some (.arm h s.uid)) ∧
          (s.mayHelp s.uid fk = true → s.hasTask fk = true → s.cur.loc = .slot s.me →
            ∃ t, exec (.hwait a m) s = .next t ∧ t.cur.wait = .claim s.nextId ∧ t.cur.pc = s.cur.pc ∧
              t.msgs.find? s.nextId = some (.claim fk s.myCore s.me (some s.uid) none))) ∧
        (s.named a = .ok (.engine false h) → s.enginePending h = true →
          ∃ t, exec (.hwait a m) s = .next t ∧ leaves t (.engine h)))) ∧
    (s.Ready m 0 { src := [a] } →
      ∃ t, exec (.sync a m) s = .next t ∧ s.regResult t m a 27#5 27#5 0#64 ∧ s.keepsThread t)

/-- R90, R91, R101, R107, R108: `brk` ends its thread with its value; `mig` and `mig.s` take a thread that is not pinned
out of its slot, for the owner core of the address that they translate; `yield` gives its slot to the first ready record of
its core's run queue, and only advances where there is none, or the thread is pinned, serial or above a helper. -/
def Obligations.ThreadsEndAndMove : Prop :=
  (∀ (a : BitVec 5) (m : Mods) (s : State), s.Ready m 0 { src := [a] } → s.cur.ended = none →
    ∃ t, exec (.brk a m) s = .next t ∧ t.threadEnds s.uid (.brk ((s.gpr a).toNat % 2 ^ 56)) ∧ t.mem = s.mem) ∧
  (∀ (serial : Bool) (a : BitVec 5) (m : Mods) (s s1 : State) (p : Place), s.Ready m 0 { src := [a] } →
    let i : Instr := if serial then .migS a m else .mig a m
    (s.cur.pinned = true → s.mayFault → ∃ t, exec i s = .next t ∧ s.faultsEnd t fFAMILY 6 0#64) ∧
    (s.cur.pinned = false → s.reach s.uid s.myCore s.cur.vf .load 1 (s.gpr a) = .ok s1 p →
      (s.famAt s.cur.fam).level ≠ 2 → s1.moveWait s.uid = .none → s.cur.loc = .slot s.me → s.mySlot.chain = [] →
      let o := if isVault p.addr = true then (p.addr / 2 ^ 28 % 16 * 64 + p.addr / 2 ^ 22 % 64) * 8 + p.addr / 64 % 8
        else if p.addr < 2 ^ 40 then p.addr / 2 ^ 36 * 512 + 32 * (p.addr / 4096 % 16) + p.addr / 64 % 8 else s.myCore
      ∃ t, exec i s = .next t ∧ (t.slotAt s.me).occ = none ∧ (t.threadAt s.uid).serial = serial ∧
        (t.threadAt s.uid).pc = s.cur.pc + word (lenBytes m) ∧
        (o = s.myCore ∧ serial = false → (t.threadAt s.uid).loc = .runq o ∧
          (t.coreAt o).runq = (s.coreAt o).runq ++ [s.uid]) ∧
        (o ≠ s.myCore ∨ serial = true → (t.threadAt s.uid).loc = .moving o ∧
          t.msgs.find? s1.nextId = some (.move s.uid o serial)))) ∧
  (∀ (m : Mods) (s : State), s.Ready m 0 {} →
    (s.cur.pinned = true ∨ s.cur.serial = true ∨ s.mySlot.chain ≠ [] ∨ s.nextRecord s.myCore s.me = none →
      ∃ t, exec (.yield m) s = .next t ∧ s.regResult t m 27#5 27#5 27#5 0#64 ∧ s.keepsThread t) ∧
    (∀ h, s.cur.pinned = false → s.cur.serial = false → s.mySlot.chain = [] → s.cur.loc = .slot s.me →
      s.nextRecord s.myCore s.me = some h → h ≠ s.uid → s.moveWait s.uid = .none →
      ∃ t, exec (.yield m) s = .next t ∧ (t.slotAt s.me).occ = some h ∧ (t.threadAt h).loc = .slot s.me ∧
        (t.threadAt s.uid).loc = .runq s.myCore ∧ s.uid ∈ (t.coreAt s.myCore).runq ∧ h ∉ (t.coreAt s.myCore).runq ∧
        (t.threadAt s.uid).pc = s.cur.pc + word (lenBytes m)))

/-! Engine instructions. -/

/-- R164, R185 to R189, R194, R236, R374, R375: a copy, gather, scatter or reducing copy whose operands pass takes a free
entry of its cluster's copy table with everything captured, and leaves rd pending on the entry's handle; one with nothing to
do fills rd with zero, and steps SRSEED as any other; operands that do not pass fault COPY: a size that is no multiple of its
unit (1), one above 2 ^ 40 (2), a row size that is no power of two (3), ranges that meet (4), a packed row that meets a live
lane's table row (5), a malformed group (6). A collective also reads its group's descriptor, behind the stores to it that its
core has issued, and takes its sequence number; its size, in word 2, is never above 2 ^ 40.
The model's own reading in it: log entry 15. -/
def Obligations.CopiesIssue : Prop :=
  ∀ (d a b : BitVec 5) (m : Mods) (s : State), s.acquiring s.uid = false →
    let cl := s.myCluster
    let entry (t : State) (c : CopyOp) : Prop := ∃ e, (s.clusterAt cl).copies.find? e = none ∧
      (t.clusterAt cl).copies.find? e = some c ∧ c.h = engineHandle 0 cl e ((s.clusterAt cl).copyGen.get 0 e + 1) ∧
      (hasFe d.toNat = true → t.cur.fe d.toNat = .pending (.engine c.h)) ∧
      c.vf = s.cur.vf ∧ c.thread = s.uid ∧ c.core = s.myCore ∧ c.dst = s.gpr a ∧ c.src = s.gpr b ∧ c.fmt = m.fmtA.toNat ∧
      c.mode = s.mode m ∧ c.seed = s.cur.srseed.toNat ∧ c.rd = d.toNat ∧ c.forked = false ∧ c.chunks = [] ∧ c.stop = 0 ∧
      c.fault = none ∧ c.record = none ∧ c.before = s.nextId
    let stepsSeed (t : State) (op : Nat) : Prop :=
      t.cur.srseed = if s.mode m = 5 ∧ (op = 4 ∨ op = 5 ∨ op = 0x10 ∨ op = 0x11) ∧ (fmtOf m.fmtA.toNat).isInt = false ∧
        m.fmtA.toNat ≠ 0x10 then s.cur.srseed + 1#64 else s.cur.srseed
    let faults (i : Instr) (k : Nat) : Prop := s.mayFault → ∃ t, exec i s = .next t ∧ s.faultsEnd t fCOPY k 0#64
    let plain (i : Instr) (op : Nat) (inReg : Bool) : Prop :=
      s.Ready m 0 { src := if inReg then [a, b, m.rc] else [a, b], dst := [d] } →
      let size := if inReg then (s.gpr m.rc).toNat else if m.len = 1#2 then m.w2.toNat else m.lit.toNat
      let unit := if op < 4 then 8 else elemBytes m.fmtA.toNat
      let meets : Prop := (s.gpr a).toNat < (s.gpr b).toNat + size ∧ (s.gpr b).toNat < (s.gpr a).toNat + size
      (size % unit ≠ 0 → faults i 1) ∧ (size % unit = 0 → 2 ^ 40 < size → faults i 2) ∧
      (size % unit = 0 → size ≤ 2 ^ 40 → meets → faults i 4) ∧
      (size = 0 → ∃ t, exec i s = .next t ∧ s.keepsThreadFp t ∧ t.cur.fstat = s.cur.fstat ∧ stepsSeed t op ∧
        s.regResult t m a b d 0#64) ∧
      (size % unit = 0 → 0 < size → size ≤ 2 ^ 40 → ¬ meets → s.copyFree s.me = true →
        ∃ t c, exec i s = .next t ∧ s.advances t m a b d ∧ stepsSeed t op ∧ entry t c ∧ c.op = op ∧ c.size = size ∧
          c.group = none ∧ c.cursor = 0)
    let rows (i : Instr) (op : Nat) : Prop :=
      s.Ready m 0 { src := [a, b], vec := [m.rc], dst := [d] } →
      let size := m.w2.toNat
      let live := (List.range 16).filter (fun l => lane 32 (s.vec m.rc) l != 2 ^ 32 - 1)
      let packed := if op = 1 then (s.gpr a).toNat else (s.gpr b).toNat
      let table := if op = 1 then (s.gpr b).toNat else (s.gpr a).toNat
      let row (l : Nat) : Nat := (table + lane 32 (s.vec m.rc) l * size) % 2 ^ 64
      let clash : Prop := ∃ l ∈ live, packed < row l + size ∧ row l < packed + live.length * size
      ((∀ k, k ≤ 12 → size ≠ 2 ^ k) → faults i 3) ∧
      ((∃ k, k ≤ 12 ∧ size = 2 ^ k) → clash → faults i 5) ∧
      ((∃ k, k ≤ 12 ∧ size = 2 ^ k) → live = [] →
        ∃ t, exec i s = .next t ∧ s.keepsThread t ∧ s.regResult t m a b d 0#64) ∧
      ((∃ k, k ≤ 12 ∧ size = 2 ^ k) → ¬ clash → live ≠ [] → s.copyFree s.me = true →
        ∃ t c, exec i s = .next t ∧ s.advances t m a b d ∧ stepsSeed t op ∧ entry t c ∧ c.op = op ∧ c.size = size ∧
          c.idx = s.vec m.rc ∧ c.vreg = m.rc.toNat ∧ c.group = none)
    let coll (i : Instr) (op : Nat) : Prop :=
      ∀ s1 p, s.Ready m 0 { src := [a, b, m.rc], dst := [d] } → (s.famAt s.cur.fam).level ≠ 2 →
      s.reach s.uid s.myCore s.cur.vf .load 128 (s.gpr m.rc) = .ok s1 p → s1.gathered s.myCore p.addr 128 = true →
      s1.keyReady p.key = true → s1.poisoned p.addr 128 = false →
      let size := m.w2.toNat
      let unit := if m.fmtA.toNat = 0x10 then 1056 else elemBytes m.fmtA.toNat
      let meets : Prop := (s.gpr a).toNat < (s.gpr b).toNat + size ∧ (s.gpr b).toNat < (s.gpr a).toNat + size
      let group := s1.groupOfBytes (s.gpr m.rc) ((s1.readBytes p.key p.addr 128).getD [])
      (size % unit ≠ 0 → faults i 1) ∧ (size % unit = 0 → meets → faults i 4) ∧
      (size % unit = 0 → ¬ meets → group = none → faults i 6) ∧
      (∀ g, size = 0 → group = some g →
        ∃ t, exec i s = .next t ∧ s.advances t m a b d ∧ stepsSeed t op ∧ (writable d = true → t.gpr d = 0#64) ∧ t.mem = s.mem) ∧
      (∀ g, size % unit = 0 → 0 < size → ¬ meets → group = some g → s1.copyFree s.me = true →
        ∃ t c, exec i s = .next t ∧ s.advancesRegs t m a b d ∧ stepsSeed t op ∧ entry t c ∧ c.op = op ∧ c.size = size ∧
          c.group = some g ∧ s1.homeWrites t p.key (p.addr + 8) (toBytes 8 ((g.seq + 1) % 2 ^ 64)))
    plain (.cpy d a b m) 0 false ∧ plain (.cpyRegSize d a b m) 0 true ∧
    (∀ u rs : Bool, plain (.cpyrAdd u rs d a b m) (4 + u.toNat) rs ∧ plain (.cpyrMin u rs d a b m) (6 + u.toNat) rs ∧
      plain (.cpyrMax u rs d a b m) (8 + u.toNat) rs) ∧
    rows (.gth d a b m) 1 ∧ rows (.sct d a b m) 2 ∧
    (∀ u : Bool, coll (.allredAdd u d a b m) (0x10 + u.toNat) ∧ coll (.allredMin u d a b m) (0x12 + u.toNat) ∧
      coll (.allredMax u d a b m) (0x14 + u.toNat))

/-- R188, R206 to R208, R214 to R222, R226, R242, R243: a tile or matrix instruction whose shapes, headers and addresses
pass, with its tiles' locks clear and an entry of the cluster's job queue free, is admitted with everything captured: its
entry is the queue's last, it locks the tiles that it writes and counts a reader for each that it reads, and rd waits for
its handle. Shapes, headers or addresses that do not pass fault SHAPE, META or ALIGN, and admission nothing.
The model's own reading in it: log entry 15. -/
def Obligations.JobsAdmitted : Prop :=
  ∀ (d a : BitVec 5) (D ta tb : BitVec 3) (m : Mods) (s : State), s.acquiring s.uid = false →
    let cl := s.myCluster
    let core := s.coreAt s.myCore
    let shape (x : BitVec 3) : Word := core.tshape.get 0#64 x.toNat
    let header (x : BitVec 3) : Word := core.tmeta.get 0#64 x.toNat
    let admits (i : Instr) (a' : BitVec 5) (kind : JobKind) (x y z : Nat) (array : Bool) (writes reads : List Nat) (rounds : Bool)
        (P : State → Job → Prop) : Prop :=
      core.locksClear writes reads = true → s.jobFree s.me = true →
      ∃ t e j, exec i s = .next t ∧ s.advances t m a' 27#5 d ∧ (t.clusterAt cl).jobs.getLast? = some (e, j) ∧
        (t.clusterAt cl).jobs.map (fun y => (y.1, y.2.unplaced)) =
          (s.clusterAt cl).jobs.map (fun y => (y.1, y.2.unplaced)) ++ [(e, j.unplaced)] ∧
        (∀ k ∈ (s.clusterAt cl).jobs, k.1 ≠ e) ∧ j.h = engineHandle 1 cl e ((s.clusterAt cl).jobGen.get 0 e + 1) ∧
        (hasFe d.toNat = true → t.cur.fe d.toNat = .pending (.engine j.h)) ∧
        j.kind = kind ∧ j.d = x ∧ j.a = y ∧ j.b = z ∧ j.array = array ∧ j.writes = writes ∧ j.reads = reads ∧
        j.shapes = core.tshape ∧ j.metas = core.tmeta ∧ j.thread = s.uid ∧ j.slot = s.me ∧ j.core = s.myCore ∧ j.vf = s.cur.vf ∧
        j.mode = s.mode m ∧ j.seed = s.cur.srseed.toNat ∧ j.started = false ∧ j.forked = false ∧ j.ended = none ∧ j.stop = 0 ∧
        (∀ k ∈ writes, (t.coreAt s.myCore).wlock.get 0 k = 1) ∧
        (∀ k ∈ reads, (t.coreAt s.myCore).readers.get 0 k = core.readers.get 0 k + 1) ∧
        t.cur.srseed = (if rounds = true ∧ s.mode m = 5 then s.cur.srseed + 1#64 else s.cur.srseed) ∧ P t j
    let faults (i : Instr) (code c : Nat) (va : Word) : Prop :=
      s.mayFault → ∃ t, exec i s = .next t ∧ s.faultsEnd t code c va ∧ ∀ k, (t.clusterAt k).jobs = (s.clusterAt k).jobs
    let move (i : Instr) (kind : JobKind) (writes reads : List Nat) : Prop :=
      s.Ready m 0 { src := [a], dst := [d] } →
      let stride := if m.len = 1#2 then m.w2.toNat % 2 ^ 16 else rowLength (shape ta)
      let base := s.gpr a + (if m.len = 1#2 then sextN 16 (m.w2.toNat / 2 ^ 16 % 2 ^ 16) else 0#64)
      let k := rowAlign (shape ta)
      (base.toNat % k ≠ 0 ∨ stride % k ≠ 0 → faults i fALIGN 0 base) ∧
      (base.toNat % k = 0 → stride % k = 0 →
        admits i a kind ta.toNat 0 0 false writes reads false (fun _ j => j.base = base ∧ j.stride = word stride))
    let matrix (i : Instr) (kind : JobKind) (P : State → Job → Prop) (more : Prop) : Prop :=
      (∀ c, mmaCause kind (shape D) (shape ta) (shape tb) = some c → faults i fSHAPE c 0#64) ∧
      (mmaCause kind (shape D) (shape ta) (shape tb) = none → more →
        admits i 27#5 kind D.toNat ta.toNat tb.toNat true [D.toNat] [ta.toNat, tb.toNat].eraseDups
          (!(fmtOf (shapeFmt (shape ta))).isInt) P)
    move (.tld d ta a m) .tld [ta.toNat] [] ∧ move (.tst d ta a m) .tst [] [ta.toNat] ∧
    (s.Ready m 0 { dst := [d] } →
      admits (.tzero d ta m) 27#5 .tzero ta.toNat 0 0 false [ta.toNat] [] false (fun _ _ => True) ∧
      admits (.tmov d ta tb m) 27#5 .tmov ta.toNat tb.toNat 0 false [ta.toNat]
        (if tb = ta then [] else [tb.toNat]) false (fun _ _ => True) ∧
      matrix (.mma D d ta tb m) .mma (fun _ _ => True) True ∧
      matrix (.mmaSp D d ta tb m) .mmaSp (fun _ _ => True) (sparseCause (header ta) (shape ta) = none) ∧
      (∀ c, mmaCause .mmaSp (shape D) (shape ta) (shape tb) = none → sparseCause (header ta) (shape ta) = some c →
        faults (.mmaSp D d ta tb m) fMETA c 0#64) ∧
      (let o := m.w2.toNat
       (0x17 < shapeFmt (shape ta) → faults (.prune D d ta m) fSHAPE 5 0#64) ∧
       (shapeFmt (shape ta) ≤ 0x17 → fits (shape ta) (optN o) (optM o) (optK o) = false → faults (.prune D d ta m) fMETA 8 0#64) ∧
       (shapeFmt (shape ta) ≤ 0x17 → fits (shape ta) (optN o) (optM o) (optK o) = true →
        admits (.prune D d ta m) 27#5 .prune D.toNat ta.toNat 0 true [D.toNat] [ta.toNat] false (fun t j =>
          j.opt = o ∧ (t.coreAt s.myCore).tshape.get 0#64 D.toNat = shape ta ∧
          (t.coreAt s.myCore).tmeta.get 0#64 D.toNat = optHeader o (shape ta))))) ∧
    (s.Ready m 0 { vec := fourFrom m.rc.toNat, dst := [d] } →
      matrix (.mmaQ D d ta tb m) .mmaQ (fun t j => j.opt = m.rc.toNat ∧ t.cur.vpin = true ∧
        ∀ k, k < 4 → t.mySlot.vpend.get 0 (m.rc.toNat + k) = 1) (s.readsVectors s.uid m.rc.toNat = false)) ∧
    (s.Ready m 0 { src := [m.rc], vec := fourFrom tb.toNat, dst := [d] } →
      (∀ c, scaCause (shape D) (shape ta) = some c → faults (.sca D d ta tb m) fSHAPE c 0#64) ∧
      (scaCause (shape D) (shape ta) = none →
        admits (.sca D d ta tb m) 27#5 .sca D.toNat ta.toNat 0 true [D.toNat] [ta.toNat] true (fun _ j =>
          j.scale = s.gpr m.rc ∧ j.colsum = (fourFrom tb.toNat).map s.vec)))

/-! Whole-machine rules of issue. -/

/-- R16: an instruction with words whose guard does not hold only advances the pc past its words: whatever it is, and
whatever its registers hold, nothing else of the machine changes. Its turn has passed all the same, and words that decode to
no instruction raise ILLEGAL, whatever their guard. -/
def Obligations.FailedGuardOnlyAdvances : Prop :=
  (∀ (i : Instr) (r : Raw) (s : State), toRaw i = some r → s.uid?.isSome = true → s.guardHolds r.m = false →
    exec i s = .next (s.putThread s.uid { s.cur with pc := s.cur.pc + word (lenBytes r.m) })) ∧
  (∀ (core : Nat) (rest : List Move) (s t : State) (ws more : List IWord), s.agenda = .turn core :: rest →
    ({ s with agenda := rest } : State).turnStart core = .words t ws →
    (∀ (i : Instr) (r : Raw), decodeWords ws = .ok (i, more) → toRaw i = some r → t.uid?.isSome = true →
      t.guardHolds r.m = false →
      step s = .next (t.putThread t.uid { t.cur with pc := t.cur.pc + word (lenBytes r.m) })) ∧
    ∀ c, decodeWords ws = .error (.illegal c) → step s = .next (t.raise fILLEGAL c.toNat 0#64 3))

/-- R10, R34, R57, R78, R324, R344: the order of an instruction's checks. Where the guard holds, a privileged instruction
or assigned privileged control register of a thread that is not of function 0 faults PRIV, whatever its operands hold;
then a source that is empty faults LINK(1) where no fill is pending and suspends the slot where a load, a link or a
division fills it; then a destination that is pending suspends it, and a shared that has been written faults LINK(2) and
keeps its first value. A fault is precise: while an earlier instruction of the thread is not complete, the slot waits for
it, with nothing else changed.
The model's own reading in it: log entries 72, 77 and 80. -/
def Obligations.IssueChecksInOrder : Prop :=
  (∀ (d a : BitVec 5) (k : BitVec 10) (m : Mods) (s : State), s.uid?.isSome = true → s.guardHolds m = true → s.cur.vf ≠ 0 →
    s.mayFault →
    (∀ i ∈ [Instr.rft m, .tlbinv a m, .kslz a m, .scrb a m], ∃ t, exec i s = .next t ∧ s.faultsEnd t fPRIV 1 0#64) ∧
    (∀ i ∈ [Instr.kwrAssign a m, .keyload a m], ∃ t, exec i s = .next t ∧ s.faultsEnd t fPRIV 2 0#64) ∧
    (0x100 ≤ k.toNat ∧ k.toNat ≤ 0x112 ∨ 0x200 ≤ k.toNat ∧ k.toNat ≤ 0x208 →
      ∀ i ∈ [Instr.krd d k m, .kwr k a m], ∃ t, exec i s = .next t ∧ s.faultsEnd t fPRIV 2 0#64)) ∧
  (∀ op ∈ [Instr.add, .sub, .mul, .mulh, .mulhu, .div, .divu, .rem, .remu, .and, .or, .xor, .andn, .shl, .shr, .sar, .rol,
      .ror, .min, .max, .minu, .maxu, .bfxReg, .bfxuReg],
    ∀ (d a b : BitVec 5) (m : Mods) (s : State), s.uid?.isSome = true → s.guardHolds m = true →
    let i : Instr := op d a b false m
    let faults (c : Nat) : Prop := s.mayFault → ∃ t, exec i s = .next t ∧ s.faultsEnd t fLINK c 0#64 ∧
      ∀ r, (t.threadAt s.uid).reg r = s.cur.reg r
    let waits (r : BitVec 5) : Prop :=
      exec i s = .next (s.putThread s.uid { s.cur with wait := .reg r.toNat, noHelp := false })
    let lands (f : Fill) : Prop := (∀ h, f ≠ .family h) ∧ ∀ id ea, f ≠ .ldfe id ea
    (s.cur.fe a.toNat = .empty → faults 1) ∧
    (s.cur.fe a.toNat = .empty → s.settled s.uid = false →
      exec i s = .next (s.putThread s.uid { s.cur with wait := .settle })) ∧
    (∀ f, s.cur.fe a.toNat = .pending f → lands f → waits a) ∧
    (s.cur.fe a.toNat = .full → s.cur.fe b.toNat = .empty → faults 1) ∧
    (∀ f, s.cur.fe a.toNat = .full → s.cur.fe b.toNat = .pending f → lands f → waits b) ∧
    (s.cur.fe a.toNat = .full → s.cur.fe b.toNat = .full →
      (∀ f, s.cur.fe d.toNat = .pending f → waits d) ∧
      (18 ≤ d.toNat → d.toNat < 22 → s.cur.fe d.toNat = .full → faults 2)))

/-! Landings. -/

/-- R10, R34, R61, R129, R151, R162, R168, R251, R252, R268: what lands at a core: a load's line gives its bytes to its
register, zero- or sign-extended, and fills the data cache, or empties its entry there where the egress gave bytes of it;
a vector line fills its lanes; an atomic, ticket or hash reply gives its value and flags; an acknowledgement only ends its
request; an answer ends its wait, empties the data cache of an acquire, and fills the register of an `ldfe`. What lands
for a thread that has been killed is discarded, and a load of any other fills its line. A fault in a reply is taken where
it lands, once all that its thread issued before is complete.
The model's own reading in it: log entries 19 and 80. -/
def Obligations.RepliesLand : Prop :=
  ∀ (id u : Nat) (r : Req) (s : State), s.reqs.find? id = some r → r.phase = .replied → s.timed r = false → r.thread = some u →
    r.engine = none →
    let value : Word := if r.signed = true then sextN (8 * r.size) (ofBytes r.data) else word (ofBytes r.data)
    let low : Nat := ofBytes ((r.bytes.drop (r.addr % 64)).take r.size)
    let isReg : Prop := r.rd < 10 ∨ 18 ≤ r.rd ∧ r.rd < 22
    (r.err = none → (s.threadAt u).ended = none →
      (r.kind = .load → isReg →
        ∃ t, exec (.replyLands id) s = .next t ∧ t.reqs.find? id = none ∧ t.mem = s.mem ∧
          (t.threadAt u).reg r.rd = ⟨if r.signed = true then sextN (8 * r.size) low else word low, .full⟩) ∧
      (r.kind = .vload →
        ∃ t, exec (.replyLands id) s = .next t ∧ t.reqs.find? id = none ∧ t.mem = s.mem ∧
          (t.slotAt r.slot).vecs.get 0#512 r.rd = laneBytes ((s.slotAt r.slot).vecs.get 0#512 r.rd) r.lanes r.bytes ∧
          (t.slotAt r.slot).vpend.get 0 r.rd = (s.slotAt r.slot).vpend.get 0 r.rd - 1) ∧
      ((∃ op, r.kind = .atom op) ∨ (∃ x f, r.kind = .hacc x f) → isReg →
        ∃ t, exec (.replyLands id) s = .next t ∧ t.reqs.find? id = none ∧ t.mem = s.mem ∧
          (t.threadAt u).reg r.rd = ⟨value, .full⟩ ∧ (t.threadAt u).fstat = (s.threadAt u).fstat ||| r.flags) ∧
      (r.kind = .tkget → isReg →
        ∃ t, exec (.replyLands id) s = .next t ∧ t.reqs.find? id = none ∧ t.mem = s.mem ∧
          (t.threadAt u).reg r.rd = ⟨value, .full⟩ ∧ (t.threadAt u).fstat = (s.threadAt u).fstat) ∧
      (r.kind = .store ∨ r.kind = .tkadv ∨ r.kind = .lkrel →
        ∃ t, exec (.storeAcknowledged id) s = .next t ∧ t.reqs.find? id = none ∧ t.mem = s.mem ∧
          (t.threadAt u).regs = (s.threadAt u).regs) ∧
      (r.kind.isReply = true ∨ r.kind = .stfe →
        ∃ t, exec (.servedAnswerLands id) s = .next t ∧ t.reqs.find? id = none ∧ (s.recordPlace u = none → t.mem = s.mem) ∧
          (t.threadAt u).regs = (s.threadAt u).regs ∧
          (r.kind.isReply = true → r.acq = true → 2 ≤ r.scope →
            (∀ q, (s.threadAt u).slot? = some q → (t.coreAt (coreOfSlot q)).dcache.lines = []) ∧
            ((s.threadAt u).slot? = none → (t.threadAt u).emptyCache = true))) ∧
      (r.kind = .ldfe → r.rd < 10 → ((s.threadAt u).reg r.rd).st = .pending (.ldfe id r.va) →
        ∃ t, exec (.servedAnswerLands id) s = .next t ∧ t.reqs.find? id = none ∧ (s.recordPlace u = none → t.mem = s.mem) ∧
          (t.threadAt u).reg r.rd = ⟨word (ofBytes r.data), .full⟩)) ∧
    (r.err = none → (s.threadAt u).ended ≠ some .killed → r.kind = .load → r.acq = false →
      ∃ t, exec (.replyLands id) s = .next t ∧ (t.coreAt r.core).dcache = (if r.install = true ∧ r.stale = false then
        (s.coreAt r.core).dcache.fill dWays (lineOf r.addr) (BitVec.ofNat 512 (ofBytes r.bytes))
        else if r.laid = [] then (s.coreAt r.core).dcache else (s.coreAt r.core).dcache.drop dWays (lineOf r.addr))) ∧
    ((s.threadAt u).ended = some .killed → ∀ i ∈ [if r.kind.fills then Instr.replyLands id else if r.kind.acked then .storeAcknowledged id
        else .servedAnswerLands id], r.kind.fills = true ∨ r.kind.acked = true ∨ r.kind.answered = true →
      ∃ t, exec i s = .next t ∧ t.reqs.find? id = none ∧ t.mem = s.mem ∧ t.slots = s.slots ∧
        ∀ v, (t.threadAt v).regs = (s.threadAt v).regs) ∧
    (∀ c k, r.err = some (c, k) → (s.threadAt u).ended = none → r.kind.fills = true → faultParks c k r.kind.acc.type = true →
      let first : Prop := s.dividing u = false ∧
        (∀ e ∈ s.reqs, e.1 ≠ id → e.2.thread = some u → e.2.issued e.1 < r.issued id → e.2.phase = .armed) ∧
        ∀ c ∈ s.cores, ∀ x ∈ c.2.loq, x.thread = u → x.queued < r.issued id → x.sent.isSome = true
      (¬ first → exec (.replyLands id) s = .next s) ∧
      (first → ∃ t, exec (.replyLands id) s = .next t ∧
        t.reqs.find? id = some { r with phase := .faulted s.nextId, resv := false } ∧
        (t.threadAt u).wait = .answer s.nextId ∧ (t.threadAt u).ended = none ∧
        ∃ x, t.records.find? s.nextId = some x ∧ x.kind = 1 ∧ x.holder = .thread u ∧ x.awaits = true))

/-- R167, R253, R287, R288, R297, R298, R303, R320: an "armed" reply frees its reservation and leaves its request armed; a
reply of a level-2 launch may land once its time has come; a latest-only load whose number goes backwards is asked for
again, and any other is written with its number and noted in the read table; a latest-only acknowledgement takes its store
out of the core's queue, notes a superseded marker and sends the next held store; a wait that would close a cycle is
withdrawn at its home, and its thread faults WAITCYCLE when the acknowledgement lands and all that it issued before is
complete.
The model's own reading in it: log entries 45 and 80. -/
def Obligations.QueuedRepliesLand : Prop :=
  ∀ (id u : Nat) (r : Req) (s : State), s.reqs.find? id = some r → r.thread = some u →
    (r.phase = .arming →
      ∃ t, exec (.armedReplyLands id) s = .next t ∧ t.reqs.find? id = some { r with phase := .armed, resv := false } ∧
        t.mem = s.mem) ∧
    (r.phase = .replied →
      ∃ t, exec (.level2ReplyRelease id) s = .next t ∧ t.reqs.find? id = some { r with freed := true } ∧
        { t with reqs := s.reqs } = s) ∧
    (r.phase = .replied → s.timed r = false → r.kind = .ldlo → r.err = none → (s.threadAt u).ended = none →
      (∀ n, (s.slotAt r.slot).readNum? r.addr = some n → r.num ≠ n % 2 ^ 32 → (r.num + 2 ^ 32 - n % 2 ^ 32) % 2 ^ 32 ≥ 2 ^ 31 →
        r.num < 2 ^ 32 →
        0 < id → id < s.nextId →
        ∃ t q, exec (.ldloReplyLands id) s = .next t ∧ t.reqs.find? id = none ∧ t.reqs.find? s.nextId = some q ∧
          (q.phase = .home ∨ q.phase = .ingress) ∧ q.kind = .ldlo ∧ q.thread = some u ∧ q.addr = r.addr ∧ q.rd = r.rd ∧ q.rc = r.rc ∧
          q.issued s.nextId = r.issued id ∧ t.mem = s.mem ∧ t.slots = s.slots ∧
          (∀ k, ((s.threadAt u).reg k).st = .pending (.load id) → ((t.threadAt u).reg k).st = .pending (.load s.nextId)) ∧
          ∀ k, (∀ f, ((s.threadAt u).reg k).st ≠ .pending f) → (t.threadAt u).reg k = (s.threadAt u).reg k) ∧
      ((s.slotAt r.slot).readNum? r.addr = none → (s.slotAt r.slot).readTab.length < 16 →
        r.rd < 10 → r.rc < 10 → r.rd ≠ r.rc →
        ∃ t, exec (.ldloReplyLands id) s = .next t ∧ t.reqs.find? id = none ∧ t.mem = s.mem ∧
          (t.threadAt u).reg r.rd = ⟨if r.signed = true then sextN (8 * r.size) (ofBytes r.data) else word (ofBytes r.data), .full⟩ ∧
          (t.threadAt u).reg r.rc = ⟨word r.num, .full⟩ ∧ (t.slotAt r.slot).readNum? r.addr = some r.num)) ∧
    (∀ md, r.phase = .replied → s.timed r = false → r.kind = .stlo md → r.err = none → (∀ e ∈ s.reqs, e.2.kind ≠ .ldlo) →
      id < s.nextId →
      let rest := (s.coreAt r.core).loq.filter (fun x => x.sent != some id)
      ∃ t, exec (.latestOnlyAckLands id) s = .next t ∧ t.reqs.find? id = none ∧ t.mem = s.mem ∧
        (t.threadAt u).mdsup = ((s.threadAt u).mdsup || (md && r.outcome != 0)) ∧
        (rest.any (fun x => x.cell == r.addr && x.sent.isSome) = true → (t.coreAt r.core).loq = rest) ∧
        (rest.any (fun x => x.cell == r.addr && x.sent.isSome) = false →
          ∀ x, rest.find? (fun x => x.cell == r.addr && x.sent.isNone) = some x →
            ∃ q, t.reqs.find? s.nextId = some q ∧ q.kind = .stlo x.md ∧ q.addr = r.addr ∧ q.num = x.num ∧ q.opB = x.val ∧
              q.thread = some x.thread)) ∧
    (∀ c, r.phase = .armed → (s.threadAt u).wait = .withdraw id c →
      ∃ t, exec (.withdrawalAtHome id) s = .next t ∧ t.reqs.find? id = some { r with phase := .withdrawn } ∧
        { t with reqs := s.reqs } = s) ∧
    (∀ c q, r.phase = .withdrawn → (s.threadAt u).wait = .withdraw q c → (s.threadAt u).ended = none →
      let first := s.earlierDone u (if r.kind = .lkacq then r.issued id else s.nextId) id
      (first = true → ∃ t, exec (.withdrawalAckLands id) s = .next t ∧ t.reqs.find? id = none ∧ t.mem = s.mem ∧
        t.threadEnds u (.fault fWAITCYCLE c)) ∧
      (first = false → exec (.withdrawalAckLands id) s = .next s))

/-! Homes. -/

/-- R149, R152, R182, R251, R268, R269, R274, R285, R292, R293: what the home does with a load, a store, an atomic, a hash
accumulation and the latest-only accesses, each in one step: the reply's data, the bytes written, the waits answered.
The model's own choice in it: the clause on `hacc`, whose lanes are applied in one step with their order free (log entry 51),
and the one step at the home in which every clause has an access applied whole (74). -/
def Obligations.HomesServeMemory : Prop :=
  ∀ (id : Nat) (r : Req) (s : State), s.AtHome id r →
    let served (i : Instr) (P : State → Prop) : Prop := ∃ t, exec i s = .next t ∧ P t
    (r.kind = .load ∨ r.kind = .vload →
      served (.loadAtHome id) (fun t => t.mem = s.mem ∧
        t.repliedWith id ((s.homeLine r.vf r.va.toNat r.key r.addr).getD []) ∧
        (s.inArena r.vf r.va.toNat = false → r.key = none → t.repliedWith id (s.peek (lineOf r.addr) 64)))) ∧
    (r.kind = .store → r.data.length ≤ max r.size 1 →
      served (.storeAtHome id) (fun t => t.repliedWith id [] ∧ s.homeWrites t r.key r.addr r.data ∧
        (r.key = none → s.keepsBytes t r.addr r.data.length) ∧
        (∀ j q, j ≠ id → s.reqs.find? j = some q → q.isArmed = true → q.addr ∈ dwordsOf r.addr r.data.length →
          q.served (t.dword q.key q.addr) = true → ∃ x, t.reqs.find? j = some x ∧ x.phase = .replied) ∧
        ∀ b ∈ t.barriers, b.addr + 8 ≤ r.addr ∨ r.addr + r.data.length ≤ b.addr)) ∧
    (∀ op, r.kind = .atom op → r.size = atomBytes op → (∀ g ∈ (s.clusterAt (clusterOfCore r.core)).groups, id ∉ g.reqs) →
      let old := ofBytes ((s.readBytes r.key r.addr r.size).getD [])
      let w := 8 * r.size
      let b := r.opB.toNat % 2 ^ w
      let c := r.opC.toNat % 2 ^ w
      let writes (new : Nat) (fl : Flags) : Prop :=
        served (.atomicAtHome id) (fun t => s.homeWrites t r.key r.addr (toBytes r.size new) ∧
          ∃ q, t.reqs.find? id = some q ∧ q.phase = .replied ∧ q.data = toBytes r.size old ∧ q.flags = fl ∧ q.err = none)
      (op < 0x20 →
        (op % 16 = 0 → writes ((old + b) % 2 ^ w) 0#5) ∧ (op % 16 = 1 → writes (old &&& b) 0#5) ∧
        (op % 16 = 2 → writes (old ||| b) 0#5) ∧ (op % 16 = 3 → writes (old ^^^ b) 0#5) ∧
        (op % 16 = 4 → writes (if signedN w b < signedN w old then b else old) 0#5) ∧
        (op % 16 = 5 → writes (if signedN w old < signedN w b then b else old) 0#5) ∧
        (op % 16 = 6 → writes (min old b) 0#5) ∧ (op % 16 = 7 → writes (max old b) 0#5) ∧
        (op % 16 = 8 → writes b 0#5) ∧ (op % 16 = 9 → writes (if old = b then c else old) 0#5)) ∧
      (0x20 ≤ op →
        let f := if op < 0x28 then f32 else f64
        let e : FEnv := { mode := r.mode, daz := false, ftz := false, draw := if r.mode = 5 then drawOf r.seed.toNat 0 else 0 }
        (op % 8 = 0 → writes (f.add e (f.decode old) (f.decode b)).1 (f.add e (f.decode old) (f.decode b)).2) ∧
        (op % 8 = 1 → writes (f.minMax false false old b).1 (f.minMax false false old b).2) ∧
        (op % 8 = 2 → writes (f.minMax true false old b).1 (f.minMax true false old b).2))) ∧
    (∀ x f, r.kind = .hacc x f →
      let hd := (s.wordOf r).toNat
      let lanes := (List.range 16).map (fun i => (i, lane 32 r.keys i, lane 32 r.vals i))
      let cap := 2 ^ (hd % 32)
      let bad : Prop := hd % 32 < 4 ∨ 24 < hd % 32 ∨ hd / 2 ^ 8 % 256 < 1 ∨ 64 < hd / 2 ^ 8 % 256 ∨
        hd / 2 ^ 16 % 2 ^ 16 ≠ 0 ∨ hd / 2 ^ 5 % 8 ≠ 0
      (bad → served (.haccAtHome id) (fun t => t.mem = s.mem ∧ t.repliedWith id (toBytes 8 (2 ^ 16 + liveFrom 0 lanes)))) ∧
      (¬ bad → x = false → ∀ s1 un fl, (s.learn r).haccLanes r f cap (hd / 2 ^ 8 % 256) (hd % 32) lanes lanes 0#5 = .ok (s1, un, fl) →
        served (.haccAtHome id) (fun t => t.mem = s1.mem ∧ ∃ q, t.reqs.find? id = some q ∧ q.phase = .replied ∧
          q.data = toBytes 8 un ∧ q.flags = fl ∧ q.err = none))) ∧
    (r.kind = .ldlo → served (.ldloAtHome id) (fun t => t.mem = s.mem ∧ ∃ q, t.reqs.find? id = some q ∧ q.phase = .replied ∧
        q.data = toBytes 8 (s.wordOf r).toNat ∧ q.num = s.nums.get 0 r.addr)) ∧
    (∀ md, r.kind = .stlo md → r.size = 8 →
      let d := (r.num + 2 ^ 32 - s.nums.get 0 r.addr % 2 ^ 32) % 2 ^ 32
      let ends (t : State) (k : Nat) : Prop := ∃ q, t.reqs.find? id = some q ∧ q.phase = .replied ∧ q.outcome = k
      (0 < d → d < 2 ^ 31 → served (.stloAtHome id) (fun t => ends t 0 ∧ s.homeWrites t r.key r.addr (toBytes 8 r.opB.toNat) ∧
        t.nums.get 0 r.addr = r.num % 2 ^ 32 ∧ ∀ a, a ≠ r.addr → t.nums.get 0 a = s.nums.get 0 a)) ∧
      (d = 0 ∨ 2 ^ 31 < d → served (.stloAtHome id) (fun t => ends t 1 ∧ t.mem = s.mem ∧ t.nums = s.nums)) ∧
      (d = 2 ^ 31 → served (.stloAtHome id) (fun t => ends t 2 ∧ t.mem = s.mem ∧ t.nums = s.nums ∧
        ∃ x, t.records.find? s.nextId = some x ∧ x.kind = 6 ∧ x.queue = r.vf)))

/-- R165, R166, R251, R274, R277, R279, R280, R309: what the home does with a full/empty access, a ticket, a wait, a lock and
a barrier, each in one step with its word: at once served, or armed with the "armed" reply on its way. -/
def Obligations.HomesServeWaits : Prop :=
  ∀ (id : Nat) (r : Req) (s : State), s.AtHome id r → r.size = 8 →
    let w := s.wordOf r
    let full (v : Word) : Word := word (2 ^ 63 + v.toNat % 2 ^ 63)
    let does (i : Instr) (P : State → Prop) : Prop := ∃ t, exec i s = .next t ∧ P t
    -- the word is written, and the request's reply leaves
    let ends (i : Instr) (v : Word) (data : List Byte) : Prop :=
      does i (fun t => s.homeWrites t r.key r.addr (toBytes 8 v.toNat) ∧ t.repliedWith id data)
    let passes (i : Instr) : Prop := does i (fun t => t.mem = s.mem ∧ t.repliedWith id [])
    let arms (i : Instr) : Prop := does i (fun t => t.mem = s.mem ∧ t.armedWith id w)
    (r.kind = .ldfe →
      (w.getLsbD 63 = true → s.oldestArmed r.addr (· == .stfe) = none →
        ends (.ldfeAtHome id) 0#64 (toBytes 8 (w.toNat % 2 ^ 63))) ∧
      (∀ j q, w.getLsbD 63 = true → s.oldestArmed r.addr (· == .stfe) = some (j, q) → j ≠ id →
        ends (.ldfeAtHome id) (full q.opB) (toBytes 8 (w.toNat % 2 ^ 63))) ∧
      (w.getLsbD 63 = false → arms (.ldfeAtHome id))) ∧
    (r.kind = .stfe →
      (∀ j q, s.oldestArmed r.addr (· == .ldfe) = some (j, q) → j ≠ id →
        does (.stfeAtHome id) (fun t => s.homeWrites t r.key r.addr (toBytes 8 0) ∧ t.repliedWith id [] ∧
          ∀ x, s.reqs.find? j = some x →
            ∃ y, t.reqs.find? j = some y ∧ y.phase = .replied ∧ y.data = toBytes 8 (r.opB.toNat % 2 ^ 63))) ∧
      (s.oldestArmed r.addr (· == .ldfe) = none →
        (w.getLsbD 63 = true → arms (.stfeAtHome id)) ∧
        (w.getLsbD 63 = false → ends (.stfeAtHome id) (full r.opB) []))) ∧
    (r.kind = .tkget → ends (.tkgetAtHome id)
      (word ((w.toNat / 2 ^ 32 + 1) % 2 ^ 32 * 2 ^ 32 + w.toNat % 2 ^ 32)) (toBytes 8 (w.toNat / 2 ^ 32))) ∧
    (r.kind = .tkadv → ends (.tkadvAtHome id)
      (word (w.toNat / 2 ^ 32 * 2 ^ 32 + (w.toNat % 2 ^ 32 + 1) % 2 ^ 32)) []) ∧
    (r.kind = .tkwait →
      (w.toNat % 2 ^ 32 = r.opB.toNat % 2 ^ 32 → passes (.tkwaitAtHome id)) ∧
      (w.toNat % 2 ^ 32 ≠ r.opB.toNat % 2 ^ 32 → arms (.tkwaitAtHome id))) ∧
    (r.kind = .wait true →
      (w = r.opB → passes (.waitAtHome id)) ∧ (w ≠ r.opB → arms (.waitAtHome id))) ∧
    (r.kind = .wait false →
      (w ≠ r.opB → passes (.waitAtHome id)) ∧ (w = r.opB → arms (.waitAtHome id))) ∧
    (∀ q, r.kind = .waitSeq q true →
      (r.opB.toNat ≤ w.toNat → passes (.waitAtHome id)) ∧ (w.toNat < r.opB.toNat → arms (.waitAtHome id))) ∧
    (∀ q, r.kind = .waitSeq q false →
      (w = r.opB → passes (.waitAtHome id)) ∧ (w ≠ r.opB → arms (.waitAtHome id))) ∧
    (r.kind = .lkacq →
      (w = 0#64 → ends (.lkacqAtHome id) r.opB []) ∧ (w ≠ 0#64 → arms (.lkacqAtHome id))) ∧
    (r.kind = .lkrel →
      (s.oldestArmed r.addr (· == .lkacq) = none → ends (.lkrelAtHome id) 0#64 []) ∧
      (∀ j q, s.oldestArmed r.addr (· == .lkacq) = some (j, q) → j ≠ id → ends (.lkrelAtHome id) q.opB [])) ∧
    (let b := s.barrierAt r.addr
     let tag := r.opB
     let refuses (i : Instr) (k : Nat) : Prop := does i (fun t => t.barriers = s.barriers ∧
       ∃ q, t.reqs.find? id = some q ∧ q.phase = .replied ∧ q.err = some (fBARRIER, k))
     (r.kind = .barJoin →
       (b.lead? tag ≠ none → passes (.barJoinAtHome id)) ∧
       (b.lead? tag = none → b.leads.length < 2 ^ 32 - 1 → does (.barJoinAtHome id) (fun t => t.mem = s.mem ∧ t.repliedWith id [] ∧
         t.barrierAt r.addr = { b with leads := b.leads ++ [(tag, 0)] })) ∧
       (b.lead? tag = none → 2 ^ 32 - 1 ≤ b.leads.length → refuses (.barJoinAtHome id) 3)) ∧
     (r.kind = .barArrive →
       (b.lead? tag = none → refuses (.barArriveAtHome id) 1) ∧
       (b.lead? tag = some 3 → arms (.barArriveAtHome id)) ∧
       (b.lead? tag = some 0 → b.arrived + 1 ≠ b.leads.length →
         does (.barArriveAtHome id) (fun t => t.mem = s.mem ∧ t.repliedWith id [] ∧ t.barrierAt r.addr = b.count tag)) ∧
       (b.lead? tag = some 1 → b.arrived ≠ b.leads.length → does (.barArriveAtHome id) (fun t => t.mem = s.mem ∧
         t.repliedWith id [] ∧ t.barrierAt r.addr = { b with
           early1 := b.early1 + 1, leads := b.leads.map (fun e => if e.1 = tag then (e.1, 2) else e) })) ∧
       (b.lead? tag = some 2 → b.arrived ≠ b.leads.length → does (.barArriveAtHome id) (fun t => t.mem = s.mem ∧
         t.repliedWith id [] ∧ t.barrierAt r.addr = { b with
           early2 := b.early2 + 1, leads := b.leads.map (fun e => if e.1 = tag then (e.1, 3) else e) })) ∧
       (b.lead? tag = some 0 → b.arrived + 1 = b.leads.length → b.early1 = 0 → s.armedArrivals r.addr = [] →
         does (.barArriveAtHome id) (fun t => s.homeWrites t r.key r.addr (toBytes 8 (w + 1#64).toNat) ∧ t.repliedWith id [] ∧
           t.barrierAt r.addr = (b.count tag).next))) ∧
     (r.kind = .barDrop →
       (b.lead? tag = none → refuses (.barDropAtHome id) 2) ∧
       (∀ n, b.lead? tag = some n → n < 4 →
         let left : Barrier := { b with
           leads := b.leads.filter (fun e => e.1 != tag)
           arrived := if 1 ≤ n then b.arrived - 1 else b.arrived
           early1 := if 2 ≤ n then b.early1 - 1 else b.early1
           early2 := if n = 3 then b.early2 - 1 else b.early2 }
         left.leads = [] ∨ left.arrived ≠ left.leads.length →
         does (.barDropAtHome id) (fun t => t.mem = s.mem ∧ t.repliedWith id [] ∧ t.barrierAt r.addr = left))))

/-! The fabric, translation and the cores' own events. -/

/-- R256, R262, R263, R271, R294, R295: the egress answers a load whose every byte it holds, newest first, and sends an
acquire at package scope or wider on without any, each once every earlier access of its core to that home has been served
or is held there; the ingress passes a request that no unapplied write precedes; a combiner's group leaves as one, its
members counted among their die's writes as it does; a predictor entry unused for 1,024 cycles is dropped; a latest-only
store that shares a buffer with a newer one to its cell is discarded with a superseded acknowledgement and leaves its
place in the clocks to one that stays, which its thread's releases wait for, and a marker never is.
The model's own reading in it: log entries 20, 21 and 22. -/
def Obligations.FabricEvents : Prop :=
  ∀ (id : Nat) (r : Req) (s : State), s.reqs.find? id = some r →
    let only (t : State) (x : Req) : Prop := t.reqs.find? id = some x ∧ (∀ j, j ≠ id → t.reqs.find? j = s.reqs.find? j) ∧
      { t with reqs := s.reqs } = s
    (∀ b : Nat → Byte, r.phase = .egress → r.kind = .load → s.egressTurn id r = true → (r.acq = false ∨ r.scope < 4) →
      (∀ i, i < r.size → ∃ w,
        s.heldAt r.die (r.addr + i) (fun j q => q.core != r.core || q.issued j < r.issued id) = some (w, b i) ∧ r.bound ≤ w) →
      ∃ t q, exec (.egressLoad id) s = .next t ∧ only t q ∧ q.phase = .replied ∧ q.install = false ∧
        ∀ i, i < r.size → q.laid.find? (r.addr % 64 + i) = some (b i)) ∧
    (r.phase = .egress → r.kind = .load → s.egressTurn id r = false → exec (.egressLoad id) s = .next s) ∧
    (r.phase = .egress → r.kind = .load → s.egressTurn id r = true → 0 < r.size → r.acq = true → 4 ≤ r.scope →
      ∃ t q, exec (.egressLoad id) s = .next t ∧ only t q ∧ q.phase = .ingress ∧ q.laid = []) ∧
    (r.phase = .ingress → s.ingressClear id r = true →
      ∃ t, exec (.ingressRelease id) s = .next t ∧ only t { r with phase := .home }) ∧
    (∀ g, r.phase = .egress → (s.clusterAt (clusterOfCore r.core)).groups.find? (fun g => g.reqs.contains id) = some g →
      ∃ t, exec (.combinerGroupClose id) s = .next t ∧ { t with reqs := s.reqs, dies := s.dies } = s ∧
        ∀ j ∈ g.reqs, ∀ x, s.reqs.find? j = some x →
          (homeDie x.addr = x.die → t.reqs.find? j = some { x with phase := .home }) ∧
          (homeDie x.addr ≠ x.die → ∃ n, t.reqs.find? j = some { x with phase := .ingress, place := n })) ∧
    (∀ cl line : Nat, ∃ t, exec (.predictorEntryDrop cl line) s = .next t ∧
      (∀ e ∈ (t.clusterAt cl).predictor, e ∈ (s.clusterAt cl).predictor ∧
        (e.1 = line → ∀ i, i < 8 → (s.coreAt (8 * cl + i)).cycle < e.2 + 1024)) ∧
      (∀ e ∈ (s.clusterAt cl).predictor, (e.1 = line → ∀ i, i < 8 → (s.coreAt (8 * cl + i)).cycle < e.2 + 1024) →
        e ∈ (t.clusterAt cl).predictor) ∧
      { t with clusters := s.clusters } = s) ∧
    (∀ j x, r.kind = .stlo false → r.unserved = true → s.reqs.find? j = some x → j ≠ id →
      (∃ md, x.kind = .stlo md) → x.unserved = true → x.addr = r.addr →
      2 ^ 31 < (r.num + 2 ^ 32 - x.num % 2 ^ 32) % 2 ^ 32 → (∀ e ∈ s.reqs, s.reqs.find? e.1 = some e.2) →
      ∃ t, exec (.inTransitDiscard id) s = .next t ∧ t.reqs.find? id = some { r with phase := .replied, outcome := 1 } ∧
        { t with reqs := s.reqs, threads := s.threads } = s ∧
        (∀ v, { t.threadAt v with seen := (s.threadAt v).seen } = s.threadAt v) ∧
        (∀ v, r.thread = some v → ∃ k z, k ≠ id ∧ t.reqs.find? k = some z ∧ (∃ md, z.kind = .stlo md) ∧ z.addr = r.addr ∧
          (z.thread = some v ∨ k ∈ (t.threadAt v).seen)) ∧
        (∀ k y, k ≠ id → s.reqs.find? k = some y →
          ∃ z, t.reqs.find? k = some z ∧ { z with absorbed := y.absorbed, clock := y.clock } = y) ∧
        (r.crosses = true → ∃ k z, k ≠ id ∧ t.reqs.find? k = some z ∧ (∃ md, z.kind = .stlo md) ∧ z.addr = r.addr ∧
          (r.die, r.place) ∈ z.absorbed)) ∧
    (r.kind = .stlo true → exec (.inTransitDiscard id) s = .next s)

/-- R10, R154, R339 to R342: a walk that has a walker reads the table that CTXROOT names and meets PAGE where its first
entry is not valid; where its entries point on and the last one maps a page, it finds that page's translation, and where
an entry of the fourth or fifth level read maps a larger one, that; its result enters the TLBs of the core that asked,
unless a `tlbinv` has matched it, or reaches the access as its fault once its thread's earlier instructions are complete;
a code fetch fills the core's instruction cache once no store that its core has read the value of is short of its home.
The model's own reading in it: log entries 23 and 80. -/
def Obligations.WalksAndFetches : Prop :=
  (∀ (id : Nat) (w : Walk) (s : State), s.walks.find? id = some w → w.result = none →
    (s.walkerFree id w = false → exec (.translationWalk id) s = .next s) ∧
    (s.walkerFree id w = true → ∃ t, exec (.translationWalk id) s = .next t ∧ ∃ s1 f,
      s.walk w.vf (w.page * 4096) (w.joined.any (fun j => j.2.1 == .store)) (w.joined.any (fun j => j.2.1 == .both)) = (s1, f) ∧
      t.walks.find? id = some { w with result := some f } ∧ t.mem = s1.mem ∧ t.threads = s.threads) ∧
    (let at' := (s.funcAt w.vf).ctxroot.toNat / 2 ^ 12 % 2 ^ 40 * 4096 + 8 * (w.page * 4096 / 2 ^ 48 % 2 ^ 9)
     let e := (s.dwordAt at').toNat
     s.walkerFree id w = true → s.poisoned at' 8 = false → e % 2 = 0 →
      ∃ t, exec (.translationWalk id) s = .next t ∧ t.mem = s.mem ∧
        t.walks.find? id = some { w with result := some (.fault fPAGE (if e / 2 ^ 9 % 2 = 1 then 2 else 1) 4) }) ∧
    (∀ (tb : Nat → Nat) (n : Nat), s.walkerFree id w = true → n ≤ 2 → tb 4 = (s.funcAt w.vf).ctxroot.toNat / 2 ^ 12 % 2 ^ 40 * 4096 →
      let va := w.page * 4096
      let at' (lv : Nat) : Nat := tb lv + 8 * (va / 2 ^ (12 + 9 * lv) % 2 ^ 9)
      let entry (lv : Nat) : Nat := (s.dwordAt (at' lv)).toNat
      let next (lv : Nat) : Nat := entry lv / 2 ^ 12 % 2 ^ 40 * 4096
      (∀ lv, n ≤ lv → lv ≤ 4 → s.poisoned (at' lv) 8 = false ∧ (entry lv).testBit 0 = true ∧ entry lv / 2 ^ 59 = 0 ∧
        entry lv / 2 ^ 10 % 4 = 0) →
      (∀ lv, n ≤ lv → lv < 4 → (entry (lv + 1)).testBit 1 = false ∧ isHbm (next (lv + 1)) = true ∧ tb lv = next (lv + 1)) →
      let e := entry n
      let span := e.testBit 7
      let size := if n = 0 then (if span = true then 2 ^ 16 else 2 ^ 12) else if n = 1 then (if span = true then 2 ^ 25 else 2 ^ 21) else 2 ^ 30
      e.testBit 1 = true → (n = 2 → span = false) → next n % size = 0 → s.pagePopulated (next n) size = true → isHost (next n) = false →
      (e.testBit 6 = false → (s.funcAt w.vf).prot = false) →
      (e.testBit 6 = true → s.owns w.vf (resKey (e / 2 ^ 52 % 2 ^ 7)) = true) → (∀ j ∈ w.joined, j.2.1 = .load ∨ j.2.1 = .store) →
      let sets : Prop := e.testBit 8 = false ∧ e.testBit 3 = true ∧ ∃ j ∈ w.joined, j.2.1 = .store
      ∃ t wr, exec (.translationWalk id) s = .next t ∧ t.walks.find? id = some { w with result := some (.leaf
          ⟨w.vf, va - va % size, size, next n, e.testBit 2, wr, e.testBit 4, e.testBit 5, e.testBit 6, e / 2 ^ 52 % 2 ^ 7⟩ none) } ∧
        (wr = true ↔ e.testBit 3 = true ∧ (e.testBit 8 = true ∨ ∃ j ∈ w.joined, j.2.1 = .store)) ∧
        (¬ sets → t.mem = s.mem) ∧ (sets → s.memWf → (t.dwordAt (at' n)).toNat = e + 2 ^ 8))) ∧
  (∀ (id u : Nat) (w : Walk) (acc : Acc) (va : Word) (f : Found) (s : State), s.walks.find? id = some w →
    w.result = some f → w.joined = [(u, acc, va)] →
    (∀ x q, f.forAcc acc = .ok x → w.drop = false → (s.threadAt u).slot? = some q →
      ∃ t, exec (.walkResultLands id) s = .next t ∧ t.walks.find? id = none ∧ t.mem = s.mem ∧ t.threads = s.threads ∧
        (∃ k, (t.coreAt (coreOfSlot q)).utlb.entries.find? k = some x) ∧
        ∃ k, (t.clusterAt (clusterOfCore (coreOfSlot q))).tlb.entries.find? k = some x) ∧
    (∀ x, f.forAcc acc = .ok x → w.drop = true →
      ∃ t, exec (.walkResultLands id) s = .next t ∧ t.walks.find? id = none ∧ { t with walks := s.walks, cores := s.cores } = s ∧
        ∀ c, (t.coreAt c).utlb = (s.coreAt c).utlb) ∧
    (∀ c k lv, f.forAcc acc = .error (c, k, lv) → (s.threadAt u).wait = .walk id → (s.threadAt u).ended = none →
      s.reissues u = none →
      ∃ t, exec (.walkResultLands id) s = .next t ∧ t.walks.find? id = none ∧ t.mem = s.mem ∧
        (s.settled u = false → (t.threadAt u).wait = .settle ∧ (t.threadAt u).pc = (s.threadAt u).pc ∧ t.records = s.records) ∧
        (s.settled u = true → faultParks c k acc.type = true → (t.threadAt u).wait = .answer s.nextId ∧
          (t.threadAt u).ended = none ∧ (t.threadAt u).pc = (s.threadAt u).pc) ∧
        (s.settled u = true → faultParks c k acc.type = false → t.threadEnds u (.fault c k)))) ∧
  (∀ (id : Nat) (x : Fetch) (s : State), s.fetches.find? id = some x → s.gathered x.core x.addr 64 = false →
    exec (.codeFetchLands id) s = .next s) ∧
  (∀ (id : Nat) (x : Fetch) (s : State), s.fetches.find? id = some x → s.gathered x.core x.addr 64 = true →
    s.keyReady x.key = true → s.poisoned x.addr 64 = false →
    ∃ t, exec (.codeFetchLands id) s = .next t ∧ t.fetches.find? id = none ∧ t.mem = s.mem ∧ t.threads = s.threads ∧
      ∃ w, (t.coreAt x.core).icache.lines.find? w =
        some ⟨x.addr, BitVec.ofNat 512 (ofBytes ((s.readLine x.key x.addr).getD []))⟩)

/-- R93, R94, R314, R355, R356, R361, R362: an idle turn only lets the core's cycle pass where there is nothing to spill;
at a rotation boundary the slots of removed queues leave the rotation, and the one queue with demand takes the free slots
of queues without; PREEMPT's actions remove queues and restore them, save a context image, once the resident frames of its
slots are in their places, and load one, each with its result; an image that an uncorrectable error has hit gives
MACHINE(3); and an image's coding gives its contents back.
The model's own reading in it: log entries 58, 59 and 81. -/
def Obligations.RotationAndPreemption : Prop :=
  (∀ (core : Nat) (s : State), s.nextSlot core = none → (s.coreAt core).spillDue = [] →
    (∀ i, i < 16 → (s.slotAt (16 * core + i)).frames.length ≤ 4) →
    ∃ t, exec (.idleTurn core) s = .next t ∧ (t.coreAt core).cycle = (s.coreAt core).cycle + 1 ∧
      (t.coreAt core).last = (s.coreAt core).last ∧ { t with cores := s.cores } = s) ∧
  (∀ (core vf : Nat) (s : State), core < Config.coreCount → (s.resAt (resCore core)).owner = some vf →
    (s.funcAt vf).spills = [] → (s.funcAt vf).loaded = [] → (s.coreAt core).lent = [] →
    ∃ t, exec (.rotationBoundary core) s = .next t ∧ t.threads = s.threads ∧ t.mem = s.mem ∧
      (∀ i, i < 16 → (t.slotAt (16 * core + i)).removed = (s.funcAt vf).removed.contains (s.slotAt (16 * core + i)).qowner) ∧
      (∀ q, q < 16 → s.demandList core = [vf * 16 + q] → s.bound2 (clusterOfCore core) = false → (s.dutyAt 1).cur = false →
        (s.dutyAt 1).draining = false → (s.queueAt vf q).weight ≠ 0 →
        ∀ i, i < 16 → (s.slotAt (16 * core + i)).occ = none → (s.slotAt (16 * core + i)).reserved = none →
          (s.funcAt vf).removed.contains (s.slotAt (16 * core + i)).qowner = false →
          (t.slotAt (16 * core + i)).qowner = q)) ∧
  (∀ (p : Preempt) (s : State), s.pkg.preempt = some p →
    (p.action = 1 → ∃ t, exec .preemptRemove s = .next t ∧ t.threads = s.threads ∧ t.mem = s.mem ∧
      (∀ q ∈ p.queues, q ∈ (t.funcAt p.vf).removed) ∧
      ((∀ q ∈ s.queueSlots p.vf p.queues, (s.slotAt q).removed = true) →
        t.pkg.preempt = none ∧ t.pkg.pstat.toNat / 2 ^ 61 = 1) ∧
      ((∃ q ∈ s.queueSlots p.vf p.queues, (s.slotAt q).removed = false) → t.pkg = s.pkg)) ∧
    (p.action = 2 → ∃ t, exec .preemptRestore s = .next t ∧ t.mem = s.mem ∧
      (∀ q ∈ p.queues, q ∉ (t.funcAt p.vf).removed) ∧
      ((∀ q ∈ s.queueSlots p.vf p.queues, (s.slotAt q).removed = false) →
        t.pkg.preempt = none ∧ t.pkg.pstat.toNat / 2 ^ 61 = 1)) ∧
    (let s' := s.markRemoved p.vf (List.range 16)
     p.action = 3 → s.pkg.scrub = none → s'.saveReady p.vf = true →
      (∀ u, s'.spillContext p.vf = .ok u →
        let at' := (u.funcAt p.vf).ctximg.toNat
        let image := u.contextImage p.vf
        u.poisoned at' image.length = false → inTier2 at' = false → (∀ e ∈ u.reqs, e.2.engine ≠ some agentName) →
        ∃ t, exec .preemptSaveImage s = .next t ∧ u.homeWrites t none at' image ∧
          t.pkg.preempt = none ∧ t.pkg.pstat.toNat / 2 ^ 61 = 1 ∧ t.pkg.pstat.toNat % 2 ^ 48 = image.length % 2 ^ 48 ∧
          (t.funcAt p.vf).saved.isSome = true ∧ ∀ q, q < 16 → q ∈ (t.funcAt p.vf).removed) ∧
      (∀ e, s'.spillContext p.vf = .error e →
        ∃ t r, exec .preemptSaveImage s = .next t ∧ t.mem = s.mem ∧ t.pkg.preempt = none ∧ t.pkg.pstat.toNat / 2 ^ 61 = 2 ∧
          t.records.find? s'.nextId = some r ∧ r.queue = 0 ∧ r.kind = 8)) ∧
    (p.action = 4 →
      (s.imageLost p.vf = true → (∀ q, p.thread ∉ (s.slotAt q).chain) → (s.threadAt p.thread).ended = none →
        ∃ t, exec .preemptLoadImage s = .next t ∧ t.pkg.preempt = none ∧ t.pkg.pstat.toNat / 2 ^ 61 = 2 ∧
          (t.threadAt p.thread).ended = some (.fault fMACHINE 3)) ∧
      (s.imageLost p.vf = false → s.readImage p.vf = none → ∃ t, exec .preemptLoadImage s = .next t ∧ t.mem = s.mem ∧
        t.pkg.preempt = none ∧ t.pkg.pstat.toNat / 2 ^ 61 = 2) ∧
      (∀ secs, s.imageLost p.vf = false → s.readImage p.vf = some secs →
        (∀ x ∈ secs, x.named = true → s.owns p.vf (resCore x.location) = true) →
        ∃ t, exec .preemptLoadImage s = .next t ∧ t.mem = (secs.foldl State.loadSection (s.clearRegions p.vf)).mem ∧
          (t.funcAt p.vf).removed = [] ∧ (t.funcAt p.vf).saved = none ∧ t.pkg.preempt = none ∧
          t.pkg.pstat.toNat / 2 ^ 61 = 1))) ∧
  (∀ ws rest : List Word, ws.length < 2 ^ 61 →
    decodeTokens ((codeSection ws ++ rest).length + 1) (codeSection ws ++ rest) = some (ws, rest))

/-! The families' homes. -/

/-- R73 to R76, R91, R366: a core with a free slot claims for its oldest deque entry, or from another core's when it has
none; the claim takes the family's next member, made at the home and sent to the claimer, or nothing; it lands in its
slot, where a local that waits for a family which has ended takes its value, is acknowledged, and runs once the home has
taken the acknowledgement; a claim whose lease expires gives its member back, and the acknowledgement of an earlier claim
is refused.
The model's own reading in it: log entries 34, 35 and 78; and, of the serial thread that takes slot 15 ahead of the run
queue whatever queue owns the slot, log entries 46 and 77. -/
def Obligations.ClaimsRun : Prop :=
  (∀ (id fk core slot : Nat) (s : State), s.msgs.find? id = some (.claim fk core slot none none) →
    (∀ k, (s.famAt fk).nextK = some k →
      ∃ t e, exec (.claimAtHome id) s = .next t ∧ t.mem = s.mem ∧ t.msgs.find? id = some (.landing s.nextId core slot none) ∧
        (t.threadAt s.nextId).fam = fk ∧ (t.threadAt s.nextId).k = k ∧ (t.threadAt s.nextId).loc = .claimed core ∧
        (t.threadAt s.nextId).pc = (s.famAt fk).body ∧ (t.threadAt s.nextId).fh = s.handleOf fk ∧
        (t.threadAt s.nextId).ix = word (((s.famAt fk).first + k * (s.famAt fk).step) % 2 ^ 40) ∧
        (∀ u, u ≠ s.nextId → t.threadAt u = s.threadAt u) ∧
        (t.famAt fk).claims.find? s.nextId = some ⟨id, core, slot, none, none, e⟩ ∧
        (t.famAt fk).progress = (if k ∈ (s.famAt fk).returned then (s.famAt fk).progress else k + 1) ∧
        k ∉ (t.famAt fk).returned) ∧
    ((s.famAt fk).nextK = none →
      ∃ t, exec (.claimAtHome id) s = .next t ∧ t.msgs.find? id = none ∧ t.threads = s.threads ∧ t.families = s.families ∧
        ((s.slotAt slot).reserved = some id → (t.slotAt slot).reserved = none))) ∧
  (∀ (core q : Nat) (d : DqEntry) (s : State), (s.coreAt core).stopped = false → (s.coreAt core).gated = false →
    (s.serialNext core = none → (s.coreAt core).runq = [] → s.oldestClaim core core = some (d, q) →
      ∃ t, exec (.coreClaim core) s = .next t ∧ t.msgs.find? s.nextId = some (.claim d.fam core q none none) ∧
        (t.slotAt q).reserved = some s.nextId ∧ t.threads = s.threads ∧ t.families = s.families ∧ t.mem = s.mem) ∧
    (∀ u, s.serialNext core = some u →
      ∃ t, exec (.coreClaim core) s = .next t ∧ (t.slotAt (16 * core + 15)).occ = some u ∧
        (t.threadAt u).loc = .slot (16 * core + 15) ∧ u ∉ (t.coreAt core).serialq) ∧
    (s.oldestClaim core core = none → (scanOrder core).findSome? (fun x =>
        if (s.coreAt x).deque.isEmpty then none else s.oldestClaim core x) = some (d, q) →
      ∃ t, exec (.steal core) s = .next t ∧ t.msgs.find? s.nextId = some (.claim d.fam core q none none) ∧
        (t.slotAt q).reserved = some s.nextId ∧ t.threads = s.threads ∧ t.families = s.families ∧ t.mem = s.mem)) ∧
  (∀ (id u core slot : Nat) (c : Claim) (s : State), s.msgs.find? id = some (.landing u core slot none) →
    (s.threadAt u).ended = none → (s.famAt (s.threadAt u).fam).claims.find? u = some c →
    (c.id = id → s.coreMending (coreOfSlot slot) = false → s.coreGone (coreOfSlot slot) = false → id < s.nextId →
      ∃ t, exec (.claimLands id) s = .next t ∧ t.msgs.find? id = none ∧ (t.slotAt slot).occ = some u ∧ (t.slotAt slot).vecs = [] ∧
        (t.threadAt u).loc = .slot slot ∧ (t.threadAt u).pc = (s.threadAt u).pc ∧
        (∀ r, (t.threadAt u).reg r =
          match ((s.threadAt u).reg r).st with
          | .pending f => if r < 10 then ((s.endedValue (s.threadAt u).vf f).map (fun v => (⟨v, .full⟩ : FReg))).getD
              ((s.threadAt u).reg r) else (s.threadAt u).reg r
          | _ => (s.threadAt u).reg r) ∧
        (t.threadAt u).wait = .lease ∧ t.msgs.find? s.nextId = some (.ack (s.threadAt u).fam u id) ∧ t.mem = s.mem) ∧
    (c.id ≠ id → ∃ t, exec (.claimLands id) s = .next t ∧ t.msgs.find? id = none ∧ t.threads = s.threads ∧
      t.families = s.families ∧ (t.slotAt slot).occ = (s.slotAt slot).occ)) ∧
  (∀ (id fk u n : Nat) (s : State), s.msgs.find? id = some (.ack fk u n) →
    (∀ c, (s.famAt fk).claims.find? u = some c → c.id = n →
      ∃ t, exec (.claimAckAtHome id) s = .next t ∧ t.msgs.find? id = none ∧ (t.famAt fk).claims.find? u = none ∧
        ((s.threadAt u).wait = .lease → (t.threadAt u).wait = s.rewait u) ∧
        (∀ v, v ≠ u → t.threadAt v = s.threadAt v ∧ (t.famAt fk).claims.find? v = (s.famAt fk).claims.find? v)) ∧
    ((∀ c, (s.famAt fk).claims.find? u = some c → c.id ≠ n) →
      ∃ t, exec (.claimAckAtHome id) s = .next t ∧ t.msgs.find? id = none ∧ { t with msgs := s.msgs, bound := s.bound, carried := s.carried } = s)) ∧
  (∀ (u : Nat) (c : Claim) (s : State), (s.famAt (s.threadAt u).fam).claims.find? u = some c → (s.threadAt u).ended = none →
    c.record = none →
    ∃ t, exec (.leaseExpiry u) s = .next t ∧ (t.famAt (s.threadAt u).fam).claims.find? u = none ∧
      (s.threadAt u).k ∈ (t.famAt (s.threadAt u).fam).returned ∧ (t.threadAt u).ended.isSome = true ∧ t.mem = s.mem)

/-- R59 to R61, R69, R75, R77, R79, R81, R82, R87, R90, R91, R106: what each message of the families does where it arrives:
a shared's value fills the successor's dependent or is forwarded past an ended member, an end report counts its member and
ends the family with its last, the family's end fills its handle and links at once, waits are armed and answered, a break
and a kill are recorded and sent on to the members that they reach, a kill ends its thread, and a migrating record joins
the queue of the core that it was sent to.
The model's own reading in it: log entries 27 and 28. -/
def Obligations.FamilyMessagesLand : Prop :=
  ∀ (id : Nat) (s : State),
    let reachesAll (t : State) (fk : Nat) (p : Nat → Prop) : Prop := ∀ e ∈ s.threads, e.2.fam = fk → e.2.fh = s.handleOf fk →
      e.2.ended = none → p e.2.k → ∃ j, t.msgs.find? j = some (.killThread e.1)
    let unlaunched (fk : Nat) : Prop := ∀ q n, (s.famAt fk).deliver ≠ .packet q n
    let unrecorded (u : Nat) : Prop := s.recordPlace u = none
    (∀ fk k i u v c, s.msgs.find? id = some (.dep fk k i v c) → i < 4 → k < (s.famAt fk).count → s.memberAt fk k = some u →
      s.arrives id u = true → id < s.nextId →
      ∃ t, exec (.dependentFillLands id) s = .next t ∧ t.msgs.find? id = none ∧
        (unlaunched fk → unrecorded u → t.mem = s.mem) ∧
        ((s.threadAt u).reg (22 + i) = ⟨0#64, .pending .pred⟩ → (t.threadAt u).reg (22 + i) =
          (match v with
           | some w => ⟨w, .full⟩
           | none => ⟨0#64, .empty⟩)) ∧
        (∀ r, r ≠ 22 + i → (t.threadAt u).reg r = (s.threadAt u).reg r)) ∧
    (∀ fk k i v c x, s.msgs.find? id = some (.dep fk k i v c) → (s.famAt fk).stubs.find? (4 * k + i) = some x → id < s.nextId →
      ∃ t, exec (.passThroughForward id) s = .next t ∧ t.msgs.find? id = none ∧ (unlaunched fk → t.mem = s.mem) ∧
        (∀ u, (t.threadAt u).regs = (s.threadAt u).regs) ∧ (t.famAt fk).stubs.find? (4 * k + i) = none ∧
        ((t.famAt fk).fixed = (s.famAt fk).fixed → t.threads = s.threads ∧
          t.msgs.find? s.nextId = some (.dep fk (k + 1) i v x))) ∧
    (∀ m u c, s.msgs.find? id = some m → s.fillThread m = some u → s.bound.find? id = some c →
      ∃ t, exec (.stubResend id) s = .next t ∧ t.bound.find? id = some (s.threadAt u).core ∧ { t with bound := s.bound } = s) ∧
    (∀ fk u, s.msgs.find? id = some (.report fk u) → s.reportReady fk u = true → (s.threadAt u).fh = s.handleOf fk →
      (s.threadAt u).ended ≠ some .killed →
      ∃ t, exec (.endReportAtHome id) s = .next t ∧ (unlaunched fk → t.mem = s.mem) ∧ (s.threadAt u).k ∈ (t.famAt fk).endedK ∧
        ((s.famAt fk).alloc = true → (s.famAt fk).fixed = none → (s.famAt fk).killed = false → (s.famAt fk).broken = none →
          (s.threadAt u).k ∉ (s.famAt fk).endedK → (s.famAt fk).endedK.length + 1 = (s.famAt fk).count →
          (∀ l, l < 4 → (s.famAt fk).links.getD l 15 = 15) → (t.famAt fk).fixed = some 0#64)) ∧
    (∀ h u rd links, s.msgs.find? id = some (.fill h u) → s.arrives id u = true → (s.threadAt u).ended = none → id < s.nextId →
      (s.famAt (s.famOfHandle (s.threadAt u).vf h)).deliver = .thread u rd links →
      let f := s.famAt (s.famOfHandle (s.threadAt u).vf h)
      ∃ t, exec (.familyFillLands id) s = .next t ∧ t.msgs.find? id = none ∧ (unrecorded u → t.mem = s.mem) ∧
        (rd < 10 → ((s.threadAt u).reg rd).st = .pending (.family h) → (∀ l ∈ links, l.2 ≠ rd) →
          (t.threadAt u).reg rd = ⟨f.fixed.getD 0#64, .full⟩) ∧
        (∀ l ∈ links, l.2 < 10 → l.2 ≠ rd → (∀ l' ∈ links, l'.2 = l.2 → l' = l) →
          ((s.threadAt u).reg l.2).st = .pending (.link h l.1) → (t.threadAt u).reg l.2 = ⟨f.results.getD l.1 0#64, .full⟩) ∧
        (∀ q, (s.threadAt u).loc = .slot q → (t.coreAt (coreOfSlot q)).dcache.lines = [])) ∧
    (∀ h u, s.msgs.find? id = some (.answer h u) → s.arrives id u = true → (s.threadAt u).ended = none →
      (s.threadAt u).wait = .family h ∨ (s.threadAt u).wait = .engine h →
      ∃ t, exec (.hwaitAnswerLands id) s = .next t ∧ t.msgs.find? id = none ∧ t.mem = s.mem ∧ (t.threadAt u).wait = .none ∧
        (∀ r, r < 10 → (t.threadAt u).reg r = if r ∈ (s.threadAt u).owes then ⟨0#64, .empty⟩ else (s.threadAt u).reg r) ∧
        (t.threadAt u).owes = []) ∧
    (∀ h u, s.msgs.find? id = some (.arm h u) → id < s.nextId →
      let fk := s.famOfHandle (s.threadAt u).vf h
      (s.familyPending (s.threadAt u).vf h = true →
        ∃ t, exec (.hwaitArmAtHome id) s = .next t ∧ t.msgs.find? id = none ∧ t.threads = s.threads ∧
          (t.famAt fk).waiters = (s.famAt fk).waiters ++ [u]) ∧
      (s.familyPending (s.threadAt u).vf h = false →
        ∃ t, exec (.hwaitArmAtHome id) s = .next t ∧ t.msgs.find? id = none ∧ t.threads = s.threads ∧
          t.msgs.find? s.nextId = some (.answer h u))) ∧
    (∀ fk k how, s.msgs.find? id = some (.brk fk k how) →
      (((s.famAt fk).fixed.isSome = true ∨ (s.famAt fk).killed = true ∨ (∃ j x, (s.famAt fk).broken = some (j, x) ∧ j ≤ k)) →
        ∃ t, exec (.breakAtHome id) s = .next t ∧ t.msgs.find? id = none ∧ t.families = s.families ∧ t.threads = s.threads) ∧
      ((s.famAt fk).fixed = none → (s.famAt fk).killed = false → (∀ j x, (s.famAt fk).broken = some (j, x) → k < j) →
        ∃ t, exec (.breakAtHome id) s = .next t ∧ (unlaunched fk → t.mem = s.mem) ∧ (t.famAt fk).broken = some (k, how) ∧
          reachesAll t fk (fun j => k < j))) ∧
    (∀ fk gen, s.msgs.find? id = some (.kill fk gen) → (s.famAt fk).alloc = true → (s.famAt fk).gen = gen →
      (s.famAt fk).fixed = none → (s.famAt fk).killed = false →
      ∃ t, exec (.killAtHome id) s = .next t ∧ (unlaunched fk → t.mem = s.mem) ∧ (t.famAt fk).killed = true ∧ reachesAll t fk (fun _ => True)) ∧
    (∀ u, s.msgs.find? id = some (.killThread u) → (s.threadAt u).ended = none →
      (∀ q, (s.threadAt u).loc = .slot q ∨ (s.threadAt u).loc = .chain q ∨ (s.threadAt u).loc = .spilled q →
        ∃ t, exec (.killReachesMember id) s = .next t ∧ t.msgs.find? id = none ∧ t.mem = s.mem ∧
          (t.threadAt u).killed = true ∧ (t.threadAt u).ended = none) ∧
      (∀ c, (s.threadAt u).loc = .runq c →
        ∃ t, exec (.killReachesMember id) s = .next t ∧ t.mem = s.mem ∧ t.threadEnds u .killed ∧ u ∉ (t.coreAt c).runq)) ∧
    (∀ u core serial, s.msgs.find? id = some (.move u core serial) → (s.threadAt u).ended = none →
      (s.coreAt core).stopped = false →
      ∃ t, exec (.migrationArrival id) s = .next t ∧ t.msgs.find? id = none ∧ t.mem = s.mem ∧
        (serial = false → (t.threadAt u).loc = .runq core ∧ (t.coreAt core).runq = (s.coreAt core).runq ++ [u]) ∧
        (serial = true → (t.threadAt u).loc = .serialq core ∧ (t.coreAt core).serialq = (s.coreAt core).serialq ++ [u]))

/-! The engines. -/

/-- R189 to R191, R193 to R196, R198 to R200, R262, R264, R376, R379, R403: a copy's acts: it forks once its thread's
earlier accesses are done, and takes its die's clock with it, or stops where a rank of its group is lost; a chunk that
passes its check is held, and the cursor passes it where it stands there and, of a collective, has its result, which
begins its write; the first chunk that fails at the cursor stops the operation with a record, once no chunk writes and all
that was written is acknowledged, and so does a chunk whose write meets an uncorrectable error; a chunk that has begun
writes its units in order, each at a home of its own die at once and to any other through the egress, a reducing copy what
it combines each element to, and a collective what its tree gives; a collective's chunk goes up the tree once it has
passed its check, but for one that waits for the new mode of duty 5, takes the result that its parent sends, and one that
disagrees stops its operation; and an operation whose chunks are done and acknowledged ends: its entry is free, and its
completion word and its waiters' answers leave.
The model's own reading in it: log entries 9, 20, 30 and 31. -/
def Obligations.CopyActs : Prop :=
  ∀ (cl e n : Nat) (c : CopyOp) (s : State), s.copyAt? cl e = some c →
    let here := dieOfCore c.core
    -- the operation stops with a record of fault `f`, at chunk `n`
    let stops (t : State) (id : Nat) (f : ChunkFault) (c' : CopyOp) : Prop :=
      t.copyAt? cl e = some { c' with fault := some (n, f), record := some id } ∧
      ∃ r, t.records.find? id = some r ∧ r.queue = c.vf ∧ r.kind = 3 ∧ r.awaits = true ∧ r.holder = .copy cl e ∧
        r.body = [c.h, chunkWord c.op (c.reduces || c.isColl) f, f.va,
          if c.isRow = true then word (n + 16 * c.position n) else word (c'.cursorOff % 2 ^ 41), word c.size, c.issuer]
    (c.packet.isSome = true ∨ s.forkReady c.thread c.before = true →
      (s.lacksRank c = false →
        ∃ t, exec (.copyFork 0 cl e) s = .next t ∧ t.mem = s.mem ∧ t.threads = s.threads ∧
          t.copyAt? cl e = some { c with
            forked := true, clock := s.clockOf here
            bound := if c.packet.isSome = true then 0 else (s.threadAt c.thread).boundary }) ∧
      (∀ g, s.lacksRank c = true → c.group = some g → c.chunks = [] → c.stop = 0 → c.record = none → c.packet = none →
        s.copyAcked c = true →
        ∃ t c' r, exec (.copyFork 0 cl e) s = .next t ∧ t.mem = s.mem ∧ t.copyAt? cl e = some c' ∧
          c'.record = some s.nextId ∧ t.records.find? s.nextId = some r ∧ r.kind = 3 ∧ r.awaits = true ∧
          r.body.getD 2 0#64 = g.desc)) ∧
    (c.packet = none → s.forkReady c.thread c.before = false → exec (.copyFork 0 cl e) s = .next s) ∧
    (∀ s1 x, c.mayCheck n = true → s.collTurn c = true → s.sectionTurn c = true → c.fault = none →
      s.checkChunk c.agent c.level (c.piece n).align (c.piece n).src (c.piece n).dst (c.piece n).len = (s1, .ok (some x)) →
      ∃ t c' y, exec (.copyChunkCheck cl e n) s = .next t ∧ t.copyAt? cl e = some c' ∧ c'.chunks.find? n = some y ∧
        y.runs = x.runs ∧ y.data = x.data ∧ c'.fault = none ∧ c'.record = none ∧
        (n = c.cursor → s1.mayBegin c n = true → n < c'.cursor ∧ y.begun = true) ∧
        (n = c.cursor → s1.mayBegin c n = false → c'.cursor = n ∧ y = x) ∧
        (n ≠ c.cursor → c.chunks.find? c.cursor = none → c'.cursor = c.cursor ∧ y = x) ∧ t.mem = s1.mem) ∧
    (∀ s1 f, c.mayCheck n = true → s.collTurn c = true → s.sectionTurn c = true → c.fault = none → n = c.cursor →
      c.packet = none →
      s.checkChunk c.agent c.level (c.piece n).align (c.piece n).src (c.piece n).dst (c.piece n).len = (s1, .error f) →
      (c.writes = false → s1.copyAcked c = true →
        ∃ t, exec (.copyChunkCheck cl e n) s = .next t ∧ t.mem = s1.mem ∧ stops t s1.nextId f c) ∧
      (c.writes = true ∨ s1.copyAcked c = false →
        ∃ t, exec (.copyChunkCheck cl e n) s = .next t ∧ t.mem = s1.mem ∧ t.records = s1.records ∧
          t.copyAt? cl e = some { c with fault := some (n, f) })) ∧
    (∀ x, c.chunks.find? n = some x → x.begun = true → c.fault = none → c.chunks.find? c.cursor = none →
      (c.isScatter = true → ∀ y ∈ c.chunks, y.1 < n → c.lane y.1 ≠ c.lane n) →
      (c.group = none → c.reduces = false → x.done = 0 → x.data.length ≤ 4096 →
        (x.runs.map (fun r => r.2.1)).sum = x.data.length → s.caughtUp here c.clock (fun _ _ => false) = true →
        (∀ r ∈ x.runs, r.2.2.2 = none ∧ s.badBytes r.1 r.2.1 = false ∧
          ∀ i, i < r.2.1 → homeDie (r.1 + i) = here ∧ s.linkDown (r.1 + i) = false) →
        ∃ t, exec (.copyChunkWrite cl e n) s = .next t ∧ t.mem = (s.pokeRuns x.runs x.data).mem ∧
          t.copyAt? cl e = some { c with chunks := c.chunks.del n }) ∧
      (∀ a k va key, x.next (if c.reduces = true then elemBytes c.fmt else 0) = some (a, k, va, key) →
        (homeDie a = here → s.badBytes a k = true → c.chunks = [(n, x)] → n < c.cursor → c.stop = 0 → c.record = none →
          c.packet = none → s.copyAcked c = true →
          ∃ t, exec (.copyChunkWrite cl e n) s = .next t ∧ t.mem = s.mem ∧
            stops t s.nextId ⟨fMACHINE, 1, va, true, 0⟩ { c with chunks := [], cursor := n }) ∧
        (runAt x.runs (x.done + k) = none → s.badBytes a k = false → (c.reduces = true → 0 < elemBytes c.fmt) →
          let bytes := match c.group with
            | some g => ((s.collAt g.gid g.seq n).result).getD []
            | none => x.data
          let bs := (bytes.drop x.done).take k
          bs.length = k →
          (homeDie a = here → s.linkDown a = false →
            s.caughtUp here c.clock (fun _ _ => false) = true → (c.reduces = true → c.unordered = false) →
            let old := ofBytes ((s.readBytes key a k).getD [])
            let out := if c.reduces = true then toBytes k (combineElem c.fmt c.oper
              (c.env (((c.piece n).off + x.done) / elemBytes c.fmt)) old (ofBytes bs)) else bs
            ∃ t, exec (.copyChunkWrite cl e n) s = .next t ∧ s.homeWrites t key a out ∧
              t.copyAt? cl e = some { c with chunks := c.chunks.del n }) ∧
          (homeDie a ≠ here →
            ∃ t c', exec (.copyChunkWrite cl e n) s = .next t ∧ t.mem = s.mem ∧ t.copyAt? cl e = some c' ∧
              c'.chunks = c.chunks.del n ∧ (c.reduces = false ∨ c.unordered = false → c'.carried = c.carried ∧
                ∃ id r, t.reqs.find? id = some r ∧ r.engine = some c.h ∧ r.addr = a ∧ r.key = key ∧ r.data = bs ∧ r.rc = n ∧
                  r.kind = (if c.reduces = true then .red c.fmt c.oper false else .store)))))) ∧
    (∀ x g, c.chunks.find? n = some x → x.begun = false → c.group = some g → c.fault = none → c.stop = 0 → c.record = none →
      let k := s.collAt g.gid g.seq n
      k.sent = false ∨ k.result = none →
      ((∀ p ∈ k.parts, c.agrees p.2 = true) →
        (k.sent = false → s.collHolds g.gid g.seq = true → exec (.copyChunkWrite cl e n) s = .next s) ∧
        (∀ v, k.sent = false → s.collHolds g.gid g.seq = false → c.combined g k n s.fresh x.data = some v →
          (g.rank ≠ 0 → k.result = none ∧ k.parts.find? g.parent = none) →
          ∃ t, exec (.copyChunkWrite cl e n) s = .next t ∧ (g.rank ≠ 0 → t.mem = s.mem) ∧
            t.collAt g.gid g.seq n = { k with sent := true, up := v, result := if g.rank = 0 then some (k.result.getD v) else none }) ∧
        (∀ p, k.sent = true → g.rank ≠ 0 → k.parts.find? g.parent = some p →
          ∃ t, exec (.copyChunkWrite cl e n) s = .next t ∧ t.collAt g.gid g.seq n = { k with result := some p.data })) ∧
      (c.chunks = [(n, x)] → n = c.cursor → c.packet = none → s.copyAcked c = true → (∃ p ∈ k.parts, c.agrees p.2 = false) →
        ∃ t, exec (.copyChunkWrite cl e n) s = .next t ∧ t.mem = s.mem ∧
          stops t s.nextId ⟨fCOPY, 7, g.desc, false, 0⟩ { c with chunks := [] })) ∧
    (c.packet = none → (s.threadAt c.thread).ended = none → s.copyAcked c = true →
      let ends (w : Word) : Prop := ∃ t, exec (.copyComplete cl e) s = .next t ∧ t.mem = s.mem ∧ t.threads = s.threads ∧
        t.copyAt? cl e = none ∧ (∃ id, t.msgs.find? id = some (.engine c.h w c.thread c.rd)) ∧
        ∀ u ∈ c.waiters, ∃ id, t.msgs.find? id = some (.answer c.h u)
      (c.stop = 0 → c.forked = true → c.record = none → c.fault = none → c.total ≤ c.cursor → c.chunks = [] → ends 0#64) ∧
      (c.stop ≠ 0 → c.writes = false → ends (word (c.cursorOff * 2 ^ 8 + c.stop))))

/-- R153, R189, R200, R208 to R212, R216, R262, R264, R321 to R323: a job's acts: it forks, and takes its die's clock with
it; it starts as the next of its idle lane, an array job in the place of a filler or with a grant in its turn; a row of a
transfer moves when it stands at the cursor, a stored one's units at once to a home of its own die and through the egress
to any other; a job that reaches its end, its writes acknowledged, changes its tiles, clears its locks and has its
completion word; its handle's fill and its waiters' answers leave, and its entry is free; a fill lands in the register
that waits for it; and a step of the limiter sets the grants of its die by the lanes that are on.
The model's own choice in it: the clocks and boundaries of the clauses on the fork and the stored row (log entry 20), the
row that moves unit by unit or at once (37), and the turn of a lane with the fillers of the clauses on the start (41). -/
def Obligations.JobActs : Prop :=
  (∀ (cl e : Nat) (j : Job) (s : State), s.jobAt? cl e = some j →
    (s.forkReady j.thread j.before = true →
      ∃ t, exec (.copyFork 1 cl e) s = .next t ∧ t.mem = s.mem ∧ t.threads = s.threads ∧ t.jobAt? cl e = some { j with
        forked := true, clock := s.clockOf (dieOfCore j.core), bound := (s.threadAt j.thread).boundary }) ∧
    ((s.clusterAt cl).running j.array = false → (s.clusterAt cl).nextJob j.array = some e →
      let d := s.dieAt (dieOfCluster cl)
      (j.array = false →
        ∃ t, exec (.jobStart cl e) s = .next t ∧ t.jobAt? cl e = some { j with started := true } ∧ t.mem = s.mem ∧
          t.dies = s.dies) ∧
      (j.array = true → cl ∈ d.fillers →
        ∃ t, exec (.jobStart cl e) s = .next t ∧ t.jobAt? cl e = some { j with started := true } ∧ t.mem = s.mem ∧
          cl ∉ (t.dieAt (dieOfCluster cl)).fillers ∧ (t.dieAt (dieOfCluster cl)).grants = d.grants) ∧
      (j.array = true → cl ∉ d.fillers → d.grants ≠ 0 → s.grantTurn cl j = true →
        ∃ t, exec (.jobStart cl e) s = .next t ∧ t.jobAt? cl e = some { j with started := true } ∧ t.mem = s.mem ∧
          (t.dieAt (dieOfCluster cl)).fillers = d.fillers ∧ (t.dieAt (dieOfCluster cl)).grants + 1 = d.grants) ∧
      (j.array = true → cl ∉ d.fillers → d.grants = 0 ∨ s.grantTurn cl j = false → exec (.jobStart cl e) s = .next s)) ∧
    (∀ r s1 x, j.mayMove r = true → j.fault = none → r = j.cursor → j.rows.find? r = none → j.rows.find? (r + 1) = none →
      s.checkRow j r = (s1, .ok (some x)) →
      (j.kind = .tld →
        ∃ t, exec (.tileRowTransfer cl e r) s = .next t ∧ t.mem = (s1.poke (tileRow j.core j.d r) x.data).mem ∧
          t.jobAt? cl e = some { j with rows := j.rows.del r, cursor := r + 1 }) ∧
      (j.kind = .tst → (∀ y ∈ j.rows, y.1 < r → y.2.meets x = false) → x.data.length ≤ 256 →
        (x.runs.map (fun r => r.2.1)).sum = x.data.length → s1.caughtUp (dieOfCore j.core) j.clock (fun _ _ => false) = true →
        (∀ r ∈ x.runs, r.2.2.2 = none ∧ s1.badBytes r.1 r.2.1 = false ∧
          ∀ i, i < r.2.1 → homeDie (r.1 + i) = dieOfCore j.core ∧ s1.linkDown (r.1 + i) = false) →
        x.runs.length ≤ 2 →
        ∃ t, exec (.tileRowTransfer cl e r) s = .next t ∧ t.mem = (s1.pokeRuns x.runs x.data).mem ∧
          t.jobAt? cl e = some { j with rows := j.rows.del r, cursor := r + 1 })) ∧
    (∀ r x a k va key, j.kind = .tst → j.rows.find? r = some x → x.begun = true → j.fault = none →
      j.rows.find? j.cursor = none → (∀ y ∈ j.rows, y.1 < r → y.2.meets x = false) → x.next 0 = some (a, k, va, key) →
      runAt x.runs (x.done + k) = none → s.badBytes a k = false →
      let bs := (x.data.drop x.done).take k
      bs.length = k →
      (homeDie a = dieOfCore j.core → s.linkDown a = false →
        s.caughtUp (dieOfCore j.core) j.clock (fun _ _ => false) = true →
        ∃ t, exec (.tileRowTransfer cl e r) s = .next t ∧ s.homeWrites t key a bs ∧
          t.jobAt? cl e = some { j with rows := j.rows.del r }) ∧
      (homeDie a ≠ dieOfCore j.core →
        ∃ t id q, exec (.tileRowTransfer cl e r) s = .next t ∧ t.mem = s.mem ∧
          t.jobAt? cl e = some { j with rows := j.rows.del r } ∧ t.reqs.find? id = some q ∧ q.engine = some j.h ∧ q.rc = r ∧
          q.kind = .store ∧ q.addr = a ∧ q.key = key ∧ q.data = bs)) ∧
    (∀ w, j.finish? = some w → s.engineAcked j.h = true →
      ∃ t, exec (.jobEnd cl e) s = .next t ∧ t.jobAt? cl e = some { j with ended := some w } ∧ t.threads = s.threads ∧
        (∀ k ∈ j.writes, (t.coreAt j.core).wlock.get 0 k = 0) ∧
        (j.reads.Nodup → ∀ k ∈ j.reads, (t.coreAt j.core).readers.get 0 k = (s.coreAt j.core).readers.get 0 k - 1) ∧
        (j.started = false → t.mem = s.mem) ∧
        (j.started = true → j.kind = .tzero → ∀ i, i < 16384 → t.byteAt (tileRow j.core j.d 0 + i) = 0#8) ∧
        (j.started = true → j.kind = .tmov → ∀ i, i < 16384 →
          t.byteAt (tileRow j.core j.d 0 + i) = s.byteAt (tileRow j.core j.a 0 + i)) ∧
        (j.kind = .tzero ∨ j.kind = .tmov → s.keepsBytes t (tileRow j.core j.d 0) 16384) ∧
        (j.kind = .tld ∨ j.kind = .tst → t.mem = s.mem)) ∧
    (∀ w, j.ended = some w → (s.threadAt j.thread).ended = none →
      ∃ t, exec (.jobHandleFill cl e) s = .next t ∧ t.jobAt? cl e = none ∧ t.mem = s.mem ∧ t.threads = s.threads ∧
        (∃ id, t.msgs.find? id = some (.engine j.h w j.thread j.rd)) ∧
        ∀ u ∈ j.waiters, ∃ id, t.msgs.find? id = some (.answer j.h u))) ∧
  (∀ (id u rd : Nat) (h w : Word) (s : State), s.msgs.find? id = some (.engine h w u rd) → s.arrives id u = true →
    (s.threadAt u).ended = none → id < s.nextId →
    ∃ t, exec (.engineHandleFillLands id) s = .next t ∧ t.msgs.find? id = none ∧ (s.recordPlace u = none → t.mem = s.mem) ∧
      (rd < 10 → (t.threadAt u).reg rd = (if ((s.threadAt u).reg rd).st = .pending (.engine h) then ⟨w, .full⟩
        else (s.threadAt u).reg rd)) ∧
      (∀ r, r ≠ rd → (t.threadAt u).reg r = (s.threadAt u).reg r) ∧
      ∀ q, (s.threadAt u).loc = .slot q → (t.coreAt (coreOfSlot q)).dcache.lines = []) ∧
  (∀ (die : Nat) (s : State),
    let a := s.lanesOn die
    let n := if a < 4 then 1 else if a < 16 then 2 else if a < 32 then 4 else 8
    ∃ t, exec (.snowploughStep die) s = .next t ∧ t.mem = s.mem ∧ t.threads = s.threads ∧
      t.clusters = s.clusters ∧
      (t.dieAt die).grants = (if s.pkg.throttle = true ∧ s.level2Die die = false then max 1 (n / 2) else n) ∧
      (t.dieAt die).falls ≤ n ∧ (∀ c ∈ (t.dieAt die).fillers, c ∈ (s.dieAt die).fillers) ∧
      (∀ c ∈ (s.dieAt die).fillers, c ∉ (t.dieAt die).fillers →
        (s.clusterAt c).nextJob true = none ∧ s.bound2 c = false ∧ s.taking c = false) ∧
      ∀ d, d ≠ die → t.dieAt d = s.dieAt d)

/-- R214 to R216, R219, R224: when a matrix job over integer formats ends, each element of its accumulator tile is, modulo
2 ^ 32, what it was plus the sum of the products of the row of its left tile and the column of its right one. -/
def Obligations.IntegerMatrixProduct : Prop :=
  ∀ (cl e : Nat) (j : Job) (sa sb : Bool) (wa wb : Nat) (s : State), s.jobAt? cl e = some j → j.kind = .mma →
    j.started = true → j.ended = none → s.engineAcked j.h = true → j.d < 8 → fmtOf (shapeFmt (j.shape j.a)) = .int sa wa →
    fmtOf (shapeFmt (j.shape j.b)) = .int sb wb →
    shapeRows (j.shape j.d) = shapeRows (j.shape j.a) → shapeCols (j.shape j.a) = shapeRows (j.shape j.b) →
    shapeCols (j.shape j.d) ≤ 64 →
    let value (sg : Bool) (w t m c : Nat) : Int :=
      let x := elemOf w (s.tileRowOf j.core t m) c
      if sg then signedN w x else (x : Int)
    ∃ t, exec (.jobEnd cl e) s = .next t ∧ t.jobAt? cl e = some { j with ended := some (if j.stop = 0 then 0#64 else 0x102#64) } ∧
      ∀ m, m < shapeRows (j.shape j.d) → ∀ n, n < shapeCols (j.shape j.d) →
        elemOf 32 (t.tileRowOf j.core j.d m) n =
          (((elemOf 32 (s.tileRowOf j.core j.d m) n : Int) + ((List.range (shapeCols (j.shape j.a))).map (fun k =>
            value sa wa j.a m k * value sb wb j.b k n)).sum) % 2 ^ 32).toNat

/-! Launch queues. -/

/-- R306 to R310, R318: a queue's doorbell and control word, the reading of its packets in ring order, and what each packet
but LAUNCH does at the head: a malformed one stops the queue with its code; COPY takes a copy entry; SIGNAL writes its word;
WAIT_SEQ leaves for its word's home; SET_DET drains the function and sets its level; FENCE waits for what has started; and a
packet that completes raises done.
The model's own reading in it: log entries 44, 52 and 53. -/
def Obligations.QueuesRun : Prop :=
  ∀ (vf q n : Nat) (s : State), vf < 64 → q < 16 →
    let x := s.queueAt vf q
    let stops (t : State) (code : Nat) : Prop := (t.queueAt vf q).enabled = false ∧
      (t.queueAt vf q).error = word (code + n % 2 ^ 56 * 2 ^ 8) ∧ (t.queueAt vf q).head = word n
    let started (t : State) (p' : Packet) : Prop := (t.queueAt vf q).head = x.head + 1#64 ∧ t.packetAt? vf q n = some p' ∧
      p'.stage = 2
    let raised (t : State) : Prop := x.done = word n → n < 2 ^ 64 → ∃ k, 1 ≤ k ∧ (t.queueAt vf q).done = word (n + k)
    (∀ w, s.pkg.hostHeld = [] →
      ∃ t, exec (.queueDoorbell vf q w) s = .next t ∧ t.queueAt vf q = { x with tail := w } ∧ t.mem = s.mem ∧
      t.threads = s.threads) ∧
    (∀ w, s.pkg.hostHeld = [] → (s.controlOk vf w = true →
        ∃ t, exec (.queueControlWrite vf q w) s = .next t ∧ t.queueAt vf q = { x with control := w } ∧ t.mem = s.mem) ∧
      (s.controlOk vf w = false →
        ∃ t, exec (.queueControlWrite vf q w) s = .next t ∧ (t.queueAt vf q).enabled = false ∧
          (t.queueAt vf q).error = word (5 + x.head.toNat % 2 ^ 56 * 2 ^ 8) ∧ t.mem = s.mem)) ∧
    (let ahead := (word n - x.head).toNat
     s.queueReads vf q = true → ahead < (x.tail - x.head).toNat → s.packetAt? vf q n = none →
     (ahead = 0 ∨ (s.packetAt? vf q (n - 1)).isSome = true) →
      (∀ bs, s.vaRead x.core vf (x.slotAddr n).toNat 64 1 = .ok bs →
        ∃ t, exec (.packetReadLands vf q n) s = .next t ∧ t.packetAt? vf q n = some (Packet.fresh bs) ∧ t.mem = s.mem ∧
          (t.queueAt vf q).head = x.head) ∧
      (∀ f, s.vaRead x.core vf (x.slotAddr n).toNat 64 1 = .error f → ahead = 0 →
        ∃ t, exec (.packetReadLands vf q n) s = .next t ∧ stops t 4)) ∧
    (∀ p, s.atHead vf q n = some p →
      (∀ c, p.bad = some c → ∀ i ∈ ([.copy vf q n, .signal vf q n, .waitSeq vf q n, .setDet vf q n, .fencePacket vf q n,
          .launch vf q n] : List Instr), ∃ t, exec i s = .next t ∧ stops t c ∧ t.mem = s.mem) ∧
      (p.bad = none →
        (let c := Packet.copyOp vf q n x.core (p.dword 1) (p.dword 2) (p.dword 3).toNat
         p.type = 2 → c.cause = none → c.empty = false → (s.clusterAt x.cluster).copyRoom = true →
          ∃ t e o, exec (.copy vf q n) s = .next t ∧ started t { p with stage := 2, copy := some (x.cluster, e) } ∧ t.mem = s.mem ∧
            t.copyAt? x.cluster e = some o ∧ o.dst = p.dword 1 ∧ o.src = p.dword 2 ∧ o.size = (p.dword 3).toNat ∧
            o.vf = vf ∧ o.packet = some (q, n) ∧ o.cursor = 0) ∧
        (p.type = 2 → p.dword 3 = 0#64 → x.doneaddr = 0#64 → p.dword 4 = 0#64 →
          ∃ t, exec (.copy vf q n) s = .next t ∧ t.mem = s.mem ∧ raised t) ∧
        (∀ u pl, p.type = 3 → s.signalPlace vf q (if (p.dword 3).getLsbD 0 then .both else .store) (p.dword 1) true = (u, some pl) →
          u.bad = [] → inTier2 pl.addr = false → x.doneaddr = 0#64 →
          ∃ t, exec (.signal vf q n) s = .next t ∧ raised t ∧ u.homeWrites t pl.key pl.addr (toBytes 8
            (if (p.dword 3).getLsbD 0 then u.dword pl.key pl.addr + p.dword 2 else p.dword 2).toNat)) ∧
        (∀ u pl, p.type = 4 → s.signalPlace vf q .both (p.dword 1) false = (u, some pl) →
          ∃ t r, exec (.waitSeq vf q n) s = .next t ∧ started t { p with stage := 2 } ∧ t.mem = u.mem ∧
            t.reqs.find? u.nextId = some r ∧ r.kind = .waitSeq q (!(p.dword 3).getLsbD 0) ∧ r.addr = pl.addr ∧
            r.opB = p.dword 2 ∧ r.num = n ∧ r.vf = vf ∧ r.acq = true) ∧
        (p.type = 5 →
          ∃ t, exec (.setDet vf q n) s = .next t ∧ started t { p with stage := 2 } ∧
            (t.funcAt vf).setDet = (s.funcAt vf).setDet ++ [(q, n)] ∧
            (t.funcAt vf).det = (s.funcAt vf).det ∧ t.mem = s.mem) ∧
        (p.type = 6 →
          ∃ t after, exec (.fencePacket vf q n) s = .next t ∧ started t { p with stage := 2, after := after } ∧ t.mem = s.mem ∧
            ∀ q' n' p', s.packetAt? vf q' n' = some p' → p'.stage = 2 → (q', n') ∈ after))) ∧
    (∀ id r b, s.reqs.find? id = some r → r.kind = .waitSeq q b → r.vf = vf → r.num = n → r.phase = .replied →
      (r.err = none → (s.packetAt? vf q n).isSome = true → x.doneaddr = 0#64 →
        ∃ t, exec (.waitSeqAnswer id) s = .next t ∧ t.reqs.find? id = none ∧ t.mem = s.mem ∧ raised t) ∧
      (r.err ≠ none → ∃ t, exec (.waitSeqAnswer id) s = .next t ∧ t.reqs.find? id = none ∧ stops t 4)) ∧
    (∀ p more, (s.funcAt vf).setDet = (q, n) :: more → s.launchLive vf = false → s.packetAt? vf q n = some p → x.doneaddr = 0#64 →
      ∃ t, exec (.setDetDrained vf) s = .next t ∧ (t.funcAt vf).setDet = more ∧ (t.funcAt vf).det = (p.dword 1).toNat % 4 ∧
        t.mem = s.mem ∧ raised t) ∧
    (∀ p, s.packetAt? vf q n = some p → p.stage = 2 → p.type = 6 → x.doneaddr = 0#64 →
      ((∀ y ∈ p.after, ∀ z, s.packetAt? vf y.1 y.2 = some z → z.stage = 3) →
        ∃ t, exec (.fencePacketComplete vf q n) s = .next t ∧ t.mem = s.mem ∧ raised t) ∧
      ((∃ y ∈ p.after, ∃ z, s.packetAt? vf y.1 y.2 = some z ∧ z.stage ≠ 3) → exec (.fencePacketComplete vf q n) s = .next s))

/-- R59, R62, R66, R97, R309, R312, R313, R315, R316, R318, R319, R394: a launch whose record and promise are read and whose
range passes takes the lowest free entry of the arena and its family is made from the record, after the copy of its local
section when it names one; one whose level exceeds the promise is refused with a record and status 0x10, one whose range
fails with status 0x11; one with no member completes at once; and one that waits goes on when it is woken, with its record
as it was read or kept.
The model's own reading in it: log entries 54 and 55. -/
def Obligations.LaunchesAdmitted : Prop :=
  ∀ (vf q n pr count fk : Nat) (p : Packet) (bs : List Byte) (s u : State), s.atHead vf q n = some p → p.bad = none → p.type = 1 →
    (s.funcAt vf).gangOn q = false → (s.funcAt vf).setDet = [] → (s.funcAt vf).det ≠ 2 →
    let x := s.queueAt vf q
    let field (i : Nat) : Word := (dwords bs).getD i 0#64
    let made (t : State) : Prop := (t.queueAt vf q).head = x.head + 1#64 ∧
      (∃ p', t.packetAt? vf q n = some p' ∧ p'.stage = 2) ∧
      let f := t.famAt fk
      f.alloc = true ∧ f.vf = vf ∧ f.queue = q ∧ f.count = count ∧ f.first = (field 1).toNat ∧ f.step = (field 3).toNat ∧
      f.body = field 0 ∧ f.progress ≤ count ∧ f.fixed = none ∧ f.deliver = .packet q n ∧
      (∀ j, j < fieldOf (field 4) 7 4 → j < 8 → f.globals.getD j 0#64 = field (8 + j)) ∧ f.links = List.replicate 4 15
    let ends (t : State) (status value : Nat) : Prop := (t.queueAt vf q).head = x.head + 1#64 ∧
      (p.dword 4 = 0#64 → x.doneaddr = 0#64 → t.mem = s.mem) ∧
      (p.dword 4 ≠ 0#64 → s.bad = [] → x.doneaddr = 0#64 → (∀ e ∈ s.reqs, e.2.engine ≠ some agentName) →
        s.wordWritten t vf x.core (p.dword 4) (word (value % 2 ^ 56 * 2 ^ 8 + status)))
    let begins (i : Instr) : Prop :=
      (p.record = [] ∧ s.rangeBytes x.core vf (runsOfRange (p.dword 1) 128) = some bs) ∨ (p.record ≠ [] ∧ p.record = bs) →
      s.promise vf x.core (p.dword 2) (p.dword 3).toNat = some (u, pr) →
      (pr < (s.funcAt vf).det →
        ∃ t r, exec i s = .next t ∧ ends t 0x10 pr ∧ t.records.find? s.nextId = some r ∧ r.kind = 7 ∧
          r.queue = vf ∧ r.awaits = false ∧ r.body.getD 2 0#64 = p.dword 2) ∧
      ((s.funcAt vf).det ≤ pr → s.freeEntry vf = none →
        ∃ t p', exec i s = .next t ∧ (t.queueAt vf q).head = x.head ∧ t.packetAt? vf q n = some p' ∧ p'.admission = 1 ∧
          p'.record = bs ∧ t.mem = s.mem) ∧
      (∀ c, (s.funcAt vf).det ≤ pr → s.freeEntry vf = some fk → rangeCount (field 1) (field 2) (field 3) (field 0) = .error c →
        ∃ t, exec i s = .next t ∧ ends t 0x11 c) ∧
      ((s.funcAt vf).det ≤ pr → s.freeEntry vf = some fk → rangeCount (field 1) (field 2) (field 3) (field 0) = .ok count →
        (field 5 = 0#64 → 0 < count → ∃ t, exec i s = .next t ∧ made t ∧ (t.famAt fk).level = (s.funcAt vf).det ∧ t.mem = s.mem) ∧
        (field 5 = 0#64 → count = 0 → x.doneaddr = 0#64 → p.dword 4 = 0#64 →
          ∃ t, exec i s = .next t ∧ (t.queueAt vf q).head = x.head + 1#64 ∧ t.mem = s.mem ∧ (t.famAt fk).alloc = false ∧
            (x.done = word n → n < 2 ^ 64 → ∃ k, 1 ≤ k ∧ (t.queueAt vf q).done = word (n + k))) ∧
        (field 5 ≠ 0#64 → let core := u.launchCore vf q
          let c := Packet.copyOp vf q n core (word localBase) (field 5) (field 6).toNat
          c.cause = none → c.empty = false → (s.clusterAt (clusterOfCore core)).copyRoom = true →
          ∃ t p' e o, exec i s = .next t ∧ (t.queueAt vf q).head = x.head ∧ t.packetAt? vf q n = some p' ∧ p'.admission = 2 ∧
            p'.fam = some fk ∧ p'.copy = some (clusterOfCore core, e) ∧ t.copyAt? (clusterOfCore core) e = some o ∧
            o.core = core ∧ o.dst = word localBase ∧ o.src = field 5 ∧ o.size = (field 6).toNat ∧ o.packet = some (q, n) ∧
            (t.famAt fk).alloc = true))
    (p.admission = 0 → begins (.launch vf q n)) ∧ (p.admission = 1 → begins (.admissionWake vf q n)) ∧
    (p.record = bs → p.fam = some fk → p.members = .ok count → 0 < count →
      (p.admission = 3 → ∃ t, exec (.admissionWake vf q n) s = .next t ∧ made t ∧ t.mem = s.mem) ∧
      (∀ cl e o, p.admission = 2 → p.copy = some (cl, e) → s.copyAt? cl e = some o → o.packet = some (q, n) → o.vf = vf →
        o.group = none → o.stop = 0 → o.forked = true → o.record = none → o.fault = none → o.total ≤ o.cursor → o.chunks = [] →
        o.waiters = [] → s.copyAcked o = true →
        ∃ t, exec (.localSectionCopyLands vf q n) s = .next t ∧ made t ∧ t.mem = s.mem ∧ t.copyAt? cl e = none))

/-- R380 to R382: arming a gang launch; a rank that is prepared deals when COMMIT reaches it; the coordinator deals once
every other rank has prepared; a refusal, an abort or the limit aborts with the completion word of status 0x12 that names
the rank, and a record that names it, releases the entry, clears arm, and lets the queue go on; and an abort of a group
that the function has not under way as a rank is kept for it.
The model's own reading in it: log entry 56. -/
def Obligations.GangsRun : Prop :=
  ∀ (vf q n : Nat) (p : Packet) (g : Group) (s : State),
    (∀ w : Word, s.pkg.hostHeld = [] → vf < 64 → w.toNat / 2 ^ 20 % 2 ^ 12 = 0 → w.toNat / 2 % 2 ^ 15 = 0 →
      (w.getLsbD 0 = true → w.toNat / 2 ^ 32 ≠ 0) →
      ∃ t, exec (.gangctlArm vf w) s = .next t ∧ (t.funcAt vf).gangctl = w ∧ t.mem = s.mem ∧
        (w.getLsbD 0 = true → (s.funcAt vf).gang = none → (t.funcAt vf).gangstat.toNat / 2 ^ 62 = 0)) ∧
    ((s.funcAt vf).gang = some (q, n) → s.gangGroup vf = some g → s.packetAt? vf q n = some p →
      (∀ r, r < g.ranks → g.map.getD r 0 ∉ s.lostNow) → g.gid ∉ (s.funcAt vf).gangDead →
      let fk := p.fam.getD 0
      let closes (t : State) (state : Nat) : Prop := (t.funcAt vf).gang = none ∧ (t.funcAt vf).gangctl.getLsbD 0 = false ∧
        (t.funcAt vf).gangstat.toNat / 2 ^ 62 = state
      let dealt (t : State) : Prop := closes t 2 ∧ t.mem = s.mem ∧ (t.famAt fk).alloc = true ∧ (t.famAt fk).body = p.field 0 ∧
        (∀ c, p.members = .ok c → (t.famAt fk).count = c) ∧ (t.queueAt vf q).head = (s.queueAt vf q).head + 1#64
      let aborted (t : State) (named pkg : Nat) : Prop := closes t 3 ∧ (∃ r, t.records.find? s.nextId = some r ∧ r.kind = 0x0A ∧
          r.queue = vf ∧ r.awaits = false ∧ r.body = [p.tag, word q, word g.gid, word named, word pkg, 0#64]) ∧
        (t.funcAt vf).gangstat.toNat / 2 ^ 8 % 64 = named % 64 ∧ (p.fam ≠ none → (t.famAt fk).alloc = false) ∧
        (p.dword 4 ≠ 0#64 → s.bad = [] → (s.queueAt vf q).doneaddr = 0#64 → (∀ e ∈ s.reqs, e.2.engine ≠ some agentName) →
          s.wordWritten t vf (s.queueAt vf q).core (p.dword 4) (word (named * 2 ^ 8 + 0x12))) ∧
        (t.queueAt vf q).head = (s.queueAt vf q).head + 1#64
      let simple : Prop := p.fam = some fk ∧ p.field 5 = 0#64 ∧ ∃ c, p.members = .ok c ∧ 0 < c
      (∀ rank, g.rank = 0 → simple → (∀ y ∈ (s.funcAt vf).gangNo, y.1 ≠ g.gid) →
        (∀ r, 0 < r → r < g.ranks → r ≠ rank → g.hears (s.funcAt vf).gangIn r = true) → 0 < rank → rank < g.ranks →
        ∃ t, exec (.prepared vf g.gid rank) s = .next t ∧ dealt t) ∧
      (∀ rank r, g.rank = 0 → rank < g.ranks → 0 < r → r < g.ranks → r ≠ rank → g.hears (s.funcAt vf).gangIn r = false →
        (∀ y ∈ (s.funcAt vf).gangNo, y.1 ≠ g.gid) →
        ∃ t, exec (.prepared vf g.gid rank) s = .next t ∧ g.hears (t.funcAt vf).gangIn rank = true ∧
          t.families = s.families ∧ t.mem = s.mem) ∧
      (∀ rank, g.rank = 0 → 0 < rank → rank < g.ranks →
        (∀ r, 0 < r → r < rank → g.hears (s.funcAt vf).gangIn r = true ∧ g.hears (s.funcAt vf).gangNo r = false) →
        ∃ t, exec (.refused vf g.gid rank) s = .next t ∧ aborted t rank (g.map.getD rank 0) ∧ g.gid ∈ (t.funcAt vf).gangDead) ∧
      (g.rank = 0 → ∀ r, (s.funcAt vf).missing g = some r →
        ∃ t, exec (.gangTimeout vf) s = .next t ∧ aborted t r (g.map.getD r 0) ∧ g.gid ∈ (t.funcAt vf).gangDead) ∧
      (g.rank ≠ 0 → 0 < g.ranks → p.admission = 4 → simple → ∃ t, exec (.commit vf g.gid) s = .next t ∧ dealt t) ∧
      (∀ named pkg, g.rank ≠ 0 → 0 < g.ranks → ∃ t, exec (.abort vf g.gid named pkg) s = .next t ∧ aborted t named pkg)) ∧
    (∀ gid named pkg, (s.rankHeard vf gid 0).1 = true →
      (s.funcAt vf).gang = none ∨ (∀ g, s.gangGroup vf = some g → g.rank = 0 ∨ g.gid ≠ gid) →
      ∃ t, exec (.abort vf gid named pkg) s = .next t ∧ (t.funcAt vf).aborts = (s.funcAt vf).aborts ++
        [(gid, named, pkg, (s.rankHeard vf gid 0).2)])

/-! The host, the peers and the start. -/

/-- R76, R327, R328, R330, R334, R365 to R367, R369, R370, R402, R403, R405: what the host's writes and the device's own
acts do: slots change their queue in host-assisted scheduling alone; a request for a resource is decided; a duty drains
before its mode changes; a region that the scrub engine finishes reads as zeros; a core that stops is repaired with a
spare, or shrinks its place, or waits for the host's choice; a core without work is gated; a reading throttles, one of 115
°C or more resets the package; and every act of the host waits behind a write that a link holds.
The model's own reading in it: log entries 46, 50, 61, 62 and 66. -/
def Obligations.HostActs : Prop :=
  ∀ s : State,
    (s.pkg.hostHeld ≠ [] →
      let waits (i : Instr) (a : HostAct) : Prop := exec i s = .next (s.modPkg (fun p => { p with hostHeld := p.hostHeld ++ [a] }))
      (∀ w : Word, waits (.slotq w) (.slotq w) ∧ waits (.spill w) (.spill w) ∧ waits (.scrubgo w) (.scrubGo w) ∧
        waits (.assign w) (.assign w) ∧ waits (.repair w) (.repair w) ∧ waits (.bootclr w) (.bootclr w) ∧
        waits (.attest w) (.attest w)) ∧
      (∀ (n : Nat) (w : Word), waits (.dutyWrite n w) (.duty n w) ∧ waits (.managementWrite n w) (.management n w) ∧
        waits (.answerDoorbell n w) (.answer n w) ∧ waits (.gangctlArm n w) (.gangctl n w) ∧
        ∀ q, waits (.queueDoorbell n q w) (.tail n q w) ∧ waits (.queueControlWrite n q w) (.control n q w)) ∧
      ∀ wr a len v, waits (.hostMemoryAccess wr a len v) (.memory wr a len v)) ∧
    (∀ w : Word, s.pkg.hostHeld = [] →
      let c := coreNamed w
      ((s.dutyAt 1).draining = false → (s.dutyAt 1).cur = true → s.owns (fieldOf w 48 6) (resCore c) = true →
        s.bound2 (clusterOfCore c) = false →
        ∃ t, exec (.slotq w) s = .next t ∧ t.mem = s.mem ∧ t.threads = s.threads ∧
          (∀ i, i < 16 → t.slotAt (16 * c + i) = (if w.getLsbD i = true ∧ (s.slotAt (16 * c + i)).occ = none ∧
            (s.slotAt (16 * c + i)).reserved = none ∧ (s.slotAt (16 * c + i)).removed = false
            then { s.slotAt (16 * c + i) with qowner := fieldOf w 40 4 } else s.slotAt (16 * c + i))) ∧
          ∀ q, q / 16 ≠ c → t.slotAt q = s.slotAt q) ∧
      ((s.dutyAt 1).draining = false → (s.dutyAt 1).cur = false → exec (.slotq w) s = .next s) ∧
      ((s.dutyAt 1).draining = true → exec (.slotq w) s = .next (s.modPkg (fun p => { p with
        heldWork := p.heldWork ++ [(1, w)] }))) ∧
      ((s.dutyAt 4).draining = true → exec (.spill w) s = .next (s.modPkg (fun p => { p with
        heldWork := p.heldWork ++ [(4, w)] }))) ∧
      ((s.dutyAt 4).draining = false → (s.dutyAt 4).cur = true →
        ∃ t, exec (.spill w) s = .next t ∧ c ∈ t.pkg.spillGo ∧ t.mem = s.mem ∧ t.threads = s.threads) ∧
      ((s.dutyAt 4).draining = false → (s.dutyAt 4).cur = false → exec (.spill w) s = .next s) ∧
      (∃ t, exec (.scrubgo w) s = .next t ∧ w.toNat ∈ t.pkg.scrubGo ∧ t.mem = s.mem ∧ t.threads = s.threads) ∧
      (∀ k, w.toNat / 2 ^ 56 % 64 = 0 → w.toNat / 2 ^ 20 % 2 ^ 28 = 0 → assignTarget w.toNat = some k →
        let vf := w.toNat / 2 ^ 50 % 64
        let res := if s.scrubHolds k = true then 2 else if k < 2 ^ 20 ∧ s.coreBusy k = true then 3
          else if (s.resAt k).owner ≠ none ∧ (s.resAt k).owner ≠ some vf ∧ (s.resAt k).clean = false then 2 else 1
        ∃ t, exec (.assign w) s = .next t ∧ t.pkg.assignRes = res ∧ (res = 1 → (t.resAt k).owner = some vf) ∧
          (res ≠ 1 → t.pkg.res = s.pkg.res ∧ t.mem = s.mem) ∧ t.threads = s.threads ∧ ∀ j, j ≠ k → t.resAt j = s.resAt j)) ∧
    (∀ n, n < 6 → n < s.pkg.duties.length →
      (∀ w : Word, s.pkg.hostHeld = [] → w.toNat < 2 → ∃ t, exec (.dutyWrite n w) s = .next t ∧ t.mem = s.mem ∧ t.threads = s.threads ∧
        (t.dutyAt n).cur = (s.dutyAt n).cur ∧ (t.dutyAt n).req = w.getLsbD 0 ∧
        ((s.dutyAt n).draining = false → (t.dutyAt n).draining = (w.getLsbD 0 != (s.dutyAt n).cur))) ∧
      ((s.dutyAt n).draining = true → s.dutyDrained n = true → (n = 3 → s.pkg.repairs = []) →
        ∃ t, exec (.dutyDrainEnd n) s = .next t ∧ t.mem = s.mem ∧ t.threads = s.threads ∧
          t.dutyAt n = ⟨false, (s.dutyAt n).req, (s.dutyAt n).req⟩ ∧ ∀ k, k ≠ n → t.dutyAt k = s.dutyAt k)) ∧
    (∀ (x : Scrub) (r : ScrubRegion), s.pkg.scrub = some x → x.regions[x.next]? = some r → (s.dutyAt 2).cur = false →
      x.held = false → x.kept = false →
      ∃ t, exec (.scrubRegionDone) s = .next t ∧ t.threads = s.threads ∧
        (∀ a, r.range.1 + x.passed ≤ a → a < r.range.1 + r.range.2 → t.byteAt a = 0#8) ∧
        s.keepsBytes t (r.range.1 + x.passed) (r.range.2 - x.passed) ∧
        t.pkg.scrub = some { x with next := x.next + 1, passed := 0 } ∧ t.pkg.res = s.pkg.res) ∧
    (∀ x : Scrub, s.pkg.scrub = some x → x.regions[x.next]? = none → x.held = false → x.kept = false →
      ∃ t, exec (.scrubRegionDone) s = .next t ∧ t.threads = s.threads ∧ t.pkg.scrub = none ∧
        (∀ y ∈ x.regions, ∀ k ∈ y.resources, (t.resAt k).clean = true ∧ (t.resAt k).owner = (s.resAt k).owner) ∧
        (x.owed = true → t.mem = s.mem) ∧
        ∀ a, x.owed = false → x.done = some (a, none) → t.dwordAt a = word (2 ^ 63 + x.count % 256 * 2 ^ 8)) ∧
    (∀ core bad, core < Config.coreCount → (s.coreAt core).stopped = false → s.pkg.repairs = [] →
      (s.dutyAt 3).draining = false →
      (∀ i, i < 16 → (s.slotAt (16 * core + i)).occ = none ∧ (s.slotAt (16 * core + i)).chain = []) →
      (∀ f ∈ s.funcs, f.2.spills = [] ∧ f.2.loaded = []) →
      let recorded (t : State) (outcome : Nat) : Prop := ∃ r, t.records.find? s.nextId = some r ∧ r.queue = 0 ∧ r.kind = 9 ∧
        r.body.getD 0 0#64 = word core ∧ r.body.getD 1 0#64 = word outcome
      let cl := clusterOfCore core
      ((s.dutyAt 3).cur = true → ∃ t, exec (.coreStop core bad) s = .next t ∧ recorded t 0 ∧ (t.coreAt core).stopped = true ∧
        (t.clusterAt cl).removed = true ∧ t.pkg.repairs = [⟨core, 0, 0, false, true⟩] ∧ t.mem = s.mem) ∧
      (∀ n ns, (s.dutyAt 3).cur = false → (s.dieAt (dieOfCore core)).spares = n :: ns →
        ∃ t, exec (.coreStop core bad) s = .next t ∧ recorded t 1 ∧ (t.coreAt core).stopped = false ∧
          (t.clusterAt cl).removed = false ∧ (t.clusterAt cl).spare = some n ∧ n ∉ (t.dieAt (dieOfCore core)).spares) ∧
      ((s.dutyAt 3).cur = false → (s.dieAt (dieOfCore core)).spares = [] →
        ∃ t, exec (.coreStop core bad) s = .next t ∧ recorded t 2 ∧ (t.coreAt core).stopped = true ∧
          (t.clusterAt cl).removed = false ∧ t.mem = s.mem ∧ (t.coreAt core).runq = [] ∧ (t.coreAt core).serialq = [])) ∧
    (s.pkg.hostHeld = [] → s.pkg.repairs.find? Repair.asked = none → ∀ w, exec (.repair w) s = .next s) ∧
    (∀ r, s.pkg.hostHeld = [] → s.pkg.repairs.find? Repair.asked = some r →
      (∀ x ∈ s.pkg.repairs, clusterOfCore x.core = clusterOfCore r.core → x.core = r.core) →
      let done (t : State) : Prop := (∀ x, x ∈ t.pkg.repairs ↔ x ∈ s.pkg.repairs ∧ x.core ≠ r.core) ∧
        (t.clusterAt (clusterOfCore r.core)).removed = false
      (∀ n ns, (s.dieAt (dieOfCore r.core)).spares = n :: ns →
        ∃ t, exec (.repair 1#64) s = .next t ∧ done t ∧ (t.coreAt r.core).stopped = false ∧
          (t.clusterAt (clusterOfCore r.core)).spare = some n) ∧
      ((∀ f ∈ s.funcs, f.2.spills = [] ∧ f.2.loaded = []) →
        ∃ t, exec (.repair 2#64) s = .next t ∧ done t ∧ (t.coreAt r.core).stopped = (s.coreAt r.core).stopped ∧
          t.mem = s.mem)) ∧
    (∀ core, core < Config.coreCount →
      (s.coreInUse core = false →
        ∃ t, exec (.gatingRequest core) s = .next t ∧ (t.coreAt core).gated = true ∧ (t.coreAt core).gateReq = false ∧
          t.mem = s.mem ∧ t.threads = s.threads) ∧
      (s.coreInUse core = true →
        ∃ t, exec (.gatingRequest core) s = .next t ∧ (t.coreAt core).gateReq = true ∧
          (t.coreAt core).gated = (s.coreAt core).gated)) ∧
    (∀ a len v, s.pkg.hostHeld = [] → exec (.hostMemoryAccess false a len v) s = .next s) ∧
    (∀ a len v, s.pkg.hostHeld = [] → 0 < len → a % 64 + len ≤ 64 → s.hostReaches a = true → inTier2 a = false → s.bad = [] →
      (∀ e ∈ s.reqs, e.2.engine ≠ some agentName) →
      ∃ t, exec (.hostMemoryAccess true a len v) s = .next t ∧ t.threads = s.threads ∧ s.keepsBytes t a len ∧
        ∀ i, i < len → t.byteAt (a + i) = BitVec.ofNat 8 (v / 256 ^ i)) ∧
    (∀ power temp die,
      let shown (t : State) : Prop := t.pkg.pwrstat = word (temp % 256 * 2 ^ 36 + die % 16 * 2 ^ 32 + power % 65536) ∧
        t.mem = s.mem ∧ t.threads = s.threads
      (s.pkg.pwrcap < power ∨ 100 ≤ temp →
        (temp < 115 → ∃ t, exec (.throttle power temp die) s = .next t ∧ t.pkg.throttle = true ∧ shown t) ∧
        (115 ≤ temp → exec (.throttle power temp die) s = exec (.thermalTrip 0) s ∧
          exec (.throttleEnd power temp die) s = exec (.thermalTrip 0) s) ∧
        (temp < 115 → exec (.throttleEnd power temp die) s = .next s)) ∧
      (power ≤ s.pkg.pwrcap → temp < 100 →
        (∃ t, exec (.throttleEnd power temp die) s = .next t ∧ t.pkg.throttle = false ∧ shown t) ∧
        exec (.throttle power temp die) s = .next s)) ∧
    (∀ (vf : Nat) (w : Word), s.pkg.hostHeld = [] → vf < 64 →
      let wrote (off : Nat) (P : Func → Func → Prop) : Prop := ∃ t, exec (.managementWrite (vf * 2 ^ 16 + off) w) s = .next t ∧
        t.mem = s.mem ∧ t.threads = s.threads ∧ P (s.funcAt vf) (t.funcAt vf)
      wrote 0x408 (fun f g => g = { f with fqhead := w }) ∧ wrote 0x410 (fun f g => g = { f with ansrec := w }) ∧
      wrote 0x418 (fun f g => g = { f with ansval := w }) ∧ wrote 0x440 (fun f g => g = { f with gangdesc := w }) ∧
      wrote 0x430 (fun f g => g = { f with notify := if w.toNat % 8 = 0 ∧ w.toNat < 2 ^ 51 then w else f.notify }) ∧
      (∀ q, q < 16 → wrote (64 * q + 0x28) (fun f g => g.queueAt q = { f.queueAt q with doneaddr := w }) ∧
        wrote (64 * q + 0x10) (fun f g => g.queueAt q = { f.queueAt q with tail := w }) ∧
        wrote (64 * q) (fun f g => g.queueAt q = { f.queueAt q with base := w &&& ~~~63#64 })) ∧
      ∀ off ∈ [0x400, 0x428, 0x450], vf ≠ 0 → exec (.managementWrite (vf * 2 ^ 16 + off) w) s = .next s)

/-- R368, R371, R372, R376, R379: what links and peers do: a contribution from another rank is kept for its chunk unless
its peer is lost, and waits while duty 5 drains before its operation begins here; a lost package stops each operation of a
group that it is a rank of; the sixteenth keepalive in a row without an answer, or the last port to a peer going down,
loses the peer; and the host admits it again.
The model's own reading in it: log entry 68. -/
def Obligations.PeerActs : Prop :=
  ∀ s : State,
    (∀ pkg gid seq chunk rank op fmt size mode len v,
      ((s.peerAt pkg).lost = false → s.collHolds gid seq = true →
        exec (.allredMessage pkg gid seq chunk rank op fmt size mode len v) s = .next (s.modPkg (fun y => { y with
          heldColl := y.heldColl ++ [(gid, seq, chunk, rank, ⟨op, fmt, size, mode, toBytes len v⟩)] }))) ∧
      ((s.peerAt pkg).lost = false → s.collHolds gid seq = false →
        ∃ t, exec (.allredMessage pkg gid seq chunk rank op fmt size mode len v) s = .next t ∧ t.mem = s.mem ∧
          t.threads = s.threads ∧ t.clusters = s.clusters ∧
          (t.collAt gid seq chunk).parts.find? rank = some ⟨op, fmt, size, mode, toBytes len v⟩ ∧
          ∀ r, r ≠ rank → (t.collAt gid seq chunk).parts.find? r = (s.collAt gid seq chunk).parts.find? r) ∧
      ((s.peerAt pkg).lost = true → exec (.allredMessage pkg gid seq chunk rank op fmt size mode len v) s = .next s)) ∧
    (∀ pkg,
      ((s.peerAt pkg).lost = true → (∀ x ∈ s.clusters, ∀ y ∈ x.2.copies, y.2.packet = none) →
        ∃ t, exec (.rankLost pkg) s = .next t ∧ t.mem = s.mem ∧ t.threads = s.threads ∧
          (∀ cl e c g, s.copyAt? cl e = some c → c.record = none → c.stop = 0 → c.group = some g → pkg ∈ g.map →
            (∀ x ∈ s.clusters, x.1 = cl → ∀ y ∈ x.2.copies, y.1 = e → y.2 = c) →
            ∃ c', t.copyAt? cl e = some c' ∧
              (c.chunks = [] → s.copyAcked c = true → c'.record ≠ none) ∧
              (c.writes = true ∨ s.copyAcked c = false → c'.record = none) ∧
              ∃ f, c'.fault = some (c.cursor, f) ∧ f.code = fMACHINE ∧ f.cause = 4) ∧
          ∀ id r, t.records.find? id = some r → s.records.find? id = some r ∨ r.kind = 3 ∧ r.awaits = true) ∧
      ((s.peerAt pkg).lost = false → exec (.rankLost pkg) s = .next s) ∧
      (∃ t, exec (.keepalive pkg true) s = .next t ∧ (t.peerAt pkg).unanswered = 0 ∧
        (t.peerAt pkg).lost = (s.peerAt pkg).lost ∧ t.mem = s.mem ∧ t.threads = s.threads) ∧
      ((s.peerAt pkg).unanswered + 1 < 16 → ∃ t, exec (.keepalive pkg false) s = .next t ∧
        t.peerAt pkg = ⟨(s.peerAt pkg).lost, (s.peerAt pkg).unanswered + 1⟩ ∧ t.mem = s.mem ∧ t.threads = s.threads) ∧
      (16 ≤ (s.peerAt pkg).unanswered + 1 → ∃ t, exec (.keepalive pkg false) s = .next t ∧ (t.peerAt pkg).lost = true ∧
        t.threads = s.threads) ∧
      (s.pkg.hostHeld = [] → ∃ t, exec (.peerAdmit pkg) s = .next t ∧ t.peerAt pkg = ⟨false, 0⟩ ∧ t.mem = s.mem ∧ t.threads = s.threads ∧
        ∀ k, k ≠ pkg → t.peerAt k = s.peerAt k)) ∧
    (∀ port, port < 18 → s.pkg.ports.length = 18 →
      (∃ t, exec (.scaleOutPortUp port) s = .next t ∧ t.pkg.ports = s.pkg.ports.set port true ∧ t.mem = s.mem) ∧
      ((∃ i, i < 18 ∧ i ≠ port ∧ Config.portPeer i = Config.portPeer port ∧ s.pkg.ports.getD i false = true) →
        ∃ t, exec (.peerPortDown port) s = .next t ∧ t.pkg.ports = s.pkg.ports.set port false ∧ t.mem = s.mem ∧
          t.pkg.peers = s.pkg.peers) ∧
      ((∀ i, i < 18 → i ≠ port → Config.portPeer i = Config.portPeer port → s.pkg.ports.getD i false = false) →
        ∃ t, exec (.peerPortDown port) s = .next t ∧ t.pkg.ports = s.pkg.ports.set port false ∧
          (t.peerAt (Config.portPeer port)).lost = true ∧ t.threads = s.threads)) ∧
    (∀ m, ∃ t, exec (.ucieModuleFailure m) s = .next t ∧ t.pkg.ucie = s.pkg.ucie.set m false ∧ t.mem = s.mem ∧
      t.threads = s.threads) ∧
    (∀ port, (∃ t, exec (.cxlLinkDown port) s = .next t ∧ t.pkg.cxl = s.pkg.cxl.set port false ∧ t.mem = s.mem ∧
        t.threads = s.threads) ∧
      (s.pkg.hostHeld = [] → (∀ e ∈ s.reqs, e.2.engine ≠ some agentName) →
      ∃ t, exec (.cxlLinkRetrain port) s = .next t ∧ t.pkg.cxl = s.pkg.cxl.set port true ∧ t.mem = s.mem ∧
        t.threads = s.threads))

/-- R397 to R401, R405: the start: a power-up counts a start, keeps memory and the boot record but not the tile files, and
comes to step 0; a step that succeeds hands on to the next, a required step that fails halts the start there, and BOOTCLR
of that step runs it again; the last step ends the start; a thermal trip is counted, clears the entries that were begun or
had failed, and starts again; an image write stores the image; and an attestation writes the nonce and the image's digest.
The model's own reading in it: log entries 63 and 64. -/
def Obligations.StartRuns : Prop :=
  ∀ s : State,
    let kept (t : State) : Prop := (∀ a, a < 2 ^ 61 → t.byteAt a = s.byteAt a) ∧ ∀ a, 2 ^ 61 ≤ a → t.byteAt a = 0#8
    (∀ ok mask,
      (s.bootResult 0 ≠ 1 → s.bootResult 0 ≠ 3 →
        ∃ t, exec (.start true ok mask) s = .next t ∧ kept t ∧ t.threads = [] ∧ t.pkg.starts = s.pkg.starts + 1 ∧
          t.pkg.bootNext = 0 ∧ t.pkg.halt = false ∧ t.bootResult 0 = 1 ∧ ∀ i, i ≠ 0 → t.bootResult i = s.bootResult i) ∧
      (s.bootResult 0 = 1 ∨ s.bootResult 0 = 3 →
        ∃ t, exec (.start true ok mask) s = .next t ∧ kept t ∧ t.threads = [] ∧ t.pkg.starts = s.pkg.starts + 1 ∧
          t.pkg.halt = true ∧ t.pkg.haltStep = 0) ∧
      (s.pkg.halt = false → s.bootResult s.pkg.bootNext = 1 →
        let i := s.pkg.bootNext
        (0 < i → i < 12 → ok = true → (i = 5 → s.pkg.scrub = none) → s.bootResult (i + 1) ≠ 1 → s.bootResult (i + 1) ≠ 3 →
          ∃ t, exec (.start false ok mask) s = .next t ∧ t.mem = s.mem ∧ t.threads = s.threads ∧ t.bootResult i = 2 ∧
            t.pkg.bootNext = i + 1 ∧ t.bootResult (i + 1) = 1 ∧ t.pkg.halt = false) ∧
        (i = 14 → ok = true → ∃ t, exec (.start false ok mask) s = .next t ∧ t.mem = s.mem ∧ t.bootResult 14 = 2 ∧
          t.pkg.bootNext = 15) ∧
        (0 < i → i < 15 → i ≠ 12 → i ≠ 13 → ok = false →
          ∃ t, exec (.start false ok mask) s = .next t ∧ t.mem = s.mem ∧ t.bootResult i = 3 ∧ t.pkg.halt = true ∧
            t.pkg.haltStep = i ∧ t.pkg.bootNext = i))) ∧
    (s.pkg.hostHeld = [] → s.pkg.halt = true → s.pkg.haltStep < 15 →
      ∃ t, exec (.bootclr (word s.pkg.haltStep)) s = .next t ∧ t.mem = s.mem ∧ t.pkg.halt = false ∧
        t.pkg.bootNext = s.pkg.haltStep ∧ t.bootResult s.pkg.haltStep = 1) ∧
    (∀ w : Word, s.pkg.hostHeld = [] → w.toNat ≠ s.pkg.haltStep → exec (.bootclr w) s = .next s) ∧
    (∀ n, s.bootResult 0 ≠ 1 → s.bootResult 0 ≠ 3 →
      ∃ t, exec (.thermalTrip n) s = .next t ∧ kept t ∧ t.threads = [] ∧ t.pkg.trips = s.pkg.trips + 1 ∧
        t.pkg.starts = s.pkg.starts + 1 ∧ t.bootResult 0 = 1 ∧ ∀ i, i ≠ 0 → t.bootResult i =
          if s.bootResult i = 1 ∨ s.bootResult i = 3 then 0 else s.bootResult i) ∧
    (∀ len v sig version, s.pkg.hostHeld = [] →
      ∃ t, exec (.firmwareImageWrite len v sig version) s = .next t ∧ t.mem = s.mem ∧ t.threads = s.threads ∧ t.pkg.image = toBytes len v ∧ t.pkg.signature = toBytes 64 sig ∧ t.pkg.version = version) ∧
    (∀ w : Word, s.pkg.hostHeld = [] → s.bad = [] → (∀ e ∈ s.reqs, e.2.engine ≠ some agentName) →
      ∃ t, exec (.attest w) s = .next t ∧ t.threads = s.threads ∧
      ∀ i, i < 32 → t.byteAt (2 ^ 51 + w.toNat + i) = s.byteAt (2 ^ 51 + w.toNat + 192 + i) ∧
        t.byteAt (2 ^ 51 + w.toNat + 32 + i) = (sm3 s.pkg.image).getD i 0#8)

/-! Decoding, steps and reset. -/

/-- R17, R22, R23, R30, R38, R45, R49, R51, R54, R56: words written out in the spec, one or two a family, decode to the
instructions that it gives them for, and a word with an unassigned major is ILLEGAL(1). -/
def Obligations.SpecWordsDecode : Prop :=
  decodeWords [0x00004204#32] = .ok (.add 2#5 2#5 0#5 false Mods.base, []) ∧
  decodeWords [0x01904208#32] = .ok (.addi 2#5 2#5 100#14 Mods.base, []) ∧
  decodeWords [0x00000127#32, 0x00000100#32, 0#32, 0x89ABCDEF#32, 0x01234567#32] =
    .ok (.movi 1#5 0#14 { Mods.base with len := 3#2, gpred := 1#3, lit := 0x0123456789ABCDEF#64 }, []) ∧
  decodeWords [0x00001128#32] = .ok (.cmpLtImm 1#3 0#5 0#14 Mods.base, []) ∧
  decodeWords [0x00006980#32] = .ok (.bf 1#3 3#19 Mods.base, []) ∧
  decodeWords [0x01834089#32, 0x00000100#32, 0#32] = .ok (.brk 26#5 { Mods.base with len := 1#2, gpred := 1#3 }, []) ∧
  decodeWords [0x00404158#32] = .ok (.ldD 1#5 2#5 16#14 Mods.base, []) ∧
  decodeWords [0x600C2491#32, 0x00003000#32, 0#32] =
    .ok (.amoAdd false 3#2 4#5 1#5 3#5 { Mods.base with len := 1#2, scope := 3#3 }, []) ∧
  decodeWords [0x0A1C02AC#32] = .ok (.vperm false 2#3 0#3 7#3 Mods.base, []) ∧
  decodeWords [0x008C80C9#32, 4#32, 0x80#32] =
    .ok (.gth 0#5 4#5 3#5 { Mods.base with len := 1#2, rc := 4#5, w2 := 0x80#32 }, []) ∧
  decodeWords [0x400406C4#32] = .ok (.mma 2#3 6#5 0#3 1#3 Mods.base, []) ∧
  decodeWords [0x0280003C#32] = .ok (.rft Mods.base, []) ∧
  decodeWords [0x0000015C#32] = .error (.illegal .major)

/-- R19, R56, R92, R117, R316: a turn whose slot has its next instruction's words in its buffer, within its launch's image,
fetches them, and a step runs the instruction that they decode to, of an agenda's turn and of a turn that the machine chooses
alike; words that decode to none raise ILLEGAL with the decoder's cause; and an error that arises changes nothing but its
unit's mark. The agenda, the order of turns and the mark are the model's own choice (log entries 16 and 60). -/
def Obligations.StepRunsDecoded : Prop :=
  (∀ (core : Nat) (rest : List Move) (s t : State) (ws more : List IWord) (i : Instr), s.agenda = .turn core :: rest →
    ({ s with agenda := rest } : State).turnStart core = .words t ws →
    (decodeWords ws = .ok (i, more) → step s = exec i t) ∧
    ∀ c, decodeWords ws = .error (.illegal c) → step s = .next (t.raise fILLEGAL c.toNat 0#64 3)) ∧
  (∀ (core : Nat) (s t : State) (ws more : List IWord) (i : Instr), s.agenda = [] → s.readyCore = some core →
    s.turnStart core = .words t ws → decodeWords ws = .ok (i, more) → step s = exec i t) ∧
  (∀ (i : Instr) (rest : List Move) (s : State), s.agenda = .event i :: rest → toRaw i = none →
    step s = exec i { s with agenda := rest }) ∧
  (∀ (unit : Nat) (rest : List Move) (s : State), s.agenda = .upset unit :: rest →
    ∃ t, step s = .next t ∧ (∀ u, u ∈ t.bad ↔ u = unit ∨ u ∈ s.bad) ∧ { t with bad := s.bad, agenda := s.agenda } = s) ∧
  (∀ (core q u base : Nat) (l : List IWord) (s : State), core < Config.coreCount → s.parkAll core = s →
    s.nextSlot core = some q → (s.slotAt q).occ = some u → (s.threadAt u).killed = false → (s.threadAt u).lost = none →
    (s.slotAt q).ibuf = some (base, l) → s.reissues u = none →
    let pc := (s.threadAt u).pc.toNat
    let ws := l.drop ((pc - base) / 4)
    base ≤ pc → base + 32 ≤ 2 ^ 64 → ws ≠ [] →
    let n := wordCount (ws.getD 0 0#32)
    let f := s.famAt (s.threadAt u).fam
    pc + 4 * n ≤ base + 32 → n ≤ ws.length →
    f.level = 0 ∨ (f.image.1 ≤ pc ∧ pc + 4 * n ≤ f.image.1 + f.image.2) →
    s.turnStart core = .words (s.beginTurn q) (ws.take n) ∧
    ∀ v, (s.beginTurn q).threadAt v = if v = u then { s.threadAt u with wait := .none } else s.threadAt v)

/-- R204, R224, R307, R326, R333, R336, R380, R404: what the spec's maps give for reset, and memory in its canonical form
with nothing listed.
The model's own reading in it: log entry 1. -/
def Obligations.ResetState : Prop :=
  State.reset.memWf ∧ State.reset.threads = [] ∧ State.reset.pkg.scrubPos = 0#64 ∧ State.reset.pkg.pwrcap = 5200 ∧
  State.reset.pkg.pwrstat = 0#64 ∧ State.reset.pkg.halt = false ∧ State.reset.pkg.keys = [] ∧
  (∀ core i, (State.reset.coreAt core).tshape.get 0#64 i = 0#64 ∧ (State.reset.coreAt core).tmeta.get 0#64 i = 0#64) ∧
  (∀ vf q, (State.reset.queueAt vf q).control = 0x80#64 ∧ (State.reset.queueAt vf q).enabled = false) ∧
  (∀ vf, (State.reset.funcAt vf).ctxroot = 0#64 ∧ (State.reset.funcAt vf).arena = 0#64 ∧
    (State.reset.funcAt vf).slotarea = 0#64 ∧ (State.reset.funcAt vf).fqbase = 0#64 ∧ (State.reset.funcAt vf).fqhead = 0#64 ∧
    (State.reset.funcAt vf).fqtail = 0#64 ∧ (State.reset.funcAt vf).frames = 0#64 ∧ (State.reset.funcAt vf).fqctl = 6#64 ∧
    (State.reset.funcAt vf).gangctl = 0#64 ∧ (State.reset.funcAt vf).gangstat = 0#64 ∧ State.reset.ctxctl vf = 0#64)

/-- R17 to R56: every instruction that the encoding tables permit is what its words decode to, whatever words follow: no
operand bit is dropped. -/
def Obligations.EncodeDecodeRoundTrip : Prop :=
  ∀ (i : Instr) (r : Raw) (rest : List IWord), toRaw i = some r → WellFormed i →
    decodeWords (encode i ++ rest) = .ok (i, rest)

/-- R148: in every state in which memory is in its canonical form, it still is after any step, whichever move the step
makes. The form is the model's (log entry 1). -/
def Obligations.StepKeepsMemoryCanonical : Prop :=
  ∀ s t : State, s.memWf → step s = .next t → t.memWf
end

