-- ==== Sys2Proof/Laws/Bits.lean ====
section
/-! SUPPORT. The laws of bit fields. -/

namespace Sys2Proof.Machine

/-- The bits of a number with a field replaced. -/
theorem testBit_putBits (n lo len v i : Nat) :
    (putBits n lo len v).testBit i = if i < lo then n.testBit i else if i < lo + len then v.testBit (i - lo) else n.testBit i := by
  have h1 : n % 2 ^ lo < 2 ^ lo := Nat.mod_lt _ (Nat.two_pow_pos _)
  have h2 : v % 2 ^ len * 2 ^ lo + n % 2 ^ lo < 2 ^ (lo + len) := by
    have : v % 2 ^ len + 1 ≤ 2 ^ len := Nat.mod_lt _ (Nat.two_pow_pos _)
    calc v % 2 ^ len * 2 ^ lo + n % 2 ^ lo < v % 2 ^ len * 2 ^ lo + 2 ^ lo := by omega
      _ = (v % 2 ^ len + 1) * 2 ^ lo := by ring
      _ ≤ 2 ^ len * 2 ^ lo := Nat.mul_le_mul_right _ this
      _ = 2 ^ (lo + len) := by rw [Nat.pow_add, Nat.mul_comm]
  have e : putBits n lo len v = 2 ^ (lo + len) * (n / 2 ^ (lo + len)) + (2 ^ lo * (v % 2 ^ len) + n % 2 ^ lo) := by
    unfold putBits; ring
  rw [e, Nat.testBit_two_pow_mul_add _ (by rw [Nat.mul_comm]; exact h2), Nat.testBit_two_pow_mul_add _ h1]
  by_cases a : i < lo
  · simp [a, show i < lo + len by omega, Nat.testBit_mod_two_pow]
  · by_cases b : i < lo + len
    · simp [a, b, Nat.testBit_mod_two_pow, show i - lo < len by omega]
    · simp [a, b, Nat.testBit_div_two_pow, show i - (lo + len) + (lo + len) = i by omega]

/-- The value of a field. -/
theorem testBit_bitsOf (n lo len i : Nat) : (bitsOf n lo len).testBit i = (decide (i < len) && n.testBit (lo + i)) := by
  simp [bitsOf, Nat.testBit_mod_two_pow, Nat.testBit_div_two_pow, Nat.add_comm]

/-- Bytes written down and read back. -/
theorem ofBytes_toBytes (n v : Nat) : ofBytes (toBytes n v) = v % 256 ^ n := by
  induction n generalizing v with
  | zero => simp [toBytes, ofBytes, Nat.mod_one]
  | succ n ih =>
    simp only [toBytes, ofBytes, ih, BitVec.toNat_ofNat]
    rw [show (256 : Nat) ^ (n + 1) = 256 * 256 ^ n by ring, Nat.mod_mul]
@[simp] theorem length_toBytes (n v : Nat) : (toBytes n v).length = n := by
  induction n generalizing v with
  | zero => rfl
  | succ n ih => simp [toBytes, ih]

end Sys2Proof.Machine
end

