-- ==== Sys2Proof/Laws/Exec.lean ====
section
/-! SUPPORT. The arm of every instruction, as a rewriting rule. -/

namespace Sys2Proof.Machine

theorem exec_add (d : BitVec 5) (a : BitVec 5) (b : BitVec 5) (imm : Bool) (m : Mods) (s : State) : exec (.add d a b imm m) s = execAdd d a b imm m s := rfl
theorem exec_sub (d : BitVec 5) (a : BitVec 5) (b : BitVec 5) (imm : Bool) (m : Mods) (s : State) : exec (.sub d a b imm m) s = execSub d a b imm m s := rfl
theorem exec_mul (d : BitVec 5) (a : BitVec 5) (b : BitVec 5) (imm : Bool) (m : Mods) (s : State) : exec (.mul d a b imm m) s = execMul d a b imm m s := rfl
theorem exec_mulh (d : BitVec 5) (a : BitVec 5) (b : BitVec 5) (imm : Bool) (m : Mods) (s : State) : exec (.mulh d a b imm m) s = execMulh d a b imm m s := rfl
theorem exec_mulhu (d : BitVec 5) (a : BitVec 5) (b : BitVec 5) (imm : Bool) (m : Mods) (s : State) : exec (.mulhu d a b imm m) s = execMulhu d a b imm m s := rfl
theorem exec_div (d : BitVec 5) (a : BitVec 5) (b : BitVec 5) (imm : Bool) (m : Mods) (s : State) : exec (.div d a b imm m) s = execDiv d a b imm m s := rfl
theorem exec_divu (d : BitVec 5) (a : BitVec 5) (b : BitVec 5) (imm : Bool) (m : Mods) (s : State) : exec (.divu d a b imm m) s = execDivu d a b imm m s := rfl
theorem exec_rem (d : BitVec 5) (a : BitVec 5) (b : BitVec 5) (imm : Bool) (m : Mods) (s : State) : exec (.rem d a b imm m) s = execRem d a b imm m s := rfl
theorem exec_remu (d : BitVec 5) (a : BitVec 5) (b : BitVec 5) (imm : Bool) (m : Mods) (s : State) : exec (.remu d a b imm m) s = execRemu d a b imm m s := rfl
theorem exec_and (d : BitVec 5) (a : BitVec 5) (b : BitVec 5) (imm : Bool) (m : Mods) (s : State) : exec (.and d a b imm m) s = execAnd d a b imm m s := rfl
theorem exec_or (d : BitVec 5) (a : BitVec 5) (b : BitVec 5) (imm : Bool) (m : Mods) (s : State) : exec (.or d a b imm m) s = execOr d a b imm m s := rfl
theorem exec_xor (d : BitVec 5) (a : BitVec 5) (b : BitVec 5) (imm : Bool) (m : Mods) (s : State) : exec (.xor d a b imm m) s = execXor d a b imm m s := rfl
theorem exec_andn (d : BitVec 5) (a : BitVec 5) (b : BitVec 5) (imm : Bool) (m : Mods) (s : State) : exec (.andn d a b imm m) s = execAndn d a b imm m s := rfl
theorem exec_shl (d : BitVec 5) (a : BitVec 5) (b : BitVec 5) (imm : Bool) (m : Mods) (s : State) : exec (.shl d a b imm m) s = execShl d a b imm m s := rfl
theorem exec_shr (d : BitVec 5) (a : BitVec 5) (b : BitVec 5) (imm : Bool) (m : Mods) (s : State) : exec (.shr d a b imm m) s = execShr d a b imm m s := rfl
theorem exec_sar (d : BitVec 5) (a : BitVec 5) (b : BitVec 5) (imm : Bool) (m : Mods) (s : State) : exec (.sar d a b imm m) s = execSar d a b imm m s := rfl
theorem exec_rol (d : BitVec 5) (a : BitVec 5) (b : BitVec 5) (imm : Bool) (m : Mods) (s : State) : exec (.rol d a b imm m) s = execRol d a b imm m s := rfl
theorem exec_ror (d : BitVec 5) (a : BitVec 5) (b : BitVec 5) (imm : Bool) (m : Mods) (s : State) : exec (.ror d a b imm m) s = execRor d a b imm m s := rfl
theorem exec_min (d : BitVec 5) (a : BitVec 5) (b : BitVec 5) (imm : Bool) (m : Mods) (s : State) : exec (.min d a b imm m) s = execMin d a b imm m s := rfl
theorem exec_max (d : BitVec 5) (a : BitVec 5) (b : BitVec 5) (imm : Bool) (m : Mods) (s : State) : exec (.max d a b imm m) s = execMax d a b imm m s := rfl
theorem exec_minu (d : BitVec 5) (a : BitVec 5) (b : BitVec 5) (imm : Bool) (m : Mods) (s : State) : exec (.minu d a b imm m) s = execMinu d a b imm m s := rfl
theorem exec_maxu (d : BitVec 5) (a : BitVec 5) (b : BitVec 5) (imm : Bool) (m : Mods) (s : State) : exec (.maxu d a b imm m) s = execMaxu d a b imm m s := rfl
theorem exec_mov (d : BitVec 5) (a : BitVec 5) (m : Mods) (s : State) : exec (.mov d a m) s = execMov d a m s := rfl
theorem exec_clz (d : BitVec 5) (a : BitVec 5) (m : Mods) (s : State) : exec (.clz d a m) s = execClz d a m s := rfl
theorem exec_ctz (d : BitVec 5) (a : BitVec 5) (m : Mods) (s : State) : exec (.ctz d a m) s = execCtz d a m s := rfl
theorem exec_popc (d : BitVec 5) (a : BitVec 5) (m : Mods) (s : State) : exec (.popc d a m) s = execPopc d a m s := rfl
theorem exec_bswap (d : BitVec 5) (a : BitVec 5) (m : Mods) (s : State) : exec (.bswap d a m) s = execBswap d a m s := rfl
theorem exec_sxb (d : BitVec 5) (a : BitVec 5) (m : Mods) (s : State) : exec (.sxb d a m) s = execSxb d a m s := rfl
theorem exec_sxh (d : BitVec 5) (a : BitVec 5) (m : Mods) (s : State) : exec (.sxh d a m) s = execSxh d a m s := rfl
theorem exec_sxw (d : BitVec 5) (a : BitVec 5) (m : Mods) (s : State) : exec (.sxw d a m) s = execSxw d a m s := rfl
theorem exec_zxw (d : BitVec 5) (a : BitVec 5) (m : Mods) (s : State) : exec (.zxw d a m) s = execZxw d a m s := rfl
theorem exec_bfxReg (d : BitVec 5) (a : BitVec 5) (b : BitVec 5) (imm : Bool) (m : Mods) (s : State) : exec (.bfxReg d a b imm m) s = execBfxReg d a b imm m s := rfl
theorem exec_bfxuReg (d : BitVec 5) (a : BitVec 5) (b : BitVec 5) (imm : Bool) (m : Mods) (s : State) : exec (.bfxuReg d a b imm m) s = execBfxuReg d a b imm m s := rfl
theorem exec_bfi (d : BitVec 5) (a : BitVec 5) (b : BitVec 5) (imm : Bool) (m : Mods) (s : State) : exec (.bfi d a b imm m) s = execBfi d a b imm m s := rfl
theorem exec_lea1 (d : BitVec 5) (a : BitVec 5) (b : BitVec 5) (m : Mods) (s : State) : exec (.lea1 d a b m) s = execLea1 d a b m s := rfl
theorem exec_lea2 (d : BitVec 5) (a : BitVec 5) (b : BitVec 5) (m : Mods) (s : State) : exec (.lea2 d a b m) s = execLea2 d a b m s := rfl
theorem exec_lea4 (d : BitVec 5) (a : BitVec 5) (b : BitVec 5) (m : Mods) (s : State) : exec (.lea4 d a b m) s = execLea4 d a b m s := rfl
theorem exec_lea8 (d : BitVec 5) (a : BitVec 5) (b : BitVec 5) (m : Mods) (s : State) : exec (.lea8 d a b m) s = execLea8 d a b m s := rfl
theorem exec_addi (d : BitVec 5) (a : BitVec 5) (im : BitVec 14) (m : Mods) (s : State) : exec (.addi d a im m) s = execAddi d a im m s := rfl
theorem exec_muli (d : BitVec 5) (a : BitVec 5) (im : BitVec 14) (m : Mods) (s : State) : exec (.muli d a im m) s = execMuli d a im m s := rfl
theorem exec_andi (d : BitVec 5) (a : BitVec 5) (im : BitVec 14) (m : Mods) (s : State) : exec (.andi d a im m) s = execAndi d a im m s := rfl
theorem exec_ori (d : BitVec 5) (a : BitVec 5) (im : BitVec 14) (m : Mods) (s : State) : exec (.ori d a im m) s = execOri d a im m s := rfl
theorem exec_xori (d : BitVec 5) (a : BitVec 5) (im : BitVec 14) (m : Mods) (s : State) : exec (.xori d a im m) s = execXori d a im m s := rfl
theorem exec_shlImm (d : BitVec 5) (a : BitVec 5) (n : BitVec 6) (m : Mods) (s : State) : exec (.shlImm d a n m) s = execShlImm d a n m s := rfl
theorem exec_shrImm (d : BitVec 5) (a : BitVec 5) (n : BitVec 6) (m : Mods) (s : State) : exec (.shrImm d a n m) s = execShrImm d a n m s := rfl
theorem exec_sarImm (d : BitVec 5) (a : BitVec 5) (n : BitVec 6) (m : Mods) (s : State) : exec (.sarImm d a n m) s = execSarImm d a n m s := rfl
theorem exec_rolImm (d : BitVec 5) (a : BitVec 5) (n : BitVec 6) (m : Mods) (s : State) : exec (.rolImm d a n m) s = execRolImm d a n m s := rfl
theorem exec_rorImm (d : BitVec 5) (a : BitVec 5) (n : BitVec 6) (m : Mods) (s : State) : exec (.rorImm d a n m) s = execRorImm d a n m s := rfl
theorem exec_bfxImm (d : BitVec 5) (a : BitVec 5) (p : BitVec 6) (w : BitVec 6) (m : Mods) (s : State) : exec (.bfxImm d a p w m) s = execBfxImm d a p w m s := rfl
theorem exec_bfxuImm (d : BitVec 5) (a : BitVec 5) (p : BitVec 6) (w : BitVec 6) (m : Mods) (s : State) : exec (.bfxuImm d a p w m) s = execBfxuImm d a p w m s := rfl
theorem exec_movi (d : BitVec 5) (im : BitVec 14) (m : Mods) (s : State) : exec (.movi d im m) s = execMovi d im m s := rfl
theorem exec_cmpEqImm (p : BitVec 3) (a : BitVec 5) (im : BitVec 14) (m : Mods) (s : State) : exec (.cmpEqImm p a im m) s = execCmpEqImm p a im m s := rfl
theorem exec_cmpNeImm (p : BitVec 3) (a : BitVec 5) (im : BitVec 14) (m : Mods) (s : State) : exec (.cmpNeImm p a im m) s = execCmpNeImm p a im m s := rfl
theorem exec_cmpLtImm (p : BitVec 3) (a : BitVec 5) (im : BitVec 14) (m : Mods) (s : State) : exec (.cmpLtImm p a im m) s = execCmpLtImm p a im m s := rfl
theorem exec_cmpLeImm (p : BitVec 3) (a : BitVec 5) (im : BitVec 14) (m : Mods) (s : State) : exec (.cmpLeImm p a im m) s = execCmpLeImm p a im m s := rfl
theorem exec_cmpGtImm (p : BitVec 3) (a : BitVec 5) (im : BitVec 14) (m : Mods) (s : State) : exec (.cmpGtImm p a im m) s = execCmpGtImm p a im m s := rfl
theorem exec_cmpGeImm (p : BitVec 3) (a : BitVec 5) (im : BitVec 14) (m : Mods) (s : State) : exec (.cmpGeImm p a im m) s = execCmpGeImm p a im m s := rfl
theorem exec_cmpLtuImm (p : BitVec 3) (a : BitVec 5) (im : BitVec 14) (m : Mods) (s : State) : exec (.cmpLtuImm p a im m) s = execCmpLtuImm p a im m s := rfl
theorem exec_cmpLeuImm (p : BitVec 3) (a : BitVec 5) (im : BitVec 14) (m : Mods) (s : State) : exec (.cmpLeuImm p a im m) s = execCmpLeuImm p a im m s := rfl
theorem exec_cmpGtuImm (p : BitVec 3) (a : BitVec 5) (im : BitVec 14) (m : Mods) (s : State) : exec (.cmpGtuImm p a im m) s = execCmpGtuImm p a im m s := rfl
theorem exec_cmpGeuImm (p : BitVec 3) (a : BitVec 5) (im : BitVec 14) (m : Mods) (s : State) : exec (.cmpGeuImm p a im m) s = execCmpGeuImm p a im m s := rfl
theorem exec_cmpTstImm (p : BitVec 3) (a : BitVec 5) (im : BitVec 14) (m : Mods) (s : State) : exec (.cmpTstImm p a im m) s = execCmpTstImm p a im m s := rfl
theorem exec_cmpTstzImm (p : BitVec 3) (a : BitVec 5) (im : BitVec 14) (m : Mods) (s : State) : exec (.cmpTstzImm p a im m) s = execCmpTstzImm p a im m s := rfl
theorem exec_cmpEq (p : BitVec 3) (a : BitVec 5) (b : BitVec 5) (m : Mods) (s : State) : exec (.cmpEq p a b m) s = execCmpEq p a b m s := rfl
theorem exec_cmpNe (p : BitVec 3) (a : BitVec 5) (b : BitVec 5) (m : Mods) (s : State) : exec (.cmpNe p a b m) s = execCmpNe p a b m s := rfl
theorem exec_cmpLt (p : BitVec 3) (a : BitVec 5) (b : BitVec 5) (m : Mods) (s : State) : exec (.cmpLt p a b m) s = execCmpLt p a b m s := rfl
theorem exec_cmpLe (p : BitVec 3) (a : BitVec 5) (b : BitVec 5) (m : Mods) (s : State) : exec (.cmpLe p a b m) s = execCmpLe p a b m s := rfl
theorem exec_cmpGt (p : BitVec 3) (a : BitVec 5) (b : BitVec 5) (m : Mods) (s : State) : exec (.cmpGt p a b m) s = execCmpGt p a b m s := rfl
theorem exec_cmpGe (p : BitVec 3) (a : BitVec 5) (b : BitVec 5) (m : Mods) (s : State) : exec (.cmpGe p a b m) s = execCmpGe p a b m s := rfl
theorem exec_cmpLtu (p : BitVec 3) (a : BitVec 5) (b : BitVec 5) (m : Mods) (s : State) : exec (.cmpLtu p a b m) s = execCmpLtu p a b m s := rfl
theorem exec_cmpLeu (p : BitVec 3) (a : BitVec 5) (b : BitVec 5) (m : Mods) (s : State) : exec (.cmpLeu p a b m) s = execCmpLeu p a b m s := rfl
theorem exec_cmpGtu (p : BitVec 3) (a : BitVec 5) (b : BitVec 5) (m : Mods) (s : State) : exec (.cmpGtu p a b m) s = execCmpGtu p a b m s := rfl
theorem exec_cmpGeu (p : BitVec 3) (a : BitVec 5) (b : BitVec 5) (m : Mods) (s : State) : exec (.cmpGeu p a b m) s = execCmpGeu p a b m s := rfl
theorem exec_cmpTst (p : BitVec 3) (a : BitVec 5) (b : BitVec 5) (m : Mods) (s : State) : exec (.cmpTst p a b m) s = execCmpTst p a b m s := rfl
theorem exec_cmpTstz (p : BitVec 3) (a : BitVec 5) (b : BitVec 5) (m : Mods) (s : State) : exec (.cmpTstz p a b m) s = execCmpTstz p a b m s := rfl
theorem exec_pand (d : BitVec 3) (a : BitVec 3) (b : BitVec 3) (m : Mods) (s : State) : exec (.pand d a b m) s = execPand d a b m s := rfl
theorem exec_por (d : BitVec 3) (a : BitVec 3) (b : BitVec 3) (m : Mods) (s : State) : exec (.por d a b m) s = execPor d a b m s := rfl
theorem exec_pxor (d : BitVec 3) (a : BitVec 3) (b : BitVec 3) (m : Mods) (s : State) : exec (.pxor d a b m) s = execPxor d a b m s := rfl
theorem exec_pandn (d : BitVec 3) (a : BitVec 3) (b : BitVec 3) (m : Mods) (s : State) : exec (.pandn d a b m) s = execPandn d a b m s := rfl
theorem exec_pnot (d : BitVec 3) (a : BitVec 3) (m : Mods) (s : State) : exec (.pnot d a m) s = execPnot d a m s := rfl
theorem exec_pmov (d : BitVec 3) (a : BitVec 3) (m : Mods) (s : State) : exec (.pmov d a m) s = execPmov d a m s := rfl
theorem exec_prd (d : BitVec 5) (m : Mods) (s : State) : exec (.prd d m) s = execPrd d m s := rfl
theorem exec_pwr (a : BitVec 5) (m : Mods) (s : State) : exec (.pwr a m) s = execPwr a m s := rfl
theorem exec_fadd (w : Bool) (d : BitVec 5) (a : BitVec 5) (b : BitVec 5) (m : Mods) (s : State) : exec (.fadd w d a b m) s = execFadd w d a b m s := rfl
theorem exec_fsub (w : Bool) (d : BitVec 5) (a : BitVec 5) (b : BitVec 5) (m : Mods) (s : State) : exec (.fsub w d a b m) s = execFsub w d a b m s := rfl
theorem exec_fmul (w : Bool) (d : BitVec 5) (a : BitVec 5) (b : BitVec 5) (m : Mods) (s : State) : exec (.fmul w d a b m) s = execFmul w d a b m s := rfl
theorem exec_fdiv (w : Bool) (d : BitVec 5) (a : BitVec 5) (b : BitVec 5) (m : Mods) (s : State) : exec (.fdiv w d a b m) s = execFdiv w d a b m s := rfl
theorem exec_fsqrt (w : Bool) (d : BitVec 5) (a : BitVec 5) (m : Mods) (s : State) : exec (.fsqrt w d a m) s = execFsqrt w d a m s := rfl
theorem exec_fmin (w : Bool) (d : BitVec 5) (a : BitVec 5) (b : BitVec 5) (m : Mods) (s : State) : exec (.fmin w d a b m) s = execFmin w d a b m s := rfl
theorem exec_fmax (w : Bool) (d : BitVec 5) (a : BitVec 5) (b : BitVec 5) (m : Mods) (s : State) : exec (.fmax w d a b m) s = execFmax w d a b m s := rfl
theorem exec_fabs (w : Bool) (d : BitVec 5) (a : BitVec 5) (m : Mods) (s : State) : exec (.fabs w d a m) s = execFabs w d a m s := rfl
theorem exec_fneg (w : Bool) (d : BitVec 5) (a : BitVec 5) (m : Mods) (s : State) : exec (.fneg w d a m) s = execFneg w d a m s := rfl
theorem exec_fma (w : Bool) (d : BitVec 5) (a : BitVec 5) (b : BitVec 5) (m : Mods) (s : State) : exec (.fma w d a b m) s = execFma w d a b m s := rfl
theorem exec_fnma (w : Bool) (d : BitVec 5) (a : BitVec 5) (b : BitVec 5) (m : Mods) (s : State) : exec (.fnma w d a b m) s = execFnma w d a b m s := rfl
theorem exec_fcmpEq (w : Bool) (p : BitVec 3) (a : BitVec 5) (b : BitVec 5) (m : Mods) (s : State) : exec (.fcmpEq w p a b m) s = execFcmpEq w p a b m s := rfl
theorem exec_fcmpNe (w : Bool) (p : BitVec 3) (a : BitVec 5) (b : BitVec 5) (m : Mods) (s : State) : exec (.fcmpNe w p a b m) s = execFcmpNe w p a b m s := rfl
theorem exec_fcmpLt (w : Bool) (p : BitVec 3) (a : BitVec 5) (b : BitVec 5) (m : Mods) (s : State) : exec (.fcmpLt w p a b m) s = execFcmpLt w p a b m s := rfl
theorem exec_fcmpLe (w : Bool) (p : BitVec 3) (a : BitVec 5) (b : BitVec 5) (m : Mods) (s : State) : exec (.fcmpLe w p a b m) s = execFcmpLe w p a b m s := rfl
theorem exec_fcmpUn (w : Bool) (p : BitVec 3) (a : BitVec 5) (b : BitVec 5) (m : Mods) (s : State) : exec (.fcmpUn w p a b m) s = execFcmpUn w p a b m s := rfl
theorem exec_fclass (w : Bool) (d : BitVec 5) (a : BitVec 5) (m : Mods) (s : State) : exec (.fclass w d a m) s = execFclass w d a m s := rfl
theorem exec_fcvt (d : BitVec 5) (a : BitVec 5) (m : Mods) (s : State) : exec (.fcvt d a m) s = execFcvt d a m s := rfl
theorem exec_nop (m : Mods) (s : State) : exec (.nop m) s = execNop m s := rfl
theorem exec_krd (d : BitVec 5) (k : BitVec 10) (m : Mods) (s : State) : exec (.krd d k m) s = execKrd d k m s := rfl
theorem exec_kwr (k : BitVec 10) (a : BitVec 5) (m : Mods) (s : State) : exec (.kwr k a m) s = execKwr k a m s := rfl
theorem exec_fence (m : Mods) (s : State) : exec (.fence m) s = execFence m s := rfl
theorem exec_trap (n : BitVec 5) (m : Mods) (s : State) : exec (.trap n m) s = execTrap n m s := rfl
theorem exec_rft (m : Mods) (s : State) : exec (.rft m) s = execRft m s := rfl
theorem exec_tlbinv (a : BitVec 5) (m : Mods) (s : State) : exec (.tlbinv a m) s = execTlbinv a m s := rfl
theorem exec_kslz (a : BitVec 5) (m : Mods) (s : State) : exec (.kslz a m) s = execKslz a m s := rfl
theorem exec_scrb (a : BitVec 5) (m : Mods) (s : State) : exec (.scrb a m) s = execScrb a m s := rfl
theorem exec_ldB (d : BitVec 5) (a : BitVec 5) (im : BitVec 14) (m : Mods) (s : State) : exec (.ldB d a im m) s = execLdB d a im m s := rfl
theorem exec_ldBu (d : BitVec 5) (a : BitVec 5) (im : BitVec 14) (m : Mods) (s : State) : exec (.ldBu d a im m) s = execLdBu d a im m s := rfl
theorem exec_ldH (d : BitVec 5) (a : BitVec 5) (im : BitVec 14) (m : Mods) (s : State) : exec (.ldH d a im m) s = execLdH d a im m s := rfl
theorem exec_ldHu (d : BitVec 5) (a : BitVec 5) (im : BitVec 14) (m : Mods) (s : State) : exec (.ldHu d a im m) s = execLdHu d a im m s := rfl
theorem exec_ldW (d : BitVec 5) (a : BitVec 5) (im : BitVec 14) (m : Mods) (s : State) : exec (.ldW d a im m) s = execLdW d a im m s := rfl
theorem exec_ldWu (d : BitVec 5) (a : BitVec 5) (im : BitVec 14) (m : Mods) (s : State) : exec (.ldWu d a im m) s = execLdWu d a im m s := rfl
theorem exec_ldD (d : BitVec 5) (a : BitVec 5) (im : BitVec 14) (m : Mods) (s : State) : exec (.ldD d a im m) s = execLdD d a im m s := rfl
theorem exec_stB (d : BitVec 5) (a : BitVec 5) (im : BitVec 14) (m : Mods) (s : State) : exec (.stB d a im m) s = execStB d a im m s := rfl
theorem exec_stH (d : BitVec 5) (a : BitVec 5) (im : BitVec 14) (m : Mods) (s : State) : exec (.stH d a im m) s = execStH d a im m s := rfl
theorem exec_stW (d : BitVec 5) (a : BitVec 5) (im : BitVec 14) (m : Mods) (s : State) : exec (.stW d a im m) s = execStW d a im m s := rfl
theorem exec_stD (d : BitVec 5) (a : BitVec 5) (im : BitVec 14) (m : Mods) (s : State) : exec (.stD d a im m) s = execStD d a im m s := rfl
theorem exec_ldfe (d : BitVec 5) (a : BitVec 5) (im : BitVec 14) (m : Mods) (s : State) : exec (.ldfe d a im m) s = execLdfe d a im m s := rfl
theorem exec_stfe (d : BitVec 5) (a : BitVec 5) (im : BitVec 14) (m : Mods) (s : State) : exec (.stfe d a im m) s = execStfe d a im m s := rfl
theorem exec_ldIndexed (sc : BitVec 2) (z : BitVec 3) (d : BitVec 5) (a : BitVec 5) (b : BitVec 5) (m : Mods) (s : State) : exec (.ldIndexed sc z d a b m) s = execLdIndexed sc z d a b m s := rfl
theorem exec_stIndexed (sc : BitVec 2) (z : BitVec 3) (d : BitVec 5) (a : BitVec 5) (b : BitVec 5) (m : Mods) (s : State) : exec (.stIndexed sc z d a b m) s = execStIndexed sc z d a b m s := rfl
theorem exec_ldlo (d : BitVec 5) (a : BitVec 5) (m : Mods) (s : State) : exec (.ldlo d a m) s = execLdlo d a m s := rfl
theorem exec_stlo (a : BitVec 5) (b : BitVec 5) (m : Mods) (s : State) : exec (.stlo a b m) s = execStlo a b m s := rfl
theorem exec_stloMd (a : BitVec 5) (b : BitVec 5) (m : Mods) (s : State) : exec (.stloMd a b m) s = execStloMd a b m s := rfl
theorem exec_b (o : BitVec 19) (m : Mods) (s : State) : exec (.b o m) s = execB o m s := rfl
theorem exec_bt (p : BitVec 3) (o : BitVec 19) (m : Mods) (s : State) : exec (.bt p o m) s = execBt p o m s := rfl
theorem exec_bf (p : BitVec 3) (o : BitVec 19) (m : Mods) (s : State) : exec (.bf p o m) s = execBf p o m s := rfl
theorem exec_callLit (m : Mods) (s : State) : exec (.callLit m) s = execCallLit m s := rfl
theorem exec_callReg (a : BitVec 5) (m : Mods) (s : State) : exec (.callReg a m) s = execCallReg a m s := rfl
theorem exec_jmp (a : BitVec 5) (m : Mods) (s : State) : exec (.jmp a m) s = execJmp a m s := rfl
theorem exec_ret (m : Mods) (s : State) : exec (.ret m) s = execRet m s := rfl
theorem exec_wflush (m : Mods) (s : State) : exec (.wflush m) s = execWflush m s := rfl
theorem exec_wdepth (d : BitVec 5) (m : Mods) (s : State) : exec (.wdepth d m) s = execWdepth d m s := rfl
theorem exec_create (d : BitVec 5) (a : BitVec 5) (b : BitVec 5) (m : Mods) (s : State) : exec (.create d a b m) s = execCreate d a b m s := rfl
theorem exec_spawn (a : BitVec 5) (b : BitVec 5) (m : Mods) (s : State) : exec (.spawn a b m) s = execSpawn a b m s := rfl
theorem exec_sync (a : BitVec 5) (m : Mods) (s : State) : exec (.sync a m) s = execSync a m s := rfl
theorem exec_brk (a : BitVec 5) (m : Mods) (s : State) : exec (.brk a m) s = execBrk a m s := rfl
theorem exec_kill (a : BitVec 5) (m : Mods) (s : State) : exec (.kill a m) s = execKill a m s := rfl
theorem exec_mig (a : BitVec 5) (m : Mods) (s : State) : exec (.mig a m) s = execMig a m s := rfl
theorem exec_migS (a : BitVec 5) (m : Mods) (s : State) : exec (.migS a m) s = execMigS a m s := rfl
theorem exec_yield (m : Mods) (s : State) : exec (.yield m) s = execYield m s := rfl
theorem exec_htest (d : BitVec 5) (a : BitVec 5) (m : Mods) (s : State) : exec (.htest d a m) s = execHtest d a m s := rfl
theorem exec_hwait (a : BitVec 5) (m : Mods) (s : State) : exec (.hwait a m) s = execHwait a m s := rfl
theorem exec_hcancel (a : BitVec 5) (m : Mods) (s : State) : exec (.hcancel a m) s = execHcancel a m s := rfl
theorem exec_ifence (m : Mods) (s : State) : exec (.ifence m) s = execIfence m s := rfl
theorem exec_amoAdd (w : Bool) (o : BitVec 2) (d : BitVec 5) (a : BitVec 5) (b : BitVec 5) (m : Mods) (s : State) : exec (.amoAdd w o d a b m) s = execAmoAdd w o d a b m s := rfl
theorem exec_amoAnd (w : Bool) (o : BitVec 2) (d : BitVec 5) (a : BitVec 5) (b : BitVec 5) (m : Mods) (s : State) : exec (.amoAnd w o d a b m) s = execAmoAnd w o d a b m s := rfl
theorem exec_amoOr (w : Bool) (o : BitVec 2) (d : BitVec 5) (a : BitVec 5) (b : BitVec 5) (m : Mods) (s : State) : exec (.amoOr w o d a b m) s = execAmoOr w o d a b m s := rfl
theorem exec_amoXor (w : Bool) (o : BitVec 2) (d : BitVec 5) (a : BitVec 5) (b : BitVec 5) (m : Mods) (s : State) : exec (.amoXor w o d a b m) s = execAmoXor w o d a b m s := rfl
theorem exec_amoMin (w : Bool) (o : BitVec 2) (d : BitVec 5) (a : BitVec 5) (b : BitVec 5) (m : Mods) (s : State) : exec (.amoMin w o d a b m) s = execAmoMin w o d a b m s := rfl
theorem exec_amoMax (w : Bool) (o : BitVec 2) (d : BitVec 5) (a : BitVec 5) (b : BitVec 5) (m : Mods) (s : State) : exec (.amoMax w o d a b m) s = execAmoMax w o d a b m s := rfl
theorem exec_amoMinu (w : Bool) (o : BitVec 2) (d : BitVec 5) (a : BitVec 5) (b : BitVec 5) (m : Mods) (s : State) : exec (.amoMinu w o d a b m) s = execAmoMinu w o d a b m s := rfl
theorem exec_amoMaxu (w : Bool) (o : BitVec 2) (d : BitVec 5) (a : BitVec 5) (b : BitVec 5) (m : Mods) (s : State) : exec (.amoMaxu w o d a b m) s = execAmoMaxu w o d a b m s := rfl
theorem exec_amoXchg (w : Bool) (o : BitVec 2) (d : BitVec 5) (a : BitVec 5) (b : BitVec 5) (m : Mods) (s : State) : exec (.amoXchg w o d a b m) s = execAmoXchg w o d a b m s := rfl
theorem exec_cas (w : Bool) (o : BitVec 2) (d : BitVec 5) (a : BitVec 5) (b : BitVec 5) (m : Mods) (s : State) : exec (.cas w o d a b m) s = execCas w o d a b m s := rfl
theorem exec_famoAdd (w : Bool) (o : BitVec 2) (d : BitVec 5) (a : BitVec 5) (b : BitVec 5) (m : Mods) (s : State) : exec (.famoAdd w o d a b m) s = execFamoAdd w o d a b m s := rfl
theorem exec_famoMin (w : Bool) (o : BitVec 2) (d : BitVec 5) (a : BitVec 5) (b : BitVec 5) (m : Mods) (s : State) : exec (.famoMin w o d a b m) s = execFamoMin w o d a b m s := rfl
theorem exec_famoMax (w : Bool) (o : BitVec 2) (d : BitVec 5) (a : BitVec 5) (b : BitVec 5) (m : Mods) (s : State) : exec (.famoMax w o d a b m) s = execFamoMax w o d a b m s := rfl
theorem exec_tkget (d : BitVec 5) (a : BitVec 5) (m : Mods) (s : State) : exec (.tkget d a m) s = execTkget d a m s := rfl
theorem exec_tkwait (a : BitVec 5) (b : BitVec 5) (m : Mods) (s : State) : exec (.tkwait a b m) s = execTkwait a b m s := rfl
theorem exec_tkadv (a : BitVec 5) (m : Mods) (s : State) : exec (.tkadv a m) s = execTkadv a m s := rfl
theorem exec_waiteq (a : BitVec 5) (b : BitVec 5) (m : Mods) (s : State) : exec (.waiteq a b m) s = execWaiteq a b m s := rfl
theorem exec_waitne (a : BitVec 5) (b : BitVec 5) (m : Mods) (s : State) : exec (.waitne a b m) s = execWaitne a b m s := rfl
theorem exec_lkacq (a : BitVec 5) (m : Mods) (s : State) : exec (.lkacq a m) s = execLkacq a m s := rfl
theorem exec_lkrel (a : BitVec 5) (m : Mods) (s : State) : exec (.lkrel a m) s = execLkrel a m s := rfl
theorem exec_barJoin (a : BitVec 5) (m : Mods) (s : State) : exec (.barJoin a m) s = execBarJoin a m s := rfl
theorem exec_barArrive (a : BitVec 5) (m : Mods) (s : State) : exec (.barArrive a m) s = execBarArrive a m s := rfl
theorem exec_barDrop (a : BitVec 5) (m : Mods) (s : State) : exec (.barDrop a m) s = execBarDrop a m s := rfl
theorem exec_vldContig (e : Bool) (k : Bool) (d : BitVec 3) (a : BitVec 5) (m : Mods) (s : State) : exec (.vldContig e k d a m) s = execVldContig e k d a m s := rfl
theorem exec_vldStrided (e : Bool) (k : Bool) (d : BitVec 3) (a : BitVec 5) (b : BitVec 5) (m : Mods) (s : State) : exec (.vldStrided e k d a b m) s = execVldStrided e k d a b m s := rfl
theorem exec_vldIndexed (e : Bool) (k : Bool) (d : BitVec 3) (a : BitVec 5) (b : BitVec 3) (m : Mods) (s : State) : exec (.vldIndexed e k d a b m) s = execVldIndexed e k d a b m s := rfl
theorem exec_vstContig (e : Bool) (k : Bool) (d : BitVec 3) (a : BitVec 5) (m : Mods) (s : State) : exec (.vstContig e k d a m) s = execVstContig e k d a m s := rfl
theorem exec_vstStrided (e : Bool) (k : Bool) (d : BitVec 3) (a : BitVec 5) (b : BitVec 5) (m : Mods) (s : State) : exec (.vstStrided e k d a b m) s = execVstStrided e k d a b m s := rfl
theorem exec_vstIndexed (e : Bool) (k : Bool) (d : BitVec 3) (a : BitVec 5) (b : BitVec 3) (m : Mods) (s : State) : exec (.vstIndexed e k d a b m) s = execVstIndexed e k d a b m s := rfl
theorem exec_vadd (t : Bool) (d : BitVec 3) (a : BitVec 3) (b : BitVec 3) (m : Mods) (s : State) : exec (.vadd t d a b m) s = execVadd t d a b m s := rfl
theorem exec_vsub (t : Bool) (d : BitVec 3) (a : BitVec 3) (b : BitVec 3) (m : Mods) (s : State) : exec (.vsub t d a b m) s = execVsub t d a b m s := rfl
theorem exec_vmul (t : Bool) (d : BitVec 3) (a : BitVec 3) (b : BitVec 3) (m : Mods) (s : State) : exec (.vmul t d a b m) s = execVmul t d a b m s := rfl
theorem exec_vmulh (t : Bool) (d : BitVec 3) (a : BitVec 3) (b : BitVec 3) (m : Mods) (s : State) : exec (.vmulh t d a b m) s = execVmulh t d a b m s := rfl
theorem exec_vmin (t : Bool) (d : BitVec 3) (a : BitVec 3) (b : BitVec 3) (m : Mods) (s : State) : exec (.vmin t d a b m) s = execVmin t d a b m s := rfl
theorem exec_vmax (t : Bool) (d : BitVec 3) (a : BitVec 3) (b : BitVec 3) (m : Mods) (s : State) : exec (.vmax t d a b m) s = execVmax t d a b m s := rfl
theorem exec_vminu (t : Bool) (d : BitVec 3) (a : BitVec 3) (b : BitVec 3) (m : Mods) (s : State) : exec (.vminu t d a b m) s = execVminu t d a b m s := rfl
theorem exec_vmaxu (t : Bool) (d : BitVec 3) (a : BitVec 3) (b : BitVec 3) (m : Mods) (s : State) : exec (.vmaxu t d a b m) s = execVmaxu t d a b m s := rfl
theorem exec_vand (t : Bool) (d : BitVec 3) (a : BitVec 3) (b : BitVec 3) (m : Mods) (s : State) : exec (.vand t d a b m) s = execVand t d a b m s := rfl
theorem exec_vor (t : Bool) (d : BitVec 3) (a : BitVec 3) (b : BitVec 3) (m : Mods) (s : State) : exec (.vor t d a b m) s = execVor t d a b m s := rfl
theorem exec_vxor (t : Bool) (d : BitVec 3) (a : BitVec 3) (b : BitVec 3) (m : Mods) (s : State) : exec (.vxor t d a b m) s = execVxor t d a b m s := rfl
theorem exec_vshl (t : Bool) (d : BitVec 3) (a : BitVec 3) (b : BitVec 3) (m : Mods) (s : State) : exec (.vshl t d a b m) s = execVshl t d a b m s := rfl
theorem exec_vshr (t : Bool) (d : BitVec 3) (a : BitVec 3) (b : BitVec 3) (m : Mods) (s : State) : exec (.vshr t d a b m) s = execVshr t d a b m s := rfl
theorem exec_vsar (t : Bool) (d : BitVec 3) (a : BitVec 3) (b : BitVec 3) (m : Mods) (s : State) : exec (.vsar t d a b m) s = execVsar t d a b m s := rfl
theorem exec_vadds (t : Bool) (d : BitVec 3) (a : BitVec 3) (b : BitVec 3) (m : Mods) (s : State) : exec (.vadds t d a b m) s = execVadds t d a b m s := rfl
theorem exec_vaddus (t : Bool) (d : BitVec 3) (a : BitVec 3) (b : BitVec 3) (m : Mods) (s : State) : exec (.vaddus t d a b m) s = execVaddus t d a b m s := rfl
theorem exec_vsubs (t : Bool) (d : BitVec 3) (a : BitVec 3) (b : BitVec 3) (m : Mods) (s : State) : exec (.vsubs t d a b m) s = execVsubs t d a b m s := rfl
theorem exec_vsubus (t : Bool) (d : BitVec 3) (a : BitVec 3) (b : BitVec 3) (m : Mods) (s : State) : exec (.vsubus t d a b m) s = execVsubus t d a b m s := rfl
theorem exec_vabs (t : Bool) (d : BitVec 3) (a : BitVec 3) (m : Mods) (s : State) : exec (.vabs t d a m) s = execVabs t d a m s := rfl
theorem exec_vneg (t : Bool) (d : BitVec 3) (a : BitVec 3) (m : Mods) (s : State) : exec (.vneg t d a m) s = execVneg t d a m s := rfl
theorem exec_vcmpEq (t : Bool) (d : BitVec 5) (a : BitVec 3) (b : BitVec 3) (m : Mods) (s : State) : exec (.vcmpEq t d a b m) s = execVcmpEq t d a b m s := rfl
theorem exec_vcmpLt (t : Bool) (d : BitVec 5) (a : BitVec 3) (b : BitVec 3) (m : Mods) (s : State) : exec (.vcmpLt t d a b m) s = execVcmpLt t d a b m s := rfl
theorem exec_vcmpLe (t : Bool) (d : BitVec 5) (a : BitVec 3) (b : BitVec 3) (m : Mods) (s : State) : exec (.vcmpLe t d a b m) s = execVcmpLe t d a b m s := rfl
theorem exec_vcmpLtu (t : Bool) (d : BitVec 5) (a : BitVec 3) (b : BitVec 3) (m : Mods) (s : State) : exec (.vcmpLtu t d a b m) s = execVcmpLtu t d a b m s := rfl
theorem exec_vcmpLeu (t : Bool) (d : BitVec 5) (a : BitVec 3) (b : BitVec 3) (m : Mods) (s : State) : exec (.vcmpLeu t d a b m) s = execVcmpLeu t d a b m s := rfl
theorem exec_vmad (t : Bool) (d : BitVec 3) (a : BitVec 3) (b : BitVec 3) (m : Mods) (s : State) : exec (.vmad t d a b m) s = execVmad t d a b m s := rfl
theorem exec_vfadd (w : Bool) (d : BitVec 3) (a : BitVec 3) (b : BitVec 3) (m : Mods) (s : State) : exec (.vfadd w d a b m) s = execVfadd w d a b m s := rfl
theorem exec_vfsub (w : Bool) (d : BitVec 3) (a : BitVec 3) (b : BitVec 3) (m : Mods) (s : State) : exec (.vfsub w d a b m) s = execVfsub w d a b m s := rfl
theorem exec_vfmul (w : Bool) (d : BitVec 3) (a : BitVec 3) (b : BitVec 3) (m : Mods) (s : State) : exec (.vfmul w d a b m) s = execVfmul w d a b m s := rfl
theorem exec_vfdiv (w : Bool) (d : BitVec 3) (a : BitVec 3) (b : BitVec 3) (m : Mods) (s : State) : exec (.vfdiv w d a b m) s = execVfdiv w d a b m s := rfl
theorem exec_vfsqrt (w : Bool) (d : BitVec 3) (a : BitVec 3) (m : Mods) (s : State) : exec (.vfsqrt w d a m) s = execVfsqrt w d a m s := rfl
theorem exec_vfmin (w : Bool) (d : BitVec 3) (a : BitVec 3) (b : BitVec 3) (m : Mods) (s : State) : exec (.vfmin w d a b m) s = execVfmin w d a b m s := rfl
theorem exec_vfmax (w : Bool) (d : BitVec 3) (a : BitVec 3) (b : BitVec 3) (m : Mods) (s : State) : exec (.vfmax w d a b m) s = execVfmax w d a b m s := rfl
theorem exec_vfabs (w : Bool) (d : BitVec 3) (a : BitVec 3) (m : Mods) (s : State) : exec (.vfabs w d a m) s = execVfabs w d a m s := rfl
theorem exec_vfneg (w : Bool) (d : BitVec 3) (a : BitVec 3) (m : Mods) (s : State) : exec (.vfneg w d a m) s = execVfneg w d a m s := rfl
theorem exec_vfma (w : Bool) (d : BitVec 3) (a : BitVec 3) (b : BitVec 3) (m : Mods) (s : State) : exec (.vfma w d a b m) s = execVfma w d a b m s := rfl
theorem exec_vfnma (w : Bool) (d : BitVec 3) (a : BitVec 3) (b : BitVec 3) (m : Mods) (s : State) : exec (.vfnma w d a b m) s = execVfnma w d a b m s := rfl
theorem exec_vfcmpEq (w : Bool) (d : BitVec 5) (a : BitVec 3) (b : BitVec 3) (m : Mods) (s : State) : exec (.vfcmpEq w d a b m) s = execVfcmpEq w d a b m s := rfl
theorem exec_vfcmpLt (w : Bool) (d : BitVec 5) (a : BitVec 3) (b : BitVec 3) (m : Mods) (s : State) : exec (.vfcmpLt w d a b m) s = execVfcmpLt w d a b m s := rfl
theorem exec_vfcmpLe (w : Bool) (d : BitVec 5) (a : BitVec 3) (b : BitVec 3) (m : Mods) (s : State) : exec (.vfcmpLe w d a b m) s = execVfcmpLe w d a b m s := rfl
theorem exec_vfcmpUn (w : Bool) (d : BitVec 5) (a : BitVec 3) (b : BitVec 3) (m : Mods) (s : State) : exec (.vfcmpUn w d a b m) s = execVfcmpUn w d a b m s := rfl
theorem exec_vmov (d : BitVec 3) (a : BitVec 3) (m : Mods) (s : State) : exec (.vmov d a m) s = execVmov d a m s := rfl
theorem exec_vbcastW (d : BitVec 3) (a : BitVec 5) (m : Mods) (s : State) : exec (.vbcastW d a m) s = execVbcastW d a m s := rfl
theorem exec_vbcastD (d : BitVec 3) (a : BitVec 5) (m : Mods) (s : State) : exec (.vbcastD d a m) s = execVbcastD d a m s := rfl
theorem exec_vextW (d : BitVec 5) (a : BitVec 3) (b : BitVec 5) (m : Mods) (s : State) : exec (.vextW d a b m) s = execVextW d a b m s := rfl
theorem exec_vextD (d : BitVec 5) (a : BitVec 3) (b : BitVec 5) (m : Mods) (s : State) : exec (.vextD d a b m) s = execVextD d a b m s := rfl
theorem exec_vinsW (d : BitVec 3) (a : BitVec 5) (b : BitVec 5) (m : Mods) (s : State) : exec (.vinsW d a b m) s = execVinsW d a b m s := rfl
theorem exec_vinsD (d : BitVec 3) (a : BitVec 5) (b : BitVec 5) (m : Mods) (s : State) : exec (.vinsD d a b m) s = execVinsD d a b m s := rfl
theorem exec_vcvt (d : BitVec 3) (a : BitVec 3) (m : Mods) (s : State) : exec (.vcvt d a m) s = execVcvt d a m s := rfl
theorem exec_nzscan (e : Bool) (d : BitVec 3) (a : BitVec 3) (m : Mods) (s : State) : exec (.nzscan e d a m) s = execNzscan e d a m s := rfl
theorem exec_vcompress (e : Bool) (d : BitVec 3) (a : BitVec 3) (b : BitVec 5) (m : Mods) (s : State) : exec (.vcompress e d a b m) s = execVcompress e d a b m s := rfl
theorem exec_vperm (e : Bool) (d : BitVec 3) (a : BitVec 3) (b : BitVec 3) (m : Mods) (s : State) : exec (.vperm e d a b m) s = execVperm e d a b m s := rfl
theorem exec_vrel (m : Mods) (s : State) : exec (.vrel m) s = execVrel m s := rfl
theorem exec_vredAdd (t : BitVec 2) (o : Bool) (d : BitVec 5) (a : BitVec 3) (m : Mods) (s : State) : exec (.vredAdd t o d a m) s = execVredAdd t o d a m s := rfl
theorem exec_vredMin (t : BitVec 2) (o : Bool) (d : BitVec 5) (a : BitVec 3) (m : Mods) (s : State) : exec (.vredMin t o d a m) s = execVredMin t o d a m s := rfl
theorem exec_vredMax (t : BitVec 2) (o : Bool) (d : BitVec 5) (a : BitVec 3) (m : Mods) (s : State) : exec (.vredMax t o d a m) s = execVredMax t o d a m s := rfl
theorem exec_haccO (d : BitVec 5) (a : BitVec 5) (b : BitVec 3) (m : Mods) (s : State) : exec (.haccO d a b m) s = execHaccO d a b m s := rfl
theorem exec_haccU (d : BitVec 5) (a : BitVec 5) (b : BitVec 3) (m : Mods) (s : State) : exec (.haccU d a b m) s = execHaccU d a b m s := rfl
theorem exec_cpy (d : BitVec 5) (a : BitVec 5) (b : BitVec 5) (m : Mods) (s : State) : exec (.cpy d a b m) s = execCpy d a b m s := rfl
theorem exec_cpyRegSize (d : BitVec 5) (a : BitVec 5) (b : BitVec 5) (m : Mods) (s : State) : exec (.cpyRegSize d a b m) s = execCpyRegSize d a b m s := rfl
theorem exec_gth (d : BitVec 5) (a : BitVec 5) (b : BitVec 5) (m : Mods) (s : State) : exec (.gth d a b m) s = execGth d a b m s := rfl
theorem exec_sct (d : BitVec 5) (a : BitVec 5) (b : BitVec 5) (m : Mods) (s : State) : exec (.sct d a b m) s = execSct d a b m s := rfl
theorem exec_cpyrAdd (u : Bool) (rs : Bool) (d : BitVec 5) (a : BitVec 5) (b : BitVec 5) (m : Mods) (s : State) : exec (.cpyrAdd u rs d a b m) s = execCpyrAdd u rs d a b m s := rfl
theorem exec_cpyrMin (u : Bool) (rs : Bool) (d : BitVec 5) (a : BitVec 5) (b : BitVec 5) (m : Mods) (s : State) : exec (.cpyrMin u rs d a b m) s = execCpyrMin u rs d a b m s := rfl
theorem exec_cpyrMax (u : Bool) (rs : Bool) (d : BitVec 5) (a : BitVec 5) (b : BitVec 5) (m : Mods) (s : State) : exec (.cpyrMax u rs d a b m) s = execCpyrMax u rs d a b m s := rfl
theorem exec_allredAdd (u : Bool) (d : BitVec 5) (a : BitVec 5) (b : BitVec 5) (m : Mods) (s : State) : exec (.allredAdd u d a b m) s = execAllredAdd u d a b m s := rfl
theorem exec_allredMin (u : Bool) (d : BitVec 5) (a : BitVec 5) (b : BitVec 5) (m : Mods) (s : State) : exec (.allredMin u d a b m) s = execAllredMin u d a b m s := rfl
theorem exec_allredMax (u : Bool) (d : BitVec 5) (a : BitVec 5) (b : BitVec 5) (m : Mods) (s : State) : exec (.allredMax u d a b m) s = execAllredMax u d a b m s := rfl
theorem exec_tld (d : BitVec 5) (t : BitVec 3) (a : BitVec 5) (m : Mods) (s : State) : exec (.tld d t a m) s = execTld d t a m s := rfl
theorem exec_tst (d : BitVec 5) (t : BitVec 3) (a : BitVec 5) (m : Mods) (s : State) : exec (.tst d t a m) s = execTst d t a m s := rfl
theorem exec_tzero (d : BitVec 5) (t : BitVec 3) (m : Mods) (s : State) : exec (.tzero d t m) s = execTzero d t m s := rfl
theorem exec_tmov (d : BitVec 5) (t : BitVec 3) (sc : BitVec 3) (m : Mods) (s : State) : exec (.tmov d t sc m) s = execTmov d t sc m s := rfl
theorem exec_mma (D : BitVec 3) (d : BitVec 5) (a : BitVec 3) (b : BitVec 3) (m : Mods) (s : State) : exec (.mma D d a b m) s = execMma D d a b m s := rfl
theorem exec_mmaQ (D : BitVec 3) (d : BitVec 5) (a : BitVec 3) (b : BitVec 3) (m : Mods) (s : State) : exec (.mmaQ D d a b m) s = execMmaQ D d a b m s := rfl
theorem exec_mmaSp (D : BitVec 3) (d : BitVec 5) (a : BitVec 3) (b : BitVec 3) (m : Mods) (s : State) : exec (.mmaSp D d a b m) s = execMmaSp D d a b m s := rfl
theorem exec_sca (D : BitVec 3) (d : BitVec 5) (a : BitVec 3) (b : BitVec 3) (m : Mods) (s : State) : exec (.sca D d a b m) s = execSca D d a b m s := rfl
theorem exec_prune (D : BitVec 3) (d : BitVec 5) (a : BitVec 3) (m : Mods) (s : State) : exec (.prune D d a m) s = execPrune D d a m s := rfl
theorem exec_kwrFstat (a : BitVec 5) (m : Mods) (s : State) : exec (.kwrFstat a m) s = execKwrFstat a m s := rfl
theorem exec_krdFstat (d : BitVec 5) (m : Mods) (s : State) : exec (.krdFstat d m) s = execKrdFstat d m s := rfl
theorem exec_krdAdoptmax (d : BitVec 5) (m : Mods) (s : State) : exec (.krdAdoptmax d m) s = execKrdAdoptmax d m s := rfl
theorem exec_kwrTshape (im : BitVec 3) (a : BitVec 5) (m : Mods) (s : State) : exec (.kwrTshape im a m) s = execKwrTshape im a m s := rfl
theorem exec_kwrTmeta (im : BitVec 3) (a : BitVec 5) (m : Mods) (s : State) : exec (.kwrTmeta im a m) s = execKwrTmeta im a m s := rfl
theorem exec_kwrAssign (a : BitVec 5) (m : Mods) (s : State) : exec (.kwrAssign a m) s = execKwrAssign a m s := rfl
theorem exec_keyload (a : BitVec 5) (m : Mods) (s : State) : exec (.keyload a m) s = execKeyload a m s := rfl
theorem exec_preemptRemove (s : State) : exec (.preemptRemove) s = execPreemptRemove s := rfl
theorem exec_preemptRestore (s : State) : exec (.preemptRestore) s = execPreemptRestore s := rfl
theorem exec_preemptSaveImage (s : State) : exec (.preemptSaveImage) s = execPreemptSaveImage s := rfl
theorem exec_preemptLoadImage (s : State) : exec (.preemptLoadImage) s = execPreemptLoadImage s := rfl
theorem exec_idleTurn (core : Nat) (s : State) : exec (.idleTurn core) s = execIdleTurn core s := rfl
theorem exec_rotationBoundary (core : Nat) (s : State) : exec (.rotationBoundary core) s = execRotationBoundary core s := rfl
theorem exec_replyLands (id : Nat) (s : State) : exec (.replyLands id) s = execReplyLands id s := rfl
theorem exec_storeAcknowledged (id : Nat) (s : State) : exec (.storeAcknowledged id) s = execStoreAcknowledged id s := rfl
theorem exec_divideResultLands (core : Nat) (s : State) : exec (.divideResultLands core) s = execDivideResultLands core s := rfl
theorem exec_codeFetchLands (id : Nat) (s : State) : exec (.codeFetchLands id) s = execCodeFetchLands id s := rfl
theorem exec_loadAtHome (id : Nat) (s : State) : exec (.loadAtHome id) s = execLoadAtHome id s := rfl
theorem exec_storeAtHome (id : Nat) (s : State) : exec (.storeAtHome id) s = execStoreAtHome id s := rfl
theorem exec_egressLoad (id : Nat) (s : State) : exec (.egressLoad id) s = execEgressLoad id s := rfl
theorem exec_ingressRelease (id : Nat) (s : State) : exec (.ingressRelease id) s = execIngressRelease id s := rfl
theorem exec_atomicAtHome (id : Nat) (s : State) : exec (.atomicAtHome id) s = execAtomicAtHome id s := rfl
theorem exec_combinerGroupClose (id : Nat) (s : State) : exec (.combinerGroupClose id) s = execCombinerGroupClose id s := rfl
theorem exec_predictorEntryDrop (cl : Nat) (line : Nat) (s : State) : exec (.predictorEntryDrop cl line) s = execPredictorEntryDrop cl line s := rfl
theorem exec_ldfeAtHome (id : Nat) (s : State) : exec (.ldfeAtHome id) s = execLdfeAtHome id s := rfl
theorem exec_stfeAtHome (id : Nat) (s : State) : exec (.stfeAtHome id) s = execStfeAtHome id s := rfl
theorem exec_tkgetAtHome (id : Nat) (s : State) : exec (.tkgetAtHome id) s = execTkgetAtHome id s := rfl
theorem exec_tkwaitAtHome (id : Nat) (s : State) : exec (.tkwaitAtHome id) s = execTkwaitAtHome id s := rfl
theorem exec_tkadvAtHome (id : Nat) (s : State) : exec (.tkadvAtHome id) s = execTkadvAtHome id s := rfl
theorem exec_waitAtHome (id : Nat) (s : State) : exec (.waitAtHome id) s = execWaitAtHome id s := rfl
theorem exec_lkacqAtHome (id : Nat) (s : State) : exec (.lkacqAtHome id) s = execLkacqAtHome id s := rfl
theorem exec_lkrelAtHome (id : Nat) (s : State) : exec (.lkrelAtHome id) s = execLkrelAtHome id s := rfl
theorem exec_barJoinAtHome (id : Nat) (s : State) : exec (.barJoinAtHome id) s = execBarJoinAtHome id s := rfl
theorem exec_barArriveAtHome (id : Nat) (s : State) : exec (.barArriveAtHome id) s = execBarArriveAtHome id s := rfl
theorem exec_barDropAtHome (id : Nat) (s : State) : exec (.barDropAtHome id) s = execBarDropAtHome id s := rfl
theorem exec_haccAtHome (id : Nat) (s : State) : exec (.haccAtHome id) s = execHaccAtHome id s := rfl
theorem exec_armedReplyLands (id : Nat) (s : State) : exec (.armedReplyLands id) s = execArmedReplyLands id s := rfl
theorem exec_servedAnswerLands (id : Nat) (s : State) : exec (.servedAnswerLands id) s = execServedAnswerLands id s := rfl
theorem exec_ldloAtHome (id : Nat) (s : State) : exec (.ldloAtHome id) s = execLdloAtHome id s := rfl
theorem exec_stloAtHome (id : Nat) (s : State) : exec (.stloAtHome id) s = execStloAtHome id s := rfl
theorem exec_ldloReplyLands (id : Nat) (s : State) : exec (.ldloReplyLands id) s = execLdloReplyLands id s := rfl
theorem exec_latestOnlyAckLands (id : Nat) (s : State) : exec (.latestOnlyAckLands id) s = execLatestOnlyAckLands id s := rfl
theorem exec_inTransitDiscard (id : Nat) (s : State) : exec (.inTransitDiscard id) s = execInTransitDiscard id s := rfl
theorem exec_translationWalk (id : Nat) (s : State) : exec (.translationWalk id) s = execTranslationWalk id s := rfl
theorem exec_walkResultLands (id : Nat) (s : State) : exec (.walkResultLands id) s = execWalkResultLands id s := rfl
theorem exec_claimAtHome (id : Nat) (s : State) : exec (.claimAtHome id) s = execClaimAtHome id s := rfl
theorem exec_coreClaim (core : Nat) (s : State) : exec (.coreClaim core) s = execCoreClaim core s := rfl
theorem exec_steal (core : Nat) (s : State) : exec (.steal core) s = execSteal core s := rfl
theorem exec_claimLands (id : Nat) (s : State) : exec (.claimLands id) s = execClaimLands id s := rfl
theorem exec_claimAckAtHome (id : Nat) (s : State) : exec (.claimAckAtHome id) s = execClaimAckAtHome id s := rfl
theorem exec_leaseExpiry (thread : Nat) (s : State) : exec (.leaseExpiry thread) s = execLeaseExpiry thread s := rfl
theorem exec_dependentFillLands (id : Nat) (s : State) : exec (.dependentFillLands id) s = execDependentFillLands id s := rfl
theorem exec_passThroughForward (id : Nat) (s : State) : exec (.passThroughForward id) s = execPassThroughForward id s := rfl
theorem exec_stubResend (id : Nat) (s : State) : exec (.stubResend id) s = execStubResend id s := rfl
theorem exec_endReportAtHome (id : Nat) (s : State) : exec (.endReportAtHome id) s = execEndReportAtHome id s := rfl
theorem exec_familyFillLands (id : Nat) (s : State) : exec (.familyFillLands id) s = execFamilyFillLands id s := rfl
theorem exec_hwaitAnswerLands (id : Nat) (s : State) : exec (.hwaitAnswerLands id) s = execHwaitAnswerLands id s := rfl
theorem exec_breakAtHome (id : Nat) (s : State) : exec (.breakAtHome id) s = execBreakAtHome id s := rfl
theorem exec_killAtHome (id : Nat) (s : State) : exec (.killAtHome id) s = execKillAtHome id s := rfl
theorem exec_killReachesMember (id : Nat) (s : State) : exec (.killReachesMember id) s = execKillReachesMember id s := rfl
theorem exec_migrationArrival (id : Nat) (s : State) : exec (.migrationArrival id) s = execMigrationArrival id s := rfl
theorem exec_copyFork (unit : Nat) (cl : Nat) (e : Nat) (s : State) : exec (.copyFork unit cl e) s = execCopyFork unit cl e s := rfl
theorem exec_copyChunkCheck (cl : Nat) (e : Nat) (chunk : Nat) (s : State) : exec (.copyChunkCheck cl e chunk) s = execCopyChunkCheck cl e chunk s := rfl
theorem exec_copyChunkWrite (cl : Nat) (e : Nat) (chunk : Nat) (s : State) : exec (.copyChunkWrite cl e chunk) s = execCopyChunkWrite cl e chunk s := rfl
theorem exec_copyComplete (cl : Nat) (e : Nat) (s : State) : exec (.copyComplete cl e) s = execCopyComplete cl e s := rfl
theorem exec_engineHandleFillLands (id : Nat) (s : State) : exec (.engineHandleFillLands id) s = execEngineHandleFillLands id s := rfl
theorem exec_jobStart (cl : Nat) (e : Nat) (s : State) : exec (.jobStart cl e) s = execJobStart cl e s := rfl
theorem exec_tileRowTransfer (cl : Nat) (e : Nat) (r : Nat) (s : State) : exec (.tileRowTransfer cl e r) s = execTileRowTransfer cl e r s := rfl
theorem exec_jobEnd (cl : Nat) (e : Nat) (s : State) : exec (.jobEnd cl e) s = execJobEnd cl e s := rfl
theorem exec_jobHandleFill (cl : Nat) (e : Nat) (s : State) : exec (.jobHandleFill cl e) s = execJobHandleFill cl e s := rfl
theorem exec_snowploughStep (die : Nat) (s : State) : exec (.snowploughStep die) s = execSnowploughStep die s := rfl
theorem exec_level2ReplyRelease (id : Nat) (s : State) : exec (.level2ReplyRelease id) s = execLevel2ReplyRelease id s := rfl
theorem exec_faultRecordClaim (id : Nat) (s : State) : exec (.faultRecordClaim id) s = execFaultRecordClaim id s := rfl
theorem exec_pagingService (id : Nat) (s : State) : exec (.pagingService id) s = execPagingService id s := rfl
theorem exec_answerAtHolder (id : Nat) (s : State) : exec (.answerAtHolder id) s = execAnswerAtHolder id s := rfl
theorem exec_answerDoorbell (vf : Nat) (w : Word) (s : State) : exec (.answerDoorbell vf w) s = execAnswerDoorbell vf w s := rfl
theorem exec_queueDoorbell (vf : Nat) (q : Nat) (w : Word) (s : State) : exec (.queueDoorbell vf q w) s = execQueueDoorbell vf q w s := rfl
theorem exec_queueControlWrite (vf : Nat) (q : Nat) (w : Word) (s : State) : exec (.queueControlWrite vf q w) s = execQueueControlWrite vf q w s := rfl
theorem exec_packetReadLands (vf : Nat) (q : Nat) (im : Nat) (s : State) : exec (.packetReadLands vf q im) s = execPacketReadLands vf q im s := rfl
theorem exec_launch (vf : Nat) (q : Nat) (im : Nat) (s : State) : exec (.launch vf q im) s = execLaunch vf q im s := rfl
theorem exec_admissionWake (vf : Nat) (q : Nat) (im : Nat) (s : State) : exec (.admissionWake vf q im) s = execAdmissionWake vf q im s := rfl
theorem exec_localSectionCopyLands (vf : Nat) (q : Nat) (im : Nat) (s : State) : exec (.localSectionCopyLands vf q im) s = execLocalSectionCopyLands vf q im s := rfl
theorem exec_copy (vf : Nat) (q : Nat) (im : Nat) (s : State) : exec (.copy vf q im) s = execCopy vf q im s := rfl
theorem exec_signal (vf : Nat) (q : Nat) (im : Nat) (s : State) : exec (.signal vf q im) s = execSignal vf q im s := rfl
theorem exec_waitSeq (vf : Nat) (q : Nat) (im : Nat) (s : State) : exec (.waitSeq vf q im) s = execWaitSeq vf q im s := rfl
theorem exec_waitSeqAnswer (id : Nat) (s : State) : exec (.waitSeqAnswer id) s = execWaitSeqAnswer id s := rfl
theorem exec_setDet (vf : Nat) (q : Nat) (im : Nat) (s : State) : exec (.setDet vf q im) s = execSetDet vf q im s := rfl
theorem exec_setDetDrained (vf : Nat) (s : State) : exec (.setDetDrained vf) s = execSetDetDrained vf s := rfl
theorem exec_fencePacket (vf : Nat) (q : Nat) (im : Nat) (s : State) : exec (.fencePacket vf q im) s = execFencePacket vf q im s := rfl
theorem exec_fencePacketComplete (vf : Nat) (q : Nat) (im : Nat) (s : State) : exec (.fencePacketComplete vf q im) s = execFencePacketComplete vf q im s := rfl
theorem exec_scrubRegionDone (s : State) : exec (.scrubRegionDone) s = execScrubRegionDone s := rfl
theorem exec_scrubgo (w : Word) (s : State) : exec (.scrubgo w) s = execScrubgo w s := rfl
theorem exec_coreStop (core : Nat) (bad : Nat) (s : State) : exec (.coreStop core bad) s = execCoreStop core bad s := rfl
theorem exec_repair (w : Word) (s : State) : exec (.repair w) s = execRepair w s := rfl
theorem exec_slotq (w : Word) (s : State) : exec (.slotq w) s = execSlotq w s := rfl
theorem exec_spill (w : Word) (s : State) : exec (.spill w) s = execSpill w s := rfl
theorem exec_assign (w : Word) (s : State) : exec (.assign w) s = execAssign w s := rfl
theorem exec_managementWrite (off : Nat) (w : Word) (s : State) : exec (.managementWrite off w) s = execManagementWrite off w s := rfl
theorem exec_hostMemoryAccess (wr : Bool) (addr : Nat) (len : Nat) (v : Nat) (s : State) : exec (.hostMemoryAccess wr addr len v) s = execHostMemoryAccess wr addr len v s := rfl
theorem exec_gangctlArm (vf : Nat) (w : Word) (s : State) : exec (.gangctlArm vf w) s = execGangctlArm vf w s := rfl
theorem exec_prepared (vf : Nat) (gid : Nat) (rank : Nat) (s : State) : exec (.prepared vf gid rank) s = execPrepared vf gid rank s := rfl
theorem exec_refused (vf : Nat) (gid : Nat) (rank : Nat) (s : State) : exec (.refused vf gid rank) s = execRefused vf gid rank s := rfl
theorem exec_commit (vf : Nat) (gid : Nat) (s : State) : exec (.commit vf gid) s = execCommit vf gid s := rfl
theorem exec_abort (vf : Nat) (gid : Nat) (rank : Nat) (pkg : Nat) (s : State) : exec (.abort vf gid rank pkg) s = execAbort vf gid rank pkg s := rfl
theorem exec_gangTimeout (vf : Nat) (s : State) : exec (.gangTimeout vf) s = execGangTimeout vf s := rfl
theorem exec_allredMessage (pkg : Nat) (gid : Nat) (seq : Nat) (chunk : Nat) (rank : Nat) (op : Nat) (fmt : Nat) (size : Nat) (mode : Nat) (len : Nat) (v : Nat) (s : State) : exec (.allredMessage pkg gid seq chunk rank op fmt size mode len v) s = execAllredMessage pkg gid seq chunk rank op fmt size mode len v s := rfl
theorem exec_rankLost (pkg : Nat) (s : State) : exec (.rankLost pkg) s = execRankLost pkg s := rfl
theorem exec_keepalive (pkg : Nat) (answered : Bool) (s : State) : exec (.keepalive pkg answered) s = execKeepalive pkg answered s := rfl
theorem exec_peerPortDown (port : Nat) (s : State) : exec (.peerPortDown port) s = execPeerPortDown port s := rfl
theorem exec_ucieModuleFailure (module : Nat) (s : State) : exec (.ucieModuleFailure module) s = execUcieModuleFailure module s := rfl
theorem exec_cxlLinkDown (port : Nat) (s : State) : exec (.cxlLinkDown port) s = execCxlLinkDown port s := rfl
theorem exec_cxlLinkRetrain (port : Nat) (s : State) : exec (.cxlLinkRetrain port) s = execCxlLinkRetrain port s := rfl
theorem exec_start (again : Bool) (ok : Bool) (mask : Nat) (s : State) : exec (.start again ok mask) s = execStart again ok mask s := rfl
theorem exec_bootclr (w : Word) (s : State) : exec (.bootclr w) s = execBootclr w s := rfl
theorem exec_attest (w : Word) (s : State) : exec (.attest w) s = execAttest w s := rfl
theorem exec_dutyWrite (duty : Nat) (w : Word) (s : State) : exec (.dutyWrite duty w) s = execDutyWrite duty w s := rfl
theorem exec_dutyDrainEnd (duty : Nat) (s : State) : exec (.dutyDrainEnd duty) s = execDutyDrainEnd duty s := rfl
theorem exec_throttle (power : Nat) (temp : Nat) (die : Nat) (s : State) : exec (.throttle power temp die) s = execThrottle power temp die s := rfl
theorem exec_thermalTrip (die : Nat) (s : State) : exec (.thermalTrip die) s = execThermalTrip die s := rfl
theorem exec_withdrawalAtHome (id : Nat) (s : State) : exec (.withdrawalAtHome id) s = execWithdrawalAtHome id s := rfl
theorem exec_withdrawalAckLands (id : Nat) (s : State) : exec (.withdrawalAckLands id) s = execWithdrawalAckLands id s := rfl
theorem exec_hwaitArmAtHome (id : Nat) (s : State) : exec (.hwaitArmAtHome id) s = execHwaitArmAtHome id s := rfl
theorem exec_peerAdmit (pkg : Nat) (s : State) : exec (.peerAdmit pkg) s = execPeerAdmit pkg s := rfl
theorem exec_scaleOutPortUp (port : Nat) (s : State) : exec (.scaleOutPortUp port) s = execScaleOutPortUp port s := rfl
theorem exec_firmwareImageWrite (len : Nat) (v : Nat) (sig : Nat) (version : Nat) (s : State) : exec (.firmwareImageWrite len v sig version) s = execFirmwareImageWrite len v sig version s := rfl
theorem exec_gatingRequest (core : Nat) (s : State) : exec (.gatingRequest core) s = execGatingRequest core s := rfl
theorem exec_throttleEnd (power : Nat) (temp : Nat) (die : Nat) (s : State) : exec (.throttleEnd power temp die) s = execThrottleEnd power temp die s := rfl

end Sys2Proof.Machine
end

