-- ==== Sys2Proof/Laws/Tab.lean ====
section
/-! SUPPORT. The laws of tables: read after write, and that every operation keeps the canonical form. -/

namespace Sys2Proof.Machine

variable {α : Type}

@[simp] theorem Tab.find?_nil (n : Nat) : Tab.find? ([] : Tab α) n = none := rfl
@[simp] theorem Tab.find?_put_self (t : Tab α) (n : Nat) (x : α) : Tab.find? (Tab.put t n x) n = some x := by
  induction t with
  | nil => simp [Tab.put, Tab.find?]
  | cons e t ih =>
    obtain ⟨k, v⟩ := e
    simp only [Tab.put]
    split
    · simp [Tab.find?]
    · split
      · simp [Tab.find?]
      · simp [Tab.find?, *]
theorem Tab.find?_put_ne (t : Tab α) (n m : Nat) (x : α) (h : m ≠ n) :
    Tab.find? (Tab.put t n x) m = Tab.find? t m := by
  induction t with
  | nil => simp [Tab.put, Tab.find?, h]
  | cons e t ih =>
    obtain ⟨k, v⟩ := e
    simp only [Tab.put]
    split
    · simp [Tab.find?, h]
    · split
      · subst_vars; simp [Tab.find?, h]
      · simp [Tab.find?, ih]
theorem Tab.find?_put (t : Tab α) (n m : Nat) (x : α) :
    Tab.find? (Tab.put t n x) m = if m = n then some x else Tab.find? t m := by
  split
  · subst_vars; simp
  · simp [Tab.find?_put_ne, *]
/-- Keeping the entries of some keys. -/
theorem Tab.find?_filter_key (t : Tab α) (p : Nat → Bool) (n : Nat) :
    Tab.find? (t.filter (fun e => p e.1)) n = if p n = true then Tab.find? t n else none := by
  induction t with
  | nil => exact (ite_self _).symm
  | cons e t ih =>
    rw [List.filter_cons]
    by_cases same : n = e.1
    · subst same; cases kept : p e.1 <;> simp_all [Tab.find?]
    · cases kept : p e.1 <;> simp_all [Tab.find?]
theorem Tab.find?_del (t : Tab α) (n m : Nat) :
    Tab.find? (Tab.del t n) m = if m = n then none else Tab.find? t m := by
  rw [Tab.del, Tab.find?_filter_key t (fun k => k != n)]
  by_cases same : m = n <;> simp [same]
@[simp] theorem Tab.find?_del_self (t : Tab α) (n : Nat) : Tab.find? (Tab.del t n) n = none := by simp [Tab.find?_del]

@[simp] theorem Tab.get_nil (d : α) (n : Nat) : Tab.get [] d n = d := rfl
@[simp] theorem Tab.get_put_self (t : Tab α) (d : α) (n : Nat) (x : α) : Tab.get (Tab.put t n x) d n = x := by
  simp [Tab.get]
theorem Tab.get_put_ne (t : Tab α) (d : α) (n m : Nat) (x : α) (h : m ≠ n) :
    Tab.get (Tab.put t n x) d m = Tab.get t d m := by simp [Tab.get, Tab.find?_put_ne, h]
theorem Tab.get_put (t : Tab α) (d : α) (n m : Nat) (x : α) :
    Tab.get (Tab.put t n x) d m = if m = n then x else Tab.get t d m := by
  split
  · subst_vars; simp
  · simp [Tab.get_put_ne, *]

/-! The canonical form. -/

theorem Tab.rising_mono {lo : Option Nat} {t : Tab α} (h : Tab.rising lo t = true) : Tab.rising none t = true := by
  cases t with
  | nil => rfl
  | cons e t => obtain ⟨k, v⟩ := e; cases lo <;> simp_all [Tab.rising]
theorem Tab.rising_filter (p : Nat × α → Bool) (t : Tab α) (lo : Option Nat) (h : Tab.rising lo t = true) :
    Tab.rising lo (t.filter p) = true := by
  have weaken : ∀ (t : Tab α) (lo : Option Nat) (k : Nat), (match lo with | none => true | some l => decide (l < k)) = true →
      Tab.rising (some k) t = true → Tab.rising lo t = true := by
    intro t lo k hk ht
    cases t with
    | nil => rfl
    | cons e t =>
      obtain ⟨j, v⟩ := e
      cases lo with
      | none => simp_all [Tab.rising]
      | some l => simp_all [Tab.rising]; omega
  induction t generalizing lo with
  | nil => rfl
  | cons e t ih =>
    obtain ⟨k, v⟩ := e
    simp only [Tab.rising, Bool.and_eq_true] at h
    simp only [List.filter_cons]
    split
    · simp only [Tab.rising, Bool.and_eq_true]; exact ⟨h.1, ih _ h.2⟩
    · exact weaken _ _ k h.1 (ih _ h.2)
theorem Tab.rising_put (t : Tab α) (lo : Option Nat) (n : Nat) (x : α) (h : Tab.rising lo t = true)
    (hn : ∀ l, lo = some l → l < n) : Tab.rising lo (Tab.put t n x) = true := by
  induction t generalizing lo with
  | nil => cases lo <;> simp_all [Tab.put, Tab.rising]
  | cons e t ih =>
    obtain ⟨k, v⟩ := e
    simp only [Tab.put]
    split
    · cases lo <;> simp_all [Tab.rising]
    · split
      · subst_vars; simp_all [Tab.rising]
      · simp only [Tab.rising, Bool.and_eq_true] at h ⊢
        exact ⟨h.1, ih _ h.2 (by intro l hl; cases hl; omega)⟩
theorem Tab.all_put (t : Tab α) (p : Nat × α → Bool) (n : Nat) (x : α) (h : t.all p = true) (hx : p (n, x) = true) :
    (Tab.put t n x).all p = true := by
  induction t with
  | nil => simpa [Tab.put] using hx
  | cons e t ih =>
    obtain ⟨k, v⟩ := e
    simp only [Tab.put]
    split
    · simp_all
    · split <;> simp_all

variable [DecidableEq α]

theorem Tab.get_set (t : Tab α) (d : α) (n m : Nat) (x : α) :
    Tab.get (Tab.set t d n x) d m = if m = n then x else Tab.get t d m := by
  unfold Tab.set
  split
  · subst_vars
    simp only [Tab.get, Tab.find?_del]
    split <;> simp_all
  · exact Tab.get_put t d n m x
@[simp] theorem Tab.get_set_self (t : Tab α) (d : α) (n : Nat) (x : α) : Tab.get (Tab.set t d n x) d n = x := by
  simp [Tab.get_set]
theorem Tab.get_set_ne (t : Tab α) (d : α) (n m : Nat) (x : α) (h : m ≠ n) :
    Tab.get (Tab.set t d n x) d m = Tab.get t d m := by simp [Tab.get_set, h]

/-- Taking entries out keeps the canonical form. -/
theorem Tab.wf_filter (t : Tab α) (d : α) (p : Nat × α → Bool) (h : Tab.wf t d = true) : Tab.wf (t.filter p) d = true := by
  simp only [Tab.wf, Bool.and_eq_true] at h ⊢
  refine ⟨Tab.rising_filter p t none h.1, ?_⟩
  simp only [List.all_eq_true, List.mem_filter] at h ⊢
  exact fun x hx => h.2 x hx.1
/-- Writing a key's value keeps the canonical form. -/
theorem Tab.wf_set (t : Tab α) (d : α) (n : Nat) (x : α) (h : Tab.wf t d = true) : Tab.wf (Tab.set t d n x) d = true := by
  unfold Tab.set
  split
  · exact Tab.wf_filter t d _ h
  · simp only [Tab.wf, Bool.and_eq_true] at h ⊢
    exact ⟨Tab.rising_put t none n x h.1 (by simp), Tab.all_put t _ n x h.2 (by simpa using ‹¬ x = d›)⟩

end Sys2Proof.Machine
end

