-- ==== Sys2Proof/Laws/State.lean ====
section
/-! SUPPORT. What each way of replacing a part of the state leaves of every field, and what reads find after it. -/

namespace Sys2Proof.Machine

variable (s : State)

/-! putThread. -/
@[simp] theorem State.putThread_mem (u : Nat) (t : Thread) : (s.putThread u t).mem = s.mem := rfl
@[simp] theorem State.putThread_nums (u : Nat) (t : Thread) : (s.putThread u t).nums = s.nums := rfl
@[simp] theorem State.putThread_latest (u : Nat) (t : Thread) : (s.putThread u t).latest = s.latest := rfl
@[simp] theorem State.putThread_bad (u : Nat) (t : Thread) : (s.putThread u t).bad = s.bad := rfl
@[simp] theorem State.putThread_dirty (u : Nat) (t : Thread) : (s.putThread u t).dirty = s.dirty := rfl
@[simp] theorem State.putThread_threads (u : Nat) (t : Thread) : (s.putThread u t).threads = s.threads.put u t := rfl
@[simp] theorem State.putThread_slots (u : Nat) (t : Thread) : (s.putThread u t).slots = s.slots := rfl
@[simp] theorem State.putThread_cores (u : Nat) (t : Thread) : (s.putThread u t).cores = s.cores := rfl
@[simp] theorem State.putThread_clusters (u : Nat) (t : Thread) : (s.putThread u t).clusters = s.clusters := rfl
@[simp] theorem State.putThread_dies (u : Nat) (t : Thread) : (s.putThread u t).dies = s.dies := rfl
@[simp] theorem State.putThread_reqs (u : Nat) (t : Thread) : (s.putThread u t).reqs = s.reqs := rfl
@[simp] theorem State.putThread_msgs (u : Nat) (t : Thread) : (s.putThread u t).msgs = s.msgs := rfl
@[simp] theorem State.putThread_bound (u : Nat) (t : Thread) : (s.putThread u t).bound = s.bound := rfl
@[simp] theorem State.putThread_carried (u : Nat) (t : Thread) : (s.putThread u t).carried = s.carried := rfl
@[simp] theorem State.putThread_barriers (u : Nat) (t : Thread) : (s.putThread u t).barriers = s.barriers := rfl
@[simp] theorem State.putThread_families (u : Nat) (t : Thread) : (s.putThread u t).families = s.families := rfl
@[simp] theorem State.putThread_funcs (u : Nat) (t : Thread) : (s.putThread u t).funcs = s.funcs := rfl
@[simp] theorem State.putThread_walks (u : Nat) (t : Thread) : (s.putThread u t).walks = s.walks := rfl
@[simp] theorem State.putThread_fetches (u : Nat) (t : Thread) : (s.putThread u t).fetches = s.fetches := rfl
@[simp] theorem State.putThread_records (u : Nat) (t : Thread) : (s.putThread u t).records = s.records := rfl
@[simp] theorem State.putThread_pkg (u : Nat) (t : Thread) : (s.putThread u t).pkg = s.pkg := rfl
@[simp] theorem State.putThread_agenda (u : Nat) (t : Thread) : (s.putThread u t).agenda = s.agenda := rfl
@[simp] theorem State.putThread_me (u : Nat) (t : Thread) : (s.putThread u t).me = s.me := rfl
@[simp] theorem State.putThread_fresh (u : Nat) (t : Thread) : (s.putThread u t).fresh = s.fresh := rfl
@[simp] theorem State.putThread_nextId (u : Nat) (t : Thread) : (s.putThread u t).nextId = s.nextId := rfl

/-! modThread. -/
@[simp] theorem State.modThread_mem (u : Nat) (f : Thread → Thread) : (s.modThread u f).mem = s.mem := rfl
@[simp] theorem State.modThread_nums (u : Nat) (f : Thread → Thread) : (s.modThread u f).nums = s.nums := rfl
@[simp] theorem State.modThread_latest (u : Nat) (f : Thread → Thread) : (s.modThread u f).latest = s.latest := rfl
@[simp] theorem State.modThread_bad (u : Nat) (f : Thread → Thread) : (s.modThread u f).bad = s.bad := rfl
@[simp] theorem State.modThread_dirty (u : Nat) (f : Thread → Thread) : (s.modThread u f).dirty = s.dirty := rfl
@[simp] theorem State.modThread_threads (u : Nat) (f : Thread → Thread) : (s.modThread u f).threads = s.threads.put u (f (s.threadAt u)) := rfl
@[simp] theorem State.modThread_slots (u : Nat) (f : Thread → Thread) : (s.modThread u f).slots = s.slots := rfl
@[simp] theorem State.modThread_cores (u : Nat) (f : Thread → Thread) : (s.modThread u f).cores = s.cores := rfl
@[simp] theorem State.modThread_clusters (u : Nat) (f : Thread → Thread) : (s.modThread u f).clusters = s.clusters := rfl
@[simp] theorem State.modThread_dies (u : Nat) (f : Thread → Thread) : (s.modThread u f).dies = s.dies := rfl
@[simp] theorem State.modThread_reqs (u : Nat) (f : Thread → Thread) : (s.modThread u f).reqs = s.reqs := rfl
@[simp] theorem State.modThread_msgs (u : Nat) (f : Thread → Thread) : (s.modThread u f).msgs = s.msgs := rfl
@[simp] theorem State.modThread_bound (u : Nat) (f : Thread → Thread) : (s.modThread u f).bound = s.bound := rfl
@[simp] theorem State.modThread_carried (u : Nat) (f : Thread → Thread) : (s.modThread u f).carried = s.carried := rfl
@[simp] theorem State.modThread_barriers (u : Nat) (f : Thread → Thread) : (s.modThread u f).barriers = s.barriers := rfl
@[simp] theorem State.modThread_families (u : Nat) (f : Thread → Thread) : (s.modThread u f).families = s.families := rfl
@[simp] theorem State.modThread_funcs (u : Nat) (f : Thread → Thread) : (s.modThread u f).funcs = s.funcs := rfl
@[simp] theorem State.modThread_walks (u : Nat) (f : Thread → Thread) : (s.modThread u f).walks = s.walks := rfl
@[simp] theorem State.modThread_fetches (u : Nat) (f : Thread → Thread) : (s.modThread u f).fetches = s.fetches := rfl
@[simp] theorem State.modThread_records (u : Nat) (f : Thread → Thread) : (s.modThread u f).records = s.records := rfl
@[simp] theorem State.modThread_pkg (u : Nat) (f : Thread → Thread) : (s.modThread u f).pkg = s.pkg := rfl
@[simp] theorem State.modThread_agenda (u : Nat) (f : Thread → Thread) : (s.modThread u f).agenda = s.agenda := rfl
@[simp] theorem State.modThread_me (u : Nat) (f : Thread → Thread) : (s.modThread u f).me = s.me := rfl
@[simp] theorem State.modThread_fresh (u : Nat) (f : Thread → Thread) : (s.modThread u f).fresh = s.fresh := rfl
@[simp] theorem State.modThread_nextId (u : Nat) (f : Thread → Thread) : (s.modThread u f).nextId = s.nextId := rfl

/-! modCur. -/
@[simp] theorem State.modCur_mem (f : Thread → Thread) : (s.modCur f).mem = s.mem := rfl
@[simp] theorem State.modCur_nums (f : Thread → Thread) : (s.modCur f).nums = s.nums := rfl
@[simp] theorem State.modCur_latest (f : Thread → Thread) : (s.modCur f).latest = s.latest := rfl
@[simp] theorem State.modCur_bad (f : Thread → Thread) : (s.modCur f).bad = s.bad := rfl
@[simp] theorem State.modCur_dirty (f : Thread → Thread) : (s.modCur f).dirty = s.dirty := rfl
@[simp] theorem State.modCur_threads (f : Thread → Thread) : (s.modCur f).threads = s.threads.put s.uid (f s.cur) := rfl
@[simp] theorem State.modCur_slots (f : Thread → Thread) : (s.modCur f).slots = s.slots := rfl
@[simp] theorem State.modCur_cores (f : Thread → Thread) : (s.modCur f).cores = s.cores := rfl
@[simp] theorem State.modCur_clusters (f : Thread → Thread) : (s.modCur f).clusters = s.clusters := rfl
@[simp] theorem State.modCur_dies (f : Thread → Thread) : (s.modCur f).dies = s.dies := rfl
@[simp] theorem State.modCur_reqs (f : Thread → Thread) : (s.modCur f).reqs = s.reqs := rfl
@[simp] theorem State.modCur_msgs (f : Thread → Thread) : (s.modCur f).msgs = s.msgs := rfl
@[simp] theorem State.modCur_bound (f : Thread → Thread) : (s.modCur f).bound = s.bound := rfl
@[simp] theorem State.modCur_carried (f : Thread → Thread) : (s.modCur f).carried = s.carried := rfl
@[simp] theorem State.modCur_barriers (f : Thread → Thread) : (s.modCur f).barriers = s.barriers := rfl
@[simp] theorem State.modCur_families (f : Thread → Thread) : (s.modCur f).families = s.families := rfl
@[simp] theorem State.modCur_funcs (f : Thread → Thread) : (s.modCur f).funcs = s.funcs := rfl
@[simp] theorem State.modCur_walks (f : Thread → Thread) : (s.modCur f).walks = s.walks := rfl
@[simp] theorem State.modCur_fetches (f : Thread → Thread) : (s.modCur f).fetches = s.fetches := rfl
@[simp] theorem State.modCur_records (f : Thread → Thread) : (s.modCur f).records = s.records := rfl
@[simp] theorem State.modCur_pkg (f : Thread → Thread) : (s.modCur f).pkg = s.pkg := rfl
@[simp] theorem State.modCur_agenda (f : Thread → Thread) : (s.modCur f).agenda = s.agenda := rfl
@[simp] theorem State.modCur_me (f : Thread → Thread) : (s.modCur f).me = s.me := rfl
@[simp] theorem State.modCur_fresh (f : Thread → Thread) : (s.modCur f).fresh = s.fresh := rfl
@[simp] theorem State.modCur_nextId (f : Thread → Thread) : (s.modCur f).nextId = s.nextId := rfl

/-! putSlot. -/
@[simp] theorem State.putSlot_mem (q : Nat) (x : Slot) : (s.putSlot q x).mem = s.mem := rfl
@[simp] theorem State.putSlot_nums (q : Nat) (x : Slot) : (s.putSlot q x).nums = s.nums := rfl
@[simp] theorem State.putSlot_latest (q : Nat) (x : Slot) : (s.putSlot q x).latest = s.latest := rfl
@[simp] theorem State.putSlot_bad (q : Nat) (x : Slot) : (s.putSlot q x).bad = s.bad := rfl
@[simp] theorem State.putSlot_dirty (q : Nat) (x : Slot) : (s.putSlot q x).dirty = s.dirty := rfl
@[simp] theorem State.putSlot_threads (q : Nat) (x : Slot) : (s.putSlot q x).threads = s.threads := rfl
@[simp] theorem State.putSlot_slots (q : Nat) (x : Slot) : (s.putSlot q x).slots = s.slots.put q x := rfl
@[simp] theorem State.putSlot_cores (q : Nat) (x : Slot) : (s.putSlot q x).cores = s.cores := rfl
@[simp] theorem State.putSlot_clusters (q : Nat) (x : Slot) : (s.putSlot q x).clusters = s.clusters := rfl
@[simp] theorem State.putSlot_dies (q : Nat) (x : Slot) : (s.putSlot q x).dies = s.dies := rfl
@[simp] theorem State.putSlot_reqs (q : Nat) (x : Slot) : (s.putSlot q x).reqs = s.reqs := rfl
@[simp] theorem State.putSlot_msgs (q : Nat) (x : Slot) : (s.putSlot q x).msgs = s.msgs := rfl
@[simp] theorem State.putSlot_bound (q : Nat) (x : Slot) : (s.putSlot q x).bound = s.bound := rfl
@[simp] theorem State.putSlot_carried (q : Nat) (x : Slot) : (s.putSlot q x).carried = s.carried := rfl
@[simp] theorem State.putSlot_barriers (q : Nat) (x : Slot) : (s.putSlot q x).barriers = s.barriers := rfl
@[simp] theorem State.putSlot_families (q : Nat) (x : Slot) : (s.putSlot q x).families = s.families := rfl
@[simp] theorem State.putSlot_funcs (q : Nat) (x : Slot) : (s.putSlot q x).funcs = s.funcs := rfl
@[simp] theorem State.putSlot_walks (q : Nat) (x : Slot) : (s.putSlot q x).walks = s.walks := rfl
@[simp] theorem State.putSlot_fetches (q : Nat) (x : Slot) : (s.putSlot q x).fetches = s.fetches := rfl
@[simp] theorem State.putSlot_records (q : Nat) (x : Slot) : (s.putSlot q x).records = s.records := rfl
@[simp] theorem State.putSlot_pkg (q : Nat) (x : Slot) : (s.putSlot q x).pkg = s.pkg := rfl
@[simp] theorem State.putSlot_agenda (q : Nat) (x : Slot) : (s.putSlot q x).agenda = s.agenda := rfl
@[simp] theorem State.putSlot_me (q : Nat) (x : Slot) : (s.putSlot q x).me = s.me := rfl
@[simp] theorem State.putSlot_fresh (q : Nat) (x : Slot) : (s.putSlot q x).fresh = s.fresh := rfl
@[simp] theorem State.putSlot_nextId (q : Nat) (x : Slot) : (s.putSlot q x).nextId = s.nextId := rfl

/-! modSlot. -/
@[simp] theorem State.modSlot_mem (q : Nat) (f : Slot → Slot) : (s.modSlot q f).mem = s.mem := rfl
@[simp] theorem State.modSlot_nums (q : Nat) (f : Slot → Slot) : (s.modSlot q f).nums = s.nums := rfl
@[simp] theorem State.modSlot_latest (q : Nat) (f : Slot → Slot) : (s.modSlot q f).latest = s.latest := rfl
@[simp] theorem State.modSlot_bad (q : Nat) (f : Slot → Slot) : (s.modSlot q f).bad = s.bad := rfl
@[simp] theorem State.modSlot_dirty (q : Nat) (f : Slot → Slot) : (s.modSlot q f).dirty = s.dirty := rfl
@[simp] theorem State.modSlot_threads (q : Nat) (f : Slot → Slot) : (s.modSlot q f).threads = s.threads := rfl
@[simp] theorem State.modSlot_slots (q : Nat) (f : Slot → Slot) : (s.modSlot q f).slots = s.slots.put q (f (s.slotAt q)) := rfl
@[simp] theorem State.modSlot_cores (q : Nat) (f : Slot → Slot) : (s.modSlot q f).cores = s.cores := rfl
@[simp] theorem State.modSlot_clusters (q : Nat) (f : Slot → Slot) : (s.modSlot q f).clusters = s.clusters := rfl
@[simp] theorem State.modSlot_dies (q : Nat) (f : Slot → Slot) : (s.modSlot q f).dies = s.dies := rfl
@[simp] theorem State.modSlot_reqs (q : Nat) (f : Slot → Slot) : (s.modSlot q f).reqs = s.reqs := rfl
@[simp] theorem State.modSlot_msgs (q : Nat) (f : Slot → Slot) : (s.modSlot q f).msgs = s.msgs := rfl
@[simp] theorem State.modSlot_bound (q : Nat) (f : Slot → Slot) : (s.modSlot q f).bound = s.bound := rfl
@[simp] theorem State.modSlot_carried (q : Nat) (f : Slot → Slot) : (s.modSlot q f).carried = s.carried := rfl
@[simp] theorem State.modSlot_barriers (q : Nat) (f : Slot → Slot) : (s.modSlot q f).barriers = s.barriers := rfl
@[simp] theorem State.modSlot_families (q : Nat) (f : Slot → Slot) : (s.modSlot q f).families = s.families := rfl
@[simp] theorem State.modSlot_funcs (q : Nat) (f : Slot → Slot) : (s.modSlot q f).funcs = s.funcs := rfl
@[simp] theorem State.modSlot_walks (q : Nat) (f : Slot → Slot) : (s.modSlot q f).walks = s.walks := rfl
@[simp] theorem State.modSlot_fetches (q : Nat) (f : Slot → Slot) : (s.modSlot q f).fetches = s.fetches := rfl
@[simp] theorem State.modSlot_records (q : Nat) (f : Slot → Slot) : (s.modSlot q f).records = s.records := rfl
@[simp] theorem State.modSlot_pkg (q : Nat) (f : Slot → Slot) : (s.modSlot q f).pkg = s.pkg := rfl
@[simp] theorem State.modSlot_agenda (q : Nat) (f : Slot → Slot) : (s.modSlot q f).agenda = s.agenda := rfl
@[simp] theorem State.modSlot_me (q : Nat) (f : Slot → Slot) : (s.modSlot q f).me = s.me := rfl
@[simp] theorem State.modSlot_fresh (q : Nat) (f : Slot → Slot) : (s.modSlot q f).fresh = s.fresh := rfl
@[simp] theorem State.modSlot_nextId (q : Nat) (f : Slot → Slot) : (s.modSlot q f).nextId = s.nextId := rfl

/-! putCore. -/
@[simp] theorem State.putCore_mem (c : Nat) (x : Core) : (s.putCore c x).mem = s.mem := rfl
@[simp] theorem State.putCore_nums (c : Nat) (x : Core) : (s.putCore c x).nums = s.nums := rfl
@[simp] theorem State.putCore_latest (c : Nat) (x : Core) : (s.putCore c x).latest = s.latest := rfl
@[simp] theorem State.putCore_bad (c : Nat) (x : Core) : (s.putCore c x).bad = s.bad := rfl
@[simp] theorem State.putCore_dirty (c : Nat) (x : Core) : (s.putCore c x).dirty = s.dirty := rfl
@[simp] theorem State.putCore_threads (c : Nat) (x : Core) : (s.putCore c x).threads = s.threads := rfl
@[simp] theorem State.putCore_slots (c : Nat) (x : Core) : (s.putCore c x).slots = s.slots := rfl
@[simp] theorem State.putCore_cores (c : Nat) (x : Core) : (s.putCore c x).cores = s.cores.put c x := rfl
@[simp] theorem State.putCore_clusters (c : Nat) (x : Core) : (s.putCore c x).clusters = s.clusters := rfl
@[simp] theorem State.putCore_dies (c : Nat) (x : Core) : (s.putCore c x).dies = s.dies := rfl
@[simp] theorem State.putCore_reqs (c : Nat) (x : Core) : (s.putCore c x).reqs = s.reqs := rfl
@[simp] theorem State.putCore_msgs (c : Nat) (x : Core) : (s.putCore c x).msgs = s.msgs := rfl
@[simp] theorem State.putCore_bound (c : Nat) (x : Core) : (s.putCore c x).bound = s.bound := rfl
@[simp] theorem State.putCore_carried (c : Nat) (x : Core) : (s.putCore c x).carried = s.carried := rfl
@[simp] theorem State.putCore_barriers (c : Nat) (x : Core) : (s.putCore c x).barriers = s.barriers := rfl
@[simp] theorem State.putCore_families (c : Nat) (x : Core) : (s.putCore c x).families = s.families := rfl
@[simp] theorem State.putCore_funcs (c : Nat) (x : Core) : (s.putCore c x).funcs = s.funcs := rfl
@[simp] theorem State.putCore_walks (c : Nat) (x : Core) : (s.putCore c x).walks = s.walks := rfl
@[simp] theorem State.putCore_fetches (c : Nat) (x : Core) : (s.putCore c x).fetches = s.fetches := rfl
@[simp] theorem State.putCore_records (c : Nat) (x : Core) : (s.putCore c x).records = s.records := rfl
@[simp] theorem State.putCore_pkg (c : Nat) (x : Core) : (s.putCore c x).pkg = s.pkg := rfl
@[simp] theorem State.putCore_agenda (c : Nat) (x : Core) : (s.putCore c x).agenda = s.agenda := rfl
@[simp] theorem State.putCore_me (c : Nat) (x : Core) : (s.putCore c x).me = s.me := rfl
@[simp] theorem State.putCore_fresh (c : Nat) (x : Core) : (s.putCore c x).fresh = s.fresh := rfl
@[simp] theorem State.putCore_nextId (c : Nat) (x : Core) : (s.putCore c x).nextId = s.nextId := rfl

/-! modCore. -/
@[simp] theorem State.modCore_mem (c : Nat) (f : Core → Core) : (s.modCore c f).mem = s.mem := rfl
@[simp] theorem State.modCore_nums (c : Nat) (f : Core → Core) : (s.modCore c f).nums = s.nums := rfl
@[simp] theorem State.modCore_latest (c : Nat) (f : Core → Core) : (s.modCore c f).latest = s.latest := rfl
@[simp] theorem State.modCore_bad (c : Nat) (f : Core → Core) : (s.modCore c f).bad = s.bad := rfl
@[simp] theorem State.modCore_dirty (c : Nat) (f : Core → Core) : (s.modCore c f).dirty = s.dirty := rfl
@[simp] theorem State.modCore_threads (c : Nat) (f : Core → Core) : (s.modCore c f).threads = s.threads := rfl
@[simp] theorem State.modCore_slots (c : Nat) (f : Core → Core) : (s.modCore c f).slots = s.slots := rfl
@[simp] theorem State.modCore_cores (c : Nat) (f : Core → Core) : (s.modCore c f).cores = s.cores.put c (f (s.coreAt c)) := rfl
@[simp] theorem State.modCore_clusters (c : Nat) (f : Core → Core) : (s.modCore c f).clusters = s.clusters := rfl
@[simp] theorem State.modCore_dies (c : Nat) (f : Core → Core) : (s.modCore c f).dies = s.dies := rfl
@[simp] theorem State.modCore_reqs (c : Nat) (f : Core → Core) : (s.modCore c f).reqs = s.reqs := rfl
@[simp] theorem State.modCore_msgs (c : Nat) (f : Core → Core) : (s.modCore c f).msgs = s.msgs := rfl
@[simp] theorem State.modCore_bound (c : Nat) (f : Core → Core) : (s.modCore c f).bound = s.bound := rfl
@[simp] theorem State.modCore_carried (c : Nat) (f : Core → Core) : (s.modCore c f).carried = s.carried := rfl
@[simp] theorem State.modCore_barriers (c : Nat) (f : Core → Core) : (s.modCore c f).barriers = s.barriers := rfl
@[simp] theorem State.modCore_families (c : Nat) (f : Core → Core) : (s.modCore c f).families = s.families := rfl
@[simp] theorem State.modCore_funcs (c : Nat) (f : Core → Core) : (s.modCore c f).funcs = s.funcs := rfl
@[simp] theorem State.modCore_walks (c : Nat) (f : Core → Core) : (s.modCore c f).walks = s.walks := rfl
@[simp] theorem State.modCore_fetches (c : Nat) (f : Core → Core) : (s.modCore c f).fetches = s.fetches := rfl
@[simp] theorem State.modCore_records (c : Nat) (f : Core → Core) : (s.modCore c f).records = s.records := rfl
@[simp] theorem State.modCore_pkg (c : Nat) (f : Core → Core) : (s.modCore c f).pkg = s.pkg := rfl
@[simp] theorem State.modCore_agenda (c : Nat) (f : Core → Core) : (s.modCore c f).agenda = s.agenda := rfl
@[simp] theorem State.modCore_me (c : Nat) (f : Core → Core) : (s.modCore c f).me = s.me := rfl
@[simp] theorem State.modCore_fresh (c : Nat) (f : Core → Core) : (s.modCore c f).fresh = s.fresh := rfl
@[simp] theorem State.modCore_nextId (c : Nat) (f : Core → Core) : (s.modCore c f).nextId = s.nextId := rfl

/-! modCluster. -/
@[simp] theorem State.modCluster_mem (c : Nat) (f : Cluster → Cluster) : (s.modCluster c f).mem = s.mem := rfl
@[simp] theorem State.modCluster_nums (c : Nat) (f : Cluster → Cluster) : (s.modCluster c f).nums = s.nums := rfl
@[simp] theorem State.modCluster_latest (c : Nat) (f : Cluster → Cluster) : (s.modCluster c f).latest = s.latest := rfl
@[simp] theorem State.modCluster_bad (c : Nat) (f : Cluster → Cluster) : (s.modCluster c f).bad = s.bad := rfl
@[simp] theorem State.modCluster_dirty (c : Nat) (f : Cluster → Cluster) : (s.modCluster c f).dirty = s.dirty := rfl
@[simp] theorem State.modCluster_threads (c : Nat) (f : Cluster → Cluster) : (s.modCluster c f).threads = s.threads := rfl
@[simp] theorem State.modCluster_slots (c : Nat) (f : Cluster → Cluster) : (s.modCluster c f).slots = s.slots := rfl
@[simp] theorem State.modCluster_cores (c : Nat) (f : Cluster → Cluster) : (s.modCluster c f).cores = s.cores := rfl
@[simp] theorem State.modCluster_clusters (c : Nat) (f : Cluster → Cluster) : (s.modCluster c f).clusters = s.clusters.put c (f (s.clusterAt c)) := rfl
@[simp] theorem State.modCluster_dies (c : Nat) (f : Cluster → Cluster) : (s.modCluster c f).dies = s.dies := rfl
@[simp] theorem State.modCluster_reqs (c : Nat) (f : Cluster → Cluster) : (s.modCluster c f).reqs = s.reqs := rfl
@[simp] theorem State.modCluster_msgs (c : Nat) (f : Cluster → Cluster) : (s.modCluster c f).msgs = s.msgs := rfl
@[simp] theorem State.modCluster_bound (c : Nat) (f : Cluster → Cluster) : (s.modCluster c f).bound = s.bound := rfl
@[simp] theorem State.modCluster_carried (c : Nat) (f : Cluster → Cluster) : (s.modCluster c f).carried = s.carried := rfl
@[simp] theorem State.modCluster_barriers (c : Nat) (f : Cluster → Cluster) : (s.modCluster c f).barriers = s.barriers := rfl
@[simp] theorem State.modCluster_families (c : Nat) (f : Cluster → Cluster) : (s.modCluster c f).families = s.families := rfl
@[simp] theorem State.modCluster_funcs (c : Nat) (f : Cluster → Cluster) : (s.modCluster c f).funcs = s.funcs := rfl
@[simp] theorem State.modCluster_walks (c : Nat) (f : Cluster → Cluster) : (s.modCluster c f).walks = s.walks := rfl
@[simp] theorem State.modCluster_fetches (c : Nat) (f : Cluster → Cluster) : (s.modCluster c f).fetches = s.fetches := rfl
@[simp] theorem State.modCluster_records (c : Nat) (f : Cluster → Cluster) : (s.modCluster c f).records = s.records := rfl
@[simp] theorem State.modCluster_pkg (c : Nat) (f : Cluster → Cluster) : (s.modCluster c f).pkg = s.pkg := rfl
@[simp] theorem State.modCluster_agenda (c : Nat) (f : Cluster → Cluster) : (s.modCluster c f).agenda = s.agenda := rfl
@[simp] theorem State.modCluster_me (c : Nat) (f : Cluster → Cluster) : (s.modCluster c f).me = s.me := rfl
@[simp] theorem State.modCluster_fresh (c : Nat) (f : Cluster → Cluster) : (s.modCluster c f).fresh = s.fresh := rfl
@[simp] theorem State.modCluster_nextId (c : Nat) (f : Cluster → Cluster) : (s.modCluster c f).nextId = s.nextId := rfl

/-! modDie. -/
@[simp] theorem State.modDie_mem (d : Nat) (f : Die → Die) : (s.modDie d f).mem = s.mem := rfl
@[simp] theorem State.modDie_nums (d : Nat) (f : Die → Die) : (s.modDie d f).nums = s.nums := rfl
@[simp] theorem State.modDie_latest (d : Nat) (f : Die → Die) : (s.modDie d f).latest = s.latest := rfl
@[simp] theorem State.modDie_bad (d : Nat) (f : Die → Die) : (s.modDie d f).bad = s.bad := rfl
@[simp] theorem State.modDie_dirty (d : Nat) (f : Die → Die) : (s.modDie d f).dirty = s.dirty := rfl
@[simp] theorem State.modDie_threads (d : Nat) (f : Die → Die) : (s.modDie d f).threads = s.threads := rfl
@[simp] theorem State.modDie_slots (d : Nat) (f : Die → Die) : (s.modDie d f).slots = s.slots := rfl
@[simp] theorem State.modDie_cores (d : Nat) (f : Die → Die) : (s.modDie d f).cores = s.cores := rfl
@[simp] theorem State.modDie_clusters (d : Nat) (f : Die → Die) : (s.modDie d f).clusters = s.clusters := rfl
@[simp] theorem State.modDie_dies (d : Nat) (f : Die → Die) : (s.modDie d f).dies = s.dies.put d (f (s.dieAt d)) := rfl
@[simp] theorem State.modDie_reqs (d : Nat) (f : Die → Die) : (s.modDie d f).reqs = s.reqs := rfl
@[simp] theorem State.modDie_msgs (d : Nat) (f : Die → Die) : (s.modDie d f).msgs = s.msgs := rfl
@[simp] theorem State.modDie_bound (d : Nat) (f : Die → Die) : (s.modDie d f).bound = s.bound := rfl
@[simp] theorem State.modDie_carried (d : Nat) (f : Die → Die) : (s.modDie d f).carried = s.carried := rfl
@[simp] theorem State.modDie_barriers (d : Nat) (f : Die → Die) : (s.modDie d f).barriers = s.barriers := rfl
@[simp] theorem State.modDie_families (d : Nat) (f : Die → Die) : (s.modDie d f).families = s.families := rfl
@[simp] theorem State.modDie_funcs (d : Nat) (f : Die → Die) : (s.modDie d f).funcs = s.funcs := rfl
@[simp] theorem State.modDie_walks (d : Nat) (f : Die → Die) : (s.modDie d f).walks = s.walks := rfl
@[simp] theorem State.modDie_fetches (d : Nat) (f : Die → Die) : (s.modDie d f).fetches = s.fetches := rfl
@[simp] theorem State.modDie_records (d : Nat) (f : Die → Die) : (s.modDie d f).records = s.records := rfl
@[simp] theorem State.modDie_pkg (d : Nat) (f : Die → Die) : (s.modDie d f).pkg = s.pkg := rfl
@[simp] theorem State.modDie_agenda (d : Nat) (f : Die → Die) : (s.modDie d f).agenda = s.agenda := rfl
@[simp] theorem State.modDie_me (d : Nat) (f : Die → Die) : (s.modDie d f).me = s.me := rfl
@[simp] theorem State.modDie_fresh (d : Nat) (f : Die → Die) : (s.modDie d f).fresh = s.fresh := rfl
@[simp] theorem State.modDie_nextId (d : Nat) (f : Die → Die) : (s.modDie d f).nextId = s.nextId := rfl

/-! modFunc. -/
@[simp] theorem State.modFunc_mem (n : Nat) (f : Func → Func) : (s.modFunc n f).mem = s.mem := rfl
@[simp] theorem State.modFunc_nums (n : Nat) (f : Func → Func) : (s.modFunc n f).nums = s.nums := rfl
@[simp] theorem State.modFunc_latest (n : Nat) (f : Func → Func) : (s.modFunc n f).latest = s.latest := rfl
@[simp] theorem State.modFunc_bad (n : Nat) (f : Func → Func) : (s.modFunc n f).bad = s.bad := rfl
@[simp] theorem State.modFunc_dirty (n : Nat) (f : Func → Func) : (s.modFunc n f).dirty = s.dirty := rfl
@[simp] theorem State.modFunc_threads (n : Nat) (f : Func → Func) : (s.modFunc n f).threads = s.threads := rfl
@[simp] theorem State.modFunc_slots (n : Nat) (f : Func → Func) : (s.modFunc n f).slots = s.slots := rfl
@[simp] theorem State.modFunc_cores (n : Nat) (f : Func → Func) : (s.modFunc n f).cores = s.cores := rfl
@[simp] theorem State.modFunc_clusters (n : Nat) (f : Func → Func) : (s.modFunc n f).clusters = s.clusters := rfl
@[simp] theorem State.modFunc_dies (n : Nat) (f : Func → Func) : (s.modFunc n f).dies = s.dies := rfl
@[simp] theorem State.modFunc_reqs (n : Nat) (f : Func → Func) : (s.modFunc n f).reqs = s.reqs := rfl
@[simp] theorem State.modFunc_msgs (n : Nat) (f : Func → Func) : (s.modFunc n f).msgs = s.msgs := rfl
@[simp] theorem State.modFunc_bound (n : Nat) (f : Func → Func) : (s.modFunc n f).bound = s.bound := rfl
@[simp] theorem State.modFunc_carried (n : Nat) (f : Func → Func) : (s.modFunc n f).carried = s.carried := rfl
@[simp] theorem State.modFunc_barriers (n : Nat) (f : Func → Func) : (s.modFunc n f).barriers = s.barriers := rfl
@[simp] theorem State.modFunc_families (n : Nat) (f : Func → Func) : (s.modFunc n f).families = s.families := rfl
@[simp] theorem State.modFunc_funcs (n : Nat) (f : Func → Func) : (s.modFunc n f).funcs = s.funcs.put n (f (s.funcAt n)) := rfl
@[simp] theorem State.modFunc_walks (n : Nat) (f : Func → Func) : (s.modFunc n f).walks = s.walks := rfl
@[simp] theorem State.modFunc_fetches (n : Nat) (f : Func → Func) : (s.modFunc n f).fetches = s.fetches := rfl
@[simp] theorem State.modFunc_records (n : Nat) (f : Func → Func) : (s.modFunc n f).records = s.records := rfl
@[simp] theorem State.modFunc_pkg (n : Nat) (f : Func → Func) : (s.modFunc n f).pkg = s.pkg := rfl
@[simp] theorem State.modFunc_agenda (n : Nat) (f : Func → Func) : (s.modFunc n f).agenda = s.agenda := rfl
@[simp] theorem State.modFunc_me (n : Nat) (f : Func → Func) : (s.modFunc n f).me = s.me := rfl
@[simp] theorem State.modFunc_fresh (n : Nat) (f : Func → Func) : (s.modFunc n f).fresh = s.fresh := rfl
@[simp] theorem State.modFunc_nextId (n : Nat) (f : Func → Func) : (s.modFunc n f).nextId = s.nextId := rfl

/-! modQueue. -/
@[simp] theorem State.modQueue_mem (v q : Nat) (f : Queue → Queue) : (s.modQueue v q f).mem = s.mem := rfl
@[simp] theorem State.modQueue_nums (v q : Nat) (f : Queue → Queue) : (s.modQueue v q f).nums = s.nums := rfl
@[simp] theorem State.modQueue_latest (v q : Nat) (f : Queue → Queue) : (s.modQueue v q f).latest = s.latest := rfl
@[simp] theorem State.modQueue_bad (v q : Nat) (f : Queue → Queue) : (s.modQueue v q f).bad = s.bad := rfl
@[simp] theorem State.modQueue_dirty (v q : Nat) (f : Queue → Queue) : (s.modQueue v q f).dirty = s.dirty := rfl
@[simp] theorem State.modQueue_threads (v q : Nat) (f : Queue → Queue) : (s.modQueue v q f).threads = s.threads := rfl
@[simp] theorem State.modQueue_slots (v q : Nat) (f : Queue → Queue) : (s.modQueue v q f).slots = s.slots := rfl
@[simp] theorem State.modQueue_cores (v q : Nat) (f : Queue → Queue) : (s.modQueue v q f).cores = s.cores := rfl
@[simp] theorem State.modQueue_clusters (v q : Nat) (f : Queue → Queue) : (s.modQueue v q f).clusters = s.clusters := rfl
@[simp] theorem State.modQueue_dies (v q : Nat) (f : Queue → Queue) : (s.modQueue v q f).dies = s.dies := rfl
@[simp] theorem State.modQueue_reqs (v q : Nat) (f : Queue → Queue) : (s.modQueue v q f).reqs = s.reqs := rfl
@[simp] theorem State.modQueue_msgs (v q : Nat) (f : Queue → Queue) : (s.modQueue v q f).msgs = s.msgs := rfl
@[simp] theorem State.modQueue_bound (v q : Nat) (f : Queue → Queue) : (s.modQueue v q f).bound = s.bound := rfl
@[simp] theorem State.modQueue_carried (v q : Nat) (f : Queue → Queue) : (s.modQueue v q f).carried = s.carried := rfl
@[simp] theorem State.modQueue_barriers (v q : Nat) (f : Queue → Queue) : (s.modQueue v q f).barriers = s.barriers := rfl
@[simp] theorem State.modQueue_families (v q : Nat) (f : Queue → Queue) : (s.modQueue v q f).families = s.families := rfl
@[simp] theorem State.modQueue_funcs (v q : Nat) (f : Queue → Queue) : (s.modQueue v q f).funcs = s.funcs.put v { s.funcAt v with queues := (s.funcAt v).queues.put q (f (s.queueAt v q)) } := rfl
@[simp] theorem State.modQueue_walks (v q : Nat) (f : Queue → Queue) : (s.modQueue v q f).walks = s.walks := rfl
@[simp] theorem State.modQueue_fetches (v q : Nat) (f : Queue → Queue) : (s.modQueue v q f).fetches = s.fetches := rfl
@[simp] theorem State.modQueue_records (v q : Nat) (f : Queue → Queue) : (s.modQueue v q f).records = s.records := rfl
@[simp] theorem State.modQueue_pkg (v q : Nat) (f : Queue → Queue) : (s.modQueue v q f).pkg = s.pkg := rfl
@[simp] theorem State.modQueue_agenda (v q : Nat) (f : Queue → Queue) : (s.modQueue v q f).agenda = s.agenda := rfl
@[simp] theorem State.modQueue_me (v q : Nat) (f : Queue → Queue) : (s.modQueue v q f).me = s.me := rfl
@[simp] theorem State.modQueue_fresh (v q : Nat) (f : Queue → Queue) : (s.modQueue v q f).fresh = s.fresh := rfl
@[simp] theorem State.modQueue_nextId (v q : Nat) (f : Queue → Queue) : (s.modQueue v q f).nextId = s.nextId := rfl

/-! modFam. -/
@[simp] theorem State.modFam_mem (n : Nat) (f : Family → Family) : (s.modFam n f).mem = s.mem := rfl
@[simp] theorem State.modFam_nums (n : Nat) (f : Family → Family) : (s.modFam n f).nums = s.nums := rfl
@[simp] theorem State.modFam_latest (n : Nat) (f : Family → Family) : (s.modFam n f).latest = s.latest := rfl
@[simp] theorem State.modFam_bad (n : Nat) (f : Family → Family) : (s.modFam n f).bad = s.bad := rfl
@[simp] theorem State.modFam_dirty (n : Nat) (f : Family → Family) : (s.modFam n f).dirty = s.dirty := rfl
@[simp] theorem State.modFam_threads (n : Nat) (f : Family → Family) : (s.modFam n f).threads = s.threads := rfl
@[simp] theorem State.modFam_slots (n : Nat) (f : Family → Family) : (s.modFam n f).slots = s.slots := rfl
@[simp] theorem State.modFam_cores (n : Nat) (f : Family → Family) : (s.modFam n f).cores = s.cores := rfl
@[simp] theorem State.modFam_clusters (n : Nat) (f : Family → Family) : (s.modFam n f).clusters = s.clusters := rfl
@[simp] theorem State.modFam_dies (n : Nat) (f : Family → Family) : (s.modFam n f).dies = s.dies := rfl
@[simp] theorem State.modFam_reqs (n : Nat) (f : Family → Family) : (s.modFam n f).reqs = s.reqs := rfl
@[simp] theorem State.modFam_msgs (n : Nat) (f : Family → Family) : (s.modFam n f).msgs = s.msgs := rfl
@[simp] theorem State.modFam_bound (n : Nat) (f : Family → Family) : (s.modFam n f).bound = s.bound := rfl
@[simp] theorem State.modFam_carried (n : Nat) (f : Family → Family) : (s.modFam n f).carried = s.carried := rfl
@[simp] theorem State.modFam_barriers (n : Nat) (f : Family → Family) : (s.modFam n f).barriers = s.barriers := rfl
@[simp] theorem State.modFam_families (n : Nat) (f : Family → Family) : (s.modFam n f).families = s.families.put n (f (s.famAt n)) := rfl
@[simp] theorem State.modFam_funcs (n : Nat) (f : Family → Family) : (s.modFam n f).funcs = s.funcs := rfl
@[simp] theorem State.modFam_walks (n : Nat) (f : Family → Family) : (s.modFam n f).walks = s.walks := rfl
@[simp] theorem State.modFam_fetches (n : Nat) (f : Family → Family) : (s.modFam n f).fetches = s.fetches := rfl
@[simp] theorem State.modFam_records (n : Nat) (f : Family → Family) : (s.modFam n f).records = s.records := rfl
@[simp] theorem State.modFam_pkg (n : Nat) (f : Family → Family) : (s.modFam n f).pkg = s.pkg := rfl
@[simp] theorem State.modFam_agenda (n : Nat) (f : Family → Family) : (s.modFam n f).agenda = s.agenda := rfl
@[simp] theorem State.modFam_me (n : Nat) (f : Family → Family) : (s.modFam n f).me = s.me := rfl
@[simp] theorem State.modFam_fresh (n : Nat) (f : Family → Family) : (s.modFam n f).fresh = s.fresh := rfl
@[simp] theorem State.modFam_nextId (n : Nat) (f : Family → Family) : (s.modFam n f).nextId = s.nextId := rfl

/-! modPkg. -/
@[simp] theorem State.modPkg_mem (f : Package → Package) : (s.modPkg f).mem = s.mem := rfl
@[simp] theorem State.modPkg_nums (f : Package → Package) : (s.modPkg f).nums = s.nums := rfl
@[simp] theorem State.modPkg_latest (f : Package → Package) : (s.modPkg f).latest = s.latest := rfl
@[simp] theorem State.modPkg_bad (f : Package → Package) : (s.modPkg f).bad = s.bad := rfl
@[simp] theorem State.modPkg_dirty (f : Package → Package) : (s.modPkg f).dirty = s.dirty := rfl
@[simp] theorem State.modPkg_threads (f : Package → Package) : (s.modPkg f).threads = s.threads := rfl
@[simp] theorem State.modPkg_slots (f : Package → Package) : (s.modPkg f).slots = s.slots := rfl
@[simp] theorem State.modPkg_cores (f : Package → Package) : (s.modPkg f).cores = s.cores := rfl
@[simp] theorem State.modPkg_clusters (f : Package → Package) : (s.modPkg f).clusters = s.clusters := rfl
@[simp] theorem State.modPkg_dies (f : Package → Package) : (s.modPkg f).dies = s.dies := rfl
@[simp] theorem State.modPkg_reqs (f : Package → Package) : (s.modPkg f).reqs = s.reqs := rfl
@[simp] theorem State.modPkg_msgs (f : Package → Package) : (s.modPkg f).msgs = s.msgs := rfl
@[simp] theorem State.modPkg_bound (f : Package → Package) : (s.modPkg f).bound = s.bound := rfl
@[simp] theorem State.modPkg_carried (f : Package → Package) : (s.modPkg f).carried = s.carried := rfl
@[simp] theorem State.modPkg_barriers (f : Package → Package) : (s.modPkg f).barriers = s.barriers := rfl
@[simp] theorem State.modPkg_families (f : Package → Package) : (s.modPkg f).families = s.families := rfl
@[simp] theorem State.modPkg_funcs (f : Package → Package) : (s.modPkg f).funcs = s.funcs := rfl
@[simp] theorem State.modPkg_walks (f : Package → Package) : (s.modPkg f).walks = s.walks := rfl
@[simp] theorem State.modPkg_fetches (f : Package → Package) : (s.modPkg f).fetches = s.fetches := rfl
@[simp] theorem State.modPkg_records (f : Package → Package) : (s.modPkg f).records = s.records := rfl
@[simp] theorem State.modPkg_pkg (f : Package → Package) : (s.modPkg f).pkg = f s.pkg := rfl
@[simp] theorem State.modPkg_agenda (f : Package → Package) : (s.modPkg f).agenda = s.agenda := rfl
@[simp] theorem State.modPkg_me (f : Package → Package) : (s.modPkg f).me = s.me := rfl
@[simp] theorem State.modPkg_fresh (f : Package → Package) : (s.modPkg f).fresh = s.fresh := rfl
@[simp] theorem State.modPkg_nextId (f : Package → Package) : (s.modPkg f).nextId = s.nextId := rfl

/-! putReq. -/
@[simp] theorem State.putReq_mem (id : Nat) (r : Req) : (s.putReq id r).mem = s.mem := rfl
@[simp] theorem State.putReq_nums (id : Nat) (r : Req) : (s.putReq id r).nums = s.nums := rfl
@[simp] theorem State.putReq_latest (id : Nat) (r : Req) : (s.putReq id r).latest = s.latest := rfl
@[simp] theorem State.putReq_bad (id : Nat) (r : Req) : (s.putReq id r).bad = s.bad := rfl
@[simp] theorem State.putReq_dirty (id : Nat) (r : Req) : (s.putReq id r).dirty = s.dirty := rfl
@[simp] theorem State.putReq_threads (id : Nat) (r : Req) : (s.putReq id r).threads = s.threads := rfl
@[simp] theorem State.putReq_slots (id : Nat) (r : Req) : (s.putReq id r).slots = s.slots := rfl
@[simp] theorem State.putReq_cores (id : Nat) (r : Req) : (s.putReq id r).cores = s.cores := rfl
@[simp] theorem State.putReq_clusters (id : Nat) (r : Req) : (s.putReq id r).clusters = s.clusters := rfl
@[simp] theorem State.putReq_dies (id : Nat) (r : Req) : (s.putReq id r).dies = s.dies := rfl
@[simp] theorem State.putReq_reqs (id : Nat) (r : Req) : (s.putReq id r).reqs = s.reqs.put id r := rfl
@[simp] theorem State.putReq_msgs (id : Nat) (r : Req) : (s.putReq id r).msgs = s.msgs := rfl
@[simp] theorem State.putReq_bound (id : Nat) (r : Req) : (s.putReq id r).bound = s.bound := rfl
@[simp] theorem State.putReq_carried (id : Nat) (r : Req) : (s.putReq id r).carried = s.carried := rfl
@[simp] theorem State.putReq_barriers (id : Nat) (r : Req) : (s.putReq id r).barriers = s.barriers := rfl
@[simp] theorem State.putReq_families (id : Nat) (r : Req) : (s.putReq id r).families = s.families := rfl
@[simp] theorem State.putReq_funcs (id : Nat) (r : Req) : (s.putReq id r).funcs = s.funcs := rfl
@[simp] theorem State.putReq_walks (id : Nat) (r : Req) : (s.putReq id r).walks = s.walks := rfl
@[simp] theorem State.putReq_fetches (id : Nat) (r : Req) : (s.putReq id r).fetches = s.fetches := rfl
@[simp] theorem State.putReq_records (id : Nat) (r : Req) : (s.putReq id r).records = s.records := rfl
@[simp] theorem State.putReq_pkg (id : Nat) (r : Req) : (s.putReq id r).pkg = s.pkg := rfl
@[simp] theorem State.putReq_agenda (id : Nat) (r : Req) : (s.putReq id r).agenda = s.agenda := rfl
@[simp] theorem State.putReq_me (id : Nat) (r : Req) : (s.putReq id r).me = s.me := rfl
@[simp] theorem State.putReq_fresh (id : Nat) (r : Req) : (s.putReq id r).fresh = s.fresh := rfl
@[simp] theorem State.putReq_nextId (id : Nat) (r : Req) : (s.putReq id r).nextId = s.nextId := rfl

/-! delReq. -/
@[simp] theorem State.delReq_mem (id : Nat) : (s.delReq id).mem = s.mem := rfl
@[simp] theorem State.delReq_nums (id : Nat) : (s.delReq id).nums = s.nums := rfl
@[simp] theorem State.delReq_latest (id : Nat) : (s.delReq id).latest = s.latest := rfl
@[simp] theorem State.delReq_bad (id : Nat) : (s.delReq id).bad = s.bad := rfl
@[simp] theorem State.delReq_dirty (id : Nat) : (s.delReq id).dirty = s.dirty := rfl
@[simp] theorem State.delReq_threads (id : Nat) : (s.delReq id).threads = s.threads := rfl
@[simp] theorem State.delReq_slots (id : Nat) : (s.delReq id).slots = s.slots := rfl
@[simp] theorem State.delReq_cores (id : Nat) : (s.delReq id).cores = s.cores := rfl
@[simp] theorem State.delReq_clusters (id : Nat) : (s.delReq id).clusters = s.clusters := rfl
@[simp] theorem State.delReq_dies (id : Nat) : (s.delReq id).dies = s.dies := rfl
@[simp] theorem State.delReq_reqs (id : Nat) : (s.delReq id).reqs = s.reqs.del id := rfl
@[simp] theorem State.delReq_msgs (id : Nat) : (s.delReq id).msgs = s.msgs := rfl
@[simp] theorem State.delReq_bound (id : Nat) : (s.delReq id).bound = s.bound := rfl
@[simp] theorem State.delReq_carried (id : Nat) : (s.delReq id).carried = s.carried := rfl
@[simp] theorem State.delReq_barriers (id : Nat) : (s.delReq id).barriers = s.barriers := rfl
@[simp] theorem State.delReq_families (id : Nat) : (s.delReq id).families = s.families := rfl
@[simp] theorem State.delReq_funcs (id : Nat) : (s.delReq id).funcs = s.funcs := rfl
@[simp] theorem State.delReq_walks (id : Nat) : (s.delReq id).walks = s.walks := rfl
@[simp] theorem State.delReq_fetches (id : Nat) : (s.delReq id).fetches = s.fetches := rfl
@[simp] theorem State.delReq_records (id : Nat) : (s.delReq id).records = s.records := rfl
@[simp] theorem State.delReq_pkg (id : Nat) : (s.delReq id).pkg = s.pkg := rfl
@[simp] theorem State.delReq_agenda (id : Nat) : (s.delReq id).agenda = s.agenda := rfl
@[simp] theorem State.delReq_me (id : Nat) : (s.delReq id).me = s.me := rfl
@[simp] theorem State.delReq_fresh (id : Nat) : (s.delReq id).fresh = s.fresh := rfl
@[simp] theorem State.delReq_nextId (id : Nat) : (s.delReq id).nextId = s.nextId := rfl

/-! addReq. -/
@[simp] theorem State.addReq_mem (r : Req) : (s.addReq r).mem = s.mem := rfl
@[simp] theorem State.addReq_nums (r : Req) : (s.addReq r).nums = s.nums := rfl
@[simp] theorem State.addReq_latest (r : Req) : (s.addReq r).latest = s.latest := rfl
@[simp] theorem State.addReq_bad (r : Req) : (s.addReq r).bad = s.bad := rfl
@[simp] theorem State.addReq_dirty (r : Req) : (s.addReq r).dirty = s.dirty := rfl
@[simp] theorem State.addReq_threads (r : Req) : (s.addReq r).threads = s.threads := rfl
@[simp] theorem State.addReq_slots (r : Req) : (s.addReq r).slots = s.slots := rfl
@[simp] theorem State.addReq_cores (r : Req) : (s.addReq r).cores = s.cores := rfl
@[simp] theorem State.addReq_clusters (r : Req) : (s.addReq r).clusters = s.clusters := rfl
@[simp] theorem State.addReq_dies (r : Req) : (s.addReq r).dies = s.dies := rfl
@[simp] theorem State.addReq_reqs (r : Req) : (s.addReq r).reqs = s.reqs.put s.nextId r := rfl
@[simp] theorem State.addReq_msgs (r : Req) : (s.addReq r).msgs = s.msgs := rfl
@[simp] theorem State.addReq_bound (r : Req) : (s.addReq r).bound = s.bound := rfl
@[simp] theorem State.addReq_carried (r : Req) : (s.addReq r).carried = s.carried := rfl
@[simp] theorem State.addReq_barriers (r : Req) : (s.addReq r).barriers = s.barriers := rfl
@[simp] theorem State.addReq_families (r : Req) : (s.addReq r).families = s.families := rfl
@[simp] theorem State.addReq_funcs (r : Req) : (s.addReq r).funcs = s.funcs := rfl
@[simp] theorem State.addReq_walks (r : Req) : (s.addReq r).walks = s.walks := rfl
@[simp] theorem State.addReq_fetches (r : Req) : (s.addReq r).fetches = s.fetches := rfl
@[simp] theorem State.addReq_records (r : Req) : (s.addReq r).records = s.records := rfl
@[simp] theorem State.addReq_pkg (r : Req) : (s.addReq r).pkg = s.pkg := rfl
@[simp] theorem State.addReq_agenda (r : Req) : (s.addReq r).agenda = s.agenda := rfl
@[simp] theorem State.addReq_me (r : Req) : (s.addReq r).me = s.me := rfl
@[simp] theorem State.addReq_fresh (r : Req) : (s.addReq r).fresh = s.fresh := rfl
@[simp] theorem State.addReq_nextId (r : Req) : (s.addReq r).nextId = s.nextId + 1 := rfl

/-! mapReqs. -/
@[simp] theorem State.mapReqs_mem (f : Req → Req) : (s.mapReqs f).mem = s.mem := rfl
@[simp] theorem State.mapReqs_nums (f : Req → Req) : (s.mapReqs f).nums = s.nums := rfl
@[simp] theorem State.mapReqs_latest (f : Req → Req) : (s.mapReqs f).latest = s.latest := rfl
@[simp] theorem State.mapReqs_bad (f : Req → Req) : (s.mapReqs f).bad = s.bad := rfl
@[simp] theorem State.mapReqs_dirty (f : Req → Req) : (s.mapReqs f).dirty = s.dirty := rfl
@[simp] theorem State.mapReqs_threads (f : Req → Req) : (s.mapReqs f).threads = s.threads := rfl
@[simp] theorem State.mapReqs_slots (f : Req → Req) : (s.mapReqs f).slots = s.slots := rfl
@[simp] theorem State.mapReqs_cores (f : Req → Req) : (s.mapReqs f).cores = s.cores := rfl
@[simp] theorem State.mapReqs_clusters (f : Req → Req) : (s.mapReqs f).clusters = s.clusters := rfl
@[simp] theorem State.mapReqs_dies (f : Req → Req) : (s.mapReqs f).dies = s.dies := rfl
@[simp] theorem State.mapReqs_reqs (f : Req → Req) : (s.mapReqs f).reqs = s.reqs.map (fun e => (e.1, f e.2)) := rfl
@[simp] theorem State.mapReqs_msgs (f : Req → Req) : (s.mapReqs f).msgs = s.msgs := rfl
@[simp] theorem State.mapReqs_bound (f : Req → Req) : (s.mapReqs f).bound = s.bound := rfl
@[simp] theorem State.mapReqs_carried (f : Req → Req) : (s.mapReqs f).carried = s.carried := rfl
@[simp] theorem State.mapReqs_barriers (f : Req → Req) : (s.mapReqs f).barriers = s.barriers := rfl
@[simp] theorem State.mapReqs_families (f : Req → Req) : (s.mapReqs f).families = s.families := rfl
@[simp] theorem State.mapReqs_funcs (f : Req → Req) : (s.mapReqs f).funcs = s.funcs := rfl
@[simp] theorem State.mapReqs_walks (f : Req → Req) : (s.mapReqs f).walks = s.walks := rfl
@[simp] theorem State.mapReqs_fetches (f : Req → Req) : (s.mapReqs f).fetches = s.fetches := rfl
@[simp] theorem State.mapReqs_records (f : Req → Req) : (s.mapReqs f).records = s.records := rfl
@[simp] theorem State.mapReqs_pkg (f : Req → Req) : (s.mapReqs f).pkg = s.pkg := rfl
@[simp] theorem State.mapReqs_agenda (f : Req → Req) : (s.mapReqs f).agenda = s.agenda := rfl
@[simp] theorem State.mapReqs_me (f : Req → Req) : (s.mapReqs f).me = s.me := rfl
@[simp] theorem State.mapReqs_fresh (f : Req → Req) : (s.mapReqs f).fresh = s.fresh := rfl
@[simp] theorem State.mapReqs_nextId (f : Req → Req) : (s.mapReqs f).nextId = s.nextId := rfl

/-! send. -/
@[simp] theorem State.send_mem (x : Msg) : (s.send x).mem = s.mem := rfl
@[simp] theorem State.send_nums (x : Msg) : (s.send x).nums = s.nums := rfl
@[simp] theorem State.send_latest (x : Msg) : (s.send x).latest = s.latest := rfl
@[simp] theorem State.send_bad (x : Msg) : (s.send x).bad = s.bad := rfl
@[simp] theorem State.send_dirty (x : Msg) : (s.send x).dirty = s.dirty := rfl
@[simp] theorem State.send_threads (x : Msg) : (s.send x).threads = s.threads := rfl
@[simp] theorem State.send_slots (x : Msg) : (s.send x).slots = s.slots := rfl
@[simp] theorem State.send_cores (x : Msg) : (s.send x).cores = s.cores := rfl
@[simp] theorem State.send_clusters (x : Msg) : (s.send x).clusters = s.clusters := rfl
@[simp] theorem State.send_dies (x : Msg) : (s.send x).dies = s.dies := rfl
@[simp] theorem State.send_reqs (x : Msg) : (s.send x).reqs = s.reqs := rfl
@[simp] theorem State.send_msgs (x : Msg) : (s.send x).msgs = s.msgs.put s.nextId x := rfl
@[simp] theorem State.send_bound (x : Msg) : (s.send x).bound = s.bound := rfl
@[simp] theorem State.send_carried (x : Msg) : (s.send x).carried = s.carried := rfl
@[simp] theorem State.send_barriers (x : Msg) : (s.send x).barriers = s.barriers := rfl
@[simp] theorem State.send_families (x : Msg) : (s.send x).families = s.families := rfl
@[simp] theorem State.send_funcs (x : Msg) : (s.send x).funcs = s.funcs := rfl
@[simp] theorem State.send_walks (x : Msg) : (s.send x).walks = s.walks := rfl
@[simp] theorem State.send_fetches (x : Msg) : (s.send x).fetches = s.fetches := rfl
@[simp] theorem State.send_records (x : Msg) : (s.send x).records = s.records := rfl
@[simp] theorem State.send_pkg (x : Msg) : (s.send x).pkg = s.pkg := rfl
@[simp] theorem State.send_agenda (x : Msg) : (s.send x).agenda = s.agenda := rfl
@[simp] theorem State.send_me (x : Msg) : (s.send x).me = s.me := rfl
@[simp] theorem State.send_fresh (x : Msg) : (s.send x).fresh = s.fresh := rfl
@[simp] theorem State.send_nextId (x : Msg) : (s.send x).nextId = s.nextId + 1 := rfl

/-! sendWith. -/
@[simp] theorem State.sendWith_mem (c : List Nat) (x : Msg) : (s.sendWith c x).mem = s.mem := rfl
@[simp] theorem State.sendWith_nums (c : List Nat) (x : Msg) : (s.sendWith c x).nums = s.nums := rfl
@[simp] theorem State.sendWith_latest (c : List Nat) (x : Msg) : (s.sendWith c x).latest = s.latest := rfl
@[simp] theorem State.sendWith_bad (c : List Nat) (x : Msg) : (s.sendWith c x).bad = s.bad := rfl
@[simp] theorem State.sendWith_dirty (c : List Nat) (x : Msg) : (s.sendWith c x).dirty = s.dirty := rfl
@[simp] theorem State.sendWith_threads (c : List Nat) (x : Msg) : (s.sendWith c x).threads = s.threads := rfl
@[simp] theorem State.sendWith_slots (c : List Nat) (x : Msg) : (s.sendWith c x).slots = s.slots := rfl
@[simp] theorem State.sendWith_cores (c : List Nat) (x : Msg) : (s.sendWith c x).cores = s.cores := rfl
@[simp] theorem State.sendWith_clusters (c : List Nat) (x : Msg) : (s.sendWith c x).clusters = s.clusters := rfl
@[simp] theorem State.sendWith_dies (c : List Nat) (x : Msg) : (s.sendWith c x).dies = s.dies := rfl
@[simp] theorem State.sendWith_reqs (c : List Nat) (x : Msg) : (s.sendWith c x).reqs = s.reqs := rfl
@[simp] theorem State.sendWith_msgs (c : List Nat) (x : Msg) : (s.sendWith c x).msgs = s.msgs.put s.nextId x := rfl
@[simp] theorem State.sendWith_bound (c : List Nat) (x : Msg) : (s.sendWith c x).bound = s.bound := rfl
@[simp] theorem State.sendWith_carried (c : List Nat) (x : Msg) : (s.sendWith c x).carried = s.carried.put s.nextId c := rfl
@[simp] theorem State.sendWith_barriers (c : List Nat) (x : Msg) : (s.sendWith c x).barriers = s.barriers := rfl
@[simp] theorem State.sendWith_families (c : List Nat) (x : Msg) : (s.sendWith c x).families = s.families := rfl
@[simp] theorem State.sendWith_funcs (c : List Nat) (x : Msg) : (s.sendWith c x).funcs = s.funcs := rfl
@[simp] theorem State.sendWith_walks (c : List Nat) (x : Msg) : (s.sendWith c x).walks = s.walks := rfl
@[simp] theorem State.sendWith_fetches (c : List Nat) (x : Msg) : (s.sendWith c x).fetches = s.fetches := rfl
@[simp] theorem State.sendWith_records (c : List Nat) (x : Msg) : (s.sendWith c x).records = s.records := rfl
@[simp] theorem State.sendWith_pkg (c : List Nat) (x : Msg) : (s.sendWith c x).pkg = s.pkg := rfl
@[simp] theorem State.sendWith_agenda (c : List Nat) (x : Msg) : (s.sendWith c x).agenda = s.agenda := rfl
@[simp] theorem State.sendWith_me (c : List Nat) (x : Msg) : (s.sendWith c x).me = s.me := rfl
@[simp] theorem State.sendWith_fresh (c : List Nat) (x : Msg) : (s.sendWith c x).fresh = s.fresh := rfl
@[simp] theorem State.sendWith_nextId (c : List Nat) (x : Msg) : (s.sendWith c x).nextId = s.nextId + 1 := rfl

/-! putMsg. -/
@[simp] theorem State.putMsg_mem (id : Nat) (x : Msg) : (s.putMsg id x).mem = s.mem := rfl
@[simp] theorem State.putMsg_nums (id : Nat) (x : Msg) : (s.putMsg id x).nums = s.nums := rfl
@[simp] theorem State.putMsg_latest (id : Nat) (x : Msg) : (s.putMsg id x).latest = s.latest := rfl
@[simp] theorem State.putMsg_bad (id : Nat) (x : Msg) : (s.putMsg id x).bad = s.bad := rfl
@[simp] theorem State.putMsg_dirty (id : Nat) (x : Msg) : (s.putMsg id x).dirty = s.dirty := rfl
@[simp] theorem State.putMsg_threads (id : Nat) (x : Msg) : (s.putMsg id x).threads = s.threads := rfl
@[simp] theorem State.putMsg_slots (id : Nat) (x : Msg) : (s.putMsg id x).slots = s.slots := rfl
@[simp] theorem State.putMsg_cores (id : Nat) (x : Msg) : (s.putMsg id x).cores = s.cores := rfl
@[simp] theorem State.putMsg_clusters (id : Nat) (x : Msg) : (s.putMsg id x).clusters = s.clusters := rfl
@[simp] theorem State.putMsg_dies (id : Nat) (x : Msg) : (s.putMsg id x).dies = s.dies := rfl
@[simp] theorem State.putMsg_reqs (id : Nat) (x : Msg) : (s.putMsg id x).reqs = s.reqs := rfl
@[simp] theorem State.putMsg_msgs (id : Nat) (x : Msg) : (s.putMsg id x).msgs = s.msgs.put id x := rfl
@[simp] theorem State.putMsg_bound (id : Nat) (x : Msg) : (s.putMsg id x).bound = s.bound := rfl
@[simp] theorem State.putMsg_carried (id : Nat) (x : Msg) : (s.putMsg id x).carried = s.carried := rfl
@[simp] theorem State.putMsg_barriers (id : Nat) (x : Msg) : (s.putMsg id x).barriers = s.barriers := rfl
@[simp] theorem State.putMsg_families (id : Nat) (x : Msg) : (s.putMsg id x).families = s.families := rfl
@[simp] theorem State.putMsg_funcs (id : Nat) (x : Msg) : (s.putMsg id x).funcs = s.funcs := rfl
@[simp] theorem State.putMsg_walks (id : Nat) (x : Msg) : (s.putMsg id x).walks = s.walks := rfl
@[simp] theorem State.putMsg_fetches (id : Nat) (x : Msg) : (s.putMsg id x).fetches = s.fetches := rfl
@[simp] theorem State.putMsg_records (id : Nat) (x : Msg) : (s.putMsg id x).records = s.records := rfl
@[simp] theorem State.putMsg_pkg (id : Nat) (x : Msg) : (s.putMsg id x).pkg = s.pkg := rfl
@[simp] theorem State.putMsg_agenda (id : Nat) (x : Msg) : (s.putMsg id x).agenda = s.agenda := rfl
@[simp] theorem State.putMsg_me (id : Nat) (x : Msg) : (s.putMsg id x).me = s.me := rfl
@[simp] theorem State.putMsg_fresh (id : Nat) (x : Msg) : (s.putMsg id x).fresh = s.fresh := rfl
@[simp] theorem State.putMsg_nextId (id : Nat) (x : Msg) : (s.putMsg id x).nextId = s.nextId := rfl

/-! delMsg. -/
@[simp] theorem State.delMsg_mem (id : Nat) : (s.delMsg id).mem = s.mem := rfl
@[simp] theorem State.delMsg_nums (id : Nat) : (s.delMsg id).nums = s.nums := rfl
@[simp] theorem State.delMsg_latest (id : Nat) : (s.delMsg id).latest = s.latest := rfl
@[simp] theorem State.delMsg_bad (id : Nat) : (s.delMsg id).bad = s.bad := rfl
@[simp] theorem State.delMsg_dirty (id : Nat) : (s.delMsg id).dirty = s.dirty := rfl
@[simp] theorem State.delMsg_threads (id : Nat) : (s.delMsg id).threads = s.threads := rfl
@[simp] theorem State.delMsg_slots (id : Nat) : (s.delMsg id).slots = s.slots := rfl
@[simp] theorem State.delMsg_cores (id : Nat) : (s.delMsg id).cores = s.cores := rfl
@[simp] theorem State.delMsg_clusters (id : Nat) : (s.delMsg id).clusters = s.clusters := rfl
@[simp] theorem State.delMsg_dies (id : Nat) : (s.delMsg id).dies = s.dies := rfl
@[simp] theorem State.delMsg_reqs (id : Nat) : (s.delMsg id).reqs = s.reqs := rfl
@[simp] theorem State.delMsg_msgs (id : Nat) : (s.delMsg id).msgs = s.msgs.del id := rfl
@[simp] theorem State.delMsg_bound (id : Nat) : (s.delMsg id).bound = s.bound.del id := rfl
@[simp] theorem State.delMsg_carried (id : Nat) : (s.delMsg id).carried = s.carried.del id := rfl
@[simp] theorem State.delMsg_barriers (id : Nat) : (s.delMsg id).barriers = s.barriers := rfl
@[simp] theorem State.delMsg_families (id : Nat) : (s.delMsg id).families = s.families := rfl
@[simp] theorem State.delMsg_funcs (id : Nat) : (s.delMsg id).funcs = s.funcs := rfl
@[simp] theorem State.delMsg_walks (id : Nat) : (s.delMsg id).walks = s.walks := rfl
@[simp] theorem State.delMsg_fetches (id : Nat) : (s.delMsg id).fetches = s.fetches := rfl
@[simp] theorem State.delMsg_records (id : Nat) : (s.delMsg id).records = s.records := rfl
@[simp] theorem State.delMsg_pkg (id : Nat) : (s.delMsg id).pkg = s.pkg := rfl
@[simp] theorem State.delMsg_agenda (id : Nat) : (s.delMsg id).agenda = s.agenda := rfl
@[simp] theorem State.delMsg_me (id : Nat) : (s.delMsg id).me = s.me := rfl
@[simp] theorem State.delMsg_fresh (id : Nat) : (s.delMsg id).fresh = s.fresh := rfl
@[simp] theorem State.delMsg_nextId (id : Nat) : (s.delMsg id).nextId = s.nextId := rfl

/-! addRecord. -/
@[simp] theorem State.addRecord_mem (r : Record) : (s.addRecord r).mem = s.mem := rfl
@[simp] theorem State.addRecord_nums (r : Record) : (s.addRecord r).nums = s.nums := rfl
@[simp] theorem State.addRecord_latest (r : Record) : (s.addRecord r).latest = s.latest := rfl
@[simp] theorem State.addRecord_bad (r : Record) : (s.addRecord r).bad = s.bad := rfl
@[simp] theorem State.addRecord_dirty (r : Record) : (s.addRecord r).dirty = s.dirty := rfl
@[simp] theorem State.addRecord_threads (r : Record) : (s.addRecord r).threads = s.threads := rfl
@[simp] theorem State.addRecord_slots (r : Record) : (s.addRecord r).slots = s.slots := rfl
@[simp] theorem State.addRecord_cores (r : Record) : (s.addRecord r).cores = s.cores := rfl
@[simp] theorem State.addRecord_clusters (r : Record) : (s.addRecord r).clusters = s.clusters := rfl
@[simp] theorem State.addRecord_dies (r : Record) : (s.addRecord r).dies = (s.countWrite r.die).1.dies := rfl
@[simp] theorem State.addRecord_reqs (r : Record) : (s.addRecord r).reqs = s.reqs := rfl
@[simp] theorem State.addRecord_msgs (r : Record) : (s.addRecord r).msgs = s.msgs := rfl
@[simp] theorem State.addRecord_bound (r : Record) : (s.addRecord r).bound = s.bound := rfl
@[simp] theorem State.addRecord_carried (r : Record) : (s.addRecord r).carried = s.carried := rfl
@[simp] theorem State.addRecord_barriers (r : Record) : (s.addRecord r).barriers = s.barriers := rfl
@[simp] theorem State.addRecord_families (r : Record) : (s.addRecord r).families = s.families := rfl
@[simp] theorem State.addRecord_funcs (r : Record) : (s.addRecord r).funcs = s.funcs := rfl
@[simp] theorem State.addRecord_walks (r : Record) : (s.addRecord r).walks = s.walks := rfl
@[simp] theorem State.addRecord_fetches (r : Record) : (s.addRecord r).fetches = s.fetches := rfl
@[simp] theorem State.addRecord_records (r : Record) : (s.addRecord r).records = s.records.put s.nextId { r with place := (s.countWrite r.die).2, clock := (s.countWrite r.die).1.clockOf r.die } := rfl
@[simp] theorem State.addRecord_pkg (r : Record) : (s.addRecord r).pkg = s.pkg := rfl
@[simp] theorem State.addRecord_agenda (r : Record) : (s.addRecord r).agenda = s.agenda := rfl
@[simp] theorem State.addRecord_me (r : Record) : (s.addRecord r).me = s.me := rfl
@[simp] theorem State.addRecord_fresh (r : Record) : (s.addRecord r).fresh = s.fresh := rfl
@[simp] theorem State.addRecord_nextId (r : Record) : (s.addRecord r).nextId = s.nextId + 1 := rfl

/-! draw. -/
@[simp] theorem State.draw_mem : (s.draw).mem = s.mem := rfl
@[simp] theorem State.draw_nums : (s.draw).nums = s.nums := rfl
@[simp] theorem State.draw_latest : (s.draw).latest = s.latest := rfl
@[simp] theorem State.draw_bad : (s.draw).bad = s.bad := rfl
@[simp] theorem State.draw_dirty : (s.draw).dirty = s.dirty := rfl
@[simp] theorem State.draw_threads : (s.draw).threads = s.threads := rfl
@[simp] theorem State.draw_slots : (s.draw).slots = s.slots := rfl
@[simp] theorem State.draw_cores : (s.draw).cores = s.cores := rfl
@[simp] theorem State.draw_clusters : (s.draw).clusters = s.clusters := rfl
@[simp] theorem State.draw_dies : (s.draw).dies = s.dies := rfl
@[simp] theorem State.draw_reqs : (s.draw).reqs = s.reqs := rfl
@[simp] theorem State.draw_msgs : (s.draw).msgs = s.msgs := rfl
@[simp] theorem State.draw_bound : (s.draw).bound = s.bound := rfl
@[simp] theorem State.draw_carried : (s.draw).carried = s.carried := rfl
@[simp] theorem State.draw_barriers : (s.draw).barriers = s.barriers := rfl
@[simp] theorem State.draw_families : (s.draw).families = s.families := rfl
@[simp] theorem State.draw_funcs : (s.draw).funcs = s.funcs := rfl
@[simp] theorem State.draw_walks : (s.draw).walks = s.walks := rfl
@[simp] theorem State.draw_fetches : (s.draw).fetches = s.fetches := rfl
@[simp] theorem State.draw_records : (s.draw).records = s.records := rfl
@[simp] theorem State.draw_pkg : (s.draw).pkg = s.pkg := rfl
@[simp] theorem State.draw_agenda : (s.draw).agenda = s.agenda := rfl
@[simp] theorem State.draw_me : (s.draw).me = s.me := rfl
@[simp] theorem State.draw_fresh : (s.draw).fresh = s.fresh + 1 := rfl
@[simp] theorem State.draw_nextId : (s.draw).nextId = s.nextId := rfl

/-! modReq. -/
@[simp] theorem State.modReq_mem (id : Nat) (f : Req → Req) : (s.modReq id f).mem = s.mem := by unfold State.modReq; split <;> rfl
@[simp] theorem State.modReq_nums (id : Nat) (f : Req → Req) : (s.modReq id f).nums = s.nums := by unfold State.modReq; split <;> rfl
@[simp] theorem State.modReq_latest (id : Nat) (f : Req → Req) : (s.modReq id f).latest = s.latest := by unfold State.modReq; split <;> rfl
@[simp] theorem State.modReq_bad (id : Nat) (f : Req → Req) : (s.modReq id f).bad = s.bad := by unfold State.modReq; split <;> rfl
@[simp] theorem State.modReq_dirty (id : Nat) (f : Req → Req) : (s.modReq id f).dirty = s.dirty := by unfold State.modReq; split <;> rfl
@[simp] theorem State.modReq_threads (id : Nat) (f : Req → Req) : (s.modReq id f).threads = s.threads := by unfold State.modReq; split <;> rfl
@[simp] theorem State.modReq_slots (id : Nat) (f : Req → Req) : (s.modReq id f).slots = s.slots := by unfold State.modReq; split <;> rfl
@[simp] theorem State.modReq_cores (id : Nat) (f : Req → Req) : (s.modReq id f).cores = s.cores := by unfold State.modReq; split <;> rfl
@[simp] theorem State.modReq_clusters (id : Nat) (f : Req → Req) : (s.modReq id f).clusters = s.clusters := by unfold State.modReq; split <;> rfl
@[simp] theorem State.modReq_dies (id : Nat) (f : Req → Req) : (s.modReq id f).dies = s.dies := by unfold State.modReq; split <;> rfl
@[simp] theorem State.modReq_msgs (id : Nat) (f : Req → Req) : (s.modReq id f).msgs = s.msgs := by unfold State.modReq; split <;> rfl
@[simp] theorem State.modReq_bound (id : Nat) (f : Req → Req) : (s.modReq id f).bound = s.bound := by unfold State.modReq; split <;> rfl
@[simp] theorem State.modReq_carried (id : Nat) (f : Req → Req) : (s.modReq id f).carried = s.carried := by unfold State.modReq; split <;> rfl
@[simp] theorem State.modReq_barriers (id : Nat) (f : Req → Req) : (s.modReq id f).barriers = s.barriers := by unfold State.modReq; split <;> rfl
@[simp] theorem State.modReq_families (id : Nat) (f : Req → Req) : (s.modReq id f).families = s.families := by unfold State.modReq; split <;> rfl
@[simp] theorem State.modReq_funcs (id : Nat) (f : Req → Req) : (s.modReq id f).funcs = s.funcs := by unfold State.modReq; split <;> rfl
@[simp] theorem State.modReq_walks (id : Nat) (f : Req → Req) : (s.modReq id f).walks = s.walks := by unfold State.modReq; split <;> rfl
@[simp] theorem State.modReq_fetches (id : Nat) (f : Req → Req) : (s.modReq id f).fetches = s.fetches := by unfold State.modReq; split <;> rfl
@[simp] theorem State.modReq_records (id : Nat) (f : Req → Req) : (s.modReq id f).records = s.records := by unfold State.modReq; split <;> rfl
@[simp] theorem State.modReq_pkg (id : Nat) (f : Req → Req) : (s.modReq id f).pkg = s.pkg := by unfold State.modReq; split <;> rfl
@[simp] theorem State.modReq_agenda (id : Nat) (f : Req → Req) : (s.modReq id f).agenda = s.agenda := by unfold State.modReq; split <;> rfl
@[simp] theorem State.modReq_me (id : Nat) (f : Req → Req) : (s.modReq id f).me = s.me := by unfold State.modReq; split <;> rfl
@[simp] theorem State.modReq_fresh (id : Nat) (f : Req → Req) : (s.modReq id f).fresh = s.fresh := by unfold State.modReq; split <;> rfl
@[simp] theorem State.modReq_nextId (id : Nat) (f : Req → Req) : (s.modReq id f).nextId = s.nextId := by unfold State.modReq; split <;> rfl

/-! modRecord. -/
@[simp] theorem State.modRecord_mem (id : Nat) (f : Record → Record) : (s.modRecord id f).mem = s.mem := by unfold State.modRecord; split <;> rfl
@[simp] theorem State.modRecord_nums (id : Nat) (f : Record → Record) : (s.modRecord id f).nums = s.nums := by unfold State.modRecord; split <;> rfl
@[simp] theorem State.modRecord_latest (id : Nat) (f : Record → Record) : (s.modRecord id f).latest = s.latest := by unfold State.modRecord; split <;> rfl
@[simp] theorem State.modRecord_bad (id : Nat) (f : Record → Record) : (s.modRecord id f).bad = s.bad := by unfold State.modRecord; split <;> rfl
@[simp] theorem State.modRecord_dirty (id : Nat) (f : Record → Record) : (s.modRecord id f).dirty = s.dirty := by unfold State.modRecord; split <;> rfl
@[simp] theorem State.modRecord_threads (id : Nat) (f : Record → Record) : (s.modRecord id f).threads = s.threads := by unfold State.modRecord; split <;> rfl
@[simp] theorem State.modRecord_slots (id : Nat) (f : Record → Record) : (s.modRecord id f).slots = s.slots := by unfold State.modRecord; split <;> rfl
@[simp] theorem State.modRecord_cores (id : Nat) (f : Record → Record) : (s.modRecord id f).cores = s.cores := by unfold State.modRecord; split <;> rfl
@[simp] theorem State.modRecord_clusters (id : Nat) (f : Record → Record) : (s.modRecord id f).clusters = s.clusters := by unfold State.modRecord; split <;> rfl
@[simp] theorem State.modRecord_dies (id : Nat) (f : Record → Record) : (s.modRecord id f).dies = s.dies := by unfold State.modRecord; split <;> rfl
@[simp] theorem State.modRecord_reqs (id : Nat) (f : Record → Record) : (s.modRecord id f).reqs = s.reqs := by unfold State.modRecord; split <;> rfl
@[simp] theorem State.modRecord_msgs (id : Nat) (f : Record → Record) : (s.modRecord id f).msgs = s.msgs := by unfold State.modRecord; split <;> rfl
@[simp] theorem State.modRecord_bound (id : Nat) (f : Record → Record) : (s.modRecord id f).bound = s.bound := by unfold State.modRecord; split <;> rfl
@[simp] theorem State.modRecord_carried (id : Nat) (f : Record → Record) : (s.modRecord id f).carried = s.carried := by unfold State.modRecord; split <;> rfl
@[simp] theorem State.modRecord_barriers (id : Nat) (f : Record → Record) : (s.modRecord id f).barriers = s.barriers := by unfold State.modRecord; split <;> rfl
@[simp] theorem State.modRecord_families (id : Nat) (f : Record → Record) : (s.modRecord id f).families = s.families := by unfold State.modRecord; split <;> rfl
@[simp] theorem State.modRecord_funcs (id : Nat) (f : Record → Record) : (s.modRecord id f).funcs = s.funcs := by unfold State.modRecord; split <;> rfl
@[simp] theorem State.modRecord_walks (id : Nat) (f : Record → Record) : (s.modRecord id f).walks = s.walks := by unfold State.modRecord; split <;> rfl
@[simp] theorem State.modRecord_fetches (id : Nat) (f : Record → Record) : (s.modRecord id f).fetches = s.fetches := by unfold State.modRecord; split <;> rfl
@[simp] theorem State.modRecord_pkg (id : Nat) (f : Record → Record) : (s.modRecord id f).pkg = s.pkg := by unfold State.modRecord; split <;> rfl
@[simp] theorem State.modRecord_agenda (id : Nat) (f : Record → Record) : (s.modRecord id f).agenda = s.agenda := by unfold State.modRecord; split <;> rfl
@[simp] theorem State.modRecord_me (id : Nat) (f : Record → Record) : (s.modRecord id f).me = s.me := by unfold State.modRecord; split <;> rfl
@[simp] theorem State.modRecord_fresh (id : Nat) (f : Record → Record) : (s.modRecord id f).fresh = s.fresh := by unfold State.modRecord; split <;> rfl
@[simp] theorem State.modRecord_nextId (id : Nat) (f : Record → Record) : (s.modRecord id f).nextId = s.nextId := by unfold State.modRecord; split <;> rfl

/-! Reads after writes. -/
theorem State.threadAt_putThread (a b : Nat) (x : Thread) : (s.putThread a x).threadAt b = if b = a then x else s.threadAt b := by
  simp [State.threadAt, Tab.get_put]
@[simp] theorem State.threadAt_putThread_self (a : Nat) (x : Thread) : (s.putThread a x).threadAt a = x := by simp [State.threadAt_putThread]
theorem State.slotAt_putSlot (a b : Nat) (x : Slot) : (s.putSlot a x).slotAt b = if b = a then x else s.slotAt b := by
  simp [State.slotAt, Tab.get_put]
@[simp] theorem State.slotAt_putSlot_self (a : Nat) (x : Slot) : (s.putSlot a x).slotAt a = x := by simp [State.slotAt_putSlot]
theorem State.coreAt_putCore (a b : Nat) (x : Core) : (s.putCore a x).coreAt b = if b = a then x else s.coreAt b := by
  simp [State.coreAt, Tab.get_put]
@[simp] theorem State.coreAt_putCore_self (a : Nat) (x : Core) : (s.putCore a x).coreAt a = x := by simp [State.coreAt_putCore]
theorem State.threadAt_modThread (a b : Nat) (f : Thread → Thread) :
    (s.modThread a f).threadAt b = if b = a then f (s.threadAt a) else s.threadAt b := by
  simp [State.threadAt, Tab.get_put]
@[simp] theorem State.threadAt_modThread_self (a : Nat) (f : Thread → Thread) : (s.modThread a f).threadAt a = f (s.threadAt a) := by
  simp [State.threadAt_modThread]
theorem State.slotAt_modSlot (a b : Nat) (f : Slot → Slot) :
    (s.modSlot a f).slotAt b = if b = a then f (s.slotAt a) else s.slotAt b := by
  simp [State.slotAt, Tab.get_put]
@[simp] theorem State.slotAt_modSlot_self (a : Nat) (f : Slot → Slot) : (s.modSlot a f).slotAt a = f (s.slotAt a) := by
  simp [State.slotAt_modSlot]
theorem State.coreAt_modCore (a b : Nat) (f : Core → Core) :
    (s.modCore a f).coreAt b = if b = a then f (s.coreAt a) else s.coreAt b := by
  simp [State.coreAt, Tab.get_put]
@[simp] theorem State.coreAt_modCore_self (a : Nat) (f : Core → Core) : (s.modCore a f).coreAt a = f (s.coreAt a) := by
  simp [State.coreAt_modCore]
theorem State.clusterAt_modCluster (a b : Nat) (f : Cluster → Cluster) :
    (s.modCluster a f).clusterAt b = if b = a then f (s.clusterAt a) else s.clusterAt b := by
  simp [State.clusterAt, Tab.get_put]
@[simp] theorem State.clusterAt_modCluster_self (a : Nat) (f : Cluster → Cluster) : (s.modCluster a f).clusterAt a = f (s.clusterAt a) := by
  simp [State.clusterAt_modCluster]
theorem State.dieAt_modDie (a b : Nat) (f : Die → Die) :
    (s.modDie a f).dieAt b = if b = a then f (s.dieAt a) else s.dieAt b := by
  simp [State.dieAt, Tab.get_put]
@[simp] theorem State.dieAt_modDie_self (a : Nat) (f : Die → Die) : (s.modDie a f).dieAt a = f (s.dieAt a) := by
  simp [State.dieAt_modDie]
theorem State.funcAt_modFunc (a b : Nat) (f : Func → Func) :
    (s.modFunc a f).funcAt b = if b = a then f (s.funcAt a) else s.funcAt b := by
  simp [State.funcAt, Tab.get_put]
@[simp] theorem State.funcAt_modFunc_self (a : Nat) (f : Func → Func) : (s.modFunc a f).funcAt a = f (s.funcAt a) := by
  simp [State.funcAt_modFunc]
theorem State.famAt_modFam (a b : Nat) (f : Family → Family) :
    (s.modFam a f).famAt b = if b = a then f (s.famAt a) else s.famAt b := by
  simp [State.famAt, Tab.get_put]
@[simp] theorem State.famAt_modFam_self (a : Nat) (f : Family → Family) : (s.modFam a f).famAt a = f (s.famAt a) := by
  simp [State.famAt_modFam]
theorem State.find?_addReq (r : Req) (id : Nat) :
    (s.addReq r).reqs.find? id = if id = s.nextId then some r else s.reqs.find? id := by
  simp [Tab.find?_put]
theorem State.find?_send (x : Msg) (id : Nat) :
    (s.send x).msgs.find? id = if id = s.nextId then some x else s.msgs.find? id := by
  simp [Tab.find?_put]

/-! Reads of other parts. -/
@[simp] theorem State.slotAt_putThread (u : Nat) (t : Thread) (i : Nat) : (s.putThread u t).slotAt i = s.slotAt i := rfl
@[simp] theorem State.coreAt_putThread (u : Nat) (t : Thread) (i : Nat) : (s.putThread u t).coreAt i = s.coreAt i := rfl
@[simp] theorem State.clusterAt_putThread (u : Nat) (t : Thread) (i : Nat) : (s.putThread u t).clusterAt i = s.clusterAt i := rfl
@[simp] theorem State.dieAt_putThread (u : Nat) (t : Thread) (i : Nat) : (s.putThread u t).dieAt i = s.dieAt i := rfl
@[simp] theorem State.funcAt_putThread (u : Nat) (t : Thread) (i : Nat) : (s.putThread u t).funcAt i = s.funcAt i := rfl
@[simp] theorem State.famAt_putThread (u : Nat) (t : Thread) (i : Nat) : (s.putThread u t).famAt i = s.famAt i := rfl
@[simp] theorem State.uidOpt_putThread (u : Nat) (t : Thread) : (s.putThread u t).uid? = s.uid? := rfl
@[simp] theorem State.uid_putThread (u : Nat) (t : Thread) : (s.putThread u t).uid = s.uid := rfl
@[simp] theorem State.mySlot_putThread (u : Nat) (t : Thread) : (s.putThread u t).mySlot = s.mySlot := rfl
@[simp] theorem State.myCore_putThread (u : Nat) (t : Thread) : (s.putThread u t).myCore = s.myCore := rfl
@[simp] theorem State.slotAt_modThread (u : Nat) (f : Thread → Thread) (i : Nat) : (s.modThread u f).slotAt i = s.slotAt i := rfl
@[simp] theorem State.coreAt_modThread (u : Nat) (f : Thread → Thread) (i : Nat) : (s.modThread u f).coreAt i = s.coreAt i := rfl
@[simp] theorem State.clusterAt_modThread (u : Nat) (f : Thread → Thread) (i : Nat) : (s.modThread u f).clusterAt i = s.clusterAt i := rfl
@[simp] theorem State.dieAt_modThread (u : Nat) (f : Thread → Thread) (i : Nat) : (s.modThread u f).dieAt i = s.dieAt i := rfl
@[simp] theorem State.funcAt_modThread (u : Nat) (f : Thread → Thread) (i : Nat) : (s.modThread u f).funcAt i = s.funcAt i := rfl
@[simp] theorem State.famAt_modThread (u : Nat) (f : Thread → Thread) (i : Nat) : (s.modThread u f).famAt i = s.famAt i := rfl
@[simp] theorem State.uidOpt_modThread (u : Nat) (f : Thread → Thread) : (s.modThread u f).uid? = s.uid? := rfl
@[simp] theorem State.uid_modThread (u : Nat) (f : Thread → Thread) : (s.modThread u f).uid = s.uid := rfl
@[simp] theorem State.mySlot_modThread (u : Nat) (f : Thread → Thread) : (s.modThread u f).mySlot = s.mySlot := rfl
@[simp] theorem State.myCore_modThread (u : Nat) (f : Thread → Thread) : (s.modThread u f).myCore = s.myCore := rfl
@[simp] theorem State.slotAt_modCur (f : Thread → Thread) (i : Nat) : (s.modCur f).slotAt i = s.slotAt i := rfl
@[simp] theorem State.coreAt_modCur (f : Thread → Thread) (i : Nat) : (s.modCur f).coreAt i = s.coreAt i := rfl
@[simp] theorem State.clusterAt_modCur (f : Thread → Thread) (i : Nat) : (s.modCur f).clusterAt i = s.clusterAt i := rfl
@[simp] theorem State.dieAt_modCur (f : Thread → Thread) (i : Nat) : (s.modCur f).dieAt i = s.dieAt i := rfl
@[simp] theorem State.funcAt_modCur (f : Thread → Thread) (i : Nat) : (s.modCur f).funcAt i = s.funcAt i := rfl
@[simp] theorem State.famAt_modCur (f : Thread → Thread) (i : Nat) : (s.modCur f).famAt i = s.famAt i := rfl
@[simp] theorem State.uidOpt_modCur (f : Thread → Thread) : (s.modCur f).uid? = s.uid? := rfl
@[simp] theorem State.uid_modCur (f : Thread → Thread) : (s.modCur f).uid = s.uid := rfl
@[simp] theorem State.mySlot_modCur (f : Thread → Thread) : (s.modCur f).mySlot = s.mySlot := rfl
@[simp] theorem State.myCore_modCur (f : Thread → Thread) : (s.modCur f).myCore = s.myCore := rfl
@[simp] theorem State.threadAt_putSlot (q : Nat) (x : Slot) (i : Nat) : (s.putSlot q x).threadAt i = s.threadAt i := rfl
@[simp] theorem State.coreAt_putSlot (q : Nat) (x : Slot) (i : Nat) : (s.putSlot q x).coreAt i = s.coreAt i := rfl
@[simp] theorem State.clusterAt_putSlot (q : Nat) (x : Slot) (i : Nat) : (s.putSlot q x).clusterAt i = s.clusterAt i := rfl
@[simp] theorem State.dieAt_putSlot (q : Nat) (x : Slot) (i : Nat) : (s.putSlot q x).dieAt i = s.dieAt i := rfl
@[simp] theorem State.funcAt_putSlot (q : Nat) (x : Slot) (i : Nat) : (s.putSlot q x).funcAt i = s.funcAt i := rfl
@[simp] theorem State.famAt_putSlot (q : Nat) (x : Slot) (i : Nat) : (s.putSlot q x).famAt i = s.famAt i := rfl
@[simp] theorem State.myCore_putSlot (q : Nat) (x : Slot) : (s.putSlot q x).myCore = s.myCore := rfl
@[simp] theorem State.threadAt_modSlot (q : Nat) (f : Slot → Slot) (i : Nat) : (s.modSlot q f).threadAt i = s.threadAt i := rfl
@[simp] theorem State.coreAt_modSlot (q : Nat) (f : Slot → Slot) (i : Nat) : (s.modSlot q f).coreAt i = s.coreAt i := rfl
@[simp] theorem State.clusterAt_modSlot (q : Nat) (f : Slot → Slot) (i : Nat) : (s.modSlot q f).clusterAt i = s.clusterAt i := rfl
@[simp] theorem State.dieAt_modSlot (q : Nat) (f : Slot → Slot) (i : Nat) : (s.modSlot q f).dieAt i = s.dieAt i := rfl
@[simp] theorem State.funcAt_modSlot (q : Nat) (f : Slot → Slot) (i : Nat) : (s.modSlot q f).funcAt i = s.funcAt i := rfl
@[simp] theorem State.famAt_modSlot (q : Nat) (f : Slot → Slot) (i : Nat) : (s.modSlot q f).famAt i = s.famAt i := rfl
@[simp] theorem State.myCore_modSlot (q : Nat) (f : Slot → Slot) : (s.modSlot q f).myCore = s.myCore := rfl
@[simp] theorem State.threadAt_putCore (c : Nat) (x : Core) (i : Nat) : (s.putCore c x).threadAt i = s.threadAt i := rfl
@[simp] theorem State.slotAt_putCore (c : Nat) (x : Core) (i : Nat) : (s.putCore c x).slotAt i = s.slotAt i := rfl
@[simp] theorem State.clusterAt_putCore (c : Nat) (x : Core) (i : Nat) : (s.putCore c x).clusterAt i = s.clusterAt i := rfl
@[simp] theorem State.dieAt_putCore (c : Nat) (x : Core) (i : Nat) : (s.putCore c x).dieAt i = s.dieAt i := rfl
@[simp] theorem State.funcAt_putCore (c : Nat) (x : Core) (i : Nat) : (s.putCore c x).funcAt i = s.funcAt i := rfl
@[simp] theorem State.famAt_putCore (c : Nat) (x : Core) (i : Nat) : (s.putCore c x).famAt i = s.famAt i := rfl
@[simp] theorem State.uidOpt_putCore (c : Nat) (x : Core) : (s.putCore c x).uid? = s.uid? := rfl
@[simp] theorem State.uid_putCore (c : Nat) (x : Core) : (s.putCore c x).uid = s.uid := rfl
@[simp] theorem State.mySlot_putCore (c : Nat) (x : Core) : (s.putCore c x).mySlot = s.mySlot := rfl
@[simp] theorem State.cur_putCore (c : Nat) (x : Core) : (s.putCore c x).cur = s.cur := rfl
@[simp] theorem State.myCore_putCore (c : Nat) (x : Core) : (s.putCore c x).myCore = s.myCore := rfl
@[simp] theorem State.threadAt_modCore (c : Nat) (f : Core → Core) (i : Nat) : (s.modCore c f).threadAt i = s.threadAt i := rfl
@[simp] theorem State.slotAt_modCore (c : Nat) (f : Core → Core) (i : Nat) : (s.modCore c f).slotAt i = s.slotAt i := rfl
@[simp] theorem State.clusterAt_modCore (c : Nat) (f : Core → Core) (i : Nat) : (s.modCore c f).clusterAt i = s.clusterAt i := rfl
@[simp] theorem State.dieAt_modCore (c : Nat) (f : Core → Core) (i : Nat) : (s.modCore c f).dieAt i = s.dieAt i := rfl
@[simp] theorem State.funcAt_modCore (c : Nat) (f : Core → Core) (i : Nat) : (s.modCore c f).funcAt i = s.funcAt i := rfl
@[simp] theorem State.famAt_modCore (c : Nat) (f : Core → Core) (i : Nat) : (s.modCore c f).famAt i = s.famAt i := rfl
@[simp] theorem State.uidOpt_modCore (c : Nat) (f : Core → Core) : (s.modCore c f).uid? = s.uid? := rfl
@[simp] theorem State.uid_modCore (c : Nat) (f : Core → Core) : (s.modCore c f).uid = s.uid := rfl
@[simp] theorem State.mySlot_modCore (c : Nat) (f : Core → Core) : (s.modCore c f).mySlot = s.mySlot := rfl
@[simp] theorem State.cur_modCore (c : Nat) (f : Core → Core) : (s.modCore c f).cur = s.cur := rfl
@[simp] theorem State.myCore_modCore (c : Nat) (f : Core → Core) : (s.modCore c f).myCore = s.myCore := rfl
@[simp] theorem State.threadAt_modCluster (c : Nat) (f : Cluster → Cluster) (i : Nat) : (s.modCluster c f).threadAt i = s.threadAt i := rfl
@[simp] theorem State.slotAt_modCluster (c : Nat) (f : Cluster → Cluster) (i : Nat) : (s.modCluster c f).slotAt i = s.slotAt i := rfl
@[simp] theorem State.coreAt_modCluster (c : Nat) (f : Cluster → Cluster) (i : Nat) : (s.modCluster c f).coreAt i = s.coreAt i := rfl
@[simp] theorem State.dieAt_modCluster (c : Nat) (f : Cluster → Cluster) (i : Nat) : (s.modCluster c f).dieAt i = s.dieAt i := rfl
@[simp] theorem State.funcAt_modCluster (c : Nat) (f : Cluster → Cluster) (i : Nat) : (s.modCluster c f).funcAt i = s.funcAt i := rfl
@[simp] theorem State.famAt_modCluster (c : Nat) (f : Cluster → Cluster) (i : Nat) : (s.modCluster c f).famAt i = s.famAt i := rfl
@[simp] theorem State.uidOpt_modCluster (c : Nat) (f : Cluster → Cluster) : (s.modCluster c f).uid? = s.uid? := rfl
@[simp] theorem State.uid_modCluster (c : Nat) (f : Cluster → Cluster) : (s.modCluster c f).uid = s.uid := rfl
@[simp] theorem State.mySlot_modCluster (c : Nat) (f : Cluster → Cluster) : (s.modCluster c f).mySlot = s.mySlot := rfl
@[simp] theorem State.cur_modCluster (c : Nat) (f : Cluster → Cluster) : (s.modCluster c f).cur = s.cur := rfl
@[simp] theorem State.myCore_modCluster (c : Nat) (f : Cluster → Cluster) : (s.modCluster c f).myCore = s.myCore := rfl
@[simp] theorem State.threadAt_modDie (d : Nat) (f : Die → Die) (i : Nat) : (s.modDie d f).threadAt i = s.threadAt i := rfl
@[simp] theorem State.slotAt_modDie (d : Nat) (f : Die → Die) (i : Nat) : (s.modDie d f).slotAt i = s.slotAt i := rfl
@[simp] theorem State.coreAt_modDie (d : Nat) (f : Die → Die) (i : Nat) : (s.modDie d f).coreAt i = s.coreAt i := rfl
@[simp] theorem State.clusterAt_modDie (d : Nat) (f : Die → Die) (i : Nat) : (s.modDie d f).clusterAt i = s.clusterAt i := rfl
@[simp] theorem State.funcAt_modDie (d : Nat) (f : Die → Die) (i : Nat) : (s.modDie d f).funcAt i = s.funcAt i := rfl
@[simp] theorem State.famAt_modDie (d : Nat) (f : Die → Die) (i : Nat) : (s.modDie d f).famAt i = s.famAt i := rfl
@[simp] theorem State.uidOpt_modDie (d : Nat) (f : Die → Die) : (s.modDie d f).uid? = s.uid? := rfl
@[simp] theorem State.uid_modDie (d : Nat) (f : Die → Die) : (s.modDie d f).uid = s.uid := rfl
@[simp] theorem State.mySlot_modDie (d : Nat) (f : Die → Die) : (s.modDie d f).mySlot = s.mySlot := rfl
@[simp] theorem State.cur_modDie (d : Nat) (f : Die → Die) : (s.modDie d f).cur = s.cur := rfl
@[simp] theorem State.myCore_modDie (d : Nat) (f : Die → Die) : (s.modDie d f).myCore = s.myCore := rfl
@[simp] theorem State.threadAt_modFunc (n : Nat) (f : Func → Func) (i : Nat) : (s.modFunc n f).threadAt i = s.threadAt i := rfl
@[simp] theorem State.slotAt_modFunc (n : Nat) (f : Func → Func) (i : Nat) : (s.modFunc n f).slotAt i = s.slotAt i := rfl
@[simp] theorem State.coreAt_modFunc (n : Nat) (f : Func → Func) (i : Nat) : (s.modFunc n f).coreAt i = s.coreAt i := rfl
@[simp] theorem State.clusterAt_modFunc (n : Nat) (f : Func → Func) (i : Nat) : (s.modFunc n f).clusterAt i = s.clusterAt i := rfl
@[simp] theorem State.dieAt_modFunc (n : Nat) (f : Func → Func) (i : Nat) : (s.modFunc n f).dieAt i = s.dieAt i := rfl
@[simp] theorem State.famAt_modFunc (n : Nat) (f : Func → Func) (i : Nat) : (s.modFunc n f).famAt i = s.famAt i := rfl
@[simp] theorem State.uidOpt_modFunc (n : Nat) (f : Func → Func) : (s.modFunc n f).uid? = s.uid? := rfl
@[simp] theorem State.uid_modFunc (n : Nat) (f : Func → Func) : (s.modFunc n f).uid = s.uid := rfl
@[simp] theorem State.mySlot_modFunc (n : Nat) (f : Func → Func) : (s.modFunc n f).mySlot = s.mySlot := rfl
@[simp] theorem State.cur_modFunc (n : Nat) (f : Func → Func) : (s.modFunc n f).cur = s.cur := rfl
@[simp] theorem State.myCore_modFunc (n : Nat) (f : Func → Func) : (s.modFunc n f).myCore = s.myCore := rfl
@[simp] theorem State.threadAt_modQueue (v q : Nat) (f : Queue → Queue) (i : Nat) : (s.modQueue v q f).threadAt i = s.threadAt i := rfl
@[simp] theorem State.slotAt_modQueue (v q : Nat) (f : Queue → Queue) (i : Nat) : (s.modQueue v q f).slotAt i = s.slotAt i := rfl
@[simp] theorem State.coreAt_modQueue (v q : Nat) (f : Queue → Queue) (i : Nat) : (s.modQueue v q f).coreAt i = s.coreAt i := rfl
@[simp] theorem State.clusterAt_modQueue (v q : Nat) (f : Queue → Queue) (i : Nat) : (s.modQueue v q f).clusterAt i = s.clusterAt i := rfl
@[simp] theorem State.dieAt_modQueue (v q : Nat) (f : Queue → Queue) (i : Nat) : (s.modQueue v q f).dieAt i = s.dieAt i := rfl
@[simp] theorem State.famAt_modQueue (v q : Nat) (f : Queue → Queue) (i : Nat) : (s.modQueue v q f).famAt i = s.famAt i := rfl
@[simp] theorem State.uidOpt_modQueue (v q : Nat) (f : Queue → Queue) : (s.modQueue v q f).uid? = s.uid? := rfl
@[simp] theorem State.uid_modQueue (v q : Nat) (f : Queue → Queue) : (s.modQueue v q f).uid = s.uid := rfl
@[simp] theorem State.mySlot_modQueue (v q : Nat) (f : Queue → Queue) : (s.modQueue v q f).mySlot = s.mySlot := rfl
@[simp] theorem State.cur_modQueue (v q : Nat) (f : Queue → Queue) : (s.modQueue v q f).cur = s.cur := rfl
@[simp] theorem State.myCore_modQueue (v q : Nat) (f : Queue → Queue) : (s.modQueue v q f).myCore = s.myCore := rfl
@[simp] theorem State.threadAt_modFam (n : Nat) (f : Family → Family) (i : Nat) : (s.modFam n f).threadAt i = s.threadAt i := rfl
@[simp] theorem State.slotAt_modFam (n : Nat) (f : Family → Family) (i : Nat) : (s.modFam n f).slotAt i = s.slotAt i := rfl
@[simp] theorem State.coreAt_modFam (n : Nat) (f : Family → Family) (i : Nat) : (s.modFam n f).coreAt i = s.coreAt i := rfl
@[simp] theorem State.clusterAt_modFam (n : Nat) (f : Family → Family) (i : Nat) : (s.modFam n f).clusterAt i = s.clusterAt i := rfl
@[simp] theorem State.dieAt_modFam (n : Nat) (f : Family → Family) (i : Nat) : (s.modFam n f).dieAt i = s.dieAt i := rfl
@[simp] theorem State.funcAt_modFam (n : Nat) (f : Family → Family) (i : Nat) : (s.modFam n f).funcAt i = s.funcAt i := rfl
@[simp] theorem State.uidOpt_modFam (n : Nat) (f : Family → Family) : (s.modFam n f).uid? = s.uid? := rfl
@[simp] theorem State.uid_modFam (n : Nat) (f : Family → Family) : (s.modFam n f).uid = s.uid := rfl
@[simp] theorem State.mySlot_modFam (n : Nat) (f : Family → Family) : (s.modFam n f).mySlot = s.mySlot := rfl
@[simp] theorem State.cur_modFam (n : Nat) (f : Family → Family) : (s.modFam n f).cur = s.cur := rfl
@[simp] theorem State.myCore_modFam (n : Nat) (f : Family → Family) : (s.modFam n f).myCore = s.myCore := rfl
@[simp] theorem State.threadAt_modPkg (f : Package → Package) (i : Nat) : (s.modPkg f).threadAt i = s.threadAt i := rfl
@[simp] theorem State.slotAt_modPkg (f : Package → Package) (i : Nat) : (s.modPkg f).slotAt i = s.slotAt i := rfl
@[simp] theorem State.coreAt_modPkg (f : Package → Package) (i : Nat) : (s.modPkg f).coreAt i = s.coreAt i := rfl
@[simp] theorem State.clusterAt_modPkg (f : Package → Package) (i : Nat) : (s.modPkg f).clusterAt i = s.clusterAt i := rfl
@[simp] theorem State.dieAt_modPkg (f : Package → Package) (i : Nat) : (s.modPkg f).dieAt i = s.dieAt i := rfl
@[simp] theorem State.funcAt_modPkg (f : Package → Package) (i : Nat) : (s.modPkg f).funcAt i = s.funcAt i := rfl
@[simp] theorem State.famAt_modPkg (f : Package → Package) (i : Nat) : (s.modPkg f).famAt i = s.famAt i := rfl
@[simp] theorem State.uidOpt_modPkg (f : Package → Package) : (s.modPkg f).uid? = s.uid? := rfl
@[simp] theorem State.uid_modPkg (f : Package → Package) : (s.modPkg f).uid = s.uid := rfl
@[simp] theorem State.mySlot_modPkg (f : Package → Package) : (s.modPkg f).mySlot = s.mySlot := rfl
@[simp] theorem State.cur_modPkg (f : Package → Package) : (s.modPkg f).cur = s.cur := rfl
@[simp] theorem State.myCore_modPkg (f : Package → Package) : (s.modPkg f).myCore = s.myCore := rfl
@[simp] theorem State.threadAt_putReq (id : Nat) (r : Req) (i : Nat) : (s.putReq id r).threadAt i = s.threadAt i := rfl
@[simp] theorem State.slotAt_putReq (id : Nat) (r : Req) (i : Nat) : (s.putReq id r).slotAt i = s.slotAt i := rfl
@[simp] theorem State.coreAt_putReq (id : Nat) (r : Req) (i : Nat) : (s.putReq id r).coreAt i = s.coreAt i := rfl
@[simp] theorem State.clusterAt_putReq (id : Nat) (r : Req) (i : Nat) : (s.putReq id r).clusterAt i = s.clusterAt i := rfl
@[simp] theorem State.dieAt_putReq (id : Nat) (r : Req) (i : Nat) : (s.putReq id r).dieAt i = s.dieAt i := rfl
@[simp] theorem State.funcAt_putReq (id : Nat) (r : Req) (i : Nat) : (s.putReq id r).funcAt i = s.funcAt i := rfl
@[simp] theorem State.famAt_putReq (id : Nat) (r : Req) (i : Nat) : (s.putReq id r).famAt i = s.famAt i := rfl
@[simp] theorem State.uidOpt_putReq (id : Nat) (r : Req) : (s.putReq id r).uid? = s.uid? := rfl
@[simp] theorem State.uid_putReq (id : Nat) (r : Req) : (s.putReq id r).uid = s.uid := rfl
@[simp] theorem State.mySlot_putReq (id : Nat) (r : Req) : (s.putReq id r).mySlot = s.mySlot := rfl
@[simp] theorem State.cur_putReq (id : Nat) (r : Req) : (s.putReq id r).cur = s.cur := rfl
@[simp] theorem State.myCore_putReq (id : Nat) (r : Req) : (s.putReq id r).myCore = s.myCore := rfl
@[simp] theorem State.threadAt_delReq (id : Nat) (i : Nat) : (s.delReq id).threadAt i = s.threadAt i := rfl
@[simp] theorem State.slotAt_delReq (id : Nat) (i : Nat) : (s.delReq id).slotAt i = s.slotAt i := rfl
@[simp] theorem State.coreAt_delReq (id : Nat) (i : Nat) : (s.delReq id).coreAt i = s.coreAt i := rfl
@[simp] theorem State.clusterAt_delReq (id : Nat) (i : Nat) : (s.delReq id).clusterAt i = s.clusterAt i := rfl
@[simp] theorem State.dieAt_delReq (id : Nat) (i : Nat) : (s.delReq id).dieAt i = s.dieAt i := rfl
@[simp] theorem State.funcAt_delReq (id : Nat) (i : Nat) : (s.delReq id).funcAt i = s.funcAt i := rfl
@[simp] theorem State.famAt_delReq (id : Nat) (i : Nat) : (s.delReq id).famAt i = s.famAt i := rfl
@[simp] theorem State.uidOpt_delReq (id : Nat) : (s.delReq id).uid? = s.uid? := rfl
@[simp] theorem State.uid_delReq (id : Nat) : (s.delReq id).uid = s.uid := rfl
@[simp] theorem State.mySlot_delReq (id : Nat) : (s.delReq id).mySlot = s.mySlot := rfl
@[simp] theorem State.cur_delReq (id : Nat) : (s.delReq id).cur = s.cur := rfl
@[simp] theorem State.myCore_delReq (id : Nat) : (s.delReq id).myCore = s.myCore := rfl
@[simp] theorem State.threadAt_addReq (r : Req) (i : Nat) : (s.addReq r).threadAt i = s.threadAt i := rfl
@[simp] theorem State.slotAt_addReq (r : Req) (i : Nat) : (s.addReq r).slotAt i = s.slotAt i := rfl
@[simp] theorem State.coreAt_addReq (r : Req) (i : Nat) : (s.addReq r).coreAt i = s.coreAt i := rfl
@[simp] theorem State.clusterAt_addReq (r : Req) (i : Nat) : (s.addReq r).clusterAt i = s.clusterAt i := rfl
@[simp] theorem State.dieAt_addReq (r : Req) (i : Nat) : (s.addReq r).dieAt i = s.dieAt i := rfl
@[simp] theorem State.funcAt_addReq (r : Req) (i : Nat) : (s.addReq r).funcAt i = s.funcAt i := rfl
@[simp] theorem State.famAt_addReq (r : Req) (i : Nat) : (s.addReq r).famAt i = s.famAt i := rfl
@[simp] theorem State.uidOpt_addReq (r : Req) : (s.addReq r).uid? = s.uid? := rfl
@[simp] theorem State.uid_addReq (r : Req) : (s.addReq r).uid = s.uid := rfl
@[simp] theorem State.mySlot_addReq (r : Req) : (s.addReq r).mySlot = s.mySlot := rfl
@[simp] theorem State.cur_addReq (r : Req) : (s.addReq r).cur = s.cur := rfl
@[simp] theorem State.myCore_addReq (r : Req) : (s.addReq r).myCore = s.myCore := rfl
@[simp] theorem State.threadAt_mapReqs (f : Req → Req) (i : Nat) : (s.mapReqs f).threadAt i = s.threadAt i := rfl
@[simp] theorem State.slotAt_mapReqs (f : Req → Req) (i : Nat) : (s.mapReqs f).slotAt i = s.slotAt i := rfl
@[simp] theorem State.coreAt_mapReqs (f : Req → Req) (i : Nat) : (s.mapReqs f).coreAt i = s.coreAt i := rfl
@[simp] theorem State.clusterAt_mapReqs (f : Req → Req) (i : Nat) : (s.mapReqs f).clusterAt i = s.clusterAt i := rfl
@[simp] theorem State.dieAt_mapReqs (f : Req → Req) (i : Nat) : (s.mapReqs f).dieAt i = s.dieAt i := rfl
@[simp] theorem State.funcAt_mapReqs (f : Req → Req) (i : Nat) : (s.mapReqs f).funcAt i = s.funcAt i := rfl
@[simp] theorem State.famAt_mapReqs (f : Req → Req) (i : Nat) : (s.mapReqs f).famAt i = s.famAt i := rfl
@[simp] theorem State.uidOpt_mapReqs (f : Req → Req) : (s.mapReqs f).uid? = s.uid? := rfl
@[simp] theorem State.uid_mapReqs (f : Req → Req) : (s.mapReqs f).uid = s.uid := rfl
@[simp] theorem State.mySlot_mapReqs (f : Req → Req) : (s.mapReqs f).mySlot = s.mySlot := rfl
@[simp] theorem State.cur_mapReqs (f : Req → Req) : (s.mapReqs f).cur = s.cur := rfl
@[simp] theorem State.myCore_mapReqs (f : Req → Req) : (s.mapReqs f).myCore = s.myCore := rfl
@[simp] theorem State.threadAt_send (x : Msg) (i : Nat) : (s.send x).threadAt i = s.threadAt i := rfl
@[simp] theorem State.slotAt_send (x : Msg) (i : Nat) : (s.send x).slotAt i = s.slotAt i := rfl
@[simp] theorem State.coreAt_send (x : Msg) (i : Nat) : (s.send x).coreAt i = s.coreAt i := rfl
@[simp] theorem State.clusterAt_send (x : Msg) (i : Nat) : (s.send x).clusterAt i = s.clusterAt i := rfl
@[simp] theorem State.dieAt_send (x : Msg) (i : Nat) : (s.send x).dieAt i = s.dieAt i := rfl
@[simp] theorem State.funcAt_send (x : Msg) (i : Nat) : (s.send x).funcAt i = s.funcAt i := rfl
@[simp] theorem State.famAt_send (x : Msg) (i : Nat) : (s.send x).famAt i = s.famAt i := rfl
@[simp] theorem State.uidOpt_send (x : Msg) : (s.send x).uid? = s.uid? := rfl
@[simp] theorem State.uid_send (x : Msg) : (s.send x).uid = s.uid := rfl
@[simp] theorem State.mySlot_send (x : Msg) : (s.send x).mySlot = s.mySlot := rfl
@[simp] theorem State.cur_send (x : Msg) : (s.send x).cur = s.cur := rfl
@[simp] theorem State.myCore_send (x : Msg) : (s.send x).myCore = s.myCore := rfl
@[simp] theorem State.threadAt_sendWith (c : List Nat) (x : Msg) (i : Nat) : (s.sendWith c x).threadAt i = s.threadAt i := rfl
@[simp] theorem State.slotAt_sendWith (c : List Nat) (x : Msg) (i : Nat) : (s.sendWith c x).slotAt i = s.slotAt i := rfl
@[simp] theorem State.coreAt_sendWith (c : List Nat) (x : Msg) (i : Nat) : (s.sendWith c x).coreAt i = s.coreAt i := rfl
@[simp] theorem State.clusterAt_sendWith (c : List Nat) (x : Msg) (i : Nat) : (s.sendWith c x).clusterAt i = s.clusterAt i := rfl
@[simp] theorem State.dieAt_sendWith (c : List Nat) (x : Msg) (i : Nat) : (s.sendWith c x).dieAt i = s.dieAt i := rfl
@[simp] theorem State.funcAt_sendWith (c : List Nat) (x : Msg) (i : Nat) : (s.sendWith c x).funcAt i = s.funcAt i := rfl
@[simp] theorem State.famAt_sendWith (c : List Nat) (x : Msg) (i : Nat) : (s.sendWith c x).famAt i = s.famAt i := rfl
@[simp] theorem State.uidOpt_sendWith (c : List Nat) (x : Msg) : (s.sendWith c x).uid? = s.uid? := rfl
@[simp] theorem State.uid_sendWith (c : List Nat) (x : Msg) : (s.sendWith c x).uid = s.uid := rfl
@[simp] theorem State.mySlot_sendWith (c : List Nat) (x : Msg) : (s.sendWith c x).mySlot = s.mySlot := rfl
@[simp] theorem State.cur_sendWith (c : List Nat) (x : Msg) : (s.sendWith c x).cur = s.cur := rfl
@[simp] theorem State.myCore_sendWith (c : List Nat) (x : Msg) : (s.sendWith c x).myCore = s.myCore := rfl
@[simp] theorem State.threadAt_putMsg (id : Nat) (x : Msg) (i : Nat) : (s.putMsg id x).threadAt i = s.threadAt i := rfl
@[simp] theorem State.slotAt_putMsg (id : Nat) (x : Msg) (i : Nat) : (s.putMsg id x).slotAt i = s.slotAt i := rfl
@[simp] theorem State.coreAt_putMsg (id : Nat) (x : Msg) (i : Nat) : (s.putMsg id x).coreAt i = s.coreAt i := rfl
@[simp] theorem State.clusterAt_putMsg (id : Nat) (x : Msg) (i : Nat) : (s.putMsg id x).clusterAt i = s.clusterAt i := rfl
@[simp] theorem State.dieAt_putMsg (id : Nat) (x : Msg) (i : Nat) : (s.putMsg id x).dieAt i = s.dieAt i := rfl
@[simp] theorem State.funcAt_putMsg (id : Nat) (x : Msg) (i : Nat) : (s.putMsg id x).funcAt i = s.funcAt i := rfl
@[simp] theorem State.famAt_putMsg (id : Nat) (x : Msg) (i : Nat) : (s.putMsg id x).famAt i = s.famAt i := rfl
@[simp] theorem State.uidOpt_putMsg (id : Nat) (x : Msg) : (s.putMsg id x).uid? = s.uid? := rfl
@[simp] theorem State.uid_putMsg (id : Nat) (x : Msg) : (s.putMsg id x).uid = s.uid := rfl
@[simp] theorem State.mySlot_putMsg (id : Nat) (x : Msg) : (s.putMsg id x).mySlot = s.mySlot := rfl
@[simp] theorem State.cur_putMsg (id : Nat) (x : Msg) : (s.putMsg id x).cur = s.cur := rfl
@[simp] theorem State.myCore_putMsg (id : Nat) (x : Msg) : (s.putMsg id x).myCore = s.myCore := rfl
@[simp] theorem State.threadAt_delMsg (id : Nat) (i : Nat) : (s.delMsg id).threadAt i = s.threadAt i := rfl
@[simp] theorem State.slotAt_delMsg (id : Nat) (i : Nat) : (s.delMsg id).slotAt i = s.slotAt i := rfl
@[simp] theorem State.coreAt_delMsg (id : Nat) (i : Nat) : (s.delMsg id).coreAt i = s.coreAt i := rfl
@[simp] theorem State.clusterAt_delMsg (id : Nat) (i : Nat) : (s.delMsg id).clusterAt i = s.clusterAt i := rfl
@[simp] theorem State.dieAt_delMsg (id : Nat) (i : Nat) : (s.delMsg id).dieAt i = s.dieAt i := rfl
@[simp] theorem State.funcAt_delMsg (id : Nat) (i : Nat) : (s.delMsg id).funcAt i = s.funcAt i := rfl
@[simp] theorem State.famAt_delMsg (id : Nat) (i : Nat) : (s.delMsg id).famAt i = s.famAt i := rfl
@[simp] theorem State.uidOpt_delMsg (id : Nat) : (s.delMsg id).uid? = s.uid? := rfl
@[simp] theorem State.uid_delMsg (id : Nat) : (s.delMsg id).uid = s.uid := rfl
@[simp] theorem State.mySlot_delMsg (id : Nat) : (s.delMsg id).mySlot = s.mySlot := rfl
@[simp] theorem State.cur_delMsg (id : Nat) : (s.delMsg id).cur = s.cur := rfl
@[simp] theorem State.myCore_delMsg (id : Nat) : (s.delMsg id).myCore = s.myCore := rfl
@[simp] theorem State.threadAt_addRecord (r : Record) (i : Nat) : (s.addRecord r).threadAt i = s.threadAt i := rfl
@[simp] theorem State.slotAt_addRecord (r : Record) (i : Nat) : (s.addRecord r).slotAt i = s.slotAt i := rfl
@[simp] theorem State.coreAt_addRecord (r : Record) (i : Nat) : (s.addRecord r).coreAt i = s.coreAt i := rfl
@[simp] theorem State.clusterAt_addRecord (r : Record) (i : Nat) : (s.addRecord r).clusterAt i = s.clusterAt i := rfl
@[simp] theorem State.funcAt_addRecord (r : Record) (i : Nat) : (s.addRecord r).funcAt i = s.funcAt i := rfl
@[simp] theorem State.famAt_addRecord (r : Record) (i : Nat) : (s.addRecord r).famAt i = s.famAt i := rfl
@[simp] theorem State.uidOpt_addRecord (r : Record) : (s.addRecord r).uid? = s.uid? := rfl
@[simp] theorem State.uid_addRecord (r : Record) : (s.addRecord r).uid = s.uid := rfl
@[simp] theorem State.mySlot_addRecord (r : Record) : (s.addRecord r).mySlot = s.mySlot := rfl
@[simp] theorem State.cur_addRecord (r : Record) : (s.addRecord r).cur = s.cur := rfl
@[simp] theorem State.myCore_addRecord (r : Record) : (s.addRecord r).myCore = s.myCore := rfl
@[simp] theorem State.threadAt_draw (i : Nat) : (s.draw).threadAt i = s.threadAt i := rfl
@[simp] theorem State.slotAt_draw (i : Nat) : (s.draw).slotAt i = s.slotAt i := rfl
@[simp] theorem State.coreAt_draw (i : Nat) : (s.draw).coreAt i = s.coreAt i := rfl
@[simp] theorem State.clusterAt_draw (i : Nat) : (s.draw).clusterAt i = s.clusterAt i := rfl
@[simp] theorem State.dieAt_draw (i : Nat) : (s.draw).dieAt i = s.dieAt i := rfl
@[simp] theorem State.funcAt_draw (i : Nat) : (s.draw).funcAt i = s.funcAt i := rfl
@[simp] theorem State.famAt_draw (i : Nat) : (s.draw).famAt i = s.famAt i := rfl
@[simp] theorem State.uidOpt_draw : (s.draw).uid? = s.uid? := rfl
@[simp] theorem State.uid_draw : (s.draw).uid = s.uid := rfl
@[simp] theorem State.mySlot_draw : (s.draw).mySlot = s.mySlot := rfl
@[simp] theorem State.cur_draw : (s.draw).cur = s.cur := rfl
@[simp] theorem State.myCore_draw : (s.draw).myCore = s.myCore := rfl
@[simp] theorem State.cur_modCur (f : Thread → Thread) : (s.modCur f).cur = f s.cur := by
  simp [State.cur, State.modCur]
theorem State.threadAt_modCur (f : Thread → Thread) (u : Nat) :
    (s.modCur f).threadAt u = if u = s.uid then f s.cur else s.threadAt u := by
  simp [State.modCur, State.threadAt_modThread, State.cur]

end Sys2Proof.Machine
end

