-- ==== Sys2Proof/Laws/Memory.lean ====
section
/-! SUPPORT. What each operation over memory leaves of every byte, and that each keeps the canonical form. -/

namespace Sys2Proof.Machine

/-! Bytes written. -/

theorem pokeMem_get (bs : List Byte) (m : Tab Byte) (a x : Nat) :
    (pokeMem m a bs).get 0#8 x = if a ≤ x ∧ x < a + bs.length then bs.getD (x - a) 0#8 else m.get 0#8 x := by
  induction bs generalizing m a with
  | nil => simp only [pokeMem, List.length_nil]; split <;> first | omega | rfl
  | cons b bs ih =>
    simp only [pokeMem, ih, List.length_cons, Tab.get_set]
    by_cases h0 : x = a
    · subst h0; simp
    · by_cases h : a + 1 ≤ x ∧ x < a + 1 + bs.length
      · have h' : a ≤ x ∧ x < a + (bs.length + 1) := by omega
        rw [if_pos h, if_pos h', show x - a = (x - (a + 1)) + 1 by omega]; rfl
      · have h' : ¬ (a ≤ x ∧ x < a + (bs.length + 1)) := by omega
        rw [if_neg h, if_neg h', if_neg h0]
theorem pokeMem_wf (bs : List Byte) (m : Tab Byte) (a : Nat) (h : Memory.wf m = true) : Memory.wf (pokeMem m a bs) = true := by
  induction bs generalizing m a with
  | nil => exact h
  | cons b bs ih => exact ih _ _ (Tab.wf_set m 0#8 a b h)

variable (s : State)

@[simp] theorem State.markDirty_mem (a : Nat) : (s.markDirty a).mem = s.mem := by
  unfold State.markDirty; split <;> rfl
@[simp] theorem State.markRange_mem (a n : Nat) : (s.markRange a n).mem = s.mem := by
  have h : ∀ (l : List Nat) (t : State), (l.foldl (fun (t : State) i => t.markDirty (a + 65536 * i)) t).mem = t.mem := by
    intro l
    induction l with
    | nil => exact fun _ => rfl
    | cons x l ih => intro t; rw [List.foldl_cons, ih, State.markDirty_mem]
  rw [State.markRange, State.markDirty_mem, h]
theorem State.poke_mem (a : Nat) (bs : List Byte) : (s.poke a bs).mem = pokeMem s.mem a bs := by
  cases bs with
  | nil => rfl
  | cons b bs => simp [State.poke]
/-- The bytes of a write, and every other byte as it was. -/
theorem State.byteAt_poke (a x : Nat) (bs : List Byte) :
    (s.poke a bs).byteAt x = if a ≤ x ∧ x < a + bs.length then bs.getD (x - a) 0#8 else s.byteAt x := by
  simp only [State.byteAt, State.poke_mem, pokeMem_get]
theorem State.keepsBytes_poke (a : Nat) (bs : List Byte) : s.keepsBytes (s.poke a bs) a bs.length := by
  intro x hx; rw [State.byteAt_poke, if_neg (by omega)]
theorem State.memWf_poke (a : Nat) (bs : List Byte) (h : s.memWf) : (s.poke a bs).memWf := by
  simpa only [State.memWf, State.poke_mem] using pokeMem_wf bs s.mem a h

/-! Bytes read. -/

@[simp] theorem State.length_peek (a n : Nat) : (s.peek a n).length = n := by simp [State.peek]
theorem State.peek_poke (a : Nat) (bs : List Byte) : (s.poke a bs).peek a bs.length = bs := by
  apply List.ext_getElem
  · simp
  · intro i h1 h2
    simp [State.peek, State.byteAt_poke, h2]
/-- A dword that is written reads back. -/
theorem State.dwordAt_poke (a : Nat) (w : Word) : (s.poke a (toBytes 8 w.toNat)).dwordAt a = w := by
  have h := s.peek_poke a (toBytes 8 w.toNat)
  rw [length_toBytes] at h
  have e : (256 : Nat) ^ 8 = 2 ^ 64 := by norm_num
  simp only [State.dwordAt, h, ofBytes_toBytes, e, word]
  exact BitVec.eq_of_toNat_eq (by simp [Nat.mod_eq_of_lt w.isLt])

/-! Ranges that become zero, and pages that move. -/

theorem State.zeroRange_mem (a n : Nat) : (s.zeroRange a n).mem = s.mem.filter (fun e => e.1 < a || a + n ≤ e.1) := rfl
theorem State.memWf_zeroRange (a n : Nat) (h : s.memWf) : (s.zeroRange a n).memWf := Tab.wf_filter _ _ _ h
/-- Every byte of a zeroed range is zero, and every other byte as it was. -/
theorem State.byteAt_zeroRange (a n x : Nat) :
    (s.zeroRange a n).byteAt x = if a ≤ x ∧ x < a + n then 0#8 else s.byteAt x := by
  simp only [State.byteAt, State.zeroRange_mem, Tab.get]
  rw [Tab.find?_filter_key s.mem (fun k => decide (k < a) || decide (a + n ≤ k)) x]
  by_cases h : a ≤ x ∧ x < a + n
  · have h' : ¬ ((decide (x < a) || decide (a + n ≤ x)) = true) := by simp; omega
    rw [if_neg h', if_pos h]; rfl
  · have h' : (decide (x < a) || decide (a + n ≤ x)) = true := by simp; omega
    rw [if_pos h', if_neg h]

theorem foldl_put_wf (xs m : Tab Byte) (f : Nat → Nat) (hm : Memory.wf m = true) (hx : xs.all (fun e => e.2 != 0#8) = true) :
    Memory.wf (xs.foldl (fun (t : Tab Byte) e => t.put (f e.1) e.2) m) = true := by
  induction xs generalizing m with
  | nil => exact hm
  | cons e xs ih =>
    simp only [List.all_cons, Bool.and_eq_true, bne_iff_ne] at hx
    refine ih _ ?_ hx.2
    have := Tab.wf_set m 0#8 (f e.1) e.2 hm
    simpa [Tab.set, hx.1, Memory.wf] using this
theorem moveBytes_wf (m : Tab Byte) (a b n : Nat) (h : Memory.wf m = true) : Memory.wf (moveBytes m a b n) = true := by
  refine foldl_put_wf _ _ (fun k => k - a + b) (Tab.wf_filter _ _ _ h) ?_
  simp only [Memory.wf, Tab.wf, Bool.and_eq_true, List.all_eq_true] at h
  simp only [List.all_eq_true, List.mem_filter]
  exact fun x hx => h.2 x hx.1

/-! Through a memory controller, and at a home. -/

theorem State.memWf_writeRun (key : Option Nat) (a : Nat) (bs : List Byte) (h : s.memWf) : (s.writeRun key a bs).memWf := by
  unfold State.writeRun
  split
  · exact s.memWf_poke _ _ h
  · split
    · exact s.memWf_poke _ _ h
    · exact h
theorem State.memWf_foldl {α : Type} (xs : List α) (f : State → α → State) (hf : ∀ t x, State.memWf t → (f t x).memWf)
    (h : s.memWf) : (xs.foldl f s).memWf := by
  induction xs generalizing s with
  | nil => exact h
  | cons x xs ih => exact ih _ (hf s x h)
theorem State.memWf_writeBytes (key : Option Nat) (a : Nat) (bs : List Byte) (h : s.memWf) : (s.writeBytes key a bs).memWf := by
  unfold State.writeBytes
  split
  · exact s.memWf_poke _ _ h
  · exact s.memWf_foldl _ _ (fun t x ht => t.memWf_writeRun _ _ _ ht) h
/-- Two states with one memory are canonical together. -/
theorem State.memWf_congr {s t : State} (e : t.mem = s.mem) (h : s.memWf) : t.memWf := by
  simpa only [State.memWf, e] using h
theorem State.foldl_mem {α : Type} (xs : List α) (f : State → α → State) (hf : ∀ t x, (f t x).mem = t.mem) :
    (xs.foldl f s).mem = s.mem := by
  induction xs generalizing s with
  | nil => rfl
  | cons x xs ih => exact (ih _).trans (hf s x)
@[simp] theorem State.answerWaits_mem (a : Nat) (b : Bool) : (s.answerWaits a b).mem = s.mem := rfl
@[simp] theorem State.emptyBarriers_mem (a n : Nat) : (s.emptyBarriers a n).mem = s.mem := rfl
@[simp] theorem State.storeError_mem (vf : Nat) (va : Word) (a : Nat) : (s.storeError vf va a).mem = s.mem := rfl
/-- What a home writes keeps memory canonical, uncorrectable units included. -/
theorem State.memWf_homeWrite (vf : Nat) (va : Word) (key : Option Nat) (a : Nat) (bs : List Byte) (h : s.memWf) :
    (s.homeWrite vf va key a bs).memWf := by
  unfold State.homeWrite
  refine State.memWf_congr (State.foldl_mem _ _ (fun t d => t.answerWaits d false) (fun t x => t.answerWaits_mem x false)) ?_
  refine State.memWf_congr (State.emptyBarriers_mem _ _ _) (State.memWf_writeBytes _ _ _ _ ?_)
  split
  · refine State.memWf_congr (State.storeError_mem _ _ _ _) (State.memWf_foldl _ _ _ (fun t x ht => t.memWf_poke _ _ ht) ?_)
    exact h
  · exact h
/-- A write outside encrypted pages that meets no uncorrectable unit is the plain write of its bytes. -/
theorem State.homeWrite_mem (vf : Nat) (va : Word) (a : Nat) (bs : List Byte)
    (h : s.bad.any (fun u => a / 64 ≤ u && u ≤ (a + bs.length - 1) / 64) = false) :
    (s.homeWrite vf va none a bs).mem = pokeMem s.mem a bs := by
  unfold State.homeWrite
  refine (State.foldl_mem _ _ (fun t d => t.answerWaits d false) (fun t x => t.answerWaits_mem x false)).trans ?_
  simp [h, State.writeBytes, State.poke_mem]

end Sys2Proof.Machine
end

