-- ==== Sys2Proof/Laws/Ops.lean ====
section
/-! SUPPORT. What the shared operations over registers and the issue of an instruction do. -/

namespace Sys2Proof.Machine

/-! Registers of a thread. -/

theorem Thread.reg_setReg (t : Thread) (a b : Nat) (f : FReg) : (t.setReg a f).reg b = if b = a then f else t.reg b := by
  simp [Thread.setReg, Thread.reg, Tab.get_set]
@[simp] theorem Thread.reg_setReg_self (t : Thread) (a : Nat) (f : FReg) : (t.setReg a f).reg a = f := by
  simp [Thread.reg_setReg]
theorem Thread.fe_setReg (t : Thread) (a b : Nat) (f : FReg) :
    (t.setReg a f).fe b = if hasFe b ∧ b = a then f.st else t.fe b := by
  unfold Thread.fe
  split <;> simp_all [Thread.reg_setReg]
  split <;> rfl
theorem Thread.gpr_setReg (t : Thread) (q a b : Nat) (f : FReg) :
    (t.setReg a f).gpr q b = if hasFe b ∧ b = a then f.val else t.gpr q b := by
  unfold Thread.gpr
  split
  · simp_all [Thread.reg_setReg]
    split <;> rfl
  · simp_all [Thread.setReg]

/-- The state's reads of the executing thread's registers. -/
theorem State.gpr_def (s : State) (r : BitVec 5) : s.gpr r = s.cur.gpr s.me r.toNat := rfl

/-! Readiness. -/

theorem Thread.blockSrc_ready (t : Thread) (rs : List (BitVec 5)) (h : ∀ r ∈ rs, t.fe r.toNat = .full) :
    t.blockSrc rs = .none := by
  induction rs with
  | nil => rfl
  | cons r rs ih => simp [Thread.blockSrc, h r (by simp), ih (fun x hx => h x (by simp [hx]))]
theorem State.blockVec_ready (s : State) (vs : List (BitVec 5)) (h : ∀ v ∈ vs, s.mySlot.vpend.get 0 v.toNat = 0) :
    s.blockVec vs = .none := by
  induction vs with
  | nil => rfl
  | cons r rs ih => simp [State.blockVec, h r (by simp), ih (fun x hx => h x (by simp [hx]))]
theorem State.blockDst_ready (s : State) (rs : List (BitVec 5))
    (h : ∀ r ∈ rs, (∀ f, s.cur.fe r.toNat ≠ .pending f) ∧
      (18 ≤ r.toNat → r.toNat < 22 → s.cur.fe r.toNat ≠ .full ∧
        ((s.famAt s.cur.fam).place = 0 ∨ s.releaseReady s.uid = true))) : s.blockDst rs = .none := by
  induction rs with
  | nil => rfl
  | cons r rs ih =>
    have hr := h r (by simp)
    have ih := ih (fun x hx => h x (by simp [hx]))
    unfold State.blockDst
    split
    · exact absurd ‹_› (hr.1 _)
    · split
      · rename_i hs
        obtain ⟨h1, h2⟩ := hr.2 hs.1 hs.2
        simp only [beq_iff_eq, h1, if_false, ih]
        rcases h2 with h2 | h2 <;> simp [h2]
      · exact ih
/-- An instruction whose operands are ready is not held. -/
theorem State.block_ready (s : State) (n : Need) (h : s.operandsReady n) : s.block n = .none := by
  simp [State.block, Thread.blockSrc_ready _ _ h.1, State.blockVec_ready _ _ h.2.1, State.blockDst_ready _ _ h.2.2]
/-- The issue of an instruction that is ready comes to its body. -/
theorem State.issue_ready (s : State) (m : Mods) (priv : Nat) (n : Need) (body : Out) (h : s.Ready m priv n) :
    s.issue m priv n body = body := by
  obtain ⟨h1, h2, h3, h4⟩ := h
  obtain ⟨u, hu⟩ := Option.isSome_iff_exists.mp h1
  unfold State.issue
  rcases h3 with h3 | h3 <;> simp [hu, h2, h3, State.privileged, State.block_ready _ _ h4]
/-- A failed guard only advances (R16). -/
theorem State.issue_skipped (s : State) (m : Mods) (priv : Nat) (n : Need) (body : Out) (h : s.uid?.isSome = true)
    (hg : s.guardHolds m = false) : s.issue m priv n body = .next (s.advance m) := by
  obtain ⟨u, hu⟩ := Option.isSome_iff_exists.mp h
  simp [State.issue, hu, hg]
/-- A privileged form at user level faults PRIV (R324). -/
theorem State.issue_denied (s : State) (m : Mods) (priv : Nat) (n : Need) (body : Out) (h : s.uid?.isSome = true)
    (hg : s.guardHolds m = true) (hp : priv ≠ 0) (hv : s.cur.vf ≠ 0) :
    s.issue m priv n body = .next (s.raise fPRIV priv 0#64 3) := by
  obtain ⟨u, hu⟩ := Option.isSome_iff_exists.mp h
  simp [State.issue, hu, hg, hp, State.privileged, hv]
/-- The issue of an instruction always gives a next state when its body does and a thread stands in the slot. -/
theorem State.issue_next (s : State) (m : Mods) (priv : Nat) (n : Need) (body : Out) (h : s.uid?.isSome = true)
    (hb : ∃ t, body = .next t) : ∃ t, s.issue m priv n body = .next t := by
  obtain ⟨u, hu⟩ := Option.isSome_iff_exists.mp h
  obtain ⟨t, rfl⟩ := hb
  simp only [State.issue, hu]
  repeat' split
  all_goals exact ⟨_, rfl⟩

end Sys2Proof.Machine
end

