-- ==== Sys2Proof/Laws/PerInstr.lean ====
section
/-! SUPPORT. The number of words of an encoding, for every instruction: as many as its length field selects (R17). -/

namespace Sys2Proof.Laws.WordCount

open Sys2Proof

/-- The encoding of an instruction that has words holds as many words as its length field selects. -/
def Statement (i : Instr) : Prop := ∀ r, toRaw i = some r → (encode i).length = lenWords r.m.len

/-- The words of fields are as many as their length selects. -/
theorem words_length (r : Raw) : r.words.length = lenWords r.m.len := by
  unfold Raw.words lenWords; split <;> simp_all

/-- The statement holds of every instruction, by the form of `encode`. -/
theorem holds (i : Instr) : Statement i := by
  intro r h; rw [encode, h]; exact words_length r

theorem add (d a b : BitVec 5) (imm : Bool) (m : Mods) : Statement (.add d a b imm m) := holds _
theorem sub (d a b : BitVec 5) (imm : Bool) (m : Mods) : Statement (.sub d a b imm m) := holds _
theorem mul (d a b : BitVec 5) (imm : Bool) (m : Mods) : Statement (.mul d a b imm m) := holds _
theorem mulh (d a b : BitVec 5) (imm : Bool) (m : Mods) : Statement (.mulh d a b imm m) := holds _
theorem mulhu (d a b : BitVec 5) (imm : Bool) (m : Mods) : Statement (.mulhu d a b imm m) := holds _
theorem div (d a b : BitVec 5) (imm : Bool) (m : Mods) : Statement (.div d a b imm m) := holds _
theorem divu (d a b : BitVec 5) (imm : Bool) (m : Mods) : Statement (.divu d a b imm m) := holds _
theorem rem (d a b : BitVec 5) (imm : Bool) (m : Mods) : Statement (.rem d a b imm m) := holds _
theorem remu (d a b : BitVec 5) (imm : Bool) (m : Mods) : Statement (.remu d a b imm m) := holds _
theorem and (d a b : BitVec 5) (imm : Bool) (m : Mods) : Statement (.and d a b imm m) := holds _
theorem or (d a b : BitVec 5) (imm : Bool) (m : Mods) : Statement (.or d a b imm m) := holds _
theorem xor (d a b : BitVec 5) (imm : Bool) (m : Mods) : Statement (.xor d a b imm m) := holds _
theorem andn (d a b : BitVec 5) (imm : Bool) (m : Mods) : Statement (.andn d a b imm m) := holds _
theorem shl (d a b : BitVec 5) (imm : Bool) (m : Mods) : Statement (.shl d a b imm m) := holds _
theorem shr (d a b : BitVec 5) (imm : Bool) (m : Mods) : Statement (.shr d a b imm m) := holds _
theorem sar (d a b : BitVec 5) (imm : Bool) (m : Mods) : Statement (.sar d a b imm m) := holds _
theorem rol (d a b : BitVec 5) (imm : Bool) (m : Mods) : Statement (.rol d a b imm m) := holds _
theorem ror (d a b : BitVec 5) (imm : Bool) (m : Mods) : Statement (.ror d a b imm m) := holds _
theorem min (d a b : BitVec 5) (imm : Bool) (m : Mods) : Statement (.min d a b imm m) := holds _
theorem max (d a b : BitVec 5) (imm : Bool) (m : Mods) : Statement (.max d a b imm m) := holds _
theorem minu (d a b : BitVec 5) (imm : Bool) (m : Mods) : Statement (.minu d a b imm m) := holds _
theorem maxu (d a b : BitVec 5) (imm : Bool) (m : Mods) : Statement (.maxu d a b imm m) := holds _
theorem mov (d a : BitVec 5) (m : Mods) : Statement (.mov d a m) := holds _
theorem clz (d a : BitVec 5) (m : Mods) : Statement (.clz d a m) := holds _
theorem ctz (d a : BitVec 5) (m : Mods) : Statement (.ctz d a m) := holds _
theorem popc (d a : BitVec 5) (m : Mods) : Statement (.popc d a m) := holds _
theorem bswap (d a : BitVec 5) (m : Mods) : Statement (.bswap d a m) := holds _
theorem sxb (d a : BitVec 5) (m : Mods) : Statement (.sxb d a m) := holds _
theorem sxh (d a : BitVec 5) (m : Mods) : Statement (.sxh d a m) := holds _
theorem sxw (d a : BitVec 5) (m : Mods) : Statement (.sxw d a m) := holds _
theorem zxw (d a : BitVec 5) (m : Mods) : Statement (.zxw d a m) := holds _
theorem bfxReg (d a b : BitVec 5) (imm : Bool) (m : Mods) : Statement (.bfxReg d a b imm m) := holds _
theorem bfxuReg (d a b : BitVec 5) (imm : Bool) (m : Mods) : Statement (.bfxuReg d a b imm m) := holds _
theorem bfi (d a b : BitVec 5) (imm : Bool) (m : Mods) : Statement (.bfi d a b imm m) := holds _
theorem lea1 (d a b : BitVec 5) (m : Mods) : Statement (.lea1 d a b m) := holds _
theorem lea2 (d a b : BitVec 5) (m : Mods) : Statement (.lea2 d a b m) := holds _
theorem lea4 (d a b : BitVec 5) (m : Mods) : Statement (.lea4 d a b m) := holds _
theorem lea8 (d a b : BitVec 5) (m : Mods) : Statement (.lea8 d a b m) := holds _
theorem addi (d a : BitVec 5) (i : BitVec 14) (m : Mods) : Statement (.addi d a i m) := holds _
theorem muli (d a : BitVec 5) (i : BitVec 14) (m : Mods) : Statement (.muli d a i m) := holds _
theorem andi (d a : BitVec 5) (i : BitVec 14) (m : Mods) : Statement (.andi d a i m) := holds _
theorem ori (d a : BitVec 5) (i : BitVec 14) (m : Mods) : Statement (.ori d a i m) := holds _
theorem xori (d a : BitVec 5) (i : BitVec 14) (m : Mods) : Statement (.xori d a i m) := holds _
theorem shlImm (d a : BitVec 5) (n : BitVec 6) (m : Mods) : Statement (.shlImm d a n m) := holds _
theorem shrImm (d a : BitVec 5) (n : BitVec 6) (m : Mods) : Statement (.shrImm d a n m) := holds _
theorem sarImm (d a : BitVec 5) (n : BitVec 6) (m : Mods) : Statement (.sarImm d a n m) := holds _
theorem rolImm (d a : BitVec 5) (n : BitVec 6) (m : Mods) : Statement (.rolImm d a n m) := holds _
theorem rorImm (d a : BitVec 5) (n : BitVec 6) (m : Mods) : Statement (.rorImm d a n m) := holds _
theorem bfxImm (d a : BitVec 5) (p w : BitVec 6) (m : Mods) : Statement (.bfxImm d a p w m) := holds _
theorem bfxuImm (d a : BitVec 5) (p w : BitVec 6) (m : Mods) : Statement (.bfxuImm d a p w m) := holds _
theorem movi (d : BitVec 5) (i : BitVec 14) (m : Mods) : Statement (.movi d i m) := holds _
theorem cmpEqImm (p : BitVec 3) (a : BitVec 5) (i : BitVec 14) (m : Mods) : Statement (.cmpEqImm p a i m) := holds _
theorem cmpNeImm (p : BitVec 3) (a : BitVec 5) (i : BitVec 14) (m : Mods) : Statement (.cmpNeImm p a i m) := holds _
theorem cmpLtImm (p : BitVec 3) (a : BitVec 5) (i : BitVec 14) (m : Mods) : Statement (.cmpLtImm p a i m) := holds _
theorem cmpLeImm (p : BitVec 3) (a : BitVec 5) (i : BitVec 14) (m : Mods) : Statement (.cmpLeImm p a i m) := holds _
theorem cmpGtImm (p : BitVec 3) (a : BitVec 5) (i : BitVec 14) (m : Mods) : Statement (.cmpGtImm p a i m) := holds _
theorem cmpGeImm (p : BitVec 3) (a : BitVec 5) (i : BitVec 14) (m : Mods) : Statement (.cmpGeImm p a i m) := holds _
theorem cmpLtuImm (p : BitVec 3) (a : BitVec 5) (i : BitVec 14) (m : Mods) : Statement (.cmpLtuImm p a i m) := holds _
theorem cmpLeuImm (p : BitVec 3) (a : BitVec 5) (i : BitVec 14) (m : Mods) : Statement (.cmpLeuImm p a i m) := holds _
theorem cmpGtuImm (p : BitVec 3) (a : BitVec 5) (i : BitVec 14) (m : Mods) : Statement (.cmpGtuImm p a i m) := holds _
theorem cmpGeuImm (p : BitVec 3) (a : BitVec 5) (i : BitVec 14) (m : Mods) : Statement (.cmpGeuImm p a i m) := holds _
theorem cmpTstImm (p : BitVec 3) (a : BitVec 5) (i : BitVec 14) (m : Mods) : Statement (.cmpTstImm p a i m) := holds _
theorem cmpTstzImm (p : BitVec 3) (a : BitVec 5) (i : BitVec 14) (m : Mods) : Statement (.cmpTstzImm p a i m) := holds _
theorem cmpEq (p : BitVec 3) (a b : BitVec 5) (m : Mods) : Statement (.cmpEq p a b m) := holds _
theorem cmpNe (p : BitVec 3) (a b : BitVec 5) (m : Mods) : Statement (.cmpNe p a b m) := holds _
theorem cmpLt (p : BitVec 3) (a b : BitVec 5) (m : Mods) : Statement (.cmpLt p a b m) := holds _
theorem cmpLe (p : BitVec 3) (a b : BitVec 5) (m : Mods) : Statement (.cmpLe p a b m) := holds _
theorem cmpGt (p : BitVec 3) (a b : BitVec 5) (m : Mods) : Statement (.cmpGt p a b m) := holds _
theorem cmpGe (p : BitVec 3) (a b : BitVec 5) (m : Mods) : Statement (.cmpGe p a b m) := holds _
theorem cmpLtu (p : BitVec 3) (a b : BitVec 5) (m : Mods) : Statement (.cmpLtu p a b m) := holds _
theorem cmpLeu (p : BitVec 3) (a b : BitVec 5) (m : Mods) : Statement (.cmpLeu p a b m) := holds _
theorem cmpGtu (p : BitVec 3) (a b : BitVec 5) (m : Mods) : Statement (.cmpGtu p a b m) := holds _
theorem cmpGeu (p : BitVec 3) (a b : BitVec 5) (m : Mods) : Statement (.cmpGeu p a b m) := holds _
theorem cmpTst (p : BitVec 3) (a b : BitVec 5) (m : Mods) : Statement (.cmpTst p a b m) := holds _
theorem cmpTstz (p : BitVec 3) (a b : BitVec 5) (m : Mods) : Statement (.cmpTstz p a b m) := holds _
theorem pand (d a b : BitVec 3) (m : Mods) : Statement (.pand d a b m) := holds _
theorem por (d a b : BitVec 3) (m : Mods) : Statement (.por d a b m) := holds _
theorem pxor (d a b : BitVec 3) (m : Mods) : Statement (.pxor d a b m) := holds _
theorem pandn (d a b : BitVec 3) (m : Mods) : Statement (.pandn d a b m) := holds _
theorem pnot (d a : BitVec 3) (m : Mods) : Statement (.pnot d a m) := holds _
theorem pmov (d a : BitVec 3) (m : Mods) : Statement (.pmov d a m) := holds _
theorem prd (d : BitVec 5) (m : Mods) : Statement (.prd d m) := holds _
theorem pwr (a : BitVec 5) (m : Mods) : Statement (.pwr a m) := holds _
theorem fadd (w : Bool) (d a b : BitVec 5) (m : Mods) : Statement (.fadd w d a b m) := holds _
theorem fsub (w : Bool) (d a b : BitVec 5) (m : Mods) : Statement (.fsub w d a b m) := holds _
theorem fmul (w : Bool) (d a b : BitVec 5) (m : Mods) : Statement (.fmul w d a b m) := holds _
theorem fdiv (w : Bool) (d a b : BitVec 5) (m : Mods) : Statement (.fdiv w d a b m) := holds _
theorem fsqrt (w : Bool) (d a : BitVec 5) (m : Mods) : Statement (.fsqrt w d a m) := holds _
theorem fmin (w : Bool) (d a b : BitVec 5) (m : Mods) : Statement (.fmin w d a b m) := holds _
theorem fmax (w : Bool) (d a b : BitVec 5) (m : Mods) : Statement (.fmax w d a b m) := holds _
theorem fabs (w : Bool) (d a : BitVec 5) (m : Mods) : Statement (.fabs w d a m) := holds _
theorem fneg (w : Bool) (d a : BitVec 5) (m : Mods) : Statement (.fneg w d a m) := holds _
theorem fma (w : Bool) (d a b : BitVec 5) (m : Mods) : Statement (.fma w d a b m) := holds _
theorem fnma (w : Bool) (d a b : BitVec 5) (m : Mods) : Statement (.fnma w d a b m) := holds _
theorem fcmpEq (w : Bool) (p : BitVec 3) (a b : BitVec 5) (m : Mods) : Statement (.fcmpEq w p a b m) := holds _
theorem fcmpNe (w : Bool) (p : BitVec 3) (a b : BitVec 5) (m : Mods) : Statement (.fcmpNe w p a b m) := holds _
theorem fcmpLt (w : Bool) (p : BitVec 3) (a b : BitVec 5) (m : Mods) : Statement (.fcmpLt w p a b m) := holds _
theorem fcmpLe (w : Bool) (p : BitVec 3) (a b : BitVec 5) (m : Mods) : Statement (.fcmpLe w p a b m) := holds _
theorem fcmpUn (w : Bool) (p : BitVec 3) (a b : BitVec 5) (m : Mods) : Statement (.fcmpUn w p a b m) := holds _
theorem fclass (w : Bool) (d a : BitVec 5) (m : Mods) : Statement (.fclass w d a m) := holds _
theorem fcvt (d a : BitVec 5) (m : Mods) : Statement (.fcvt d a m) := holds _
theorem nop (m : Mods) : Statement (.nop m) := holds _
theorem krd (d : BitVec 5) (k : BitVec 10) (m : Mods) : Statement (.krd d k m) := holds _
theorem kwr (k : BitVec 10) (a : BitVec 5) (m : Mods) : Statement (.kwr k a m) := holds _
theorem fence (m : Mods) : Statement (.fence m) := holds _
theorem trap (n : BitVec 5) (m : Mods) : Statement (.trap n m) := holds _
theorem rft (m : Mods) : Statement (.rft m) := holds _
theorem tlbinv (a : BitVec 5) (m : Mods) : Statement (.tlbinv a m) := holds _
theorem kslz (a : BitVec 5) (m : Mods) : Statement (.kslz a m) := holds _
theorem scrb (a : BitVec 5) (m : Mods) : Statement (.scrb a m) := holds _
theorem ldB (d a : BitVec 5) (i : BitVec 14) (m : Mods) : Statement (.ldB d a i m) := holds _
theorem ldBu (d a : BitVec 5) (i : BitVec 14) (m : Mods) : Statement (.ldBu d a i m) := holds _
theorem ldH (d a : BitVec 5) (i : BitVec 14) (m : Mods) : Statement (.ldH d a i m) := holds _
theorem ldHu (d a : BitVec 5) (i : BitVec 14) (m : Mods) : Statement (.ldHu d a i m) := holds _
theorem ldW (d a : BitVec 5) (i : BitVec 14) (m : Mods) : Statement (.ldW d a i m) := holds _
theorem ldWu (d a : BitVec 5) (i : BitVec 14) (m : Mods) : Statement (.ldWu d a i m) := holds _
theorem ldD (d a : BitVec 5) (i : BitVec 14) (m : Mods) : Statement (.ldD d a i m) := holds _
theorem stB (d a : BitVec 5) (i : BitVec 14) (m : Mods) : Statement (.stB d a i m) := holds _
theorem stH (d a : BitVec 5) (i : BitVec 14) (m : Mods) : Statement (.stH d a i m) := holds _
theorem stW (d a : BitVec 5) (i : BitVec 14) (m : Mods) : Statement (.stW d a i m) := holds _
theorem stD (d a : BitVec 5) (i : BitVec 14) (m : Mods) : Statement (.stD d a i m) := holds _
theorem ldfe (d a : BitVec 5) (i : BitVec 14) (m : Mods) : Statement (.ldfe d a i m) := holds _
theorem stfe (d a : BitVec 5) (i : BitVec 14) (m : Mods) : Statement (.stfe d a i m) := holds _
theorem ldIndexed (s : BitVec 2) (z : BitVec 3) (d a b : BitVec 5) (m : Mods) : Statement (.ldIndexed s z d a b m) := holds _
theorem stIndexed (s : BitVec 2) (z : BitVec 3) (d a b : BitVec 5) (m : Mods) : Statement (.stIndexed s z d a b m) := holds _
theorem ldlo (d a : BitVec 5) (m : Mods) : Statement (.ldlo d a m) := holds _
theorem stlo (a b : BitVec 5) (m : Mods) : Statement (.stlo a b m) := holds _
theorem stloMd (a b : BitVec 5) (m : Mods) : Statement (.stloMd a b m) := holds _
theorem b (o : BitVec 19) (m : Mods) : Statement (.b o m) := holds _
theorem bt (p : BitVec 3) (o : BitVec 19) (m : Mods) : Statement (.bt p o m) := holds _
theorem bf (p : BitVec 3) (o : BitVec 19) (m : Mods) : Statement (.bf p o m) := holds _
theorem callLit (m : Mods) : Statement (.callLit m) := holds _
theorem callReg (a : BitVec 5) (m : Mods) : Statement (.callReg a m) := holds _
theorem jmp (a : BitVec 5) (m : Mods) : Statement (.jmp a m) := holds _
theorem ret (m : Mods) : Statement (.ret m) := holds _
theorem wflush (m : Mods) : Statement (.wflush m) := holds _
theorem wdepth (d : BitVec 5) (m : Mods) : Statement (.wdepth d m) := holds _
theorem create (d a b : BitVec 5) (m : Mods) : Statement (.create d a b m) := holds _
theorem spawn (a b : BitVec 5) (m : Mods) : Statement (.spawn a b m) := holds _
theorem sync (a : BitVec 5) (m : Mods) : Statement (.sync a m) := holds _
theorem brk (a : BitVec 5) (m : Mods) : Statement (.brk a m) := holds _
theorem kill (a : BitVec 5) (m : Mods) : Statement (.kill a m) := holds _
theorem mig (a : BitVec 5) (m : Mods) : Statement (.mig a m) := holds _
theorem migS (a : BitVec 5) (m : Mods) : Statement (.migS a m) := holds _
theorem yield (m : Mods) : Statement (.yield m) := holds _
theorem htest (d a : BitVec 5) (m : Mods) : Statement (.htest d a m) := holds _
theorem hwait (a : BitVec 5) (m : Mods) : Statement (.hwait a m) := holds _
theorem hcancel (a : BitVec 5) (m : Mods) : Statement (.hcancel a m) := holds _
theorem ifence (m : Mods) : Statement (.ifence m) := holds _
theorem amoAdd (w : Bool) (o : BitVec 2) (d a b : BitVec 5) (m : Mods) : Statement (.amoAdd w o d a b m) := holds _
theorem amoAnd (w : Bool) (o : BitVec 2) (d a b : BitVec 5) (m : Mods) : Statement (.amoAnd w o d a b m) := holds _
theorem amoOr (w : Bool) (o : BitVec 2) (d a b : BitVec 5) (m : Mods) : Statement (.amoOr w o d a b m) := holds _
theorem amoXor (w : Bool) (o : BitVec 2) (d a b : BitVec 5) (m : Mods) : Statement (.amoXor w o d a b m) := holds _
theorem amoMin (w : Bool) (o : BitVec 2) (d a b : BitVec 5) (m : Mods) : Statement (.amoMin w o d a b m) := holds _
theorem amoMax (w : Bool) (o : BitVec 2) (d a b : BitVec 5) (m : Mods) : Statement (.amoMax w o d a b m) := holds _
theorem amoMinu (w : Bool) (o : BitVec 2) (d a b : BitVec 5) (m : Mods) : Statement (.amoMinu w o d a b m) := holds _
theorem amoMaxu (w : Bool) (o : BitVec 2) (d a b : BitVec 5) (m : Mods) : Statement (.amoMaxu w o d a b m) := holds _
theorem amoXchg (w : Bool) (o : BitVec 2) (d a b : BitVec 5) (m : Mods) : Statement (.amoXchg w o d a b m) := holds _
theorem cas (w : Bool) (o : BitVec 2) (d a b : BitVec 5) (m : Mods) : Statement (.cas w o d a b m) := holds _
theorem famoAdd (w : Bool) (o : BitVec 2) (d a b : BitVec 5) (m : Mods) : Statement (.famoAdd w o d a b m) := holds _
theorem famoMin (w : Bool) (o : BitVec 2) (d a b : BitVec 5) (m : Mods) : Statement (.famoMin w o d a b m) := holds _
theorem famoMax (w : Bool) (o : BitVec 2) (d a b : BitVec 5) (m : Mods) : Statement (.famoMax w o d a b m) := holds _
theorem tkget (d a : BitVec 5) (m : Mods) : Statement (.tkget d a m) := holds _
theorem tkwait (a b : BitVec 5) (m : Mods) : Statement (.tkwait a b m) := holds _
theorem tkadv (a : BitVec 5) (m : Mods) : Statement (.tkadv a m) := holds _
theorem waiteq (a b : BitVec 5) (m : Mods) : Statement (.waiteq a b m) := holds _
theorem waitne (a b : BitVec 5) (m : Mods) : Statement (.waitne a b m) := holds _
theorem lkacq (a : BitVec 5) (m : Mods) : Statement (.lkacq a m) := holds _
theorem lkrel (a : BitVec 5) (m : Mods) : Statement (.lkrel a m) := holds _
theorem barJoin (a : BitVec 5) (m : Mods) : Statement (.barJoin a m) := holds _
theorem barArrive (a : BitVec 5) (m : Mods) : Statement (.barArrive a m) := holds _
theorem barDrop (a : BitVec 5) (m : Mods) : Statement (.barDrop a m) := holds _
theorem vldContig (e k : Bool) (d : BitVec 3) (a : BitVec 5) (m : Mods) : Statement (.vldContig e k d a m) := holds _
theorem vldStrided (e k : Bool) (d : BitVec 3) (a b : BitVec 5) (m : Mods) : Statement (.vldStrided e k d a b m) := holds _
theorem vldIndexed (e k : Bool) (d : BitVec 3) (a : BitVec 5) (b : BitVec 3) (m : Mods) : Statement (.vldIndexed e k d a b m) := holds _
theorem vstContig (e k : Bool) (d : BitVec 3) (a : BitVec 5) (m : Mods) : Statement (.vstContig e k d a m) := holds _
theorem vstStrided (e k : Bool) (d : BitVec 3) (a b : BitVec 5) (m : Mods) : Statement (.vstStrided e k d a b m) := holds _
theorem vstIndexed (e k : Bool) (d : BitVec 3) (a : BitVec 5) (b : BitVec 3) (m : Mods) : Statement (.vstIndexed e k d a b m) := holds _
theorem vadd (t : Bool) (d a b : BitVec 3) (m : Mods) : Statement (.vadd t d a b m) := holds _
theorem vsub (t : Bool) (d a b : BitVec 3) (m : Mods) : Statement (.vsub t d a b m) := holds _
theorem vmul (t : Bool) (d a b : BitVec 3) (m : Mods) : Statement (.vmul t d a b m) := holds _
theorem vmulh (t : Bool) (d a b : BitVec 3) (m : Mods) : Statement (.vmulh t d a b m) := holds _
theorem vmin (t : Bool) (d a b : BitVec 3) (m : Mods) : Statement (.vmin t d a b m) := holds _
theorem vmax (t : Bool) (d a b : BitVec 3) (m : Mods) : Statement (.vmax t d a b m) := holds _
theorem vminu (t : Bool) (d a b : BitVec 3) (m : Mods) : Statement (.vminu t d a b m) := holds _
theorem vmaxu (t : Bool) (d a b : BitVec 3) (m : Mods) : Statement (.vmaxu t d a b m) := holds _
theorem vand (t : Bool) (d a b : BitVec 3) (m : Mods) : Statement (.vand t d a b m) := holds _
theorem vor (t : Bool) (d a b : BitVec 3) (m : Mods) : Statement (.vor t d a b m) := holds _
theorem vxor (t : Bool) (d a b : BitVec 3) (m : Mods) : Statement (.vxor t d a b m) := holds _
theorem vshl (t : Bool) (d a b : BitVec 3) (m : Mods) : Statement (.vshl t d a b m) := holds _
theorem vshr (t : Bool) (d a b : BitVec 3) (m : Mods) : Statement (.vshr t d a b m) := holds _
theorem vsar (t : Bool) (d a b : BitVec 3) (m : Mods) : Statement (.vsar t d a b m) := holds _
theorem vadds (t : Bool) (d a b : BitVec 3) (m : Mods) : Statement (.vadds t d a b m) := holds _
theorem vaddus (t : Bool) (d a b : BitVec 3) (m : Mods) : Statement (.vaddus t d a b m) := holds _
theorem vsubs (t : Bool) (d a b : BitVec 3) (m : Mods) : Statement (.vsubs t d a b m) := holds _
theorem vsubus (t : Bool) (d a b : BitVec 3) (m : Mods) : Statement (.vsubus t d a b m) := holds _
theorem vabs (t : Bool) (d a : BitVec 3) (m : Mods) : Statement (.vabs t d a m) := holds _
theorem vneg (t : Bool) (d a : BitVec 3) (m : Mods) : Statement (.vneg t d a m) := holds _
theorem vcmpEq (t : Bool) (d : BitVec 5) (a b : BitVec 3) (m : Mods) : Statement (.vcmpEq t d a b m) := holds _
theorem vcmpLt (t : Bool) (d : BitVec 5) (a b : BitVec 3) (m : Mods) : Statement (.vcmpLt t d a b m) := holds _
theorem vcmpLe (t : Bool) (d : BitVec 5) (a b : BitVec 3) (m : Mods) : Statement (.vcmpLe t d a b m) := holds _
theorem vcmpLtu (t : Bool) (d : BitVec 5) (a b : BitVec 3) (m : Mods) : Statement (.vcmpLtu t d a b m) := holds _
theorem vcmpLeu (t : Bool) (d : BitVec 5) (a b : BitVec 3) (m : Mods) : Statement (.vcmpLeu t d a b m) := holds _
theorem vmad (t : Bool) (d a b : BitVec 3) (m : Mods) : Statement (.vmad t d a b m) := holds _
theorem vfadd (w : Bool) (d a b : BitVec 3) (m : Mods) : Statement (.vfadd w d a b m) := holds _
theorem vfsub (w : Bool) (d a b : BitVec 3) (m : Mods) : Statement (.vfsub w d a b m) := holds _
theorem vfmul (w : Bool) (d a b : BitVec 3) (m : Mods) : Statement (.vfmul w d a b m) := holds _
theorem vfdiv (w : Bool) (d a b : BitVec 3) (m : Mods) : Statement (.vfdiv w d a b m) := holds _
theorem vfsqrt (w : Bool) (d a : BitVec 3) (m : Mods) : Statement (.vfsqrt w d a m) := holds _
theorem vfmin (w : Bool) (d a b : BitVec 3) (m : Mods) : Statement (.vfmin w d a b m) := holds _
theorem vfmax (w : Bool) (d a b : BitVec 3) (m : Mods) : Statement (.vfmax w d a b m) := holds _
theorem vfabs (w : Bool) (d a : BitVec 3) (m : Mods) : Statement (.vfabs w d a m) := holds _
theorem vfneg (w : Bool) (d a : BitVec 3) (m : Mods) : Statement (.vfneg w d a m) := holds _
theorem vfma (w : Bool) (d a b : BitVec 3) (m : Mods) : Statement (.vfma w d a b m) := holds _
theorem vfnma (w : Bool) (d a b : BitVec 3) (m : Mods) : Statement (.vfnma w d a b m) := holds _
theorem vfcmpEq (w : Bool) (d : BitVec 5) (a b : BitVec 3) (m : Mods) : Statement (.vfcmpEq w d a b m) := holds _
theorem vfcmpLt (w : Bool) (d : BitVec 5) (a b : BitVec 3) (m : Mods) : Statement (.vfcmpLt w d a b m) := holds _
theorem vfcmpLe (w : Bool) (d : BitVec 5) (a b : BitVec 3) (m : Mods) : Statement (.vfcmpLe w d a b m) := holds _
theorem vfcmpUn (w : Bool) (d : BitVec 5) (a b : BitVec 3) (m : Mods) : Statement (.vfcmpUn w d a b m) := holds _
theorem vmov (d a : BitVec 3) (m : Mods) : Statement (.vmov d a m) := holds _
theorem vbcastW (d : BitVec 3) (a : BitVec 5) (m : Mods) : Statement (.vbcastW d a m) := holds _
theorem vbcastD (d : BitVec 3) (a : BitVec 5) (m : Mods) : Statement (.vbcastD d a m) := holds _
theorem vextW (d : BitVec 5) (a : BitVec 3) (b : BitVec 5) (m : Mods) : Statement (.vextW d a b m) := holds _
theorem vextD (d : BitVec 5) (a : BitVec 3) (b : BitVec 5) (m : Mods) : Statement (.vextD d a b m) := holds _
theorem vinsW (d : BitVec 3) (a b : BitVec 5) (m : Mods) : Statement (.vinsW d a b m) := holds _
theorem vinsD (d : BitVec 3) (a b : BitVec 5) (m : Mods) : Statement (.vinsD d a b m) := holds _
theorem vcvt (d a : BitVec 3) (m : Mods) : Statement (.vcvt d a m) := holds _
theorem nzscan (e : Bool) (d a : BitVec 3) (m : Mods) : Statement (.nzscan e d a m) := holds _
theorem vcompress (e : Bool) (d a : BitVec 3) (b : BitVec 5) (m : Mods) : Statement (.vcompress e d a b m) := holds _
theorem vperm (e : Bool) (d a b : BitVec 3) (m : Mods) : Statement (.vperm e d a b m) := holds _
theorem vrel (m : Mods) : Statement (.vrel m) := holds _
theorem vredAdd (t : BitVec 2) (o : Bool) (d : BitVec 5) (a : BitVec 3) (m : Mods) : Statement (.vredAdd t o d a m) := holds _
theorem vredMin (t : BitVec 2) (o : Bool) (d : BitVec 5) (a : BitVec 3) (m : Mods) : Statement (.vredMin t o d a m) := holds _
theorem vredMax (t : BitVec 2) (o : Bool) (d : BitVec 5) (a : BitVec 3) (m : Mods) : Statement (.vredMax t o d a m) := holds _
theorem haccO (d a : BitVec 5) (b : BitVec 3) (m : Mods) : Statement (.haccO d a b m) := holds _
theorem haccU (d a : BitVec 5) (b : BitVec 3) (m : Mods) : Statement (.haccU d a b m) := holds _
theorem cpy (d a b : BitVec 5) (m : Mods) : Statement (.cpy d a b m) := holds _
theorem cpyRegSize (d a b : BitVec 5) (m : Mods) : Statement (.cpyRegSize d a b m) := holds _
theorem gth (d a b : BitVec 5) (m : Mods) : Statement (.gth d a b m) := holds _
theorem sct (d a b : BitVec 5) (m : Mods) : Statement (.sct d a b m) := holds _
theorem cpyrAdd (u rs : Bool) (d a b : BitVec 5) (m : Mods) : Statement (.cpyrAdd u rs d a b m) := holds _
theorem cpyrMin (u rs : Bool) (d a b : BitVec 5) (m : Mods) : Statement (.cpyrMin u rs d a b m) := holds _
theorem cpyrMax (u rs : Bool) (d a b : BitVec 5) (m : Mods) : Statement (.cpyrMax u rs d a b m) := holds _
theorem allredAdd (u : Bool) (d a b : BitVec 5) (m : Mods) : Statement (.allredAdd u d a b m) := holds _
theorem allredMin (u : Bool) (d a b : BitVec 5) (m : Mods) : Statement (.allredMin u d a b m) := holds _
theorem allredMax (u : Bool) (d a b : BitVec 5) (m : Mods) : Statement (.allredMax u d a b m) := holds _
theorem tld (d : BitVec 5) (t : BitVec 3) (a : BitVec 5) (m : Mods) : Statement (.tld d t a m) := holds _
theorem tst (d : BitVec 5) (t : BitVec 3) (a : BitVec 5) (m : Mods) : Statement (.tst d t a m) := holds _
theorem tzero (d : BitVec 5) (t : BitVec 3) (m : Mods) : Statement (.tzero d t m) := holds _
theorem tmov (d : BitVec 5) (t s : BitVec 3) (m : Mods) : Statement (.tmov d t s m) := holds _
theorem mma (D : BitVec 3) (d : BitVec 5) (a b : BitVec 3) (m : Mods) : Statement (.mma D d a b m) := holds _
theorem mmaQ (D : BitVec 3) (d : BitVec 5) (a b : BitVec 3) (m : Mods) : Statement (.mmaQ D d a b m) := holds _
theorem mmaSp (D : BitVec 3) (d : BitVec 5) (a b : BitVec 3) (m : Mods) : Statement (.mmaSp D d a b m) := holds _
theorem sca (D : BitVec 3) (d : BitVec 5) (a b : BitVec 3) (m : Mods) : Statement (.sca D d a b m) := holds _
theorem prune (D : BitVec 3) (d : BitVec 5) (a : BitVec 3) (m : Mods) : Statement (.prune D d a m) := holds _
theorem kwrFstat (a : BitVec 5) (m : Mods) : Statement (.kwrFstat a m) := holds _
theorem krdFstat (d : BitVec 5) (m : Mods) : Statement (.krdFstat d m) := holds _
theorem krdAdoptmax (d : BitVec 5) (m : Mods) : Statement (.krdAdoptmax d m) := holds _
theorem kwrTshape (i : BitVec 3) (a : BitVec 5) (m : Mods) : Statement (.kwrTshape i a m) := holds _
theorem kwrTmeta (i : BitVec 3) (a : BitVec 5) (m : Mods) : Statement (.kwrTmeta i a m) := holds _
theorem kwrAssign (a : BitVec 5) (m : Mods) : Statement (.kwrAssign a m) := holds _
theorem keyload (a : BitVec 5) (m : Mods) : Statement (.keyload a m) := holds _
theorem preemptRemove : Statement (.preemptRemove) := holds _
theorem preemptRestore : Statement (.preemptRestore) := holds _
theorem preemptSaveImage : Statement (.preemptSaveImage) := holds _
theorem preemptLoadImage : Statement (.preemptLoadImage) := holds _
theorem idleTurn (core : Nat) : Statement (.idleTurn core) := holds _
theorem rotationBoundary (core : Nat) : Statement (.rotationBoundary core) := holds _
theorem replyLands (id : Nat) : Statement (.replyLands id) := holds _
theorem storeAcknowledged (id : Nat) : Statement (.storeAcknowledged id) := holds _
theorem divideResultLands (core : Nat) : Statement (.divideResultLands core) := holds _
theorem codeFetchLands (id : Nat) : Statement (.codeFetchLands id) := holds _
theorem loadAtHome (id : Nat) : Statement (.loadAtHome id) := holds _
theorem storeAtHome (id : Nat) : Statement (.storeAtHome id) := holds _
theorem egressLoad (id : Nat) : Statement (.egressLoad id) := holds _
theorem ingressRelease (id : Nat) : Statement (.ingressRelease id) := holds _
theorem atomicAtHome (id : Nat) : Statement (.atomicAtHome id) := holds _
theorem combinerGroupClose (id : Nat) : Statement (.combinerGroupClose id) := holds _
theorem predictorEntryDrop (cl line : Nat) : Statement (.predictorEntryDrop cl line) := holds _
theorem ldfeAtHome (id : Nat) : Statement (.ldfeAtHome id) := holds _
theorem stfeAtHome (id : Nat) : Statement (.stfeAtHome id) := holds _
theorem tkgetAtHome (id : Nat) : Statement (.tkgetAtHome id) := holds _
theorem tkwaitAtHome (id : Nat) : Statement (.tkwaitAtHome id) := holds _
theorem tkadvAtHome (id : Nat) : Statement (.tkadvAtHome id) := holds _
theorem waitAtHome (id : Nat) : Statement (.waitAtHome id) := holds _
theorem lkacqAtHome (id : Nat) : Statement (.lkacqAtHome id) := holds _
theorem lkrelAtHome (id : Nat) : Statement (.lkrelAtHome id) := holds _
theorem barJoinAtHome (id : Nat) : Statement (.barJoinAtHome id) := holds _
theorem barArriveAtHome (id : Nat) : Statement (.barArriveAtHome id) := holds _
theorem barDropAtHome (id : Nat) : Statement (.barDropAtHome id) := holds _
theorem haccAtHome (id : Nat) : Statement (.haccAtHome id) := holds _
theorem armedReplyLands (id : Nat) : Statement (.armedReplyLands id) := holds _
theorem servedAnswerLands (id : Nat) : Statement (.servedAnswerLands id) := holds _
theorem ldloAtHome (id : Nat) : Statement (.ldloAtHome id) := holds _
theorem stloAtHome (id : Nat) : Statement (.stloAtHome id) := holds _
theorem ldloReplyLands (id : Nat) : Statement (.ldloReplyLands id) := holds _
theorem latestOnlyAckLands (id : Nat) : Statement (.latestOnlyAckLands id) := holds _
theorem inTransitDiscard (id : Nat) : Statement (.inTransitDiscard id) := holds _
theorem translationWalk (id : Nat) : Statement (.translationWalk id) := holds _
theorem walkResultLands (id : Nat) : Statement (.walkResultLands id) := holds _
theorem claimAtHome (id : Nat) : Statement (.claimAtHome id) := holds _
theorem coreClaim (core : Nat) : Statement (.coreClaim core) := holds _
theorem steal (core : Nat) : Statement (.steal core) := holds _
theorem claimLands (id : Nat) : Statement (.claimLands id) := holds _
theorem claimAckAtHome (id : Nat) : Statement (.claimAckAtHome id) := holds _
theorem leaseExpiry (thread : Nat) : Statement (.leaseExpiry thread) := holds _
theorem dependentFillLands (id : Nat) : Statement (.dependentFillLands id) := holds _
theorem passThroughForward (id : Nat) : Statement (.passThroughForward id) := holds _
theorem stubResend (id : Nat) : Statement (.stubResend id) := holds _
theorem endReportAtHome (id : Nat) : Statement (.endReportAtHome id) := holds _
theorem familyFillLands (id : Nat) : Statement (.familyFillLands id) := holds _
theorem hwaitAnswerLands (id : Nat) : Statement (.hwaitAnswerLands id) := holds _
theorem breakAtHome (id : Nat) : Statement (.breakAtHome id) := holds _
theorem killAtHome (id : Nat) : Statement (.killAtHome id) := holds _
theorem killReachesMember (id : Nat) : Statement (.killReachesMember id) := holds _
theorem migrationArrival (id : Nat) : Statement (.migrationArrival id) := holds _
theorem copyFork (unit cl e : Nat) : Statement (.copyFork unit cl e) := holds _
theorem copyChunkCheck (cl e chunk : Nat) : Statement (.copyChunkCheck cl e chunk) := holds _
theorem copyChunkWrite (cl e chunk : Nat) : Statement (.copyChunkWrite cl e chunk) := holds _
theorem copyComplete (cl e : Nat) : Statement (.copyComplete cl e) := holds _
theorem engineHandleFillLands (id : Nat) : Statement (.engineHandleFillLands id) := holds _
theorem jobStart (cl e : Nat) : Statement (.jobStart cl e) := holds _
theorem tileRowTransfer (cl e r : Nat) : Statement (.tileRowTransfer cl e r) := holds _
theorem jobEnd (cl e : Nat) : Statement (.jobEnd cl e) := holds _
theorem jobHandleFill (cl e : Nat) : Statement (.jobHandleFill cl e) := holds _
theorem snowploughStep (die : Nat) : Statement (.snowploughStep die) := holds _
theorem level2ReplyRelease (id : Nat) : Statement (.level2ReplyRelease id) := holds _
theorem faultRecordClaim (id : Nat) : Statement (.faultRecordClaim id) := holds _
theorem pagingService (id : Nat) : Statement (.pagingService id) := holds _
theorem answerAtHolder (id : Nat) : Statement (.answerAtHolder id) := holds _
theorem answerDoorbell (vf : Nat) (w : Word) : Statement (.answerDoorbell vf w) := holds _
theorem queueDoorbell (vf q : Nat) (w : Word) : Statement (.queueDoorbell vf q w) := holds _
theorem queueControlWrite (vf q : Nat) (w : Word) : Statement (.queueControlWrite vf q w) := holds _
theorem packetReadLands (vf q i : Nat) : Statement (.packetReadLands vf q i) := holds _
theorem launch (vf q i : Nat) : Statement (.launch vf q i) := holds _
theorem admissionWake (vf q i : Nat) : Statement (.admissionWake vf q i) := holds _
theorem localSectionCopyLands (vf q i : Nat) : Statement (.localSectionCopyLands vf q i) := holds _
theorem copy (vf q i : Nat) : Statement (.copy vf q i) := holds _
theorem signal (vf q i : Nat) : Statement (.signal vf q i) := holds _
theorem waitSeq (vf q i : Nat) : Statement (.waitSeq vf q i) := holds _
theorem waitSeqAnswer (id : Nat) : Statement (.waitSeqAnswer id) := holds _
theorem setDet (vf q i : Nat) : Statement (.setDet vf q i) := holds _
theorem setDetDrained (vf : Nat) : Statement (.setDetDrained vf) := holds _
theorem fencePacket (vf q i : Nat) : Statement (.fencePacket vf q i) := holds _
theorem fencePacketComplete (vf q i : Nat) : Statement (.fencePacketComplete vf q i) := holds _
theorem scrubRegionDone : Statement (.scrubRegionDone) := holds _
theorem scrubgo (w : Word) : Statement (.scrubgo w) := holds _
theorem coreStop (core bad : Nat) : Statement (.coreStop core bad) := holds _
theorem repair (w : Word) : Statement (.repair w) := holds _
theorem slotq (w : Word) : Statement (.slotq w) := holds _
theorem spill (w : Word) : Statement (.spill w) := holds _
theorem assign (w : Word) : Statement (.assign w) := holds _
theorem managementWrite (off : Nat) (w : Word) : Statement (.managementWrite off w) := holds _
theorem hostMemoryAccess (wr : Bool) (addr len v : Nat) : Statement (.hostMemoryAccess wr addr len v) := holds _
theorem gangctlArm (vf : Nat) (w : Word) : Statement (.gangctlArm vf w) := holds _
theorem prepared (vf gid rank : Nat) : Statement (.prepared vf gid rank) := holds _
theorem refused (vf gid rank : Nat) : Statement (.refused vf gid rank) := holds _
theorem commit (vf gid : Nat) : Statement (.commit vf gid) := holds _
theorem abort (vf gid rank pkg : Nat) : Statement (.abort vf gid rank pkg) := holds _
theorem gangTimeout (vf : Nat) : Statement (.gangTimeout vf) := holds _
theorem allredMessage (pkg gid seq chunk rank op fmt size mode len v : Nat) : Statement (.allredMessage pkg gid seq chunk rank op fmt size mode len v) := holds _
theorem rankLost (pkg : Nat) : Statement (.rankLost pkg) := holds _
theorem keepalive (pkg : Nat) (answered : Bool) : Statement (.keepalive pkg answered) := holds _
theorem peerPortDown (port : Nat) : Statement (.peerPortDown port) := holds _
theorem ucieModuleFailure (module : Nat) : Statement (.ucieModuleFailure module) := holds _
theorem cxlLinkDown (port : Nat) : Statement (.cxlLinkDown port) := holds _
theorem cxlLinkRetrain (port : Nat) : Statement (.cxlLinkRetrain port) := holds _
theorem start (again ok : Bool) (mask : Nat) : Statement (.start again ok mask) := holds _
theorem bootclr (w : Word) : Statement (.bootclr w) := holds _
theorem attest (w : Word) : Statement (.attest w) := holds _
theorem dutyWrite (duty : Nat) (w : Word) : Statement (.dutyWrite duty w) := holds _
theorem dutyDrainEnd (duty : Nat) : Statement (.dutyDrainEnd duty) := holds _
theorem throttle (power temp die : Nat) : Statement (.throttle power temp die) := holds _
theorem thermalTrip (die : Nat) : Statement (.thermalTrip die) := holds _
theorem withdrawalAtHome (id : Nat) : Statement (.withdrawalAtHome id) := holds _
theorem withdrawalAckLands (id : Nat) : Statement (.withdrawalAckLands id) := holds _
theorem hwaitArmAtHome (id : Nat) : Statement (.hwaitArmAtHome id) := holds _
theorem peerAdmit (pkg : Nat) : Statement (.peerAdmit pkg) := holds _
theorem scaleOutPortUp (port : Nat) : Statement (.scaleOutPortUp port) := holds _
theorem firmwareImageWrite (len v sig version : Nat) : Statement (.firmwareImageWrite len v sig version) := holds _
theorem gatingRequest (core : Nat) : Statement (.gatingRequest core) := holds _
theorem throttleEnd (power temp die : Nat) : Statement (.throttleEnd power temp die) := holds _

end Sys2Proof.Laws.WordCount
end

