-- ==== Sys2Proof/Laws/Regs.lean ====
section
/-! SUPPORT. What the completion of an instruction does to the registers. -/

namespace Sys2Proof.Machine

variable (s : State)

/-! Parts of a completion: each touches the executing thread alone. -/

theorem State.modCur_eq (f : Thread → Thread) : s.modCur f = s.putThread s.uid (f s.cur) := rfl
@[simp] theorem Tab.put_put {α : Type} (t : Tab α) (n : Nat) (x y : α) : Tab.put (Tab.put t n x) n y = Tab.put t n y := by
  induction t with
  | nil => simp [Tab.put]
  | cons e t ih =>
    obtain ⟨k, v⟩ := e
    simp only [Tab.put]
    split
    · simp [Tab.put]
    · split
      · simp [Tab.put]
      · simp [Tab.put, *]
@[simp] theorem State.putThread_putThread (u : Nat) (x y : Thread) : (s.putThread u x).putThread u y = s.putThread u y := by
  simp [State.putThread]
@[simp] theorem State.uid_putThread' (u : Nat) (x : Thread) : (s.putThread u x).uid = s.uid := rfl
@[simp] theorem State.me_putThread' (u : Nat) (x : Thread) : (s.putThread u x).me = s.me := rfl
@[simp] theorem State.cur_putThread (x : Thread) : (s.putThread s.uid x).cur = x := by simp [State.cur]
@[simp] theorem State.modCur_putThread (x : Thread) (f : Thread → Thread) :
    (s.putThread s.uid x).modCur f = s.putThread s.uid (f x) := by simp [State.modCur_eq]

/-- A consume, as it changes the thread. -/
def Thread.emptied (t : Thread) (r : BitVec 5) : Thread := if r.toNat < 10 then t.setReg r.toNat ⟨0#64, .empty⟩ else t
def Thread.consumed (t : Thread) (m : Mods) (a b : BitVec 5) : Thread := (Machine.consumed m a b).foldl Thread.emptied t

theorem State.foldl_emptyGpr (rs : List (BitVec 5)) (f : Thread → Thread) :
    ∀ s : State, (rs.foldl State.emptyGpr s).modCur f = s.putThread s.uid (f (rs.foldl Thread.emptied s.cur)) := by
  induction rs with
  | nil => intro s; rfl
  | cons r rs ih =>
    intro s
    rw [List.foldl_cons, List.foldl_cons, ih]
    by_cases h : r.toNat < 10 <;> simp [State.emptyGpr, Thread.emptied, h, State.modCur_eq]
theorem State.consume_eq (m : Mods) (a b : BitVec 5) : s.consume m a b = (Machine.consumed m a b).foldl State.emptyGpr s := by
  unfold State.consume Machine.consumed
  cases m.consA <;> cases m.consB <;> cases m.consC <;> rfl
theorem Thread.emptied_rest (t : Thread) (r : BitVec 5) (x : Tab FReg) :
    { t.emptied r with regs := x } = { t with regs := x } := by
  unfold Thread.emptied; split <;> rfl
/-- A consume changes the full/empty registers alone. -/
theorem Thread.consumed_rest (t : Thread) (m : Mods) (a b : BitVec 5) (x : Tab FReg) :
    { t.consumed m a b with regs := x } = { t with regs := x } := by
  unfold Thread.consumed
  generalize Machine.consumed m a b = rs
  induction rs generalizing t with
  | nil => rfl
  | cons r rs ih => rw [List.foldl_cons, ih, Thread.emptied_rest]
theorem Thread.consumed_eq (t : Thread) (m : Mods) (a b : BitVec 5) :
    t.consumed m a b = { t with regs := (t.consumed m a b).regs } := by
  have h := Thread.consumed_rest t m a b (t.consumed m a b).regs
  exact h
/-- The completion of an instruction before its effect: the consumes and the pc, in the executing thread alone. -/
theorem State.consume_advance (m : Mods) (a b : BitVec 5) :
    (s.consume m a b).advance m =
      s.putThread s.uid { s.cur.consumed m a b with pc := s.cur.pc + word (lenBytes m) } := by
  rw [State.consume_eq, State.advance, State.foldl_emptyGpr]
  show s.putThread s.uid { s.cur.consumed m a b with pc := (s.cur.consumed m a b).pc + word (lenBytes m) } = _
  rw [Thread.consumed_eq]

theorem Thread.emptied_gpr (t : Thread) (r : BitVec 5) (q n : Nat) (h : n ≠ r.toNat) :
    (t.emptied r).gpr q n = t.gpr q n := by
  unfold Thread.emptied
  split <;> simp [Thread.gpr_setReg, h]
theorem Thread.emptied_fe_ne (t : Thread) (r : BitVec 5) (n : Nat) (h : n ≠ r.toNat) : (t.emptied r).fe n = t.fe n := by
  unfold Thread.emptied
  split <;> simp [Thread.fe_setReg, h]
theorem Thread.emptied_fe (t : Thread) (r : BitVec 5) (h : r.toNat < 10) : (t.emptied r).fe r.toNat = .empty := by
  simp [Thread.emptied, h, Thread.fe_setReg, hasFe]
theorem Thread.emptied_fe_keep (t : Thread) (r : BitVec 5) (n : Nat) (h : t.fe n = .empty) : (t.emptied r).fe n = .empty := by
  unfold Thread.emptied
  split
  · rw [Thread.fe_setReg]; split <;> simp_all
  · exact h
/-- A consume leaves every register that it does not name. -/
theorem Thread.consumed_keeps (t : Thread) (m : Mods) (a b r : BitVec 5) (h : r ∉ Machine.consumed m a b) :
    (∀ q, (t.consumed m a b).gpr q r.toNat = t.gpr q r.toNat) ∧ (t.consumed m a b).fe r.toNat = t.fe r.toNat := by
  unfold Thread.consumed
  generalize Machine.consumed m a b = rs at h
  induction rs generalizing t with
  | nil => exact ⟨fun _ => rfl, rfl⟩
  | cons x rs ih =>
    have hx : r.toNat ≠ x.toNat := fun hc => h (by simp [BitVec.eq_of_toNat_eq hc])
    obtain ⟨h1, h2⟩ := ih (t.emptied x) (fun hc => h (by simp [hc]))
    exact ⟨fun q => by rw [List.foldl_cons, h1, Thread.emptied_gpr _ _ _ _ hx],
      by rw [List.foldl_cons, h2, Thread.emptied_fe_ne _ _ _ hx]⟩
/-- The registers that a consume names are empty. -/
theorem Thread.consumed_fe (t : Thread) (m : Mods) (a b r : BitVec 5) (h : r ∈ Machine.consumed m a b)
    (hr : r.toNat < 10) : (t.consumed m a b).fe r.toNat = .empty := by
  unfold Thread.consumed
  generalize Machine.consumed m a b = rs at h
  have keep : ∀ (rs : List (BitVec 5)) (t : Thread), t.fe r.toNat = .empty → (rs.foldl Thread.emptied t).fe r.toNat = .empty := by
    intro rs
    induction rs with
    | nil => intro t h; exact h
    | cons x rs ih => intro t h; exact ih _ (Thread.emptied_fe_keep _ _ _ h)
  induction rs generalizing t with
  | nil => simp at h
  | cons x rs ih =>
    rcases List.mem_cons.mp h with rfl | h
    · rw [List.foldl_cons]; exact keep rs _ (Thread.emptied_fe t r hr)
    · exact ih _ h

/-- The parts of a thread that its general registers, pc apart, are read from. -/
def Thread.sameRegs (x y : Thread) : Prop :=
  x.regs = y.regs ∧ x.globals = y.globals ∧ x.ix = y.ix ∧ x.fh = y.fh ∧ x.lk = y.lk ∧ x.depth = y.depth
theorem Thread.gpr_congr {x y : Thread} (h : x.sameRegs y) (q r : Nat) (hr : r ≠ 31) : x.gpr q r = y.gpr q r := by
  obtain ⟨h1, h2, h3, h4, h5, h6⟩ := h
  simp [Thread.gpr, Thread.reg, h1, h2, h3, h4, h5, h6, hr]
theorem Thread.fe_congr {x y : Thread} (h : x.regs = y.regs) (r : Nat) : x.fe r = y.fe r := by
  simp [Thread.fe, Thread.reg, h]

/-! Writes of general registers. -/

/-- The state with its messages on their way replaced. -/
def State.withMsgs (ms : Tab Msg) (b : Tab Nat) (c : Tab (List Nat)) (n : Nat) : State :=
  { s with msgs := ms, bound := b, carried := c, nextId := n }

/-- A shared's value leaves as a message, and nothing else changes. -/
theorem State.sendDep_eq (x : Thread) (i : Nat) (v : Option Word) :
    ∃ ms b c n, s.sendDep x i v = s.withMsgs ms b c n := by
  unfold State.sendDep
  split
  · exact ⟨s.msgs, s.bound, s.carried, s.nextId, rfl⟩
  · split <;> exact ⟨_, _, _, _, rfl⟩

/-- The thread after its register `n` takes `v`. -/
def Thread.written (t : Thread) (n : Nat) (v : Word) : Thread :=
  if n < 10 ∨ 18 ≤ n ∧ n < 22 then t.setReg n ⟨v, .full⟩ else if n = 29 then { t with lk := v } else t

/-- What the write of a general register does: the thread takes the value, a shared sends it, and nothing else
changes. -/
theorem State.writeGpr_eq (x : Thread) (d : BitVec 5) (v : Word) :
    ∃ ms b c n, (s.putThread s.uid x).writeGpr d v = (s.putThread s.uid (x.written d.toNat v)).withMsgs ms b c n ∧
      (isShared d = false → ms = s.msgs ∧ b = s.bound ∧ c = s.carried ∧ n = s.nextId) := by
  unfold State.writeGpr State.landGpr Thread.written
  split
  · rename_i h
    exact ⟨s.msgs, s.bound, s.carried, s.nextId, by simp [h, State.modThread]; rfl, fun _ => ⟨rfl, rfl, rfl, rfl⟩⟩
  · rename_i h
    split
    · rename_i h2
      obtain ⟨ms, b, c, n, e⟩ := State.sendDep_eq (s.putThread s.uid (x.setReg d.toNat ⟨v, .full⟩)) x (d.toNat - 18) (some v)
      refine ⟨ms, b, c, n, ?_, fun hs => ?_⟩
      · simpa [State.modThread, h2] using e
      · simp [isShared, h2] at hs
    · rename_i h2
      split
      · rename_i h3
        exact ⟨s.msgs, s.bound, s.carried, s.nextId, by simp [h3, State.modThread]; rfl, fun _ => ⟨rfl, rfl, rfl, rfl⟩⟩
      · rename_i h3
        exact ⟨s.msgs, s.bound, s.carried, s.nextId, by simp [h, h2]; rfl, fun _ => ⟨rfl, rfl, rfl, rfl⟩⟩

theorem Thread.fe_written (t : Thread) (n r : Nat) (v : Word) :
    (t.written n v).fe r = if r = n ∧ (n < 10 ∨ 18 ≤ n ∧ n < 22) then .full else t.fe r := by
  unfold Thread.written
  split
  · rename_i h
    rw [Thread.fe_setReg]
    by_cases e : r = n
    · subst e; rcases h with h | h <;> simp [hasFe, h]; omega
    · simp [e]
  · rename_i h
    split <;> simp [h, Thread.fe, Thread.reg]
theorem Thread.gpr_written_ne (t : Thread) (q n r : Nat) (v : Word) (h : r ≠ n) : (t.written n v).gpr q r = t.gpr q r := by
  unfold Thread.written
  split
  · simp [Thread.gpr_setReg, h]
  · split
    · subst_vars; simp [Thread.gpr, Thread.reg, h]
    · rfl
theorem Thread.gpr_written_self (t : Thread) (q n : Nat) (v : Word) (h : n < 10 ∨ 18 ≤ n ∧ n < 22 ∨ n = 29) :
    (t.written n v).gpr q n = v := by
  unfold Thread.written
  split
  · rename_i h2
    rw [Thread.gpr_setReg]
    rcases h2 with h2 | h2 <;> simp [hasFe, h2]; omega
  · have : n = 29 := by omega
    subst this; simp [Thread.gpr, hasFe]
theorem Thread.written_rest (t : Thread) (n : Nat) (v : Word) :
    t.written n v = { t with regs := (t.written n v).regs, lk := (t.written n v).lk } := by
  unfold Thread.written
  split
  · rfl
  · split <;> rfl

/-- What an instruction that writes a general register does when it completes: its registers, its frame. -/
theorem State.complete_writes (m : Mods) (a b d : BitVec 5) (v : Word) :
    s.regResult (((s.consume m a b).advance m).writeGpr d v) m a b d v ∧
    s.keepsThread (((s.consume m a b).advance m).writeGpr d v) := by
  rw [State.consume_advance]
  generalize hx : ({ s.cur.consumed m a b with pc := s.cur.pc + word (lenBytes m) } : Thread) = x
  obtain ⟨ms, mb, mc, n, e, hk⟩ := State.writeGpr_eq s x d v
  rw [e]
  generalize hy : x.written d.toNat v = y
  have hcur : ((s.putThread s.uid y).withMsgs ms mb mc n).cur = y := State.cur_putThread s y
  have hgpr : ∀ r : BitVec 5, ((s.putThread s.uid y).withMsgs ms mb mc n).gpr r = y.gpr s.me r.toNat := by
    intro r; rw [State.gpr_def, hcur]; rfl
  have xregs : x.regs = (s.cur.consumed m a b).regs := by rw [← hx]
  have xsame : x.sameRegs (s.cur.consumed m a b) := by rw [← hx]; exact ⟨rfl, rfl, rfl, rfl, rfl, rfl⟩
  refine ⟨⟨fun hw => ?_, ?_, fun r h1 h2 h3 => ?_, fun r h1 h2 h3 => ?_, ⟨fun u hu => ?_, rfl⟩, hk⟩, ?_⟩
  · rw [hgpr, hcur, ← hy, Thread.fe_written]
    simp only [writable, Bool.or_eq_true, Bool.and_eq_true, decide_eq_true_eq, beq_iff_eq] at hw
    refine ⟨Thread.gpr_written_self _ _ _ _ (by omega), ?_⟩
    split
    · rfl
    · rename_i h
      have : d.toNat = 29 := by omega
      simp [this, Thread.fe, hasFe]
  · rw [hcur, ← hy, Thread.written_rest, ← hx]
  · have n1 : r.toNat ≠ d.toNat := fun hc => h1 (BitVec.eq_of_toNat_eq hc)
    have n2 : r.toNat ≠ 31 := fun hc => h3 (BitVec.eq_of_toNat_eq hc)
    obtain ⟨k1, k2⟩ := Thread.consumed_keeps s.cur m a b r h2
    rw [hgpr, hcur, ← hy, Thread.gpr_written_ne _ _ _ _ _ n1, Thread.fe_written, Thread.gpr_congr xsame _ _ n2, k1,
      Thread.fe_congr xregs, k2]
    exact ⟨rfl, by simp [n1]⟩
  · have n1 : r.toNat ≠ d.toNat := fun hc => h3 (BitVec.eq_of_toNat_eq hc)
    rw [hcur, ← hy, Thread.fe_written, Thread.fe_congr xregs, Thread.consumed_fe _ _ _ _ _ h1 h2]
    simp [n1]
  · show (s.putThread s.uid y).threadAt u = _
    simp [State.threadAt_putThread, hu]
  · unfold State.keepsThread
    rw [hcur, ← hy, Thread.written_rest, ← hx, Thread.consumed_eq]

/-- A later change of the executing thread that leaves its registers leaves the effect on the registers. -/
theorem State.regResult_modCur {s t : State} {m : Mods} {a b d : BitVec 5} {v : Word} (f : Thread → Thread)
    (h : s.regResult t m a b d v) (hu : t.uid = s.uid) (hf : (f t.cur).sameRegs t.cur) (hp : (f t.cur).pc = t.cur.pc) :
    s.regResult (t.modCur f) m a b d v := by
  obtain ⟨h1, h2, h3, h4, ⟨h5, h6⟩, h7⟩ := h
  have hg : ∀ r : BitVec 5, (t.modCur f).gpr r = t.gpr r := by
    intro r
    rw [State.gpr_def, State.gpr_def, State.cur_modCur]
    by_cases hr : r.toNat = 31
    · simp [Thread.gpr, hasFe, hr, hp]
    · exact Thread.gpr_congr hf _ _ hr
  have hfe : ∀ r, (t.modCur f).cur.fe r = t.cur.fe r := fun r => by
    rw [State.cur_modCur]; exact Thread.fe_congr hf.1 r
  refine ⟨fun hw => ?_, ?_, fun r a1 a2 a3 => ?_, fun r a1 a2 a3 => ?_, ⟨fun u hne => ?_, ?_⟩, fun hs => h7 hs⟩
  · rw [hg, hfe]; exact h1 hw
  · rw [State.cur_modCur, hp, h2]
  · rw [hg, hfe]; exact h3 r a1 a2 a3
  · rw [hfe]; exact h4 r a1 a2 a3
  · rw [State.threadAt_modCur, hu, if_neg hne]; exact h5 u hne
  · exact h6
theorem State.putThread_withMsgs (u : Nat) (x : Thread) (ms : Tab Msg) (b : Tab Nat) (c : Tab (List Nat)) (n : Nat) :
    (s.withMsgs ms b c n).putThread u x = (s.putThread u x).withMsgs ms b c n := rfl
/-- Who executes stays. -/
theorem State.complete_writes_uid (m : Mods) (a b d : BitVec 5) (v : Word) :
    (((s.consume m a b).advance m).writeGpr d v).uid = s.uid ∧
    (((s.consume m a b).advance m).writeGpr d v).me = s.me := by
  rw [State.consume_advance]
  obtain ⟨ms, mb, mc, n, e, _⟩ := State.writeGpr_eq s { s.cur.consumed m a b with pc := s.cur.pc + word (lenBytes m) } d v
  rw [e]
  exact ⟨rfl, rfl⟩

/-! Predicates. -/

theorem getLsbD_putBits (n p q : Nat) (b : Bool) (hq : q < 8) :
    (BitVec.ofNat 8 (putBits n p 1 b.toNat)).getLsbD q = if q = p then b else n.testBit q := by
  rw [BitVec.getLsbD_ofNat, testBit_putBits]
  have h : b.toNat.testBit 0 = b := by cases b <;> rfl
  by_cases a : q < p
  · simp [a, hq, show q ≠ p by omega]
  · by_cases e : q = p
    · subst e; simp [hq, h]
    · simp [a, hq, e, show ¬ q < p + 1 by omega]
/-- A thread after predicate `p` takes `v`. -/
def Thread.withPred (t : Thread) (p : BitVec 3) (v : Bool) : Thread :=
  { t with pred := BitVec.ofNat 8 (putBits t.pred.toNat p.toNat 1 v.toNat) }
theorem Thread.getPred_withPred (t : Thread) (p q : BitVec 3) (v : Bool) (h : q ≠ 0#3 ∨ p ≠ q) :
    (t.withPred p v).getPred q = if q = p ∧ q ≠ 0#3 then v else t.getPred q := by
  unfold Thread.getPred Thread.withPred
  by_cases h0 : q = 0#3
  · subst h0; simp
  · have hq : q.toNat < 8 := q.isLt
    simp only [getLsbD_putBits _ _ _ _ hq, beq_eq_false_iff_ne.mpr h0, Bool.false_or, ne_eq, h0, not_false_eq_true, and_true]
    by_cases e : q = p
    · simp [e]
    · have : q.toNat ≠ p.toNat := fun hc => e (BitVec.eq_of_toNat_eq hc)
      simp [e, this, BitVec.getLsbD]
/-- What an instruction that writes a predicate does when it completes. -/
theorem State.complete_setPred (m : Mods) (a b : BitVec 5) (p : BitVec 3) (v : Bool) :
    s.predResult (((s.consume m a b).advance m).setPred p v) m a b p v ∧
    s.keepsThreadPred (((s.consume m a b).advance m).setPred p v) := by
  rw [State.consume_advance]
  generalize hx : ({ s.cur.consumed m a b with pc := s.cur.pc + word (lenBytes m) } : Thread) = x
  have e : (s.putThread s.uid x).setPred p v = s.putThread s.uid (x.withPred p v) := by
    simp [State.setPred, Thread.withPred]
  rw [e]
  have xpred : x.pred = s.cur.pred := by rw [← hx, Thread.consumed_eq]
  have xregs : x.regs = (s.cur.consumed m a b).regs := by rw [← hx]
  have xsame : (x.withPred p v).sameRegs (s.cur.consumed m a b) := by rw [← hx]; exact ⟨rfl, rfl, rfl, rfl, rfl, rfl⟩
  have hgpr : ∀ r : BitVec 5, (s.putThread s.uid (x.withPred p v)).gpr r = (x.withPred p v).gpr s.me r.toNat := by
    intro r; rw [State.gpr_def, State.cur_putThread]; rfl
  have hfe : ∀ r, (s.putThread s.uid (x.withPred p v)).cur.fe r = (s.cur.consumed m a b).fe r := by
    intro r; rw [State.cur_putThread]; exact Thread.fe_congr xsame.1 r
  refine ⟨⟨fun hp => ?_, fun q hq => ?_, ?_, fun r h1 h2 h3 => ?_, fun r h1 h2 h3 => ?_, ⟨fun u hu => ?_, rfl⟩, rfl, rfl, rfl, rfl⟩, ?_⟩
  · rw [State.cur_putThread, Thread.getPred_withPred _ _ _ _ (.inl hp)]; simp [hp]
  · rw [State.cur_putThread, Thread.getPred_withPred _ _ _ _ (.inr (Ne.symm hq))]
    simp [hq, Thread.getPred, xpred]
  · rw [State.cur_putThread, Thread.withPred, ← hx]
  · have n2 : r.toNat ≠ 31 := fun hc => h3 (BitVec.eq_of_toNat_eq hc)
    obtain ⟨k1, k2⟩ := Thread.consumed_keeps s.cur m a b r h2
    rw [hgpr, hfe, Thread.gpr_congr xsame _ _ n2, k1, k2]; exact ⟨rfl, rfl⟩
  · rw [hfe]; exact Thread.consumed_fe _ _ _ _ _ h1 h2
  · simp [State.threadAt_putThread, hu]
  · unfold State.keepsThreadPred
    rw [State.cur_putThread, Thread.withPred, ← hx, Thread.consumed_eq]

end Sys2Proof.Machine
end

