-- ==== Sys2Proof/Tests/Slice0.lean ====
section
/-! SUPPORT. The model's own tests: ill-formed instructions that the check refuses, words decoded as the spec lays
them out, states that meet the hypotheses of the statements, and single steps. -/

namespace Sys2Proof.Tests

open Sys2Proof Sys2Proof.Machine

/-! The tests are checked one after another: each waits for the kernel, and a thread for each would be a lot of memory. -/
set_option Elab.async false

/-! Helpers. -/

/-- After reset, a thread of function 0 stands in slot 0 of core 0, all its registers full and zero. -/
def base : State := State.reset.withFetchWord 32 0x3C

/-- The executing thread changed. -/
def on (f : Thread → Thread) : State := base.modCur f
/-- General register `r` of the executing thread holds `v`. -/
def reg (s : State) (r : Nat) (v : Word) : State := s.modCur (fun t => { t with regs := t.regs.put r ⟨v, .full⟩ })
/-- General register `r` of the executing thread is empty in this state. -/
def fe (s : State) (r : Nat) (x : Fe) : State := s.modCur (fun t => { t with regs := t.regs.put r ⟨0#64, x⟩ })

/-- `State.Ready`, as a check. -/
def readyB (s : State) (m : Mods) (priv : Nat) (n : Need) : Bool :=
  let free (r : BitVec 5) : Bool :=
    match s.cur.fe r.toNat with
    | .pending _ => false
    | f => r.toNat < 18 || 22 ≤ r.toNat || (f != .full && (s.famAt s.cur.fam).place == 0)
  if s.uid?.isNone || !s.guardHolds m || (priv != 0 && s.cur.vf != 0) then false
  else
    n.src.all (fun r => s.cur.fe r.toNat == .full) && n.dst.all free &&
      n.vec.all (fun v => s.mySlot.vpend.get 0 v.toNat == 0)

theorem ready_of (s : State) (m : Mods) (priv : Nat) (n : Need) (h : readyB s m priv n = true) : s.Ready m priv n := by
  unfold readyB at h
  split at h
  · exact absurd h (by decide)
  next hc =>
  have g : s.guardHolds m = true := by cases e : s.guardHolds m <;> simp_all
  have p : priv = 0 ∨ s.cur.vf = 0 := by by_cases e : priv = 0 <;> simp_all
  have u : s.uid?.isSome = true := by cases e : s.uid? <;> simp_all
  have ⟨rest, vec⟩ := (Bool.and_eq_true _ _).mp h
  have ⟨src, dst⟩ := (Bool.and_eq_true _ _).mp rest
  have vec' (v) (m : v ∈ n.vec) := beq_iff_eq.mp (List.all_eq_true.mp vec v m)
  have src' (r) (m : r ∈ n.src) := beq_iff_eq.mp (List.all_eq_true.mp src r m)
  refine ⟨u, g, p, src', vec', fun r m => ?_⟩
  have d := List.all_eq_true.mp dst r m
  split at d
  · exact absurd d (by decide)
  next hp =>
  refine ⟨hp, fun lo hi => ?_⟩
  have d' : (s.cur.fe r.toNat != .full && (s.famAt s.cur.fam).place == 0) = true := by
    simpa [Nat.not_lt.mpr lo, Nat.not_le.mpr hi] using d
  exact ⟨bne_iff_ne.mp ((Bool.and_eq_true _ _).mp d').1, .inl (beq_iff_eq.mp ((Bool.and_eq_true _ _).mp d').2)⟩

/-! Decoding: words laid out field by field from the tables of the encoding (R20 to R56). -/

/-- The words decode to the instruction and leave none over. -/
noncomputable def reads (ws : List IWord) (i : Instr) : Bool :=
  match decodeWords ws with
  | .ok (j, []) => j == i
  | _ => false
/-- The words are ILLEGAL with this cause. -/
noncomputable def rejects (ws : List IWord) (c : IllegalCause) : Bool :=
  match decodeWords ws with
  | .error (.illegal d) => d == c
  | _ => false

theorem test_decode_integer :
    reads [0x02082304#32] (.mulhu 3#5 1#5 2#5 false Mods.base) = true ∧
    reads [0xFFFC2308#32] (.addi 3#5 1#5 0x3FFF#14 Mods.base) = true ∧
    reads [0x037C2234#32] (.cmpLtu 2#3 1#5 31#5 Mods.base) = true ∧
    reads [0x08082734#32] (.pand 7#3 1#3 2#3 Mods.base) = true := by
  decide +kernel
theorem test_decode_float_control_family :
    reads [0x80082338#32] (.fadd true 3#5 1#5 2#5 Mods.base) = true ∧
    reads [0x00000086#32, 0x00002000#32, 0x00000001#32] (.callLit { Mods.base with len := 2#2, lit := 0x100002000#64 }) = true ∧
    reads [0x0008298B#32, 0x00000004#32, 0x227FFA99#32, 0x00002000#32, 0x00000000#32] (.create 9#5 1#5 2#5 { Mods.base with len := 3#2, rc := 4#5, w2 := 0x227FFA99#32, lit := 0x2000#64 }) = true := by
  decide +kernel
theorem test_decode_memory :
    reads [0x80002354#32] (.ldWu 3#5 1#5 0x2000#14 Mods.base) = true ∧
    reads [0x00002365#32, 0x00004000#32, 0xFFFFFFFE#32] (.stH 3#5 1#5 0#14 { Mods.base with len := 1#2, scope := 4#3, w2 := 0xFFFFFFFE#32 }) = true ∧
    reads [0x0B082378#32] (.ldIndexed 2#2 6#3 3#5 1#5 2#5 Mods.base) = true ∧
    reads [0x1E082378#32] (.stIndexed 3#2 4#3 3#5 1#5 2#5 Mods.base) = true ∧
    reads [0x20002379#32, 0x00000004#32, 0x00000008#32] (.ldlo 3#5 1#5 { Mods.base with len := 1#2, rc := 4#5, w2 := 8#32 }) = true := by
  decide +kernel
theorem test_decode_atomic_wait :
    reads [0x2C882391#32, 0x00005004#32, 0x00000000#32] (.cas true 1#2 3#5 1#5 2#5 { Mods.base with len := 1#2, rc := 4#5, scope := 5#3 }) = true ∧
    reads [0x04882094#32] (.waitne 1#5 2#5 Mods.base) = true := by
  decide +kernel
theorem test_decode_vector :
    reads [0x800827A4#32] (.vadd true 7#3 1#3 2#3 Mods.base) = true ∧
    reads [0x100827A5#32, 0x00000003#32, 0x00000000#32] (.vmad false 7#3 1#3 2#3 { Mods.base with len := 1#2, rc := 3#5 }) = true ∧
    reads [0x098827A1#32, 0x00000004#32, 0x00000000#32] (.vldStrided true true 7#3 1#5 2#5 { Mods.base with len := 1#2, rc := 4#5 }) = true ∧
    reads [0x2500E3AC#32] (.vredAdd 2#2 true 3#5 7#3 Mods.base) = true ∧
    reads [0x388823AD#32, 0x00500004#32, 0x00000000#32] (.haccU 3#5 1#5 2#3 { Mods.base with len := 1#2, rc := 4#5, fmtA := 0x14#5 }) = true := by
  decide +kernel
theorem test_decode_tile_system :
    reads [0x009C23C1#32, 0x00000000#32, 0xFFF00040#32] (.tst 3#5 7#3 1#5 { Mods.base with len := 1#2, w2 := 0xFFF00040#32 }) = true ∧
    reads [0x841063C5#32, 0x00000006#32, 0x00000000#32] (.sca 4#3 3#5 3#3 4#3 { Mods.base with len := 1#2, rc := 6#5 }) = true ∧
    reads [0xA80023C5#32, 0x00000000#32, 0x0000002A#32] (.prune 5#3 3#5 1#3 { Mods.base with len := 1#2, w2 := 0x2A#32 }) = true ∧
    reads [0x008C033C#32] (.krd 3#5 0x003#10 Mods.base) = true ∧
    reads [0x0300203C#32] (.tlbinv 1#5 Mods.base) = true := by
  decide +kernel
/-- R38: major 0x00; R40: function 0xFF; R45: `call` of a literal in the base form; R23: word 1's bits [31:28]; R33: pc as
a destination; R25: p0 with sense 1; R46: nine globals. -/
theorem test_decode_rejects :
    rejects [0x00000000#32] .major = true ∧
    rejects [0x7F882304#32] .function = true ∧
    rejects [0x00000084#32] .length = true ∧
    rejects [0x00082305#32, 0x10000000#32, 0x00000000#32] .reserved = true ∧
    rejects [0x00083F04#32] .register = true ∧
    rejects [0x00082305#32, 0x00000800#32, 0x00000000#32] .register = true ∧
    rejects [0x0008298B#32, 0x00000004#32, 0x907FFF80#32, 0x00002000#32, 0x00000000#32] .code = true := by
  decide +kernel

/-! Well-formedness: an ill-formed instruction for each check. -/

/-- R17, R23: fields that the length does not hold. -/
theorem test_ill_formed_length_parts :
    wellFormed (.add 3#5 1#5 2#5 false { Mods.base with rc := 1#5 }) = false ∧
    wellFormed (.add 3#5 1#5 27#5 true { Mods.base with len := 1#2, lit := 1#64 }) = false ∧
    wellFormed (.addi 3#5 1#5 0#14 { Mods.base with len := 2#2, gpred := 1#3 }) = false := by decide +kernel
/-- The decoder's one form: an immediate held twice, registers of `krd` and `kwr` with rows of their own, `bt` of p0, and
sizes of indexed accesses that do not exist (R37, R44, R109). -/
theorem test_ill_formed_form :
    wellFormed (.shlImm 3#5 1#5 5#6 { Mods.base with len := 1#2, w2 := 5#32 }) = false ∧
    wellFormed (.krd 3#5 0x002#10 Mods.base) = false ∧ wellFormed (.kwr 0x101#10 1#5 Mods.base) = false ∧
    wellFormed (.bt 0#3 4#19 Mods.base) = false ∧ wellFormed (.ldIndexed 0#2 7#3 3#5 1#5 2#5 Mods.base) = false ∧
    wellFormed (.stIndexed 0#2 1#3 3#5 1#5 2#5 Mods.base) = false := by decide +kernel
/-- R56's causes: a length that the function does not take, a roleless field, a register that is not permitted, a code
that is not. -/
theorem test_ill_formed_causes :
    wellFormed (.bfi 3#5 1#5 2#5 false Mods.base) = false ∧ wellFormed (.nop { Mods.base with len := 1#2, rc := 1#5 }) = false ∧
    wellFormed (.add 30#5 1#5 2#5 false Mods.base) = false ∧
    wellFormed (.tst 3#5 7#3 1#5 { Mods.base with len := 1#2 }) = false := by decide +kernel

/-! States that meet the hypotheses of the statements: integer and float instructions. -/

theorem witness_IntegerResults :
    base.Ready Mods.base 0 { src := [1#5, 2#5], dst := [3#5] } ∧
    base.Ready { Mods.base with len := 1#2 } 0 { src := [1#5], dst := [27#5] } ∧
    (fe base 18 .empty).Ready Mods.base 0 { src := [1#5], dst := [18#5] } :=
  ⟨ready_of _ _ _ _ (by decide +kernel), ready_of _ _ _ _ (by decide +kernel), ready_of _ _ _ _ (by decide +kernel)⟩

theorem witness_FieldAndAddressResults :
    base.Ready { Mods.base with len := 1#2, rc := 9#5 } 0 { src := [1#5, 2#5] ++ [9#5], dst := [29#5] } :=
  ready_of _ _ _ _ (by decide +kernel)

theorem witness_ImmediateResults :
    base.Ready Mods.base 0 { src := [27#5], dst := [0#5] } ∧ (0#6).toNat + ((63#6).toNat + 1) ≤ 64 :=
  ⟨ready_of _ _ _ _ (by decide +kernel), by decide⟩

theorem witness_IntegerCompareResults : base.Ready Mods.base 0 { src := [1#5, 31#5] } :=
  ready_of _ _ _ _ (by decide +kernel)

theorem witness_PredicateLogicResults :
    base.Ready Mods.base 0 {} ∧ base.Ready Mods.base 0 { dst := [4#5] } ∧ base.Ready Mods.base 0 { src := [4#5] } :=
  ⟨ready_of _ _ _ _ (by decide +kernel), ready_of _ _ _ _ (by decide +kernel), ready_of _ _ _ _ (by decide +kernel)⟩

theorem witness_FloatArithmeticResults :
    base.Ready Mods.base 0 { src := [1#5, 2#5], dst := [3#5] } ∧
    base.Ready { Mods.base with len := 1#2 } 0 { src := [1#5, 2#5, 0#5], dst := [3#5] } ∧
    base.Ready { Mods.base with len := 1#2 } 0 { src := [1#5], dst := [1#5] } :=
  ⟨ready_of _ _ _ _ (by decide +kernel), ready_of _ _ _ _ (by decide +kernel), ready_of _ _ _ _ (by decide +kernel)⟩

theorem witness_FloatSignClassAndNaN :
    let s := reg base 1 0x7F800001#64
    s.Ready Mods.base 0 { src := [1#5], dst := [3#5] } ∧ s.Ready Mods.base 0 { src := [1#5, 2#5], dst := [3#5] } ∧
    s.Ready { Mods.base with len := 1#2, rc := 2#5 } 0 { src := [1#5, 2#5, 2#5], dst := [3#5] } ∧
    ((s.coreAt s.myCore).div = none ∧ (s.coreAt s.myCore).divWait = []) ∧
    (f32.decode (s.gpr 1#5).toNat).isNan = true ∧ (f32.decode (s.gpr 1#5).toNat).isSnan = true ∧
    fmtOf ({ Mods.base with fmtA := 0x14#5 } : Mods).fmtA.toNat = .float f32 ∧
    (f64.decode (0xFFFFFFFFFFFFFFFF#64).toNat).isNan = true :=
  ⟨ready_of _ _ _ _ (by decide +kernel), ready_of _ _ _ _ (by decide +kernel), ready_of _ _ _ _ (by decide +kernel),
    by decide +kernel⟩

theorem witness_FloatCompareResults : base.Ready Mods.base 0 { src := [1#5, 1#5] } :=
  ready_of _ _ _ _ (by decide +kernel)

/-- A result of the thread stands in core 0's divide unit. -/
def dividing (vec : Bool) : State := base.modCore 0 (fun c => { c with div := some ⟨base.uid, 0, 3, vec, 7#512, 1#5⟩ })

theorem witness_DivideUnit :
    ((base.coreAt base.myCore).div = none ∧ (base.coreAt base.myCore).divWait = []) ∧
    base.Ready Mods.base 0 { src := [1#5, 2#5], dst := [3#5] } ∧ base.Ready Mods.base 0 { src := [1#5], dst := [3#5] } ∧
    base.Ready Mods.base 0 { vec := [3#5, 1#5, 2#5] } ∧ base.Ready Mods.base 0 { vec := [3#5, 1#5] } :=
  ⟨by decide +kernel, ready_of _ _ _ _ (by decide +kernel), ready_of _ _ _ _ (by decide +kernel),
    ready_of _ _ _ _ (by decide +kernel), ready_of _ _ _ _ (by decide +kernel)⟩
theorem witness_DivideUnit_lands :
    ((dividing false).coreAt 0).div = some ⟨base.uid, 0, 3, false, 7#512, 1#5⟩ ∧
    ((dividing false).threadAt base.uid).ended = none ∧
    (((dividing true).coreAt 0).div = some ⟨base.uid, 0, 3, true, 7#512, 1#5⟩ ∧ ((dividing true).slotAt 0).occ = some base.uid) ∧
    (((dividing false).modCur (fun t => { t with ended := some .killed })).threadAt base.uid).ended = some .killed := by
  decide +kernel

/-! Control registers and system instructions. -/

/-- The thread of `base` may take a fault at once. -/
theorem base_mayFault : base.mayFault :=
  { runs := by decide +kernel, alone := by decide +kernel, settled := by decide +kernel }

theorem witness_ControlRegisterReads :
    base.Ready Mods.base 0 { dst := [3#5] } ∧ base.Ready Mods.base 2 { dst := [3#5] } ∧
    (let s := on (fun t => { t with vf := 1 })
     s.uid?.isSome = true ∧ s.guardHolds Mods.base = true ∧ s.cur.vf ≠ 0 ∧ s.mayFault) :=
  ⟨ready_of _ _ _ _ (by decide +kernel), ready_of _ _ _ _ (by decide +kernel), by decide +kernel, by decide +kernel,
    by decide +kernel, { runs := by decide +kernel, alone := by decide +kernel, settled := by decide +kernel }⟩

theorem witness_ControlRegisterWrites :
    (reg base 1 5#64).Ready Mods.base 0 { src := [1#5] } ∧ (reg base 1 0x51#64).Ready Mods.base 2 { src := [1#5] } ∧
    base.mayFault ∧ base.cur.vfsel = 0 ∧ (on (fun t => { t with vfsel := 63 })).cur.vfsel ≠ 0 ∧ base.pkg.preempt = none ∧
    (base.modPkg (fun p => { p with preempt := some ⟨0, 1, [0], 1, 0#64⟩ })).pkg.preempt ≠ none :=
  ⟨ready_of _ _ _ _ (by decide +kernel), ready_of _ _ _ _ (by decide +kernel), base_mayFault, by decide +kernel⟩
/-- For each register's clause: a value with a reserved bit, values that its map forbids, and values that it allows, at
the ends of their ranges. -/
theorem witness_ControlRegisterWrites_values :
    (32 ≤ 32 ∧ ¬ (1 ≤ 30 % 8 ∧ 30 % 8 ≤ 5) ∧ ¬ 32 ≤ 29 ∧ 1 ≤ 29 % 8 ∧ 29 % 8 ≤ 5) ∧
    (2 ^ 33 / 2 ^ 33 ≠ 0 ∧ ¬ (2 ^ 32 % 8 ≠ 0) ∧ (2 ^ 32 + 7) / 2 ^ 33 = 0 ∧ (2 ^ 32 + 7) / 2 ^ 11 % 2 ^ 21 = 0 ∧ 7 % 8 ≠ 0) ∧
    (64 ≤ 64 ∧ ¬ 64 ≤ 63) ∧ (8 / 2 ^ 3 % 2 ^ 59 ≠ 0 ∧ 2 % 4 = 2 ∧ 5 / 2 ^ 3 % 2 ^ 59 = 0 ∧ 5 % 4 < 2) ∧
    (2 ^ 20 ≤ 2 ^ 20 ∧ (0x301#64).getLsbD 15 = false ∧ ¬ (1 ≤ 0x501 / 2 ^ 8 % 8 ∧ 0x501 / 2 ^ 8 % 8 ≤ 4) ∧
      (0x8401 / 2 ^ 11 % 2 ^ 4 = 0 ∧ 0x8401 / 2 ^ 6 % 2 ^ 2 = 0 ∧ 0x8401 / 2 ^ 8 % 8 = 4 ∧ 0x8401 % 2 ^ 6 ≠ 0 ∧
        (0x8401#64).getLsbD 15 = true)) ∧
    (2 ^ 16 ≤ 2 ^ 16 ∧ ¬ 1000 ≤ 999 ∧ ¬ 5201 ≤ 5200) ∧
    (2 ^ 33 / 2 ^ 33 % 2 ^ 30 ≠ 0 ∧ 2 / 2 % 2 ^ 31 ≠ 0 ∧ (2 ^ 63 + 2 ^ 32 + 1) / 2 ^ 33 % 2 ^ 30 = 0 ∧ (2 ^ 32 + 1) / 2 % 2 ^ 31 = 0) ∧
    ((0x40#64).getLsbD 6 = true ∧ 4 / 4 % 4 ≠ 0 ∧ (0xB1#64).getLsbD 6 = false ∧ 0xB1 / 4 % 4 = 0) ∧
    (1 % 4096 ≠ 0 ∧ isHbm (2 ^ 51) = false ∧ isHbm 0x10000 = true ∧ isHbm (0x10000 + 4095) = true) ∧
    (2 ^ 5 / 2 ^ 5 % 8 ≠ 0 ∧ 25 % 2 ^ 5 = 25 ∧ 2 ^ 8 / 2 ^ 8 % 16 ≠ 0 ∧ (0x1000 + 24) / 2 ^ 8 % 16 = 0 ∧ (0x1000 + 24) / 2 ^ 5 % 8 = 0) ∧
    (isHost (2 ^ 51) = true ∧ isHbm 64 = true ∧ (2 ^ 51 + 64) % 64 = 0) ∧
    (2 ^ 9 ≤ 2 ^ 9 ∧ ¬ (6 ≤ 5 % 2 ^ 5) ∧ ¬ (21 % 2 ^ 5 ≤ 20) ∧ 0x114 / 2 ^ 5 % 8 = 0 ∧ 0x114 % 2 ^ 5 = 20) := by decide +kernel

/-- The same of the registers that are only read. -/
theorem witness_ControlRegisterWrites_ignored :
    (∀ w ∈ [10, 3, 6, 4, 2], (2 : Nat) ^ w ≤ 2 ^ w ∧ ¬ 2 ^ w ≤ 2 ^ w - 1) ∧
    (2 ^ 48 / 2 ^ 48 % 2 ^ 8 ≠ 0 ∧ (2 ^ 56 + 2 ^ 47) / 2 ^ 48 % 2 ^ 8 = 0 ∧ 2 ^ 48 / 2 ^ 48 % 2 ^ 13 ≠ 0 ∧ 2 ^ 61 / 2 ^ 48 % 2 ^ 13 = 0 ∧
      2 ^ 40 / 2 ^ 40 % 2 ^ 23 ≠ 0 ∧ (2 ^ 63 + 2 ^ 39) / 2 ^ 40 % 2 ^ 23 = 0 ∧ 2 ^ 16 / 2 ^ 16 % 2 ^ 16 ≠ 0 ∧
      ¬ (2 ^ 44 ≤ 2 ^ 43 + 1 ∨ (2 ^ 43 + 1) / 2 ^ 16 % 2 ^ 16 ≠ 0)) := by decide

/-- A store of the thread in the latest-only queue of its core. -/
def queuedStore (cell : Nat) (val : Word) (num : Nat) (sent : Option Nat) : LoStore :=
  { cell, va := word cell, val, num, md := true, key := none, thread := base.uid, slot := 0, queued := 0, sent, pc := 0#64 }

theorem witness_FencesAndStatus :
    base.Ready Mods.base 0 {} ∧ base.Ready Mods.base 0 { dst := [3#5] } ∧
    (reg base 1 31#64).Ready Mods.base 0 { src := [1#5] } ∧
    (base.fenceReady base.uid = true ∧ base.dividing base.uid = false ∧ base.markersOut base.uid = false ∧
      ((reg base 1 31#64).gpr 1#5).toNat < 32) ∧
    ((dividing false).dividing (dividing false).uid = true) ∧
    (let s := base.modCore 0 (fun c => { c with loq := [queuedStore 0 0#64 1 none] })
     s.markersOut s.uid = true ∧ s.fenceReady s.uid = false) ∧ 32 ≤ (32#64).toNat ∧ base.mayFault :=
  ⟨ready_of _ _ _ _ (by decide +kernel), ready_of _ _ _ _ (by decide +kernel), ready_of _ _ _ _ (by decide +kernel),
    by decide +kernel, by decide +kernel, by decide +kernel, by decide, base_mayFault⟩

/-- The bytes of a dword at a storage address. -/
def at' (s : State) (a : Nat) (w : Word) : State := s.poke a (toBytes 8 w.toNat)
/-- A record of function 0 under the name 5. -/
def rec5 (stage : Stage) : Record :=
  { queue := 0, src := 0, kind := 4, die := 0, body := [], holder := .thread base.uid, awaits := true, stage, page := 0, level := 2 }
def recorded (stage : Stage) : State := { base with records := [(5, rec5 stage)] }

theorem witness_RecordsAndAnswers :
    base.Ready Mods.base 1 {} ∧ base.releaseReady base.uid = true ∧ base.pkg.hostHeld = [] ∧
    (recorded (.written 0)).recordSeq base.cur.vfsel base.cur.ansrec = some 5 ∧
    base.recordSeq base.cur.vfsel base.cur.ansrec = none ∧ (0#64).toNat % 4 < 2 ∧ (1#64).toNat % 4 < 2 ∧ 2 ≤ (2#64).toNat % 4 :=
  ⟨ready_of _ _ _ _ (by decide +kernel), by decide +kernel⟩
theorem witness_RecordsAndAnswers_answer :
    let s := { recorded (.answered 0) with msgs := [(9, .reply 5 0 true 7#64)] }
    s.msgs.find? 9 = some (.reply 5 0 true 7#64) ∧ s.records.find? 5 = some (rec5 (.answered 0)) ∧
    (s.threadAt base.uid).ended = none ∧ s.heldAway 5 = false ∧ ∀ e ∈ s.reqs, e.2.phase ≠ .faulted 5 := by decide +kernel
theorem witness_RecordsAndAnswers_claim :
    let s := (recorded .unclaimed).modFunc 0 (fun f => { f with fqctl := 0x106#64, notify := 8#64, fqtail := 63#64 })
    s.records.find? 5 = some (rec5 .unclaimed) ∧ (s.funcAt 0).fqOn = true ∧
    ((s.funcAt 0).fqtail - (s.funcAt 0).fqhead).toNat ≠ (s.funcAt 0).fqSize ∧ s.bad = [] ∧ (s.funcAt 0).notify ≠ 0#64 ∧
    inTier2 ((s.funcAt 0).fqbase.toNat + 64 * ((s.funcAt 0).fqtail.toNat % (s.funcAt 0).fqSize)) = false ∧ s.reqs = [] ∧
    (∀ e ∈ s.records, ¬ e.1 < 5) ∧
    ((recorded .unclaimed).funcAt 0).notify = 0#64 ∧ ((recorded .unclaimed).funcAt 0).fqOn = false ∧
    (let e := { rec5 .unclaimed with place := 1 }
     e.waiting = true ∧ e.precedes { rec5 .unclaimed with clock := [1], place := 2 } = true) ∧
    (let t := s.modFunc 0 (fun f => { f with fqtail := 64#64 })
     ((t.funcAt 0).fqtail - (t.funcAt 0).fqhead).toNat = (t.funcAt 0).fqSize) := by decide +kernel
/-- A page at 0x1000 that is not present, its bytes at 0x20000, and a stack of one frame. -/
def paged : State :=
  at' (at' (at' (at' (at' ({ base with records := [(5, { rec5 .service with holder := .none, page := 0x1000, level := 0 })] }.modFunc 0
    (fun f => { f with ctxroot := 0x10000#64, frames := 0x30000#64 }))
    0x10000 0x10001#64) 0x10008 0x20202#64) 0x30000 1#64) 0x30008 0x31000#64) 0x31000 0x40000#64
theorem witness_RecordsAndAnswers_service :
    (2 ≤ (rec5 .service).level) ∧ paged.leafEntry 0 0x1000 0 = some 0x10008 ∧
    (paged.takeFrame 0 0).map Prod.fst = some 0x40000 ∧
    (let e := (paged.dwordAt 0x10008).toNat
     let src := e / 2 ^ 12 % 2 ^ 40 * 4096
     e.testBit 0 = false ∧ e.testBit 1 = true ∧ e.testBit 9 = true ∧ e.testBit 7 = false ∧ e.testBit 6 = false ∧
     paged.pagePopulated src 4096 = true ∧ paged.poisoned src 4096 = false) ∧ paged.memWf ∧
    (0x40000 < 2 ^ 52 ∧ (0x10008 + 8 ≤ 0x40000 ∨ 0x40000 + 4096 ≤ 0x10008)) ∧
    (base.leafEntry 0 0x1000 0 = none) := by
  refine ⟨by decide, by decide +kernel, by decide +kernel, by decide +kernel, by unfold State.memWf; decide +kernel, by decide +kernel⟩

theorem witness_ProtectionRegisters :
    (reg base 1 0#64).Ready Mods.base 2 { src := [1#5] } ∧ base.releaseReady base.uid = true ∧
    (let w := (0x1FFFFFFFFFFF0BF#64).toNat
     w < 2 ^ 57 ∧ w / 2 ^ 8 % 16 = 0 ∧ w / 2 ^ 6 % 4 ≠ 3) ∧ (127#64).toNat ≤ 127 ∧ 127 < (128#64).toNat ∧
    (let w := (0x07F0000000000000#64).toNat
     w / 2 ^ 59 % 8 = 0 ∧ w % 2 ^ 7 = 0 ∧ isHbm (w / 2 ^ 7 % 2 ^ 45 * 128) = true) ∧ base.mayFault ∧
    (base.modPkg (fun p => { p with keys := [(127, 0#256)] })).pkg.keys.find? 127 ≠ none ∧ base.pkg.keys.find? 127 = none :=
  ⟨ready_of _ _ _ _ (by decide +kernel), by decide +kernel, by decide, by decide, by decide, by decide +kernel, base_mayFault,
    by decide +kernel⟩
/-- The words of function 63 for the last key slot and for core 0, which is free and then runs a thread. -/
theorem witness_AssignmentDecided :
    (reg base 1 0x00FF00000000007F#64).Ready Mods.base 2 { src := [1#5] } ∧
    (let w := (0x00FF00000000007F#64).toNat
     w / 2 ^ 56 % 64 = 0 ∧ w / 2 ^ 20 % 2 ^ 28 = 0 ∧ assignTarget w = some (resKey 127) ∧ base.scrubHolds (resKey 127) = false ∧
       (base.resAt (resKey 127)).owner = none) ∧
    (let w := (0x00FD000000000000#64).toNat
     w / 2 ^ 56 % 64 = 0 ∧ w / 2 ^ 20 % 2 ^ 28 = 0 ∧ assignTarget w = some (resCore 0) ∧ resCore 0 < 2 ^ 20 ∧
       base.coreBusy 0 = true ∧ State.reset.coreBusy 0 = false) ∧
    (let s := base.modPkg (fun p => { p with res := [(resCore 0, ⟨some 1, true⟩), (resCore 1, ⟨some 1, false⟩), (resCore 2, ⟨some 63, true⟩)] })
     (s.resAt (resCore 0)).owner = some 1 ∧ (s.resAt (resCore 1)).clean = false ∧ (s.resAt (resCore 2)).owner = some 63) :=
  ⟨ready_of _ _ _ _ (by decide +kernel), by decide +kernel⟩
/-- The three outcomes of a KEYLOAD: the slot is not the function's, the blob does not decrypt, or it does. -/
theorem witness_ProtectionRegisters_keyload :
    let s := (on (fun t => { t with vfsel := 1 })).modPkg (fun p => { p with res := [(resKey 127, ⟨some 1, true⟩)] })
    s.cur.vfsel ≠ 0 ∧ ((s.resAt (resKey 127)).owner = some s.cur.vfsel ∧ s.pkg.keys.find? 127 = none) ∧
    ¬ (s.resAt (resKey 126)).owner = some s.cur.vfsel ∧
    (Config.sm2Decrypt (s.peek 0 128) = none ∨ ∃ k1 k2, Config.sm2Decrypt (s.peek 0 128) = some (k1, k2)) := by
  refine ⟨by decide +kernel, by decide +kernel, by decide +kernel, ?_⟩
  rcases h : Config.sm2Decrypt _ with _ | ⟨k1, k2⟩
  · exact .inl rfl
  · exact .inr ⟨k1, k2, rfl⟩

/-- What `State.reach` answers, as a check. -/
def okReach (r : Reach) (q : State → Place → Bool) : Bool :=
  match r with
  | .ok t p => q t p
  | _ => false
theorem of_okReach (r : Reach) (q : State → Place → Bool) (h : okReach r q = true) : ∃ t p, r = .ok t p ∧ q t p = true := by
  cases r with
  | ok t p => exact ⟨t, p, rfl, h⟩
  | miss _ _ => simp [okReach] at h
  | fault _ _ => simp [okReach] at h
/-- `State.Reaches`, as a check, with one more on the state after it and the place. -/
def reachesB (s : State) (rel : Bool) (acc : Acc) (size : Nat) (ea : Word) (n : Nat) (q : State → Place → Bool) : Bool :=
  if s.acquiring s.uid || (rel && !s.releaseReady s.uid) || (s.famAt s.cur.fam).level == 2 then false
  else okReach (s.reach s.uid s.myCore s.cur.vf acc size ea) (fun s1 p => s1.resvFree s1.me n && q s1 p)
theorem reaches_of (s : State) (rel : Bool) (acc : Acc) (size : Nat) (ea : Word) (n : Nat) (q : State → Place → Bool)
    (h : reachesB s rel acc size ea n q = true) : ∃ s1 p, s.Reaches rel acc size ea n s1 p ∧ q s1 p = true := by
  unfold reachesB at h
  split at h
  · exact absurd h (by decide)
  next hc =>
  have ⟨t, p, e, hq⟩ := of_okReach _ _ h
  have ⟨free, more⟩ := (Bool.and_eq_true _ _).mp hq
  refine ⟨t, p, { idle := ?_, release := fun hr => ?_, place := e, determ := .inl fun l => ?_, free }, more⟩
  · cases a : s.acquiring s.uid <;> simp_all
  · cases a : s.releaseReady s.uid <;> simp_all
  · simp_all

/-- A scrub descriptor of one region, core 0's local store, stands there. -/
def scrubbing : State :=
  at' (at' (at' (reg base 1 (word localBase)) (localStore 0) 1#64) (localStore 0 + 8) 1#64) (localStore 0 + 32) 1#64
theorem witness_ProtectionRegisters_scrb :
    scrubbing.Ready Mods.base 1 { src := [1#5] } ∧ (scrubbing.famAt scrubbing.cur.fam).level ≠ 2 ∧
    ∃ s1 p, scrubbing.reach scrubbing.uid scrubbing.myCore scrubbing.cur.vf .load 64 (scrubbing.gpr 1#5) = .ok s1 p ∧
      (s1.pkg.scrub.isNone && (match s1.descRead s1.myCore s1.cur.vf (s1.famAt s1.cur.fam).level localBase 32 with
        | .ok hdr =>
          let h (i : Nat) : Nat := ofBytes ((hdr.drop (8 * i)).take 8)
          hdr.length == 32 && h 2 == 0 && h 0 == 1 && h 1 == 1 && h 3 == 0
        | .error _ => false) && (match s1.scrubEntries s1.myCore s1.cur.vf (s1.famAt s1.cur.fam).level localBase 1 0 with
        | .ok rs => (s1.scrubCheck 1 0 rs).1 == 1
        | .error _ => false)) = true :=
  ⟨ready_of _ _ _ _ (by decide +kernel), by decide +kernel, of_okReach _ _ (by decide +kernel)⟩

/-- A shape and a header that pass, one for each cause, at the ends of the ranges, and one with a reserved bit for each. -/
theorem witness_TileRegisterWrites :
    base.Ready Mods.base 0 { src := [1#5] } ∧ base.mayFault ∧
    ((0x17 < 0x1F ∧ 0x1F ≠ 0x1A) ∧ 256 < (0x1FF + 1) * shapeWidth 0x147FC0#64 / 8 ∧ (256 : Nat) ≤ (64 * shapeWidth 0x140FC0#64) / 8 ∧
      0x170000 / 2 ^ 16 % 2 ^ 5 = 0x17 ∧ (0x170000 / 2 ^ 6 % 2 ^ 9 + 1) % 2 = 1) ∧
    (2 ^ 21 ≤ 2 ^ 21 ∧ 2 ^ 15 / 2 ^ 15 % 2 = 1 ∧ 2 ^ 16 ≤ 2 ^ 16 ∧ 2 ^ 9 / 2 ^ 9 % 8 ≠ 0) ∧
    (0xF001 / 2 ^ 12 % 16 ≠ (0xF001 % 16) ^^^ (0xF001 / 16 % 16) ^^^ (0xF001 / 256 % 16) ^^^ 15) ∧
    (0xE001 / 2 ^ 12 % 16 = (0xE001 % 16) ^^^ (0xE001 / 16 % 16) ^^^ (0xE001 / 256 % 16) ^^^ 15 ∧ 0xE001 / 8 % 16 + 1 ≤ 0xE001 % 8) ∧
    (0x6009 / 2 ^ 12 % 16 = (0x6009 % 16) ^^^ (0x6009 / 16 % 16) ^^^ (0x6009 / 256 % 16) ^^^ 15 ∧ 0x6009 / 8 % 16 + 1 ∈ [2, 4, 8, 16]) ∧
    (2 + 1 ∉ [2, 4, 8, 16] ∧ 256 / 256 % 2 = 1) :=
  ⟨ready_of _ _ _ _ (by decide +kernel), base_mayFault, by decide +kernel⟩

/-! Memory instructions. -/

/-- The page at 0x4000 is held in core 0's micro-TLB, at 0x8000; register 1 holds its first address. -/
def mapped (lo : Bool) : State :=
  (reg base 1 0x4000#64).modCore 0 (fun c => { c with
    utlb := ⟨[(0, ⟨0, 0x4000, 4096, 0x8000, true, true, true, lo, false, 0⟩)], []⟩ })
theorem mapped_mayFault : (mapped true).mayFault :=
  { runs := by decide +kernel, alone := by decide +kernel, settled := by decide +kernel }
/-- Register 1 holds the first address of the local-store window. -/
def localAt : State := reg base 1 (word localBase)
/-- The line at 0x8000 stands in core 0's data cache. -/
def cachedLine : State := (mapped false).modCore 0 (fun c => { c with dcache := ⟨[(0, ⟨0x8000, 0x11#512⟩)], []⟩ })

theorem witness_LoadsRead :
    localAt.Ready Mods.base 0 { src := [1#5], dst := [3#5] } ∧ localAt.Ready Mods.base 0 { src := [1#5, 2#5], dst := [3#5] } ∧
    (∃ s1 p, localAt.Reaches false .load 8 (word localBase) 0 s1 p ∧ p.isLocal = true) ∧
    (∃ s1 p, cachedLine.Reaches false .load 8 0x4000#64 0 s1 p ∧
      (p.cached && !p.isLocal && ((s1.coreAt cachedLine.myCore).dcache.hit? dWays (lineOf p.addr)).isSome) = true) ∧
    (∃ s1 p, (mapped false).Reaches false .load 1 0x4FFF#64 1 s1 p ∧
      (p.cached && !p.isLocal && ((s1.coreAt (mapped false).myCore).dcache.hit? dWays (lineOf p.addr)).isNone) = true) :=
  ⟨ready_of _ _ _ _ (by decide +kernel), ready_of _ _ _ _ (by decide +kernel), reaches_of _ _ _ _ _ _ _ (by decide +kernel),
    reaches_of _ _ _ _ _ _ _ (by decide +kernel), reaches_of _ _ _ _ _ _ _ (by decide +kernel)⟩

theorem witness_StoresWrite :
    localAt.Ready Mods.base 0 { src := [1#5, 2#5] } ∧ localAt.Ready Mods.base 0 { src := [1#5, 2#5, 3#5] } ∧
    localAt.bad = [] ∧ (mapped true).mayFault ∧
    (∃ s1 p, localAt.Reaches true .store 8 (word localBase) 0 s1 p ∧ (p.isLocal && !p.lo) = true) ∧
    (∃ s1 p, (mapped false).Reaches false .store 8 0x4FF8#64 1 s1 p ∧ (!p.isLocal && !p.lo) = true) ∧
    ∃ s1 p, (mapped true).Reaches false .store 8 0x4000#64 1 s1 p ∧ p.lo = true :=
  ⟨ready_of _ _ _ _ (by decide +kernel), ready_of _ _ _ _ (by decide +kernel), by decide +kernel, mapped_mayFault,
    reaches_of _ _ _ _ _ _ _ (by decide +kernel), reaches_of _ _ _ _ _ _ _ (by decide +kernel),
    reaches_of _ _ _ _ _ _ _ (by decide +kernel)⟩

theorem witness_AddressChecks :
    base.Ready Mods.base 0 { src := [1#5, 2#5] } ∧ base.Ready Mods.base 0 { src := [1#5], dst := [2#5] } ∧
    (base.acquiring base.uid = false ∧ base.releaseReady base.uid = true) ∧ base.mayFault ∧
    2 ^ 57 ≤ ((reg base 1 0x200000000000000#64).gpr 1#5).toNat ∧
    (((reg base 1 0x1FFFFFFFFFFFFFF#64).gpr 1#5).toNat < 2 ^ 57 ∧ ((reg base 1 0x1FFFFFFFFFFFFFF#64).gpr 1#5).toNat % 2 ≠ 0) :=
  ⟨ready_of _ _ _ _ (by decide +kernel), ready_of _ _ _ _ (by decide +kernel), by decide +kernel, base_mayFault,
    by decide +kernel⟩

theorem witness_MemoryUpdatesLeave :
    (mapped false).Ready { Mods.base with len := 1#2 } 0 { src := [1#5, 2#5], dst := [3#5] } ∧
    (mapped false).Ready { Mods.base with len := 1#2 } 0 { src := [1#5, 2#5, 0#5], dst := [3#5] } ∧
    (mapped false).Ready { Mods.base with len := 1#2 } 0 { src := [1#5], vec := [1#5, 0#5], dst := [3#5] } ∧
    (∃ s1 p, (mapped false).Reaches true .both 8 0x4000#64 1 s1 p ∧ (!p.isLocal && !p.lo) = true) ∧
    (∃ s1 p, localAt.Reaches false .both 4 (word localBase) 0 s1 p ∧ (p.isLocal && !p.lo) = true) ∧
    (∃ s1 p, (mapped false).Reaches false .both 64 0x4000#64 1 s1 p ∧ (!p.isLocal && !p.lo) = true) :=
  ⟨ready_of _ _ _ _ (by decide +kernel), ready_of _ _ _ _ (by decide +kernel), ready_of _ _ _ _ (by decide +kernel),
    reaches_of _ _ _ _ _ _ _ (by decide +kernel), reaches_of _ _ _ _ _ _ _ (by decide +kernel),
    reaches_of _ _ _ _ _ _ _ (by decide +kernel)⟩

theorem witness_SynchronisationLeaves :
    (mapped true).Ready Mods.base 0 { src := [1#5, 2#5] } ∧ (mapped false).Ready Mods.base 0 { src := [1#5], dst := [3#5] } ∧
    (∃ s1 p, (mapped false).Reaches true .both 8 0x4000#64 1 s1 p ∧ (!p.isLocal && !p.lo) = true) ∧
    (∃ s1 p, localAt.Reaches false .both 8 (word localBase) 0 s1 p ∧ (p.isLocal && !p.lo) = true) ∧
    ∃ s1 p, (mapped true).Reaches false .both 8 0x4000#64 1 s1 p ∧ p.lo = true :=
  ⟨ready_of _ _ _ _ (by decide +kernel), ready_of _ _ _ _ (by decide +kernel), reaches_of _ _ _ _ _ _ _ (by decide +kernel),
    reaches_of _ _ _ _ _ _ _ (by decide +kernel), reaches_of _ _ _ _ _ _ _ (by decide +kernel)⟩

theorem witness_LatestOnlyLeaves :
    (mapped true).Ready { Mods.base with len := 1#2, rc := 4#5 } 0 { src := [1#5], dst := [3#5, 4#5] } ∧
    (mapped true).Ready { Mods.base with len := 1#2, rc := 4#5 } 0 { src := [1#5, 2#5, 4#5] } ∧
    (mapped true).mayFault ∧ ((mapped true).readOut (mapped true).me < 16 ∧
      ∀ y ∈ ((mapped true).coreAt (mapped true).myCore).loq, y.cell ≠ 0x8000) ∧
    (∃ s1 p, (mapped true).Reaches false .load 8 0x4000#64 1 s1 p ∧ (p.lo && !isLocalStore p.addr) = true) ∧
    (∃ s1 p, (mapped true).Reaches true .store 8 0x4000#64 1 s1 p ∧ (p.lo && !s1.seqClash p.addr 1) = true) ∧
    (let s := (mapped true).modCore 0 (fun c => { c with loq := [queuedStore 0x8000 0#64 0x80000001 none] })
     ∃ s1 p, s.Reaches false .store 8 0x4000#64 1 s1 p ∧ (p.lo && s1.seqClash p.addr 1) = true) :=
  ⟨ready_of _ _ _ _ (by decide +kernel), ready_of _ _ _ _ (by decide +kernel), mapped_mayFault, by decide +kernel,
    reaches_of _ _ _ _ _ _ _ (by decide +kernel), reaches_of _ _ _ _ _ _ _ (by decide +kernel),
    reaches_of _ _ _ _ _ _ _ (by decide +kernel)⟩

/-! Vector instructions. -/

theorem witness_VectorIntegerLanes :
    base.Ready Mods.base 0 { vec := [7#5, 1#5, 2#5] } ∧ base.Ready Mods.base 0 { vec := [7#5, 7#5] } ∧
    base.Ready { Mods.base with len := 1#2, rc := 7#5 } 0 { vec := [0#5, 1#5, 2#5, 7#5] } ∧ (7#5).toNat < 8 :=
  ⟨ready_of _ _ _ _ (by decide +kernel), ready_of _ _ _ _ (by decide +kernel), ready_of _ _ _ _ (by decide +kernel), by decide⟩
theorem witness_VectorCompares : base.Ready Mods.base 0 { vec := [1#5, 2#5], dst := [9#5] } :=
  ready_of _ _ _ _ (by decide +kernel)
theorem witness_VectorFloatLanes :
    base.Ready Mods.base 0 { vec := [0#5, 1#5, 2#5] } ∧ base.Ready Mods.base 0 { vec := [0#5, 1#5] } ∧
    base.Ready { Mods.base with len := 1#2, rc := 7#5 } 0 { vec := [0#5, 1#5, 2#5, 7#5] } ∧ (7#5).toNat < 8 :=
  ⟨ready_of _ _ _ _ (by decide +kernel), ready_of _ _ _ _ (by decide +kernel), ready_of _ _ _ _ (by decide +kernel), by decide⟩
theorem witness_VectorMovesAndReductions :
    base.Ready Mods.base 0 { src := [1#5, 2#5], vec := [0#5] } ∧ base.Ready Mods.base 0 { src := [2#5], vec := [0#5], dst := [3#5] } ∧
    base.Ready Mods.base 0 { src := [2#5], vec := [0#5, 1#5] } ∧ base.Ready Mods.base 0 { vec := [0#5, 1#5, 2#5] } ∧
    base.Ready { Mods.base with len := 1#2, rc := 9#5 } 0 { vec := [0#5, 1#5], dst := [9#5] } ∧
    base.Ready Mods.base 0 {} ∧ base.mySlot.vpend = [] ∧ base.Ready Mods.base 0 { vec := [0#5], dst := [3#5] } ∧
    (2 ≤ (2#2).toNat ∧ writable 3#5 = true) :=
  ⟨ready_of _ _ _ _ (by decide +kernel), ready_of _ _ _ _ (by decide +kernel), ready_of _ _ _ _ (by decide +kernel),
    ready_of _ _ _ _ (by decide +kernel), ready_of _ _ _ _ (by decide +kernel), ready_of _ _ _ _ (by decide +kernel),
    by decide +kernel, ready_of _ _ _ _ (by decide +kernel), by decide⟩

/-- `State.lanesReach`, as a function. -/
def lanesB (acc : Acc) : State → List LaneRef → Option (State × List LanePlace)
  | s, [] => some (s, [])
  | s, l :: ls =>
    match s.reach s.uid s.myCore s.cur.vf acc l.w l.va with
    | .ok u p => if acc.writes && p.lo then none else (lanesB acc u ls).map (fun x => (x.1, ⟨l, p⟩ :: x.2))
    | _ => none
theorem lanes_of (acc : Acc) (ls : List LaneRef) (s : State) (q : State → List LanePlace → Bool)
    (h : (match lanesB acc s ls with
      | some x => q x.1 x.2
      | none => false) = true) : ∃ s1 ps, s.lanesReach acc ls s1 ps ∧ q s1 ps = true := by
  suffices H : ∀ (ls : List LaneRef) (s t : State) (ps : List LanePlace), lanesB acc s ls = some (t, ps) →
      s.lanesReach acc ls t ps by
    rcases e : lanesB acc s ls with _ | ⟨t, ps⟩
    · simp [e] at h
    · exact ⟨t, ps, H _ _ _ _ e, by simpa [e] using h⟩
  intro ls
  induction ls with
  | nil => intro s t ps e; simp only [lanesB, Option.some.injEq, Prod.mk.injEq] at e; exact ⟨e.1.symm, e.2.symm⟩
  | cons l ls ih =>
    intro s t ps e
    unfold lanesB at e
    split at e
    · rename_i u p hr
      split at e
      · cases e
      · rename_i hlo
        obtain ⟨x, hx, hx'⟩ := Option.map_eq_some_iff.mp e
        obtain ⟨h1, h2⟩ := Prod.mk.inj hx'
        subst h1
        refine ⟨u, p, x.2, hr, fun hw => ?_, ih u x.1 x.2 hx, h2.symm⟩
        by_contra hne
        exact hlo (by simp [hw, Bool.not_eq_false _ ▸ hne])
    · cases e

theorem witness_VectorMemory :
    let strides (s : State) := activeLanes true none (fun i => some (s.gpr 1#5 + s.gpr 2#5 * BitVec.ofNat 64 i))
    let far (s : State) (acc : Acc) : Prop := ∃ s1 ps, s.lanesReach acc (strides s) s1 ps ∧
      (s1.resvFree s1.me (lineList ps).length && ps.all (fun x => !x.p.isLocal && (s1.lineNow x.p).isNone) &&
        ps.any (fun x => ps.any (fun z => x.ref.lane < z.ref.lane))) = true
    let near (s : State) (acc : Acc) : Prop := ∃ s1 ps, s.lanesReach acc (strides s) s1 ps ∧
      ps.all (fun x => x.p.isLocal && x.p.addr % 64 + x.ref.w ≤ 64) = true
    let s := reg (mapped false) 2 64#64
    let t := reg localAt 2 0#64
    (s.acquiring s.uid = false ∧ (s.famAt s.cur.fam).level ≠ 2 ∧ t.bad = []) ∧
    s.Ready { Mods.base with len := 1#2 } 0 { src := 1#5 :: 2#5 :: [27#5], vec := [0#5] } ∧
    s.Ready { Mods.base with len := 1#2 } 0 { src := 1#5 :: [], vec := [0#5, 1#5] } ∧
    far s .load ∧ far s .store ∧ near t .load ∧ near t .store :=
  ⟨by decide +kernel, ready_of _ _ _ _ (by decide +kernel), ready_of _ _ _ _ (by decide +kernel),
    lanes_of _ _ _ _ (by decide +kernel), lanes_of _ _ _ _ (by decide +kernel), lanes_of _ _ _ _ (by decide +kernel),
    lanes_of _ _ _ _ (by decide +kernel)⟩
theorem witness_VectorMemory_contig :
    (∃ s1 p, (mapped false).reach (mapped false).uid (mapped false).myCore 0 .store 64 0x4000#64 = .ok s1 p ∧
      (!p.lo && !p.isLocal && s1.resvFree s1.me 1) = true) ∧
    (∃ s1 p, localAt.reach localAt.uid localAt.myCore 0 .load 64 (word localBase) = .ok s1 p ∧ p.isLocal = true) :=
  ⟨of_okReach _ _ (by decide +kernel), of_okReach _ _ (by decide +kernel)⟩

/-- A request of the executing thread for the eight bytes at 0x8000. -/
def ask (k : ReqKind) (p : Phase) : Req :=
  { Req.blank with kind := k, phase := p, thread := some base.uid, addr := 0x8000, va := 0x8000#64, size := 8, rd := 3, rc := 4 }
/-- The request stands under the name 9. -/
def asking (r : Req) : State := { base with reqs := [(9, r)], nextId := 20 }

/-! Control and families. -/

theorem witness_BranchesAndJumps :
    base.Ready Mods.base 0 {} ∧ (reg base 1 0x1004#64).Ready Mods.base 0 { src := [1#5] } ∧
    (((reg base 1 0x1004#64).gpr 1#5).toNat % 4 = 0 ∧ (reg base 1 0x1004#64).cur.pc.toNat < ((reg base 1 0x1004#64).gpr 1#5).toNat) ∧
    ((reg base 1 0x1000#64).gpr 1#5).toNat ≤ (reg base 1 0x1000#64).cur.pc.toNat ∧ base.mayFault ∧
    base.cur.getPred 0#3 = true ∧ base.cur.getPred 7#3 = false :=
  ⟨ready_of _ _ _ _ (by decide +kernel), ready_of _ _ _ _ (by decide +kernel), by decide +kernel, by decide +kernel,
    base_mayFault, by decide +kernel⟩

def aFrame : Frame := ⟨[], 0#64, 0x2000#64, 0#8⟩
/-- `n` frames lie in the slot, of a thread `d` levels deep; function 0's slot area lies in its vault granule. -/
def deep (n d : Nat) : State :=
  (((on (fun t => { t with depth := d })).modSlot 0 (fun q => { q with frames := List.replicate n aFrame })).modFunc 0
    (fun f => { f with slotarea := word vaultBase })).modPkg (fun p => { p with res := [(resGranule 0 0 0, ⟨some 0, true⟩)] })
/-- A frame's write or read of the slot is outstanding. -/
def framing (s : State) (k : ReqKind) : State := { s with reqs := [(9, ask k .replied)], nextId := 20 }
theorem witness_CallsAndReturns :
    (deep 7 7).Ready Mods.base 0 {} ∧ (deep 7 7).Ready Mods.base 0 { src := [1#5] } ∧ base.mayFault ∧
    (let s := deep 7 511
     (0x2000#64).toNat % 4 = 0 ∧ s.slotDepth s.me < 512 ∧ s.loadsLanded s.uid = true ∧ s.dividing s.uid = false ∧
       s.mySlot.frames.length < 8 ∧ s.cur.depth ≠ 0 ∧ s.mySlot.frames = aFrame :: List.replicate 6 aFrame) ∧
    ((0x2001#64).toNat % 4 ≠ 0 ∧ (deep 0 512).slotDepth 0 = 512) ∧ 0#5 ∉ consumed Mods.base 1#5 27#5 ∧ 0#5 ∉ [29#5, 30#5, 31#5] ∧
    ((asking (ask .load .home)).loadsLanded base.uid = false ∧ (dividing false).loadsLanded base.uid = true ∧
      (dividing false).dividing base.uid = true ∧ base.cur.depth = 0 ∧ base.cur.ended = none) ∧
    (8 ≤ (deep 8 8).mySlot.frames.length ∧ (framing (deep 8 8) .frameWrite).framesOut 0 = true ∧ (deep 8 8).framesOut 0 = false ∧
      (deep 8 8).resvFree 0 1 = true ∧
      (((deep 8 8).tookResv.modSlot (deep 8 8).me (fun x => { x with noSpill := false })).sendFrame (deep 8 8).me
        (some (deep 8 8).uid)).toOption.isSome = true) ∧
    ((deep 0 7).mySlot.frames = [] ∧ (framing (deep 0 7) .frameRead).framesOut 0 = true ∧ (deep 0 7).framesOut 0 = false ∧
      (deep 0 7).tookResv.askFrame.toOption.isSome = true ∧
      ((deep 0 7).areaReach (deep 0 7).myCore (deep 0 7).cur.vf ((deep 0 7).slotLevel (deep 0 7).me) .load
        ((deep 0 7).spillPlace (deep 0 7).cur.vf (deep 0 7).me ((deep 0 7).slotDepth (deep 0 7).me))).toOption.isSome = true) :=
  ⟨ready_of _ _ _ _ (by decide +kernel), ready_of _ _ _ _ (by decide +kernel), base_mayFault, by decide +kernel⟩
/-- A reply with a good frame for its place, and one whose check fails. -/
theorem witness_WindowInstructions :
    base.Ready Mods.base 0 {} ∧ base.Ready Mods.base 0 { dst := [3#5] } ∧ base.slotStoresAcked base.me = true ∧
    base.seenAcked base.uid = true ∧ aFrame.ret.toNat % 4 = 0 ∧
    (let s := deep 3 9
     s.mySlot.frames[3 - 0 - 1]? = some aFrame ∧ s.mySlot.frames ≠ [] ∧ s.framesOut s.me = false ∧
       s.resvFree s.me s.mySlot.frames.length = true ∧ (framing s .frameWrite).framesOut s.me = true ∧
       (s.areaReach (coreOfSlot 0) (s.slotVf 0) (s.slotLevel 0) .store (s.spillPlace (s.slotVf 0) 0 (s.slotDepth 0 + 1 - 3))).toOption.isSome
         = true ∧
       (s.tookResv.sendFrames s.me (some s.uid) s.mySlot.frames.length).toOption.isSome = true) ∧
    (let r := ask .frameWrite .replied
     let s := framing (deep 3 9) .frameWrite
     s.reqs.find? 9 = some r ∧ r.phase = .replied ∧ s.timed r = false ∧ r.acq = false ∧ r.err = none ∧ r.engine = none ∧
       ∀ e ∈ s.reqs, e.1 ≠ 9 → e.2.slot = r.slot → e.2.kind.isFrame = false) ∧
    (let r := ask .frameRead .replied
     r.thread = some base.uid ∧ (framing base .frameRead).gone base.uid = false ∧
       frameGood (aFrame.sealed 0x8000 0#64) 0x8000 0#64 = true ∧ frameGood r.data r.va.toNat 0#64 = false ∧
       (framing base .frameRead).earlierDone base.uid 9 9 = true ∧
       ({ base with reqs := [(5, ask .store .home), (9, r)] } : State).earlierDone base.uid 9 9 = false) :=
  ⟨ready_of _ _ _ _ (by decide +kernel), ready_of _ _ _ _ (by decide +kernel), by decide +kernel⟩

/-- Function 0 has an arena of four entries at 0x100000. -/
def arena (s : State) : State := s.modFunc 0 (fun f => { f with arena := 0x100002#64 })
/-- The executing thread asks for the family of `lo`, `hi` and `step` (registers 1, 2 and 4). -/
def asks (lo hi step : Word) : State := reg (reg (reg (arena base) 1 lo) 2 hi) 4 step
def makes (w2 : BitVec 32) : Mods := { Mods.base with len := 3#2, rc := 4#5, w2 := w2, lit := 0x2000#64 }
theorem witness_FamiliesMade :
    (asks 0#64 3#64 1#64).Ready (makes 0x7FF80#32) 0
      { src := [1#5, 2#5, 4#5] ++ (usedLinks (mkLinks 0x7FF80#32)).map (fun l => BitVec.ofNat 5 l.2) ++ mkGlobals 0x7FF80#32,
        dst := [3#5] } ∧
    ((asks 0#64 3#64 1#64).Ready (makes 0x107FF8C#32) 0
      { src := [1#5, 2#5, 4#5] ++ (usedLinks (mkLinks 0x107FF8C#32)).map (fun l => BitVec.ofNat 5 l.2) ++ mkGlobals 0x107FF8C#32,
        dst := [] }) ∧
    ((asks 0#64 3#64 0#64).gpr 4#5).toInt ≤ 0 ∧ (0x2001#64).toNat % 4 ≠ 0 ∧ ((3#64).toInt ≤ (3#64).toInt) ∧
    (-1#64).toInt < 0 ∧ (2 : Int) ^ 40 - 1 < 0 + (2 ^ 40 + 1 - 1) * 1 ∧
    ((asks 0#64 3#64 1#64).freeEntry 0 = some 0 ∧ 0 / 2 ^ 24 = (asks 0#64 3#64 1#64).cur.vf ∧
      (asks 0#64 3#64 1#64).uid < (asks 0#64 3#64 1#64).nextId) ∧
    base.freeEntry base.cur.vf = none ∧ base.mayFault :=
  ⟨ready_of _ _ _ _ (by decide +kernel), ready_of _ _ _ _ (by decide +kernel), by decide +kernel, by decide, by decide, by decide,
    by decide, by decide +kernel, by decide +kernel, base_mayFault⟩

/-- A family of two members runs in the arena, under the number 1 and generation 3. -/
def running : State :=
  (arena base).modFam 1 (fun f => { f with alloc := true, gen := 3, count := 2, step := 1, body := 0x2000#64, progress := 1 })
/-- An engine operation's handle. -/
def copyHandle : Word := engineHandle 0 0 0 1
/-- Entry 0 of cluster 0's copy table, of the executing thread. -/
def aCopy : CopyOp where
  h := copyHandle
  op := 0
  vf := 0
  queue := 0
  level := 0
  core := 0
  thread := base.uid
  issuer := 0#64
  dst := word (localBase + 0x1000)
  src := word localBase
  size := 0x1000
  vreg := 8
  idx := 0#512
  fmt := 0
  mode := 1
  daz := false
  ftz := false
  seed := 0
  forked := false
  before := 0
  chunks := []
  cursor := 0
  fault := none
  record := none
  stop := 0
  rd := 3
  waiters := []
  group := none
  packet := none
def copying (c : CopyOp) : State := base.modCluster 0 (fun x => { x with copies := [(0, c)] })
theorem witness_NamedOperations :
    (fe base 4 (.pending (.family 0x100103#64))).named 4#5 = .ok (.family true 0x100103#64) ∧
    (fe base 4 (.pending (.engine copyHandle))).named 4#5 = .ok (.engine true copyHandle) ∧
    (fe base 4 (.pending .divide)).named 4#5 = .ok .waiting ∧ base.named 4#5 = .ok .nothing ∧
    (reg running 4 0x100103#64).named 4#5 = .ok (.family false 0x100103#64) ∧
    (reg (copying aCopy) 4 copyHandle).named 4#5 = .ok (.engine false copyHandle) := by decide +kernel
theorem witness_NamedOperations_handles :
    let s := reg running 4 0x100103#64
    (s.cur.fe 4 = .full ∧ s.gpr 4#5 ≠ 0#64 ∧ (s.gpr 4#5).toNat < 2 ^ 57 ∧ s.inArena s.cur.vf 0x100100 = true ∧
      s.handleOf 1 = 0x100103#64 ∧ s.familyPending s.cur.vf 0x100103#64 = true ∧ s.cycleFamily s.uid 1 = none) ∧
    (s.modCur (fun t => { t with noHelp := true })).mayHelp base.uid 1 = false ∧
    (s.modFam 1 (fun f => { f with fixed := some 0#64 })).familyPending s.cur.vf 0x100103#64 = false ∧
    copyHandle.getLsbD 63 = true ∧ (copying aCopy).enginePending copyHandle = true ∧ base.enginePending copyHandle = false ∧
    base.cur.ownWait = false := by decide +kernel
/-- A register that is empty or names nothing; one that waits for its own operation's fill or for a division; an `hwait`
that has waited for its own register; and a family with a member that a waiter may help with. -/
theorem witness_NamedOperations_more :
    ((fe base 4 .empty).named 4#5 = .error (fLINK, 1) ∧ (reg running 4 5#64).named 4#5 = .error (fFAMILY, 7) ∧
      (5#64).getLsbD 63 = false ∧ base.cur.ownWait = false ∧ (on (fun t => { t with ownWait := true })).cur.ownWait = true) ∧
    (let s := (fe running 4 (.pending (.family 0x100103#64))).modCur (fun t => { t with noHelp := true })
     s.named 4#5 = .ok (.family true 0x100103#64) ∧ s.cycleFamily s.uid 1 = none ∧ s.mayHelp s.uid 1 = false) ∧
    (let s := (reg running 4 0x100103#64).modPkg (fun p => { p with res := [(resCore 0, ⟨some 0, true⟩)] })
     s.named 4#5 = .ok (.family false 0x100103#64) ∧ s.familyPending s.cur.vf 0x100103#64 = true ∧ s.cycleFamily s.uid 1 = none ∧
       s.mayHelp s.uid 1 = true ∧ s.hasTask 1 = true ∧ s.cur.loc = .slot s.me ∧
       (s.modFam 1 (fun f => { f with progress := 2 })).hasTask 1 = false) ∧
    (∀ g, Fill.divide ≠ .family g) ∧ (∀ g, Fill.divide ≠ .engine g) ∧ (∀ id ea, Fill.divide ≠ .ldfe id ea) := by
  refine ⟨by decide +kernel, by decide +kernel, by decide +kernel, ?_, ?_, ?_⟩
  all_goals intros; simp
theorem witness_NamedOperations_ready :
    base.mayFault ∧ base.Ready Mods.base 0 {} ∧ base.Ready Mods.base 0 { dst := [3#5] } ∧ base.Ready Mods.base 0 { src := [4#5] } :=
  ⟨base_mayFault, ready_of _ _ _ _ (by decide +kernel), ready_of _ _ _ _ (by decide +kernel), ready_of _ _ _ _ (by decide +kernel)⟩

/-- A thread waits in core 0's run queue. -/
def queued : State :=
  ((base.putThread 77 { Thread.blank with loc := .runq 0 }).modCore 0 (fun c => { c with runq := [77] })).modPkg (fun p =>
    { p with res := [(resCore 0, ⟨some 0, true⟩)] })
theorem witness_ThreadsEndAndMove :
    base.Ready Mods.base 0 { src := [1#5] } ∧ localAt.Ready Mods.base 0 { src := [1#5] } ∧ queued.Ready Mods.base 0 {} ∧
    (on (fun t => { t with vpin := true })).cur.pinned = true ∧ base.mayFault ∧ base.cur.ended = none ∧
    (localAt.cur.pinned = false ∧ (localAt.famAt localAt.cur.fam).level ≠ 2 ∧ localAt.cur.loc = .slot localAt.me ∧
      localAt.mySlot.chain = []) ∧
    (∃ s1 p, localAt.reach localAt.uid localAt.myCore localAt.cur.vf .load 1 (localAt.gpr 1#5) = .ok s1 p ∧
      (s1.moveWait localAt.uid == .none) = true) ∧
    (base.nextRecord base.myCore base.me = none) ∧
    (queued.cur.pinned = false ∧ queued.cur.serial = false ∧ queued.mySlot.chain = [] ∧ queued.cur.loc = .slot queued.me ∧
      queued.nextRecord queued.myCore queued.me = some 77 ∧ 77 ≠ queued.uid ∧ queued.moveWait queued.uid = .none) :=
  ⟨ready_of _ _ _ _ (by decide +kernel), ready_of _ _ _ _ (by decide +kernel), ready_of _ _ _ _ (by decide +kernel),
    by decide +kernel, base_mayFault, by decide +kernel, by decide +kernel, of_okReach _ _ (by decide +kernel),
    by decide +kernel⟩

/-! Engine instructions. -/

/-- Registers 1 and 2 hold the operands of a copy within the core's local store; register 4 holds its size or descriptor. -/
def copyRegs (dst src size : Nat) : State := reg (reg (reg base 1 (word dst)) 2 (word src)) 4 (word size)
theorem witness_CopiesIssue :
    let s := copyRegs (localBase + 0x1000) localBase 0x1000
    (s.acquiring s.uid = false ∧ s.copyFree s.me = true) ∧ base.mayFault ∧
    s.Ready { Mods.base with len := 1#2, rc := 4#5, fmtA := 0x14#5 } 0 { src := [1#5, 2#5, 4#5], dst := [3#5] } ∧
    s.Ready { Mods.base with len := 1#2, w2 := 0x1000#32 } 0 { src := [1#5, 2#5], dst := [3#5] } ∧
    (0x1000 % 8 = 0 ∧ ¬ ((s.gpr 1#5).toNat < (s.gpr 2#5).toNat + 0x1000 ∧ (s.gpr 2#5).toNat < (s.gpr 1#5).toNat + 0x1000)) ∧
    (let t := copyRegs (localBase + 0xFF8) localBase 0x1000
     (t.gpr 1#5).toNat < (t.gpr 2#5).toNat + 0x1000 ∧ (t.gpr 2#5).toNat < (t.gpr 1#5).toNat + 0x1000) ∧
    4 % 8 ≠ 0 ∧ (2 ^ 40 + 8) % 8 = 0 ∧ 2 ^ 40 < 2 ^ 40 + 8 ∧ (∃ k, k ≤ 12 ∧ (4096 : Nat) = 2 ^ k) ∧ (∀ k, k ≤ 12 → (3 : Nat) ≠ 2 ^ k) :=
  ⟨by decide +kernel, base_mayFault, ready_of _ _ _ _ (by decide +kernel), ready_of _ _ _ _ (by decide +kernel),
    by decide +kernel, by decide +kernel, by decide, by decide, by decide, ⟨12, by decide⟩, by decide⟩
theorem witness_CopiesIssue_rows :
    let s := copyRegs (localBase + 0x1000) localBase 0
    let t := s.modSlot 0 (fun q => { q with vecs := [(0, BitVec.allOnes 512)] })
    s.Ready { Mods.base with len := 1#2, w2 := 8#32, rc := 0#5 } 0 { src := [1#5, 2#5], vec := [0#5], dst := [3#5] } ∧
    (let live (s : State) := (List.range 16).filter (fun l => lane 32 (s.vec 0#5) l != 2 ^ 32 - 1)
     let row (s : State) (l : Nat) : Nat := ((s.gpr 2#5).toNat + lane 32 (s.vec 0#5) l * 8) % 2 ^ 64
     let clash (s : State) : Prop := ∃ l ∈ live s, (s.gpr 1#5).toNat < row s l + 8 ∧ row s l < (s.gpr 1#5).toNat + (live s).length * 8
     ¬ clash s ∧ live s ≠ [] ∧ live t = [] ∧ clash (copyRegs (localBase + 4) localBase 0)) :=
  ⟨ready_of _ _ _ _ (by decide +kernel), by decide +kernel⟩
/-- A descriptor with a reserved bit names no group; ranges that meet. -/
theorem witness_CopiesIssue_malformed :
    (let t := at' (copyRegs (localBase + 0x1000) localBase (localBase + 0x2000)) (localStore 0 + 0x2000) 0x4000000000#64
     ∃ s1 p, t.reach t.uid t.myCore t.cur.vf .load 128 (t.gpr 4#5) = .ok s1 p ∧
      (s1.groupOfBytes (t.gpr 4#5) ((s1.readBytes p.key p.addr 128).getD [])).isNone = true) ∧
    (let t := copyRegs localBase localBase localBase
     (t.gpr 1#5).toNat < (t.gpr 2#5).toNat + 4 ∧ (t.gpr 2#5).toNat < (t.gpr 1#5).toNat + 4 ∧ 4 % 4 = 0 ∧ 5 % 4 ≠ 0) :=
  ⟨of_okReach _ _ (by decide +kernel), by decide +kernel⟩
theorem witness_CopiesIssue_collective :
    let s := copyRegs (localBase + 0x1000) (localBase + 0x2000) localBase
    let m : Mods := { Mods.base with len := 1#2, rc := 4#5, fmtA := 0x14#5, w2 := 0x1000#32 }
    s.Ready m 0 { src := [1#5, 2#5, 4#5], dst := [3#5] } ∧ (s.famAt s.cur.fam).level ≠ 2 ∧
    (s.copyOp 0x10 1#5 2#5 3#5 m.w2.toNat 8 0#512 m).cause = none ∧
    ∃ s1 p, s.reach s.uid s.myCore s.cur.vf .load 128 (s.gpr 4#5) = .ok s1 p ∧
      (s1.gathered s.myCore p.addr 128 && s1.keyReady p.key && !s1.poisoned p.addr 128 && s1.copyFree s.me &&
        (s1.groupOfBytes (s.gpr 4#5) ((s1.readBytes p.key p.addr 128).getD [])).isSome) = true :=
  ⟨ready_of _ _ _ _ (by decide +kernel), by decide +kernel, by decide +kernel, of_okReach _ _ (by decide +kernel)⟩

/-- A shape of this format, rows and columns. -/
def shaped (fmt rows cols : Nat) : Word := word (fmt * 2 ^ 16 + (cols - 1) * 2 ^ 6 + (rows - 1))
/-- Tiles 0, 1 and 2 of core 0 have these shapes, and tile 1 this sparse header. -/
def tiles (d a b h : Word) : State :=
  base.modCore 0 (fun c => { c with tshape := [(0, d), (1, a), (2, b)], tmeta := [(1, h)] })
theorem witness_JobsAdmitted :
    base.Ready Mods.base 0 { src := [1#5], dst := [3#5] } ∧ base.Ready Mods.base 0 { dst := [3#5] } ∧
    base.Ready { Mods.base with len := 1#2, rc := 4#5 } 0 { vec := fourFrom 4, dst := [3#5] } ∧
    base.Ready { Mods.base with len := 1#2, rc := 4#5 } 0 { src := [4#5], vec := fourFrom 4, dst := [3#5] } ∧
    (base.acquiring base.uid = false ∧ base.jobFree base.me = true ∧ (base.coreAt base.myCore).locksClear [7] [7] = true ∧
      base.readsVectors base.uid 4 = false) ∧ base.mayFault ∧
    (rowAlign (shaped 0x14 1 4) = 4 ∧ 2 % rowAlign (shaped 0x14 1 4) ≠ 0 ∧ 4 % rowAlign (shaped 0x14 1 4) = 0) ∧
    mmaCause .mma (shaped 0x1A 64 64) (shaped 0x15 64 4) (shaped 0x15 4 64) = none ∧
    mmaCause .mma (shaped 0x1A 64 64) (shaped 0x15 63 4) (shaped 0x15 4 64) = some 4 ∧
    mmaCause .mmaQ (shaped 0x1A 1 1) (shaped 0x17 1 32) (shaped 0x17 32 1) = none ∧
    (mmaCause .mmaSp (shaped 0x1A 1 1) (shaped 0x15 1 4) (shaped 0x15 4 1) = none ∧
      sparseCause 0#64 (shaped 0x15 1 4) = some 6) ∧
    (0x17 < shapeFmt (shaped 0x1A 1 4) ∧ shapeFmt (shaped 0x17 1 4) ≤ 0x17 ∧ fits (shaped 0x15 1 3) (optN 1) (optM 1) (optK 1) = false ∧
      fits (shaped 0x15 1 4) (optN 1) (optM 1) (optK 1) = true) ∧
    scaCause (shaped 0x14 1 1) (shaped 0x1A 1 1) = none ∧ scaCause (shaped 0x14 1 1) (shaped 0x15 1 1) = some 6 := by
  refine ⟨ready_of _ _ _ _ (by decide +kernel), ready_of _ _ _ _ (by decide +kernel), ready_of _ _ _ _ (by decide +kernel),
    ready_of _ _ _ _ (by decide +kernel), by decide +kernel, base_mayFault, by decide +kernel⟩
/-- A header that `mma.sp` takes. -/
theorem witness_JobsAdmitted_sparse :
    let a := shaped 0x15 1 4
    sparseCause (optHeader 1 a) a = none ∧ metaCause (optHeader 1 a) = none := by decide +kernel

theorem witness_FailedGuardOnlyAdvances :
    let m : Mods := { Mods.base with len := 1#2, gpred := 1#3 }
    (toRaw (.nop m)).isSome = true ∧ base.uid?.isSome = true ∧ base.guardHolds m = false := by decide +kernel

/-- At user level with the guard true; then each state of a source and of a destination. -/
theorem witness_IssueChecksInOrder :
    (let s := on (fun t => { t with vf := 1 })
     s.uid?.isSome = true ∧ s.guardHolds Mods.base = true ∧ s.cur.vf ≠ 0 ∧ s.mayFault) ∧
    (∀ k ∈ [0x100#10, 0x112#10, 0x200#10, 0x208#10], 0x100 ≤ k.toNat ∧ k.toNat ≤ 0x112 ∨ 0x200 ≤ k.toNat ∧ k.toNat ≤ 0x208) ∧
    (base.uid?.isSome = true ∧ base.guardHolds Mods.base = true ∧ (asking (ask .load .home)).settled base.uid = false) ∧
    (fe base 1 .empty).mayFault ∧ (fe base 2 .empty).mayFault ∧ (fe base 18 .full).mayFault ∧
    ((fe base 1 .empty).cur.fe 1 = .empty ∧ (fe base 1 (.pending .divide)).cur.fe 1 = .pending .divide ∧
      base.cur.fe 1 = .full ∧ (fe base 2 .empty).cur.fe 2 = .empty ∧ (fe base 2 .empty).cur.fe 1 = .full ∧
      (fe base 3 (.pending .divide)).cur.fe 3 = .pending .divide ∧ (fe base 18 .full).cur.fe 18 = .full) ∧
    (∀ h, Fill.divide ≠ .family h) ∧ (∀ id ea, Fill.divide ≠ .ldfe id ea) := by
  have free (s : State) (r : s.cur.ended = none) (a : s.uid ∉ s.mySlot.chain) (w : s.settled s.uid = true) : s.mayFault :=
    ⟨r, a, w⟩
  refine ⟨⟨by decide +kernel, by decide +kernel, by decide +kernel, ?_⟩, by decide, by decide +kernel, ?_, ?_, ?_,
    by decide +kernel, ?_, ?_⟩
  iterate 4 exact free _ (by decide +kernel) (by decide +kernel) (by decide +kernel)
  all_goals intros; simp

/-! Landings and homes. -/

def endedCur (s : State) : State := s.modCur (fun t => { t with ended := some .killed })
theorem witness_RepliesLand :
    (∀ k ∈ ([.load, .vload, .atom 0, .hacc false true, .tkget, .store, .tkadv, .lkrel, .stfe, .wait true, .tkwait] : List ReqKind),
      let r := ask k .replied
      (asking r).reqs.find? 9 = some r ∧ r.phase = .replied ∧ (asking r).timed r = false ∧ r.thread = some base.uid ∧
      r.engine = none ∧ (asking r).recordPlace base.uid = none ∧ r.err = none ∧ ((asking r).threadAt base.uid).ended = none ∧ r.rd < 10 ∧
      ((endedCur (asking r)).threadAt base.uid).ended.isSome = true) ∧
    (let r := { ask .ldfe .replied with rd := 9 }
     let s := fe (asking r) 9 (.pending (.ldfe 9 0x8000#64))
     s.reqs.find? 9 = some r ∧ s.timed r = false ∧ ((s.threadAt base.uid).reg r.rd).st = .pending (.ldfe 9 r.va)) ∧
    (let r := ask .load .replied
     let s := (asking r).modThread base.uid (fun t => { t with ended := some .ret })
     r.acq = false ∧ (s.threadAt base.uid).ended ≠ some .killed ∧ ((asking r).threadAt base.uid).slot? = some 0 ∧
       (s.threadAt base.uid).slot? = some 0) ∧
    (let r := { ask .load .replied with err := some (fPAGE, 1) }
     r.err = some (fPAGE, 1) ∧ r.kind.fills = true ∧ faultParks fPAGE 1 r.kind.acc.type = true ∧
     (∀ e ∈ (asking r).reqs, e.1 ≠ 9 → e.2.thread = some base.uid → e.2.issued e.1 < r.issued 9 → e.2.phase = .armed) ∧
     (∀ c ∈ (asking r).cores, ∀ x ∈ c.2.loq, x.thread = base.uid → x.queued < r.issued 9 → x.sent.isSome = true) ∧
     (asking r).dividing base.uid = false ∧
     (dividing true).dividing base.uid = true) := by decide +kernel

/-- The read table holds this number for the cell. -/
def readTab (s : State) (n : Nat) : State := s.modSlot 0 (fun q => { q with readTab := [⟨0x8000, n⟩] })
theorem witness_QueuedRepliesLand :
    (ask (.wait true) .arming).phase = .arming ∧
    (let r := { ask .ldlo .replied with num := 0 }
     (asking r).timed r = false ∧ r.err = none ∧ ((readTab (asking r) 0x80000000).slotAt r.slot).readNum? r.addr = some 0x80000000 ∧
     r.num ≠ 0x80000000 % 2 ^ 32 ∧ (r.num + 2 ^ 32 - 0x80000000 % 2 ^ 32) % 2 ^ 32 ≥ 2 ^ 31 ∧ r.num < 2 ^ 32 ∧
     (0 < 9 ∧ 9 < (asking r).nextId ∧ ((fe (asking r) 3 (.pending (.load 9))).cur.reg 3).st = .pending (.load 9)) ∧
     ((asking r).slotAt r.slot).readNum? r.addr = none ∧ ((asking r).slotAt r.slot).readTab.length < 16 ∧ r.rd < 10 ∧
     r.rc < 10 ∧ r.rd ≠ r.rc) ∧
    (let r := ask (.stlo true) .replied
     let s := (asking r).modCore 0 (fun c => { c with loq := [queuedStore 0x8000 0#64 1 (some 9), queuedStore 0x8000 7#64 2 none] })
     (∀ e ∈ s.reqs, e.2.kind ≠ .ldlo) ∧ 9 < s.nextId ∧
     ((s.coreAt r.core).loq.filter (fun x => x.sent != some 9)).any (fun x => x.cell == r.addr && x.sent.isSome) = false ∧
     (((s.coreAt r.core).loq.filter (fun x => x.sent != some 9)).find? (fun x => x.cell == r.addr && x.sent.isNone)).isSome = true) ∧
    (let r := ask (.wait true) .armed
     let s := (asking r).modCur (fun t => { t with wait := .withdraw 9 1 })
     s.reqs.find? 9 = some r ∧ (s.threadAt base.uid).wait = .withdraw 9 1) ∧
    (let r := ask (.wait true) .withdrawn
     let s := (asking r).modCur (fun t => { t with wait := .withdraw 9 1 })
     r.phase = .withdrawn ∧ (s.threadAt base.uid).wait = .withdraw 9 1 ∧ (s.threadAt base.uid).ended = none ∧
     s.earlierDone base.uid s.nextId 9 = true ∧
     ({ s with reqs := [(5, ask .store .home), (9, r)] } : State).earlierDone base.uid s.nextId 9 = false) := by decide +kernel

/-- `State.AtHome`, as a check. -/
def atHomeB (s : State) (id : Nat) (r : Req) : Bool :=
  match s.reqs.find? id, r.group, r.err with
  | some q, none, none => q == r && s.readyAtHome id r && (s.keyReady r.key && !s.poisoned r.addr (max r.size 1))
  | _, _, _ => false
theorem atHome_of (s : State) (id : Nat) (r : Req) (h : atHomeB s id r = true) : s.AtHome id r := by
  unfold atHomeB at h
  split at h
  next q a b c =>
    have ⟨qt, kc⟩ := (Bool.and_eq_true _ _).mp h
    have ⟨q', turn⟩ := (Bool.and_eq_true _ _).mp qt
    have ⟨key, clean⟩ := (Bool.and_eq_true _ _).mp kc
    exact { here := a.trans (congrArg some (beq_iff_eq.mp q')), turn, alone := b, clear := c, key, clean := by simpa using clean }
  · exact absurd h (by decide)

theorem witness_HomesServeMemory :
    (∀ k ∈ ([.load, .vload, .store, .atom 9, .atom 0x28, .hacc false true, .ldlo, .stlo false] : List ReqKind),
      (asking (ask k .home)).AtHome 9 (ask k .home)) ∧
    ((asking (ask .load .home)).inArena 0 0x8000 = false ∧ (ask .load .home).key = none ∧
      (ask (.atom 9) .home).size = atomBytes 9 ∧ (ask (.atom 0x28) .home).size = atomBytes 0x28 ∧
      (∀ g ∈ ((asking (ask (.atom 9) .home)).clusterAt (clusterOfCore 0)).groups, 9 ∉ g.reqs)) ∧
    (let r := { ask .store .home with data := List.replicate 8 1#8 }
     let q := { ask (.wait false) .armed with opB := 0#64 }
     let s : State := { asking r with reqs := [(9, r), (12, q)], barriers := [⟨0x8008, [], 0, 0, 0⟩] }
     s.reqs.find? 12 = some q ∧ q.isArmed = true ∧ q.addr ∈ dwordsOf r.addr r.data.length ∧ r.data.length ≤ max r.size 1 ∧
     ∀ b ∈ s.barriers, b.addr + 8 ≤ r.addr ∨ r.addr + r.data.length ≤ b.addr) := by
  refine ⟨fun k hk => atHome_of _ _ _ ?_, by decide +kernel⟩
  revert k; decide +kernel
/-- A hash table of 16 cells with a probe limit of 1, and a malformed one. -/
theorem witness_HomesServeMemory_hacc :
    let r := { ask (.hacc false true) .home with size := 64, keys := BitVec.allOnes 512 }
    let s := at' (asking r) 0x8000 0x104#64
    let hd := (s.wordOf r).toNat
    (¬ (hd % 32 < 4 ∨ 24 < hd % 32 ∨ hd / 2 ^ 8 % 256 < 1 ∨ 64 < hd / 2 ^ 8 % 256 ∨ hd / 2 ^ 16 % 2 ^ 16 ≠ 0 ∨ hd / 2 ^ 5 % 8 ≠ 0)) ∧
    ((asking r).wordOf r).toNat % 32 < 4 ∧
    ((s.learn r).haccLanes r true 16 1 4 ((List.range 16).map (fun i => (i, lane 32 r.keys i, lane 32 r.vals i)))
      ((List.range 16).map (fun i => (i, lane 32 r.keys i, lane 32 r.vals i))) 0#5).toOption.isSome = true := by decide +kernel
/-- A latest-only number one ahead, equal, one behind, and half the range away. -/
theorem witness_HomesServeMemory_numbers :
    let d (n k : Nat) : Nat := (n + 2 ^ 32 - k % 2 ^ 32) % 2 ^ 32
    (0 < d 0 (2 ^ 32 - 1) ∧ d 0 (2 ^ 32 - 1) < 2 ^ 31) ∧ d 5 5 = 0 ∧ 2 ^ 31 < d 4 5 ∧ d (2 ^ 31) 0 = 2 ^ 31 := by decide

theorem witness_HomesServeWaits :
    (∀ k ∈ ([.ldfe, .stfe, .tkget, .tkadv, .tkwait, .wait true, .wait false, .waitSeq 0 true, .lkacq, .lkrel, .barJoin, .barArrive,
        .barDrop] : List ReqKind),
      (asking (ask k .home)).AtHome 9 (ask k .home) ∧ (ask k .home).size = 8 ∧ (asking (ask k .home)).wordOf (ask k .home) = 0#64 ∧
      (asking (ask k .home)).oldestArmed 0x8000 (· == .lkacq) = none ∧ (asking (ask k .home)).barrierAt 0x8000 = ⟨0x8000, [], 0, 0, 0⟩) ∧
    (let r := ask .ldfe .home
     let s := at' { asking r with reqs := [(3, ask .stfe .armed), (9, r)] } 0x8000 0x8000000000000001#64
     s.AtHome 9 r ∧ (s.wordOf r).getLsbD 63 = true ∧ s.oldestArmed r.addr (· == .stfe) = some (3, ask .stfe .armed)) ∧
    (let r := { ask .tkwait .home with opB := 1#64 }
     ({ ask (.waitSeq 0 false) .home with opB := 1#64 } : Req).kind = .waitSeq 0 false ∧
     (asking (ask (.waitSeq 0 false) .home)).wordOf (ask (.waitSeq 0 false) .home) = (ask (.waitSeq 0 false) .home).opB ∧
     (((asking r).wordOf r).toNat % 2 ^ 32 ≠ r.opB.toNat % 2 ^ 32 ∧ (asking r).wordOf r ≠ r.opB ∧
       ((asking r).wordOf r).toNat < r.opB.toNat)) ∧
    (let r := ask .lkrel .home
     let s := at' { asking r with reqs := [(3, ask .lkacq .armed), (9, r)] } 0x8000 1#64
     s.AtHome 9 r ∧ s.wordOf r ≠ 0#64 ∧ s.oldestArmed r.addr (· == .lkacq) = some (3, ask .lkacq .armed)) := by
  refine ⟨fun k hk => ⟨atHome_of _ _ _ ?_, ?_⟩, ⟨atHome_of _ _ _ (by decide +kernel), by decide +kernel⟩, by decide +kernel,
    ⟨atHome_of _ _ _ (by decide +kernel), by decide +kernel⟩⟩
  · revert k; decide +kernel
  · revert k; decide +kernel
/-- Barriers of two members: none has arrived, all but this one have, and this one is three phases ahead. -/
theorem witness_HomesServeWaits_barriers :
    let r := ask .barArrive .home
    let s (b : Barrier) : State := { asking r with barriers := [b] }
    ((s ⟨0x8000, [(0#64, 0), (1#64, 0)], 0, 0, 0⟩).barrierAt r.addr).lead? r.opB = some 0 ∧ 0 + 1 ≠ 2 ∧
    ((s ⟨0x8000, [(0#64, 0), (1#64, 1)], 1, 0, 0⟩).barrierAt r.addr).lead? r.opB = some 0 ∧
    (s ⟨0x8000, [(0#64, 0), (1#64, 1)], 1, 0, 0⟩).armedArrivals r.addr = [] ∧
    ((s ⟨0x8000, [(0#64, 3), (1#64, 0)], 0, 1, 1⟩).barrierAt r.addr).lead? r.opB = some 3 ∧
    (let b : Barrier := ⟨0x8000, [(0#64, 1), (1#64, 0)], 1, 0, 0⟩
     ((s b).barrierAt r.addr).lead? r.opB = some 1 ∧ b.arrived ≠ b.leads.length) ∧
    (let b : Barrier := ⟨0x8000, [(0#64, 2), (1#64, 0)], 1, 1, 0⟩
     ((s b).barrierAt r.addr).lead? r.opB = some 2 ∧ b.arrived ≠ b.leads.length) ∧
    (∀ n, n < 4 → ((s ⟨0x8000, [(0#64, n)], n, 0, 0⟩).barrierAt r.addr).lead? r.opB = some n ∧
      [((0#64 : Word), n)].filter (fun e => e.1 != r.opB) = []) ∧
    ((s ⟨0x8000, [(1#64, 0)], 0, 0, 0⟩).barrierAt r.addr).lead? r.opB = none := by decide +kernel

/-! The fabric, translation, the rotation and the families. -/

/-- The request goes from die 0 to an address of die 1. -/
def crossing (r : Req) : Req := { r with addr := 2 ^ 36, va := 0x8000#64 }
theorem witness_FabricEvents :
    (let r := crossing (ask .load .egress)
     let w := { crossing (ask .store .ingress) with data := List.replicate 8 5#8 }
     let s : State := { asking r with reqs := [(3, w), (9, r)] }
     s.reqs.find? 9 = some r ∧ s.egressTurn 9 r = true ∧ r.acq = false ∧ ∀ i, i < r.size →
       s.heldAt r.die (r.addr + i) (fun j q => q.core != r.core || q.issued j < r.issued 9) = some (3, 5#8) ∧ r.bound ≤ 3) ∧
    (let r := { crossing (ask .load .egress) with acq := true, scope := 4 }
     r.phase = .egress ∧ (asking r).egressTurn 9 r = true ∧ 0 < r.size ∧ r.acq = true ∧ 4 ≤ r.scope ∧
     ({ asking r with reqs := [(3, crossing (ask (.atom 0) .ingress)), (9, r)] } : State).egressTurn 9 r = false) ∧
    (let r := crossing (ask .load .ingress)
     (asking r).ingressClear 9 r = true) ∧
    (let r := { ask (.atom 0) .egress with group := some 0x8000 }
     let s := (asking r).modCluster 0 (fun c => { c with groups := [⟨0x8000, [9]⟩] })
     (s.clusterAt (clusterOfCore r.core)).groups.find? (fun g => g.reqs.contains 9) = some ⟨0x8000, [9]⟩) ∧
    (let r := { ask (.stlo false) .home with num := 1 }
     let x := { ask (.stlo false) .home with num := 2 }
     let s : State := { asking r with reqs := [(9, r), (12, x)] }
     r.unserved = true ∧ s.reqs.find? 12 = some x ∧ x.unserved = true ∧ 2 ^ 31 < (r.num + 2 ^ 32 - x.num % 2 ^ 32) % 2 ^ 32 ∧
       (∀ e ∈ s.reqs, s.reqs.find? e.1 = some e.2) ∧ r.thread = some base.uid ∧ homeDie r.addr = r.die ∧
       (crossing r).crosses = true ∧ homeDie (crossing r).addr ≠ (crossing r).die) ∧
    (ask (.stlo true) .home).kind = .stlo true := by
  refine ⟨?_, by decide +kernel⟩
  decide +kernel

/-- A walk of the page at 0x4000 for the executing thread. -/
def aWalk (drop : Bool) (f : Option Found) : Walk :=
  { vf := 0, page := 4, die := 0, cluster := 0, joined := [(base.uid, .load, 0x4000#64)], drop, result := f }
def walking (w : Walk) : State := ({ base with walks := [(9, w)], nextId := 20 } : State).modCur (fun t => { t with wait := .walk 9 })
theorem witness_WalksAndFetches :
    (∀ f ∈ ([none, some (.leaf ⟨0, 0x4000, 4096, 0x8000, true, true, true, false, false, 0⟩ none), some (.fault fPAGE 1 0),
        some (.fault fACCESS 7 0)] : List (Option Found)), ∀ drop ∈ [false, true],
      let w := aWalk drop f
      let s := walking w
      s.walks.find? 9 = some w ∧ w.result = f ∧ w.joined = [(base.uid, .load, 0x4000#64)] ∧
      (s.threadAt base.uid).wait = .walk 9 ∧ (s.threadAt base.uid).ended = none ∧ (s.threadAt base.uid).slot? = some 0 ∧
      s.reissues base.uid = none) ∧
    (match (Found.fault fPAGE 1 0).forAcc .load with
      | .error e => e == (fPAGE, 1, 0)
      | .ok _ => false) = true ∧ faultParks fPAGE 1 0 = true ∧ faultParks fACCESS 7 0 = false ∧
    ((Found.leaf ⟨0, 0x4000, 4096, 0x8000, true, true, true, false, false, 0⟩ none).forAcc .load).toOption.isSome = true ∧
    (let s := walking (aWalk false none)
     let at' := (s.funcAt 0).ctxroot.toNat / 2 ^ 12 % 2 ^ 40 * 4096 + 8 * (4 * 4096 / 2 ^ 48 % 2 ^ 9)
     s.walkerFree 9 (aWalk false none) = true ∧ s.poisoned at' 8 = false ∧ (s.dwordAt at').toNat % 2 = 0 ∧
     s.settled base.uid = true ∧ (asking (ask .load .home)).settled base.uid = false) := by decide +kernel
theorem witness_WalksAndFetches_fetch :
    (let x : Fetch := ⟨0, 0x8000, 0, none⟩
     let s : State := { base with fetches := [(9, x)] }
     s.fetches.find? 9 = some x ∧ s.gathered x.core x.addr 64 = true ∧ s.keyReady x.key = true ∧ s.poisoned x.addr 64 = false ∧
     ({ s with reqs := [(3, ask .store .home)] } : State).gathered x.core x.addr 64 = false) := by decide +kernel
/-- A walk of the page at 0x4000 whose table maps it from the lowest level, and from the third a gigabyte; the table's
levels lie at 0x10000, 0x20000 and so on. -/
def tabled (n leaf : Nat) : State :=
  (List.range (5 - n)).foldl (fun (s : State) i => at' s (0x10000 * (i + 1) + (if 4 - i = 0 then 32 else 0))
    (word (if 4 - i = n then leaf else 0x10000 * (i + 2) + 1))) ((walking (aWalk false none)).modFunc 0 (fun f => { f with
      ctxroot := 0x10000#64 }))
theorem witness_WalksAndFetches_table :
    ∀ x ∈ [(0, 0x80000F), (2, 0x4000000B)], let n := x.1
      let s := tabled n x.2
      let tb (lv : Nat) : Nat := 0x10000 * (5 - lv)
      let va := 4 * 4096
      let at' (lv : Nat) : Nat := tb lv + 8 * (va / 2 ^ (12 + 9 * lv) % 2 ^ 9)
      let entry (lv : Nat) : Nat := (s.dwordAt (at' lv)).toNat
      let next (lv : Nat) : Nat := entry lv / 2 ^ 12 % 2 ^ 40 * 4096
      s.walkerFree 9 (aWalk false none) = true ∧ tb 4 = (s.funcAt 0).ctxroot.toNat / 2 ^ 12 % 2 ^ 40 * 4096 ∧
      (∀ lv, lv < 5 → n ≤ lv → s.poisoned (at' lv) 8 = false ∧ (entry lv).testBit 0 = true ∧ entry lv / 2 ^ 59 = 0 ∧
        entry lv / 2 ^ 10 % 4 = 0) ∧
      (∀ lv, lv < 4 → n ≤ lv → (entry (lv + 1)).testBit 1 = false ∧ isHbm (next (lv + 1)) = true ∧ tb lv = next (lv + 1)) ∧
      (entry n).testBit 1 = true ∧ (entry n).testBit 7 = false ∧ next n % (if n = 0 then 2 ^ 12 else 2 ^ 30) = 0 ∧
      s.pagePopulated (next n) (if n = 0 then 2 ^ 12 else 2 ^ 30) = true ∧ isHost (next n) = false ∧ (entry n).testBit 6 = false ∧
      (s.funcAt 0).prot = false ∧ (∀ j ∈ (aWalk false none).joined, j.2.1 = .load ∨ j.2.1 = .store) ∧
      (entry n).testBit 8 = false ∧ (entry n).testBit 3 = true ∧
      (∃ j ∈ [(base.uid, Acc.store, 0x4000#64)], j.2.1 = .store) := by decide +kernel

/-- Core 0 is function 0's; a family of its queue 0 has a member to claim there. -/
def owned (s : State) : State := s.modPkg (fun p => { p with res := [(resCore 0, ⟨some 0, true⟩)] })
/-- The family of `running`, dealt to core 0 with an entry in its deque. -/
def dealt : State :=
  ((owned running).modFam 1 (fun f => { f with place := 0, block := 16 })).modCore 0 (fun c => { c with
    deque := [⟨0x100103#64, 1, 0⟩] })
theorem witness_RotationAndPreemption :
    (let s := base.putSlot 0 Slot.blank
     s.nextSlot 0 = none ∧ (s.coreAt 0).spillDue = [] ∧ ∀ i, i < 16 → (s.slotAt (16 * 0 + i)).frames.length ≤ 4) ∧
    (let s := owned base
     0 < Config.coreCount ∧ (s.resAt (resCore 0)).owner = some 0 ∧ (s.funcAt 0).spills = [] ∧ (s.funcAt 0).loaded = [] ∧
       (s.coreAt 0).lent = []) ∧
    (let s := dealt.modFunc 0 (fun f => { f with queues := [(0, { Queue.blank with control := 0x100080#64 })] })
     s.demandList 0 = [0 * 16 + 0] ∧ s.bound2 (clusterOfCore 0) = false ∧ (s.dutyAt 1).cur = false ∧
     (s.dutyAt 1).draining = false ∧ (s.queueAt 0 0).weight ≠ 0 ∧ (s.slotAt 15).occ = none ∧ (s.slotAt 15).reserved = none ∧
     (s.funcAt 0).removed.contains (s.slotAt 15).qowner = false) := by
  decide +kernel
/-- Each action under way: with nothing to wait for, a slot still in the rotation, and images that are and are not well
formed. -/
theorem witness_RotationAndPreemption_actions :
    (∀ a ∈ [1, 2, 3, 4], let s := base.modPkg (fun p => { p with preempt := some ⟨1, 0, [0], a, 0#64⟩ })
      s.pkg.preempt = some ⟨1, 0, [0], a, 0#64⟩ ∧ s.queueSlots 0 [0] = [] ∧ s.pkg.scrub = none) ∧
    (let s := owned base
     0 ∈ s.queueSlots 0 [0] ∧ (s.slotAt 0).removed = false) ∧
    (let s := base.modFunc 1 (fun f => { f with ctximg := 0x40000#64 })
     let t := s.markRemoved 1 (List.range 16)
     t.saveReady 1 = true ∧ (match t.spillContext 1 with
       | .ok u => !u.poisoned (u.funcAt 1).ctximg.toNat (u.contextImage 1).length && !inTier2 (u.funcAt 1).ctximg.toNat &&
           u.reqs.all (fun e => e.2.engine != some agentName)
       | .error _ => false) = true ∧ s.imageLost 1 = false ∧
     (s.readImage 1).map List.length = some 0 ∧ ((at' s 0x40000 0x10000#64).readImage 1).isNone = true) ∧
    (let s := { base with bad := [0x40000 / 64] }.modFunc 1 (fun f => { f with ctximg := 0x40000#64 })
     s.imageLost 1 = true ∧ (∀ x ∈ s.slots, x.2.chain = []) ∧ Slot.blank.chain = [] ∧ (s.threadAt base.uid).ended = none) ∧
    ([1#64, 1#64] : List Word).length < 2 ^ 61 := by decide +kernel
/-- A slot of function 1 whose frames have no place. -/
theorem witness_RotationAndPreemption_noPlace :
    (let s := (((on (fun t => { t with vf := 1, depth := 9 })).modSlot 0 (fun q => { q with frames := [aFrame], removed := true })).modPkg (fun p => { p with
        res := [(resCore 0, ⟨some 1, true⟩)] })).markRemoved 1 (List.range 16)
     s.saveReady 1 = true ∧ (s.spillContext 1).toOption.isNone = true) := by decide +kernel

theorem witness_ClaimsRun :
    (let s : State := { dealt with msgs := [(9, .claim 1 0 5 none none)], nextId := 20 }
     s.msgs.find? 9 = some (.claim 1 0 5 none none) ∧ (s.famAt 1).nextK = some 1 ∧
     ((s.modFam 1 (fun f => { f with progress := 2 })).famAt 1).nextK = none) ∧
    ((dealt.coreAt 0).stopped = false ∧ (dealt.coreAt 0).gated = false ∧ dealt.serialNext 0 = none ∧ (dealt.coreAt 0).runq = [] ∧
      dealt.oldestClaim 0 0 = some (⟨0x100103#64, 1, 0⟩, 1)) ∧
    (let s := (dealt.putThread 77 { Thread.blank with fam := 1, loc := .serialq 0, serial := true }).modCore 0 (fun c => { c with serialq := [77] })
     s.serialNext 0 = some 77) ∧
    (∀ n ∈ [9, 8], let c : Claim := ⟨n, 0, 5, none, none, 0⟩
     let s : State := ({ dealt with msgs := [(9, .landing 77 0 5 none), (10, .ack 1 77 9)], nextId := 90 }.putThread 77
       { Thread.blank with fam := 1, loc := .claimed 0 }).modFam 1 (fun f => { f with claims := [(77, c)] })
     s.msgs.find? 9 = some (.landing 77 0 5 none) ∧ s.msgs.find? 10 = some (.ack 1 77 9) ∧ (s.threadAt 77).ended = none ∧
     (s.famAt (s.threadAt 77).fam).claims.find? 77 = some c ∧ c.record = none ∧ s.coreMending (coreOfSlot 5) = false ∧
     s.coreGone (coreOfSlot 5) = false ∧ 9 < s.nextId) ∧
    (let s := dealt.modFam 1 (fun f => { f with filled := true, fixed := some 7#64 })
     s.endedValue 0 (.family 0x100103#64) = some 7#64 ∧ dealt.endedValue 0 (.family 0x100103#64) = none) := by decide +kernel
/-- An idle core with an empty deque finds the entry of core 0's. -/
theorem witness_ClaimsRun_steal :
    let s := (dealt.modPkg (fun p => { p with res := [(resCore 0, ⟨some 0, true⟩), (resCore 1, ⟨some 0, true⟩)] })).modFam 1
      (fun f => { f with place := 1 })
    (s.oldestClaim 1 1 = none ∧ (s.coreAt 1).stopped = false ∧ (s.coreAt 1).gated = false) ∧
    (scanOrder 1).findSome? (fun x => if (s.coreAt x).deque.isEmpty then none else s.oldestClaim 1 x) =
      some (⟨0x100103#64, 1, 0⟩, 16) := by decide +kernel

/-- Messages on their way in a state with the family of `running`, whose member 0 is the executing thread. -/
def sent (m : Msg) : State :=
  { running.modCur (fun t => { t with fam := 1, fh := 0x100103#64 }) with msgs := [(9, m)], nextId := 20 }
theorem witness_FamilyMessagesLand :
    ((sent (.dep 1 0 3 (some 5#64) 0)).msgs.find? 9 = some (.dep 1 0 3 (some 5#64) 0) ∧ (sent (.dep 1 0 3 none 0)).memberAt 1 0 = some base.uid ∧
      0 < ((sent (.dep 1 0 3 none 0)).famAt 1).count ∧ (sent (.dep 1 0 3 none 0)).arrives 9 base.uid = true ∧
      ((fe (sent (.dep 1 0 3 none 0)) 25 (.pending .pred)).threadAt base.uid).reg (22 + 3) = ⟨0#64, .pending .pred⟩) ∧
    ((((sent (.dep 1 0 3 none 0)).modFam 1 (fun f => { f with stubs := [(3, 7)] })).famAt 1).stubs.find? (4 * 0 + 3) = some 7 ∧
      9 < (sent (.dep 1 0 3 none 0)).nextId ∧ ((sent (.dep 1 0 3 none 0)).famAt 1).deliver = .nobody) ∧
    ((sent (.killThread base.uid)).fillThread (.killThread base.uid) = some base.uid ∧
      ({ sent (.killThread base.uid) with bound := [(9, 3)] } : State).bound.find? 9 = some 3) ∧
    (let s := (sent (.report 1 base.uid)).modCur (fun t => { t with ended := some .ret, loc := .ended })
     let t := s.modFam 1 (fun f => { f with endedK := [1] })
     s.reportReady 1 base.uid = true ∧ (s.threadAt base.uid).fh = s.handleOf 1 ∧ (s.threadAt base.uid).ended ≠ some .killed ∧
     (t.famAt 1).alloc = true ∧ (t.famAt 1).fixed = none ∧ (t.famAt 1).killed = false ∧ (t.famAt 1).broken = none ∧
     (t.threadAt base.uid).k ∉ (t.famAt 1).endedK ∧ (t.famAt 1).endedK.length + 1 = (t.famAt 1).count ∧
     ∀ l, l < 4 → (t.famAt 1).links.getD l 15 = 15) ∧
    (let s := fe (fe ((sent (.fill 0x100103#64 base.uid)).modFam 1 (fun f =>
       { f with fixed := some 0#64, results := [7#64], deliver := .thread base.uid 3 [(0, 4)] })) 3 (.pending (.family 0x100103#64))) 4 (.pending (.link 0x100103#64 0))
     (s.famAt (s.famOfHandle (s.threadAt base.uid).vf 0x100103#64)).deliver = .thread base.uid 3 [(0, 4)] ∧
     s.arrives 9 base.uid = true ∧ (s.threadAt base.uid).ended = none ∧ 9 < s.nextId ∧
     ((s.threadAt base.uid).reg 3).st = .pending (.family 0x100103#64) ∧
     ((s.threadAt base.uid).reg 4).st = .pending (.link 0x100103#64 0)) := by decide +kernel
theorem witness_FamilyMessagesLand_waits :
    (let s := (sent (.answer 0x100103#64 base.uid)).modCur (fun t => { t with wait := .family 0x100103#64, owes := [4] })
     s.arrives 9 base.uid = true ∧ (s.threadAt base.uid).wait = .family 0x100103#64 ∧ (s.threadAt base.uid).ended = none ∧
     4 ∈ (s.threadAt base.uid).owes) ∧
    (let s := sent (.arm 0x100103#64 base.uid)
     s.familyPending (s.threadAt base.uid).vf 0x100103#64 = true ∧
     (s.modFam 1 (fun f => { f with gen := 4 })).familyPending (s.threadAt base.uid).vf 0x100103#64 = false) ∧
    (let s := sent (.brk 1 1 .ret)
     (s.famAt 1).fixed = none ∧ (s.famAt 1).killed = false ∧ (s.famAt 1).broken = none ∧ (s.famAt 1).alloc = true ∧ (s.famAt 1).gen = 3 ∧
     ((s.modFam 1 (fun f => { f with broken := some (1, .ret) })).famAt 1).broken = some (1, .ret)) ∧
    (let s := sent (.killThread base.uid)
     (s.threadAt base.uid).ended = none ∧ (s.threadAt base.uid).loc = .slot 0) ∧
    (let s : State := { queued with msgs := [(9, .killThread 77), (10, .move 77 0 false)], nextId := 90 }
     (s.threadAt 77).ended = none ∧ (s.threadAt 77).loc = .runq 0 ∧ (s.coreAt 0).stopped = false) := by decide +kernel

/-! The engines. -/

/-- A chunk of `n` zero bytes that has begun its write phase, with its place in core 0's local store. -/
def aChunk (n : Nat) : Chunk where
  runs := [(localStore 0 + 0x1000, n, word (localBase + 0x1000), none)]
  data := List.replicate n 0#8
  begun := true
/-- The same on another die, to which no link is down. -/
def farChunk (n : Nat) : Chunk := { aChunk n with runs := [(2 ^ 36, n, 0x8000#64, none)] }
theorem witness_CopyActs :
    ((copying aCopy).copyAt? 0 0 = some aCopy ∧ (copying aCopy).forkReady aCopy.thread aCopy.before = true ∧
      (copying aCopy).lacksRank aCopy = false) ∧
    (let g : Group := ⟨0#64, 0, 0, 2, 0, [0, 3]⟩
     let c := { aCopy with op := 0x10, group := some g }
     let s := (copying c).modPkg (fun p => { p with peers := [(3, ⟨true, 0⟩)] })
     s.lacksRank c = true ∧ c.group = some g ∧ c.chunks = [] ∧ c.stop = 0 ∧ c.record = none ∧ c.packet = none ∧ s.copyAcked c = true) ∧
    (let r := ask .load .egress
     let s := { copying { aCopy with before := 20 } with reqs := [(9, r)] }
     s.forkReady aCopy.thread 20 = false) ∧
    (let c := { aCopy with forked := true }
     let s := copying c
     (∀ n ∈ [0, 1], c.size = 0x1000 → ({ c with size := 0x2000 } : CopyOp).mayCheck n = true ∧ c.chunks.find? c.cursor = none) ∧
     s.collTurn c = true ∧ s.sectionTurn c = true ∧ c.fault = none ∧ 0 = c.cursor ∧ s.mayBegin c 0 = true ∧
     s.mayBegin { c with group := some ⟨0#64, 0, 0, 1, 0, [0]⟩ } 0 = false ∧
     (match (s.checkChunk c.agent c.level (c.piece 0).align (c.piece 0).src (c.piece 0).dst (c.piece 0).len).2 with
       | .ok (some _) => true
       | _ => false) = true) ∧
    (let c := { aCopy with forked := true, src := 0x4000#64 }
     c.mayCheck 0 = true ∧ c.packet = none ∧ c.writes = false ∧ (copying c).copyAcked c = true ∧
     ({ copying c with reqs := [(9, { ask .store .home with thread := none, engine := some c.h })] } : State).copyAcked c = false ∧
     ({ c with size := 0x2000, cursor := 1, chunks := [(0, aChunk 64)] } : CopyOp).writes = true ∧
     ((copying c).checkChunk c.agent c.level (c.piece 0).align (c.piece 0).src (c.piece 0).dst (c.piece 0).len).2.toOption = none) ∧
    (aCopy.packet = none ∧ ((copying aCopy).threadAt aCopy.thread).ended = none ∧ (copying aCopy).copyAcked aCopy = true ∧
      ({ aCopy with stop := 2 } : CopyOp).stop ≠ 0 ∧ aCopy.writes = false) ∧
    (let c := { aCopy with forked := true, cursor := 1 }
     c.stop = 0 ∧ c.record = none ∧ c.fault = none ∧ c.total ≤ c.cursor ∧ c.chunks = []) := by decide +kernel
theorem witness_CopyActs_write :
    (let x := aChunk 64
     let c := { aCopy with size := 64, forked := true, cursor := 1, chunks := [(0, x)] }
     let s := copying c
     c.chunks.find? 0 = some x ∧ x.begun = true ∧ c.fault = none ∧ c.chunks.find? c.cursor = none ∧ c.isScatter = false ∧
     c.group = none ∧ c.reduces = false ∧ x.done = 0 ∧ x.data.length ≤ 4096 ∧ (x.runs.map (fun r => r.2.1)).sum = x.data.length ∧
     s.caughtUp (dieOfCore c.core) c.clock (fun _ _ => false) = true ∧
     ∀ r ∈ x.runs, r.2.2.2 = none ∧ s.badBytes r.1 r.2.1 = false ∧
       ∀ i, i < r.2.1 → homeDie (r.1 + i) = dieOfCore c.core ∧ s.linkDown (r.1 + i) = false) := by decide +kernel
/-- A unit of a copy and an element of a reducing one, at a home of the operation's die and at another's. -/
theorem witness_CopyActs_units :
    (∀ red ∈ [false, true], ∀ x ∈ [aChunk 4, farChunk 4],
      let c := { aCopy with op := (if red then 4 else 0), fmt := 0x1A, size := 4, forked := true, cursor := 1, chunks := [(0, x)] }
      let s := copying c
      c.reduces = red ∧ c.unordered = false ∧ x.begun = true ∧ c.chunks.find? c.cursor = none ∧ 0 < elemBytes c.fmt ∧
      x.runs ≠ [] ∧ ∀ r ∈ x.runs, x.next (if c.reduces = true then elemBytes c.fmt else 0) = some (r.1, 4, r.2.2) ∧
        runAt x.runs (x.done + 4) = none ∧ s.badBytes r.1 4 = false ∧ ((x.data.drop x.done).take 4).length = 4 ∧
        (homeDie r.1 == dieOfCore c.core) = (x == aChunk 4) ∧ s.linkDown r.1 = false ∧
        s.caughtUp (dieOfCore c.core) c.clock (fun _ _ => false) = true) := by decide +kernel
/-- A unit at which an uncorrectable error stands. -/
theorem witness_CopyActs_badUnit :
    (let x := aChunk 4
     let c := { aCopy with size := 4, forked := true, cursor := 1, chunks := [(0, x)] }
     let a := localStore 0 + 0x1000
     let s := { copying c with bad := [a / 64] }
     x.next 0 = some (a, 4, word (localBase + 0x1000), none) ∧ homeDie a = dieOfCore c.core ∧ s.badBytes a 4 = true ∧ 0 < c.cursor ∧
     c.stop = 0 ∧ c.record = none ∧ c.packet = none ∧ s.copyAcked c = true) := by decide +kernel
/-- The one rank of a group, whose chunk goes up; one whose child has sent another operation's part; one that waits for
the new mode of duty 5; and a rank whose parent has sent the result. -/
theorem witness_CopyActs_collective :
    let g : Group := ⟨0#64, 0, 0, 1, 0, [0]⟩
    let x := { aChunk 4 with begun := false }
    let c := { aCopy with
      op := 0x10, fmt := 0x1A, size := 4, forked := true, group := some g, chunks := [(0, x)] }
    let s := copying c
    (c.chunks.find? 0 = some x ∧ x.begun = false ∧ c.fault = none ∧ c.packet = none ∧ (s.collAt g.gid g.seq 0).result = none ∧
      (∀ p ∈ (s.collAt g.gid g.seq 0).parts, c.agrees p.2 = true) ∧ (s.collAt g.gid g.seq 0).sent = false ∧
      s.collHolds g.gid g.seq = false ∧ (c.combined g (s.collAt g.gid g.seq 0) 0 s.fresh x.data).isSome = true ∧
      g.rank = 0 ∧ 0 = c.cursor ∧ c.stop = 0 ∧ c.record = none ∧ s.copyAcked c = true) ∧
    (s.modPkg (fun p => { p with duties := p.duties.set 5 ⟨true, false, true⟩ })).collHolds g.gid g.seq = true ∧
    (let t := s.modPkg (fun p => { p with coll := [(0, ⟨[(1, ⟨0, 0, 4, 0, []⟩)], false, [], none⟩)] })
     ∃ p ∈ (t.collAt g.gid g.seq 0).parts, c.agrees p.2 = false) ∧
    (let h : Group := { g with ranks := 2, rank := 1, map := [3, 0] }
     let part : CollPart := ⟨0x10, 0x1A, 4, c.mode, List.replicate 4 1#8⟩
     let t := s.modPkg (fun p => { p with coll := [(0, ⟨[(h.parent, part)], true, [], none⟩)] })
     (t.collAt h.gid h.seq 0).sent = true ∧ h.rank ≠ 0 ∧ (t.collAt h.gid h.seq 0).parts.find? h.parent = some part ∧
     c.agrees part = true ∧ (t.collAt h.gid h.seq 0).result = none) := by decide +kernel

/-- A job of the executing thread in cluster 0's queue; its tiles are 0, 1 and 2. -/
def aJob (kind : JobKind) (array : Bool) : Job where
  h := engineHandle 1 0 0 1
  kind := kind
  d := 0
  a := 1
  b := 2
  opt := 0
  vf := 0
  queue := 0
  level := 0
  core := 0
  thread := base.uid
  issuer := 0#64
  slot := 0
  rd := 3
  array := array
  writes := [0]
  reads := [1]
  shapes := [(0, shaped 0x1A 64 64), (1, shaped 0x15 64 4), (2, shaped 0x15 4 64)]
  metas := []
  base := word localBase
  stride := 4#64
  mode := 1
  daz := false
  ftz := false
  seed := 0
  scale := 0#64
  colsum := []
  forked := true
  before := 0
  started := false
  rows := []
  cursor := 0
  fault := none
  record := none
  stop := 0
  ended := none
  waiters := []
def working (j : Job) : State := base.modCluster 0 (fun c => { c with jobs := [(0, j)] })
theorem witness_JobActs :
    (∀ array ∈ [false, true], let s := working (aJob .tmov array)
      s.jobAt? 0 0 = some (aJob .tmov array) ∧ s.forkReady base.uid 0 = true ∧ (s.clusterAt 0).running array = false ∧
      (s.clusterAt 0).nextJob array = some 0 ∧ 0 ∉ (s.dieAt (dieOfCluster 0)).fillers ∧ (s.dieAt (dieOfCluster 0)).grants ≠ 0) ∧
    (let s := (working (aJob .mma true)).modDie 0 (fun d => { d with fillers := [0], grants := 0 })
     0 ∈ (s.dieAt (dieOfCluster 0)).fillers ∧ (s.dieAt (dieOfCluster 0)).grants = 0 ∧
     (working (aJob .mma true)).grantTurn 0 (aJob .mma true) = true) ∧
    (∀ k ∈ [JobKind.tld, .tst], let j := { aJob k false with started := true, shapes := [(0, shaped 0x15 64 4)] }
      let s := working j
      j.mayMove 0 = true ∧ j.fault = none ∧ 0 = j.cursor ∧ j.rows.find? 0 = none ∧ j.rows.find? 1 = none ∧
      (match s.checkRow j 0 with
       | (s1, .ok (some x)) => x.runs.length ≤ 2 && x.data.length ≤ 256 &&
          s1.caughtUp (dieOfCore j.core) j.clock (fun _ _ => false) &&
          (k == .tld || (x.runs.map (fun r => r.2.1)).sum == x.data.length) &&
          x.runs.all (fun r => r.2.2.2 == none && !s1.badBytes r.1 r.2.1 &&
            (List.range r.2.1).all (fun i => homeDie (r.1 + i) == dieOfCore j.core && !s1.linkDown (r.1 + i)))
       | _ => false) = true) ∧
    (base.engineAcked copyHandle = true) ∧
    (∀ k ∈ [JobKind.tzero, .tmov, .mma, .mmaQ, .mmaSp, .sca, .prune],
      ({ aJob k false with started := true } : Job).finish? = some 0#64) ∧
    ({ aJob .tld false with started := true, cursor := 64 } : Job).finish? = some 0#64 ∧
    (({ aJob .tzero false with stop := 2 } : Job).finish?).isSome = true ∧
    (let j := { aJob .tzero false with started := true, ended := some 0#64 }
     j.ended = some 0#64 ∧ ((working j).threadAt j.thread).ended = none) ∧
    (let s : State := { fe base 3 (.pending (.engine copyHandle)) with msgs := [(9, .engine copyHandle 0#64 base.uid 3)], nextId := 20 }
     s.msgs.find? 9 = some (.engine copyHandle 0#64 base.uid 3) ∧ s.arrives 9 base.uid = true ∧ (s.threadAt base.uid).ended = none ∧
     9 < s.nextId) := by decide +kernel
/-- A unit of a stored row, at a home of the job's die and at another's. -/
theorem witness_JobActs_units :
    (∀ x ∈ [aChunk 8, farChunk 8],
      let j := { aJob .tst false with started := true, rows := [(0, x)], cursor := 1 }
      let s := working j
      j.rows.find? 0 = some x ∧ x.begun = true ∧ j.fault = none ∧ j.rows.find? j.cursor = none ∧
      (∀ y ∈ j.rows, y.1 < 0 → y.2.meets x = false) ∧ (s.jobAt? 0 0).isSome = true ∧
      x.runs ≠ [] ∧ ∀ r ∈ x.runs, x.next 0 = some (r.1, 8, r.2.2) ∧ runAt x.runs (x.done + 8) = none ∧ s.badBytes r.1 8 = false ∧
        ((x.data.drop x.done).take 8).length = 8 ∧ (homeDie r.1 == dieOfCore j.core) = (x == aChunk 8) ∧ s.linkDown r.1 = false) := by decide +kernel
theorem witness_IntegerMatrixProduct :
    let j := { aJob .mma true with started := true }
    (working j).jobAt? 0 0 = some j ∧ j.kind = .mma ∧ j.started = true ∧ j.ended = none ∧
    (working j).engineAcked j.h = true ∧ j.d < 8 ∧ fmtOf (shapeFmt (j.shape j.a)) = .int true 8 ∧ fmtOf (shapeFmt (j.shape j.b)) = .int true 8 ∧
    shapeRows (j.shape j.d) = shapeRows (j.shape j.a) ∧ shapeCols (j.shape j.a) = shapeRows (j.shape j.b) ∧
    shapeCols (j.shape j.d) ≤ 64 := by decide +kernel

/-! Launch queues. -/

/-- Function 0's queue 0 holds this packet at its head; the start is done. -/
def ringed (s : State) (p : Packet) : State :=
  let x : Queue := { Queue.blank with control := 0x81#64, packets := [(0, p)], tail := 1#64 }
  (s.modFunc 0 (fun f => { f with enable := true, queues := [(0, x)] })).modPkg (fun k => { k with bootNext := 15 })
def packet (ws : List Word) : Packet := ⟨ws ++ List.replicate (8 - ws.length) 0#64, 1, 0, [], 0, none, none, []⟩
theorem witness_QueuesRun :
    (let s := (ringed base (packet [])).modQueue 0 0 (fun x => { x with packets := [] })
     s.queueReads 0 0 = true ∧ (0#64 - (s.queueAt 0 0).head).toNat < ((s.queueAt 0 0).tail - (s.queueAt 0 0).head).toNat ∧
     s.packetAt? 0 0 0 = none ∧
     ((s.modQueue 0 0 (fun x => { x with base := word localBase })).vaRead 0 0 localBase 64 1).toOption.isSome = true ∧
     (s.vaRead 0 0 0 64 1).toOption = none) ∧
    base.pkg.hostHeld = [] ∧ (base.controlOk 0 0x80#64 = false ∧ (owned base).controlOk 0 0x80#64 = true) ∧
    (∀ ws ∈ ([[2#64, word (localBase + 0x1000), word localBase, 64#64], [2#64], [3#64, word localBase, 1#64], [3#64, word localBase, 1#64, 1#64],
        [4#64, word localBase, 1#64], [5#64, 1#64], [6#64]] : List (List Word)),
      (ringed base (packet ws)).atHead 0 0 0 = some (packet ws) ∧ (packet ws).bad = none) ∧
    (packet [7#64]).bad = some 1 ∧ (packet [0x202#64]).bad = some 2 ∧ (packet [5#64, 3#64]).bad = some 3 ∧ (packet [6#64, 6#64]).bad = some 2 ∧
    (let c := Packet.copyOp 0 0 0 0 (word (localBase + 0x1000)) (word localBase) 64
     c.cause = none ∧ c.empty = false ∧ (base.clusterAt 0).copyRoom = true) ∧
    (let s := ringed base (packet [3#64, word localBase, 1#64])
     (s.signalPlace 0 0 .store (word localBase) true).2.isSome = true ∧ (s.signalPlace 0 0 .both (word localBase) true).2.isSome = true ∧
     (s.signalPlace 0 0 .both (word localBase) false).2.isSome = true ∧ (s.signalPlace 0 0 .store (word localBase) true).1.bad = [] ∧
     inTier2 (localStore 0) = false ∧ (s.queueAt 0 0).doneaddr = 0#64) := by decide +kernel
theorem witness_QueuesRun_later :
    (let p := { packet [4#64, word localBase, 1#64] with stage := 2 }
     let r := { ask (.waitSeq 0 true) .replied with thread := none }
     let s := { ringed base p with reqs := [(9, r), (10, { r with err := some (fMACHINE, 2) })] }
     s.reqs.find? 9 = some r ∧ r.vf = 0 ∧ r.num = 0 ∧ r.phase = .replied ∧ r.err = none ∧ (s.packetAt? 0 0 0).isSome = true ∧
     s.reqs.find? 10 = some { r with err := some (fMACHINE, 2) }) ∧
    (let p := { packet [5#64, 1#64] with stage := 2 }
     let s := (ringed base p).modFunc 0 (fun f => { f with setDet := [(0, 0), (1, 4)] })
     (s.funcAt 0).setDet = (0, 0) :: [(1, 4)] ∧ s.launchLive 0 = false ∧ s.packetAt? 0 0 0 = some p) ∧
    (let p := { packet [6#64] with stage := 2, after := [(0, 1)] }
     let z := { packet [4#64] with stage := 2 }
     let s := (ringed base p).modQueue 0 0 (fun x => { x with packets := [(0, p), (1, z)] })
     s.packetAt? 0 0 0 = some p ∧ p.stage = 2 ∧ p.type = 6 ∧ s.packetAt? 0 0 1 = some z ∧ z.stage ≠ 3 ∧
     (let t := (ringed base { p with after := [] })
      t.packetAt? 0 0 0 = some { p with after := [] })) := by decide +kernel

/-- A launch of members 0 to `limit` - 1, whose record lies in core 0's local store, of an image that promises 0. -/
def launchPacket : Packet := packet [1#64, word localBase, 0x2000#64, 64#64]
def launching (limit src : Word) : State :=
  let s := (ringed (arena base) launchPacket).modFunc 0 (fun f => { f with promises := [(0x2000, 64, 0)] })
  at' (at' (at' (at' (at' s (localStore 0) 0x2000#64) (localStore 0 + 16) limit) (localStore 0 + 24) 1#64) (localStore 0 + 40) src)
    (localStore 0 + 48) 64#64
/-- The packet is at the head, its record and promise are read, an entry is free, and its range has `n` members. -/
def launchOk (s : State) (n : Nat) (src : Word) : Bool :=
  let bs := (s.rangeBytes 0 0 (runsOfRange (word localBase) 128)).getD []
  decide (s.atHead 0 0 0 = some launchPacket ∧ launchPacket.bad = none ∧ launchPacket.type = 1 ∧ (s.funcAt 0).gangOn 0 = false ∧
    (s.funcAt 0).setDet = [] ∧ (s.funcAt 0).det ≠ 2 ∧ launchPacket.record = [] ∧ launchPacket.admission = 0 ∧ bs.length = 128 ∧
    (s.promise 0 0 0x2000#64 64).map Prod.snd = some 0 ∧ s.freeEntry 0 = some 0 ∧ (s.funcAt 0).det ≤ 0 ∧
    (rangeCount ((dwords bs).getD 1 0#64) ((dwords bs).getD 2 0#64) ((dwords bs).getD 3 0#64) ((dwords bs).getD 0 0#64)).toOption =
      some n ∧ (dwords bs).getD 5 0#64 = src)
/-- One whose range fails, and a completion word in the local store that a refusal writes. -/
theorem witness_LaunchesAdmitted_refused :
    (match rangeCount 0#64 3#64 0#64 0x2000#64 with
      | .ok _ => false
      | .error _ => true) = true ∧
    (let s := launching 3#64 0#64
     s.bad = [] ∧ (s.queueAt 0 0).doneaddr = 0#64 ∧ (∀ e ∈ s.reqs, e.2.engine ≠ some agentName) ∧ word (localBase + 0x800) ≠ 0#64 ∧
     (match s.engineReach 0 0 .store 8 (word (localBase + 0x800)) with
       | (v, .ok pl) => !pl.lo && v.keyReady pl.key && !inTier2 pl.addr
       | _ => false) = true) := by decide +kernel
theorem witness_LaunchesAdmitted :
    launchOk (launching 3#64 0#64) 3 0#64 = true ∧ launchOk (launching 0#64 0#64) 0 0#64 = true ∧
    launchOk (launching 3#64 (word (localBase + 0x1000))) 3 (word (localBase + 0x1000)) = true ∧
    0 < (((launching 3#64 0#64).modFunc 0 (fun f => { f with det := 1 })).funcAt 0).det ∧
    ((launching 3#64 0#64).modFunc 0 (fun f => { f with arena := 0#64 })).freeEntry 0 = none ∧
    (let s := launching 3#64 (word (localBase + 0x1000))
     let c := Packet.copyOp 0 0 0 (s.launchCore 0 0) (word localBase) (word (localBase + 0x1000)) 64
     c.cause = none ∧ c.empty = false ∧ (s.clusterAt (clusterOfCore (s.launchCore 0 0))).copyRoom = true) := by
  decide +kernel
/-- A launch whose entry is taken: its record copied, and the copy of its local section done. -/
theorem witness_LaunchesAdmitted_wakes :
    let bs := ((launching 3#64 0#64).rangeBytes 0 0 (runsOfRange (word localBase) 128)).getD []
    (let p := { launchPacket with admission := 3, record := bs, fam := some 0 }
     (ringed (arena base) p).atHead 0 0 0 = some p ∧ p.members.toOption = some 3) ∧
    (∀ p ∈ [{ launchPacket with admission := 1 }, { launchPacket with admission := 1, record := bs }],
     (ringed (arena base) p).atHead 0 0 0 = some p ∧ p.bad = none ∧ (p.record = [] ∨ p.record ≠ [] ∧ p.record = bs)) ∧
    (let p := { launchPacket with admission := 2, record := bs, fam := some 0, copy := some (0, 0) }
     let o := { Packet.copyOp 0 0 0 0 (word localBase) (word (localBase + 0x1000)) 64 with cursor := 1 }
     let s := (ringed (arena base) p).modCluster 0 (fun c => { c with copies := [(0, o)] })
     s.atHead 0 0 0 = some p ∧ s.copyAt? 0 0 = some o ∧ o.packet = some (0, 0) ∧ o.vf = 0 ∧ o.group = none ∧ o.stop = 0 ∧
     o.forked = true ∧ o.record = none ∧ o.fault = none ∧ o.total ≤ o.cursor ∧ o.chunks = [] ∧ o.waiters = [] ∧
     s.copyAcked o = true) := by decide +kernel

/-- A gang launch of two ranks under way in queue 0, the descriptor at physical 0, this package at the rank named. -/
def gang (rank : Nat) (p : Packet) : State :=
  at' (at' ((ringed (arena base) p).modFunc 0 (fun f => { f with gang := some (0, 0), gangctl := 0x100000001#64 }))
    0 (word (rank * 2 ^ 40 + 2 ^ 32 + 1))) 16 (if rank = 0 then 0x100#64 else 0x1#64)
theorem witness_GangsRun :
    (let w := 0x1000F0001#64
     base.pkg.hostHeld = [] ∧ w.toNat / 2 ^ 20 % 2 ^ 12 = 0 ∧ w.toNat / 2 % 2 ^ 15 = 0 ∧ w.getLsbD 0 = true ∧ w.toNat / 2 ^ 32 ≠ 0 ∧ (base.funcAt 0).gang = none) ∧
    (∀ rank ∈ [0, 1], let bs := ((launching 3#64 0#64).rangeBytes 0 0 (runsOfRange (word localBase) 128)).getD []
      let p := { launchPacket with
        words := [1#64, word localBase, 0x2000#64, 64#64, word (localBase + 0x800), 0#64, 0#64, 0#64], admission := 4, record := bs, fam := some 0 }
      let g : Group := ⟨0#64, 1, 0, 2, rank, if rank = 0 then [0, 1] else [1, 0]⟩
      let s := gang rank p
      (s.funcAt 0).gang = some (0, 0) ∧ s.gangGroup 0 = some g ∧ s.packetAt? 0 0 0 = some p ∧
      (∀ r, r < g.ranks → g.map.getD r 0 ∉ s.lostNow) ∧ g.gid ∉ (s.funcAt 0).gangDead ∧ 0 < g.ranks ∧ p.fam = some (p.fam.getD 0) ∧
      p.field 5 = 0#64 ∧ p.members.toOption = some 3 ∧ (s.funcAt 0).gangNo = [] ∧
      p.dword 4 ≠ 0#64 ∧ s.bad = [] ∧ (s.queueAt 0 0).doneaddr = 0#64 ∧ (∀ e ∈ s.reqs, e.2.engine ≠ some agentName) ∧
      (match s.engineReach 0 0 .store 8 (p.dword 4) with
        | (v, .ok pl) => !pl.lo && v.keyReady pl.key && !inTier2 pl.addr
        | _ => false) = true ∧ (rank = 0 → (s.funcAt 0).missing g = some 1)) ∧
    ((base.rankHeard 0 1 0).1 = true ∧ (base.funcAt 0).gang = none) ∧
    (let g : Group := ⟨0#64, 1, 0, 3, 0, [0, 1, 2]⟩
     let l : List (Nat × Nat × List Nat) := [(1, 1, [])]
     g.hears l 1 = true ∧ g.hears l 2 = false) := by decide +kernel

/-! The host, the peers and the start. -/

def duty (s : State) (n : Nat) (d : Duty) : State := s.modPkg (fun p => { p with duties := p.duties.set n d })
/-- An act of the host waits; the last move of a scrub; and readings at the ends of their ranges. -/
theorem witness_HostActs_held :
    base.pkg.hostHeld = [] ∧ (base.holdHost (.spill 0#64)).pkg.hostHeld ≠ [] ∧
    (∀ owed ∈ [false, true], let x : Scrub := ⟨1, 1, some (0x8000, none), [⟨1#64, 0#64⟩], 1, 0, owed, false, false⟩
     let s := base.modPkg (fun p => { p with scrub := some x })
     s.pkg.scrub = some x ∧ x.regions[x.next]? = none ∧ x.held = false ∧ x.kept = false ∧ x.owed = owed ∧ x.done = some (0x8000, none)) ∧
    (100 ≤ 114 ∧ 114 < 115 ∧ 115 ≤ 115 ∧ 99 < 100) := by decide +kernel
theorem witness_HostActs :
    (let s := duty (owned base) 1 ⟨false, true, true⟩
     (s.dutyAt 1).draining = false ∧ (s.dutyAt 1).cur = true ∧ s.owns (fieldOf 0x1#64 48 6) (resCore (coreNamed 0x1#64)) = true ∧
     s.bound2 (clusterOfCore (coreNamed 0x1#64)) = false) ∧
    ((base.dutyAt 1).cur = false ∧ (base.dutyAt 1).draining = false ∧ (base.dutyAt 4).cur = false ∧
      (base.dutyAt 4).draining = false ∧ ((duty base 1 ⟨true, false, true⟩).dutyAt 1).draining = true ∧ ((duty base 4 ⟨false, true, true⟩).dutyAt 4).cur = true) ∧
    ((0x0003000000000000#64).toNat / 2 ^ 56 % 64 = 0 ∧ (0x0003000000000000#64).toNat / 2 ^ 20 % 2 ^ 28 = 0 ∧
      (assignTarget (0x0003000000000000#64).toNat).isSome = true) ∧
    (∀ n, n < 6 → n < base.pkg.duties.length ∧ (base.dutyAt n).draining = false ∧
      ((duty base n ⟨true, false, true⟩).dutyAt n).draining = true ∧ (duty base n ⟨true, false, true⟩).dutyDrained n = true) ∧
    (∀ count ∈ [1, 2], let x : Scrub := ⟨1, count, some (0x8000, none), [⟨1#64, 0#64⟩], 0, 0, false, false, false⟩
     let s := base.modPkg (fun p => { p with scrub := some x })
     s.pkg.scrub = some x ∧ x.regions[x.next]? = some ⟨1#64, 0#64⟩ ∧ (s.dutyAt 2).cur = false ∧ x.held = false ∧ x.kept = false ∧
     (x.count ≤ x.next + 1 ∨ x.next + 1 < x.count)) ∧
    (let s := base.putSlot 0 Slot.blank
     (s.coreAt 0).stopped = false ∧ s.pkg.repairs = [] ∧ (s.dutyAt 3).draining = false ∧
     (∀ i, i < 16 → (s.slotAt (16 * 0 + i)).occ = none ∧ (s.slotAt (16 * 0 + i)).chain = []) ∧
     (∀ f ∈ s.funcs, f.2.spills = [] ∧ f.2.loaded = []) ∧ (s.dieAt (dieOfCore 0)).spares = 64 :: [65] ∧ ((duty s 3 ⟨false, true, true⟩).dutyAt 3).cur = true ∧
     ((s.modDie 0 (fun d => { d with spares := [] })).dieAt 0).spares = []) ∧
    (let r : Repair := ⟨0, 0, 0, false, true⟩
     let s := base.modPkg (fun p => { p with repairs := [r] })
     base.pkg.repairs.find? Repair.asked = none ∧ s.pkg.repairs.find? Repair.asked = some r ∧
     (∀ x ∈ s.pkg.repairs, clusterOfCore x.core = clusterOfCore r.core → x.core = r.core) ∧
     (s.dieAt (dieOfCore r.core)).spares = 64 :: [65] ∧ ∀ f ∈ s.funcs, f.2.spills = [] ∧ f.2.loaded = []) ∧
    ((base.putSlot 0 Slot.blank).coreInUse 0 = false ∧ base.coreInUse 0 = true) ∧
    (0x8038 % 64 + 8 ≤ 64 ∧ base.hostReaches 0x8038 = true ∧ inTier2 0x8038 = false ∧ base.bad = [] ∧
      ∀ e ∈ base.reqs, e.2.engine ≠ some agentName) ∧
    (base.pkg.pwrcap < 5201 ∧ 5200 ≤ base.pkg.pwrcap) := by
  decide +kernel

theorem witness_PeerActs :
    (base.pkg.hostHeld = [] ∧ (∀ e ∈ base.reqs, e.2.engine ≠ some agentName)) ∧
    ((base.peerAt 3).lost = false ∧ (base.peerAt 3).unanswered + 1 < 16 ∧ base.collHolds 1 0 = false ∧
      (duty base 5 ⟨true, false, true⟩).collHolds 1 0 = true) ∧
    (let s := base.modPkg (fun p => { p with peers := [(3, ⟨true, 15⟩)] })
     (s.peerAt 3).lost = true ∧ 16 ≤ (s.peerAt 3).unanswered + 1 ∧ (∀ x ∈ s.clusters, ∀ y ∈ x.2.copies, y.2.packet = none)) ∧
    (let g : Group := ⟨0#64, 0, 0, 2, 0, [0, 3]⟩
     let c := { aCopy with op := 0x10, group := some g }
     (copying c).copyAt? 0 0 = some c ∧ c.record = none ∧ c.stop = 0 ∧ 3 ∈ g.map ∧
     (∀ x ∈ (copying c).clusters, x.1 = 0 → ∀ y ∈ x.2.copies, y.1 = 0 → y.2 = c) ∧ c.chunks = [] ∧ (copying c).copyAcked c = true ∧
     ({ c with chunks := [(0, aChunk 64)] } : CopyOp).writes = true) ∧
    (17 < 18 ∧ base.pkg.ports.length = 18) ∧
    ((∃ i, i < 18 ∧ i ≠ 17 ∧ Config.portPeer i = Config.portPeer 17 ∧ base.pkg.ports.getD i false = true) ∨
      ∀ i, i < 18 → i ≠ 17 → Config.portPeer i ≠ Config.portPeer 17) ∧
    (let s := base.modPkg (fun p => { p with ports := List.replicate 18 false })
     ∀ i, i < 18 → i ≠ 17 → Config.portPeer i = Config.portPeer 17 → s.pkg.ports.getD i false = false) := by
  refine ⟨by decide +kernel, by decide +kernel, by decide +kernel, by decide +kernel, by decide +kernel, ?_, ?_⟩
  · by_cases h : ∃ i, i < 18 ∧ i ≠ 17 ∧ Config.portPeer i = Config.portPeer 17
    · obtain ⟨i, h1, h2, h3⟩ := h
      exact .inl ⟨i, h1, h2, h3, (by decide +kernel : ∀ i, i < 18 → base.pkg.ports.getD i false = true) i h1⟩
    · exact .inr fun i h1 h2 h3 => h ⟨i, h1, h2, h3⟩
  · exact fun i h _ _ => (by decide +kernel : ∀ i, i < 18 →
      (base.modPkg (fun p => { p with ports := List.replicate 18 false })).pkg.ports.getD i false = false) i h

def bootAt (i r : Nat) : State := base.modPkg (fun p => { p with bootNext := i, boot := [(i, (r, 1))] })
theorem witness_StartRuns :
    (base.bootResult 0 ≠ 1 ∧ base.bootResult 0 ≠ 3) ∧ (bootAt 0 1).bootResult 0 = 1 ∧ (bootAt 0 3).bootResult 0 = 3 ∧
    (∀ i ∈ [1, 5, 11, 14], (bootAt i 1).pkg.halt = false ∧ (bootAt i 1).bootResult (bootAt i 1).pkg.bootNext = 1 ∧
      (bootAt i 1).bootResult (i + 1) ≠ 1 ∧ (bootAt i 1).bootResult (i + 1) ≠ 3 ∧ (bootAt i 1).pkg.scrub = none) ∧
    (let s := base.modPkg (fun p => { p with halt := true, haltStep := 14 })
     s.pkg.hostHeld = [] ∧ s.pkg.halt = true ∧ s.pkg.haltStep < 15 ∧ (0#64).toNat ≠ s.pkg.haltStep) ∧ base.bad = [] ∧
    (∀ e ∈ base.reqs, e.2.engine ≠ some agentName) := by decide +kernel

/-! Steps, encoding and memory. -/

noncomputable def okWords (f : Fetched) : Bool :=
  match f with
  | .words _ ws => (decodeWords ws).isOk
  | .stop _ => false
theorem of_okWords (f : Fetched) (h : okWords f = true) : ∃ t ws, f = .words t ws ∧ (decodeWords ws).isOk = true := by
  cases f with
  | words t ws => exact ⟨t, ws, rfl, h⟩
  | stop t => simp [okWords] at h
def isNext (o : Out) : Bool :=
  match o with
  | .next _ => true
  | _ => false
theorem of_isNext (o : Out) (h : isNext o = true) : ∃ t, o = .next t := by
  cases o with
  | next t => exact ⟨t, rfl⟩
  | fault _ => simp [isNext] at h
  | refused _ => simp [isNext] at h
theorem witness_StepRunsDecoded :
    (∃ t ws, ({ base with agenda := [] } : State).turnStart 0 = .words t ws ∧ (decodeWords ws).isOk = true) ∧
    base.agenda = .turn 0 :: [] ∧ ({ base with agenda := [] } : State).readyCore = some 0 ∧
    (toRaw (.snowploughStep 0)).isNone = true ∧
    base.parkAll 0 = base ∧ base.nextSlot 0 = some 0 ∧ (base.slotAt 0).occ = some base.uid ∧ (base.threadAt base.uid).killed = false ∧
    (base.threadAt base.uid).lost = none ∧ base.reissues base.uid = none ∧ (base.famAt (base.threadAt base.uid).fam).level = 0 ∧
    (let s := ({ base with agenda := [] } : State).modFam (base.threadAt base.uid).fam (fun f => { f with level := 1, image := (0x1000, 8) })
     let f := s.famAt (s.threadAt base.uid).fam
     f.level ≠ 0 ∧ f.image.1 ≤ 0x1000 ∧ 0x1000 + 4 ≤ f.image.1 + f.image.2) ∧
    (base.slotAt 0).ibuf = some (0x1000, [0x3C#32, 0#32, 0#32, 0#32, 0#32, 0#32, 0#32, 0#32]) ∧
    (base.threadAt base.uid).pc.toNat = 0x1000 ∧ wordCount 0x3C#32 = 1 :=
  ⟨of_okWords _ (by decide +kernel), by decide +kernel⟩
noncomputable def majorWords (f : Fetched) : Bool :=
  match f with
  | .words _ ws =>
    (match decodeWords ws with
     | .error (.illegal c) => c == .major
     | _ => false)
  | .stop _ => false
theorem of_majorWords (f : Fetched) (h : majorWords f = true) : ∃ t ws, f = .words t ws ∧ decodeWords ws = .error (.illegal .major) := by
  cases f with
  | words t ws =>
    refine ⟨t, ws, rfl, ?_⟩
    simp only [majorWords] at h
    split at h
    · rename_i c e
      rw [e, of_decide_eq_true h]
    · exact absurd h (by simp)
  | stop t => simp [majorWords] at h
/-- The word 0 has no major code of the table. -/
theorem witness_FailedGuardOnlyAdvances_words :
    (∃ t ws, ({ base with agenda := [] } : State).turnStart 0 = .words t ws ∧ (decodeWords ws).isOk = true) ∧
    base.agenda = .turn 0 :: [] ∧
    (∃ t ws, ({ State.reset.withFetchWord 32 0 with agenda := [] } : State).turnStart 0 = .words t ws ∧
      decodeWords ws = .error (.illegal .major)) :=
  ⟨of_okWords _ (by decide +kernel), by decide +kernel, of_majorWords _ (by decide +kernel)⟩
theorem witness_EncodeDecodeRoundTrip :
    WellFormed (.add 29#5 31#5 31#5 false Mods.base) ∧ (toRaw (.add 29#5 31#5 31#5 false Mods.base)).isSome = true ∧
    WellFormed (.create 9#5 1#5 2#5 (makes 0x7FF80#32)) ∧ (toRaw (.create 9#5 1#5 2#5 (makes 0x7FF80#32))).isSome = true := by
  decide +kernel
theorem witness_StepKeepsMemoryCanonical : base.memWf ∧ ∃ t, step base = .next t :=
  ⟨by unfold State.memWf; decide +kernel, of_isNext _ (by decide +kernel)⟩

/-! Single steps; the expected values are worked out by hand from the rules. -/

/-- The state that an instruction leaves, or an empty one where it stops. -/
def after (i : Instr) (s : State) : State :=
  match exec i s with
  | .next t => t
  | _ => State.reset
def r2 (x y : Word) : State := reg (reg base 1 x) 2 y

/-- R121: -1 + 2 wraps, and the pc moves by one word. -/
theorem test_add_wraps :
    (after (.add 3#5 1#5 2#5 false Mods.base) (r2 (BitVec.allOnes 64) 2#64)).gpr 3#5 = 1#64 ∧
    (after (.add 3#5 1#5 2#5 false Mods.base) base).cur.pc = 0x1004#64 := by decide +kernel
/-- R121: (-1) × (-1) has the high half 0 signed and 2^64 - 2 unsigned. -/
theorem test_mulh_signs :
    (after (.mulh 3#5 1#5 2#5 false Mods.base) (r2 (BitVec.allOnes 64) (BitVec.allOnes 64))).gpr 3#5 = 0#64 ∧
    (after (.mulhu 3#5 1#5 2#5 false Mods.base) (r2 (BitVec.allOnes 64) (BitVec.allOnes 64))).gpr 3#5 = 0xFFFFFFFFFFFFFFFE#64 := by
  decide +kernel
/-- R121: a shift takes its amount modulo 64. -/
theorem test_sar_amount :
    (after (.sar 3#5 1#5 2#5 false Mods.base) (r2 0xFFFFFFFFFFFFFFF8#64 65#64)).gpr 3#5 = 0xFFFFFFFFFFFFFFFC#64 := by decide +kernel
/-- R121: division by zero gives all ones, the remainder the dividend. -/
theorem test_divide_by_zero :
    (after (.divideResultLands 0) (after (.div 3#5 1#5 2#5 false Mods.base) (r2 5#64 0#64))).gpr 3#5 = BitVec.allOnes 64 ∧
    (after (.divideResultLands 0) (after (.rem 3#5 1#5 2#5 false Mods.base) (r2 5#64 0#64))).gpr 3#5 = 5#64 := by decide +kernel
/-- R33: a write of z is discarded. -/
theorem test_write_z : (after (.movi 27#5 5#14 Mods.base) base).gpr 27#5 = 0#64 := by decide +kernel
/-- R124: bits 4 to 7 of 0x80 are 8, negative as a signed field of four bits. -/
theorem test_bfx_sign :
    (after (.bfxImm 3#5 1#5 4#6 3#6 Mods.base) (reg base 1 0x80#64)).gpr 3#5 = 0xFFFFFFFFFFFFFFF8#64 := by decide +kernel
/-- R126: unsigned and signed order of -1 and 0. -/
theorem test_cmp_signs :
    (after (.cmpLt 1#3 1#5 27#5 Mods.base) (reg base 1 (BitVec.allOnes 64))).cur.getPred 1#3 = true ∧
    (after (.cmpLtu 1#3 1#5 27#5 Mods.base) (reg base 1 (BitVec.allOnes 64))).cur.getPred 1#3 = false := by decide +kernel
/-- R25: a guard that does not hold. -/
theorem test_guard_fails :
    (after (.movi 3#5 0#14 { Mods.base with len := 3#2, gpred := 1#3, lit := 9#64 }) base).gpr 3#5 = 0#64 ∧
    (after (.movi 3#5 0#14 { Mods.base with len := 3#2, gpred := 1#3, lit := 9#64 }) base).cur.pc = 0x1014#64 := by decide +kernel
/-- R131, R133: 1 + 2^-24 in f32 is halfway and rounds to even, inexactly. -/
theorem test_fadd_halfway :
    (after (.fadd false 3#5 1#5 2#5 Mods.base) (r2 0x3F800000#64 0x33800000#64)).gpr 3#5 = 0x3F800000#64 ∧
    (after (.fadd false 3#5 1#5 2#5 Mods.base) (r2 0x3F800000#64 0x33800000#64)).cur.fstat = 1#5 := by decide +kernel
/-- R134: infinity minus infinity is the canonical NaN, with nv. -/
theorem test_fsub_infinities :
    (after (.fsub false 3#5 1#5 2#5 Mods.base) (r2 0x7F800000#64 0x7F800000#64)).gpr 3#5 = 0x7FC00000#64 ∧
    (after (.fsub false 3#5 1#5 2#5 Mods.base) (r2 0x7F800000#64 0x7F800000#64)).cur.fstat = 0x10#5 := by decide +kernel
/-- R131: (1 + 2^-12)² - (1 + 2^-11), rounded once, is 2^-24. -/
theorem test_fma_once :
    (after (.fma false 3#5 1#5 1#5 { Mods.base with len := 1#2, rc := 2#5 }) (r2 0x3F800800#64 0xBF801000#64)).gpr 3#5 =
      0x33800000#64 := by decide +kernel
/-- R162: a signed byte from the core's own local store. -/
theorem test_ld_b_sign :
    (after (.ldB 3#5 1#5 0#14 Mods.base) (localAt.poke (localStore 0) [0x80#8])).gpr 3#5 = 0xFFFFFFFFFFFFFF80#64 := by decide +kernel
/-- R4, R156: a halfword store writes its low byte first and two bytes alone. -/
theorem test_st_h_bytes :
    (after (.stH 2#5 1#5 0#14 Mods.base) (reg localAt 2 0x123456#64)).peek (localStore 0) 4 = [0x56#8, 0x34#8, 0#8, 0#8] := by
  decide +kernel
/-- R160: a misaligned address ends the thread. -/
theorem test_ld_d_misaligned :
    ((after (.ldD 3#5 1#5 4#14 Mods.base) localAt).threadAt base.uid).ended = some (.fault fALIGN 0) := by decide +kernel
/-- R109: a branch taken goes four bytes for each unit past the next word. -/
theorem test_branch : (after (.b 3#19 Mods.base) base).cur.pc = 0x1010#64 := by decide +kernel
/-- R112: a call saves the return address, and `ret` goes back to it. -/
theorem test_call_ret :
    (after (.callReg 1#5 Mods.base) (reg base 1 0x2000#64)).cur.lk = 0x1004#64 ∧
    (after (.ret Mods.base) (after (.callReg 1#5 Mods.base) (reg base 1 0x2000#64))).cur.pc = 0x1004#64 := by decide +kernel
/-- R128: a rounding mode of 0 is not one that FCTL takes. -/
theorem test_kwr_fctl_mode :
    ((after (.kwr 0x001#10 1#5 Mods.base) (reg base 1 8#64)).threadAt base.uid).ended = some (.fault fILLEGAL 6) := by decide +kernel
/-- R174: the first lane wraps by itself. -/
theorem test_vadd_lanes :
    (after (.vadd false 2#3 0#3 1#3 Mods.base) (base.modSlot 0 (fun q => { q with
      vecs := [(0, 0x00000001FFFFFFFF#512), (1, 0x0000000200000001#512)] }))).vec 2#5 = 0x0000000300000000#512 := by decide +kernel
/-- R268: an atomic add in the core's own local store gives the old value and leaves the sum. -/
theorem test_amo_add_local :
    (after (.amoAdd false 0#2 3#5 1#5 2#5 Mods.base) (at' (reg localAt 2 5#64) (localStore 0) 7#64)).gpr 3#5 = 7#64 ∧
    (after (.amoAdd false 0#2 3#5 1#5 2#5 Mods.base) (at' (reg localAt 2 5#64) (localStore 0) 7#64)).dwordAt (localStore 0) = 12#64 := by
  decide +kernel
/-- R251: `tkget` hands out the upper half of the word and steps it. -/
theorem test_tkget_local :
    (after (.tkget 3#5 1#5 Mods.base) (at' localAt (localStore 0) 0x0000000900000004#64)).dwordAt (localStore 0) =
      0x0000000A00000004#64 := by decide +kernel
/-- R351: a trap waits for its answer, past its own words. -/
theorem test_trap_waits :
    (after (.trap 3#5 Mods.base) base).cur.wait = .answer base.nextId ∧ (after (.trap 3#5 Mods.base) base).cur.pc = 0x1004#64 := by
  decide +kernel
/-- R219: 1 × 3 + 2 × (-4), added to 10, is 5. -/
theorem test_mma_integers :
    let j := { aJob .mma true with started := true, shapes := [(0, shaped 0x1A 1 1), (1, shaped 0x15 1 2), (2, shaped 0x15 2 1)] }
    let s := (((working j).poke (tileRow 0 0 0) [10#8]).poke (tileRow 0 1 0) [1#8, 2#8]).poke (tileRow 0 2 0) [3#8]
    (after (.jobEnd 0 0) (s.poke (tileRow 0 2 1) [0xFC#8])).peek (tileRow 0 0 0) 4 = [5#8, 0#8, 0#8, 0#8] := by decide +kernel
/-- R19, R117: what the host places at the next fetch is what a step runs. -/
theorem test_step_runs_placed :
    (match step (State.reset.withFetchWord 32 (0x00000024 + 3 * 2 ^ 8 + 5 * 2 ^ 18)) with
      | .next t => t.gpr 3#5 == 5#64
      | _ => false) = true := by decide +kernel

end Sys2Proof.Tests
end

section
/-! SUPPORT. How a thread's end and its faults change the machine. -/

namespace Sys2Proof.Machine

/-! What a thread passes on as it ends: messages leave, and families learn; nothing else changes. -/

/-- Beside families and messages on their way, nothing of the machine changes. -/
structure State.OnlySends (s t : State) : Prop where
  rest : { t with families := s.families, msgs := s.msgs, bound := s.bound, carried := s.carried, nextId := s.nextId } = s

namespace State.OnlySends

variable {s t v : State}

theorem refl (s : State) : s.OnlySends s := ⟨rfl⟩
theorem trans (h : s.OnlySends t) (g : t.OnlySends v) : s.OnlySends v := by
  have e : { ({ v with families := t.families, msgs := t.msgs, bound := t.bound, carried := t.carried,
                       nextId := t.nextId } : State) with
             families := s.families, msgs := s.msgs, bound := s.bound, carried := s.carried, nextId := s.nextId } = s := by
    rw [g.rest]; exact h.rest
  exact ⟨e⟩
theorem threadAt (h : s.OnlySends t) (u : Nat) : t.threadAt u = s.threadAt u := by
  have e := congrArg (State.threadAt · u) h.rest; exact e
theorem slotAt (h : s.OnlySends t) (q : Nat) : t.slotAt q = s.slotAt q := by
  have e := congrArg (State.slotAt · q) h.rest; exact e

theorem foldl {α : Type} (xs : List α) (f : State → α → State) (hf : ∀ t x, State.OnlySends t (f t x)) (s : State) :
    s.OnlySends (xs.foldl f s) := by
  induction xs generalizing s with
  | nil => exact refl s
  | cons x xs ih => exact (hf s x).trans (ih (f s x))
theorem sendDep (x : Thread) (i : Nat) (v : Option Word) : s.OnlySends (s.sendDep x i v) := by
  obtain ⟨ms, b, c, n, e⟩ := State.sendDep_eq s x i v
  rw [e]; exact ⟨rfl⟩
theorem passThrough (u : Nat) : s.OnlySends (s.passThrough u) := by
  unfold State.passThrough
  extract_lets x
  refine foldl _ _ (fun t i => ?_) s
  split
  · exact refl t
  · split
    · exact sendDep _ _ _
    · split
      · exact refl t
      · exact ⟨rfl⟩
    · exact sendDep _ _ _

end State.OnlySends

/-! What leaves its slot with it. -/

/-- Only threads that `p` selects change, each staying in its family; beside threads, slots, cores, clusters, families and
messages on their way, nothing of the machine does. -/
structure State.ChangesOnly (p : Nat → Prop) (s t : State) : Prop where
  rest : { t with threads := s.threads, slots := s.slots, cores := s.cores, clusters := s.clusters, families := s.families,
                  msgs := s.msgs, bound := s.bound, carried := s.carried, nextId := s.nextId } = s
  fam : ∀ u, (t.threadAt u).fam = (s.threadAt u).fam
  others : ∀ u, ¬ p u → t.threadAt u = s.threadAt u

namespace State.ChangesOnly

variable {p : Nat → Prop} {s t v : State}

theorem refl (p : Nat → Prop) (s : State) : s.ChangesOnly p s := ⟨rfl, fun _ => rfl, fun _ _ => rfl⟩
theorem trans (h : s.ChangesOnly p t) (g : t.ChangesOnly p v) : s.ChangesOnly p v where
  rest := by
    have e : { ({ v with threads := t.threads, slots := t.slots, cores := t.cores, clusters := t.clusters,
                         families := t.families, msgs := t.msgs, bound := t.bound, carried := t.carried,
                         nextId := t.nextId } : State) with
               threads := s.threads, slots := s.slots, cores := s.cores, clusters := s.clusters, families := s.families,
               msgs := s.msgs, bound := s.bound, carried := s.carried, nextId := s.nextId } = s := by
      rw [g.rest]; exact h.rest
    exact e
  fam u := (g.fam u).trans (h.fam u)
  others u hu := (g.others u hu).trans (h.others u hu)

theorem mem (h : s.ChangesOnly p t) : t.mem = s.mem := by have := congrArg State.mem h.rest; exact this
theorem walks (h : s.ChangesOnly p t) : t.walks = s.walks := by have := congrArg State.walks h.rest; exact this
theorem records (h : s.ChangesOnly p t) : t.records = s.records := by have := congrArg State.records h.rest; exact this
theorem funcs (h : s.ChangesOnly p t) : t.funcs = s.funcs := by have := congrArg State.funcs h.rest; exact this
theorem pkg (h : s.ChangesOnly p t) : t.pkg = s.pkg := by have := congrArg State.pkg h.rest; exact this

/-- A change of a selected thread that leaves it in its family. -/
theorem modThread (u : Nat) (f : Thread → Thread) (hu : p u) (hf : ∀ x, (f x).fam = x.fam) :
    s.ChangesOnly p (s.modThread u f) where
  rest := rfl
  fam v := by rw [State.threadAt_modThread]; split <;> simp_all
  others v hv := by
    have ne : v ≠ u := fun e => hv (e ▸ hu)
    rw [State.threadAt_modThread, if_neg ne]

theorem modSlot (q : Nat) (f : Slot → Slot) : s.ChangesOnly p (s.modSlot q f) := ⟨rfl, fun _ => rfl, fun _ _ => rfl⟩
theorem putSlot (q : Nat) (x : Slot) : s.ChangesOnly p (s.putSlot q x) := ⟨rfl, fun _ => rfl, fun _ _ => rfl⟩
theorem modCore (c : Nat) (f : Core → Core) : s.ChangesOnly p (s.modCore c f) := ⟨rfl, fun _ => rfl, fun _ _ => rfl⟩
theorem modFam (n : Nat) (f : Family → Family) : s.ChangesOnly p (s.modFam n f) := ⟨rfl, fun _ => rfl, fun _ _ => rfl⟩
theorem send (m : Msg) : s.ChangesOnly p (s.send m) := ⟨rfl, fun _ => rfl, fun _ _ => rfl⟩
theorem dropWaits (q : Nat) : s.ChangesOnly p (s.dropWaits q) := ⟨rfl, fun _ => rfl, fun _ _ => rfl⟩

theorem foldl {α : Type} (xs : List α) (f : State → α → State) (hf : ∀ t x, State.ChangesOnly p t (f t x)) (s : State) :
    s.ChangesOnly p (xs.foldl f s) := by
  induction xs generalizing s with
  | nil => exact refl p s
  | cons x xs ih => exact (hf s x).trans (ih (f s x))

/-- Where messages leave and families learn alone, no thread changes. -/
theorem of_sends (h : s.OnlySends t) : s.ChangesOnly p t := by
  have threads : ∀ u, t.threadAt u = s.threadAt u := h.threadAt
  refine ⟨?_, fun u => by rw [threads], fun u _ => threads u⟩
  have e : { ({ t with families := s.families, msgs := s.msgs, bound := s.bound, carried := s.carried, nextId := s.nextId } : State)
             with threads := s.threads, slots := s.slots, cores := s.cores, clusters := s.clusters } = s := by
    rw [h.rest]
  exact e

/-! A helper that pops back. -/

theorem setLocal (u r : Nat) (v : Word) (hu : p u) : s.ChangesOnly p (s.setLocal u r v) := modThread u _ hu (fun _ => rfl)
theorem checkHandles (u : Nat) (hu : p u) : s.ChangesOnly p (s.checkHandles u) := by
  unfold State.checkHandles
  refine foldl _ _ (fun t r => ?_) s
  split
  · split
    · exact setLocal u _ _ hu
    · exact refl p t
  · exact refl p t
theorem sendHelp (u fk : Nat) (want : Option Nat) (hu : p u) : s.ChangesOnly p (s.sendHelp u fk want) := by
  unfold State.sendHelp
  split
  · exact (send _).trans (modThread u _ hu (fun _ => rfl))
  · exact refl p s
theorem helpArmed (u id : Nat) (hu : p u) : s.ChangesOnly p (s.helpArmed u id) := by
  have asks (fk : Nat) (want : Option Nat) :
      s.ChangesOnly p ((s.modThread u (fun t => { t with helpReq := some id })).sendHelp u fk want) :=
    have notes : s.ChangesOnly p (s.modThread u (fun t => { t with helpReq := some id })) := modThread u _ hu (fun _ => rfl)
    notes.trans (sendHelp u fk want hu)
  unfold State.helpArmed
  dsimp only
  split
  · exact modThread u _ hu (fun _ => rfl)
  · split
    · exact refl p s
    · split
      · split
        · exact modThread u _ hu (fun _ => rfl)
        · split
          · exact asks _ _
          · exact refl p s
      · split
        · exact refl p s
        · split
          · exact modThread u _ hu (fun _ => rfl)
          · split
            · exact asks _ _
            · exact refl p s
      · exact refl p s
theorem readHelper (u q d : Nat) (hu : p u) : s.ChangesOnly p (s.readHelper u q d) := by
  unfold State.readHelper
  extract_lets x lose t
  have loses (v : State) (va : Nat) : v.ChangesOnly p (lose v va) := modThread u _ hu (fun _ => rfl)
  have record : s.ChangesOnly p t := by
    simp only [t]
    split
    · exact modThread u _ hu (fun _ => rfl)
    · exact loses s _
  split
  · exact record
  · refine record.trans ?_
    split
    · exact modSlot _ _
    · exact loses t _
/-- A slot's helper pops back, or the slot becomes free: of the threads only the helper changes. -/
theorem popHelper (q : Nat) (hp : ∀ h, (s.slotAt q).chain.head? = some h → p h) : s.ChangesOnly p (s.popHelper q) := by
  unfold State.popHelper
  extract_lets x
  split
  · exact modSlot _ _
  next h rest chain =>
    have hh : p h := hp h (by rw [show (s.slotAt q).chain = h :: rest from chain]; rfl)
    extract_lets atop back t
    have pops : s.ChangesOnly p atop := putSlot q _
    have placed : atop.ChangesOnly p (atop.modThread h (fun t => { t with loc := .slot q })) := modThread h _ hh (fun _ => rfl)
    have reads : atop.ChangesOnly p back := (placed.trans (readHelper h q rest.length hh)).trans (checkHandles h hh)
    have waits : back.ChangesOnly p t := modThread h (fun t => { t with wait := back.rewait h }) hh (fun _ => rfl)
    refine ((pops.trans reads).trans waits).trans ?_
    split
    · exact refl p t
    · split
      · exact modThread h _ hh (fun _ => rfl)
      · exact helpArmed h _ hh
/-- A thread's departure from where it is. -/
theorem leaveSlot (u : Nat) (hp : ∀ q h, (s.threadAt u).loc = .slot q → (s.slotAt q).chain.head? = some h → p h) :
    s.ChangesOnly p (s.leaveSlot u) := by
  unfold State.leaveSlot
  split
  next q loc =>
    split
    · exact (dropWaits q).trans (popHelper q (hp q · loc))
    · exact refl p s
  · exact modFam _ _
  · exact modCore _ _
  · exact modCore _ _
  · exact refl p s

end State.ChangesOnly

/-- A thread that has ended: how, in no slot, waiting for nothing. -/
def Thread.after (x : Thread) (how : Ended) : Thread :=
  { x with ended := some how, loc := .ended, wait := .none, depth := 0, killed := false }

/-- A thread's end, but for one by a kill (R81): what it passes on and what leaves its slot change no thread but the helper
beneath it; then it has ended, and its end report leaves. -/
theorem State.endThread_eq {p : Nat → Prop} (s : State) (u : Nat) (how : Ended) (live : (s.threadAt u).ended = none)
    (hk : how ≠ .killed) (hp : ∀ q h, (s.threadAt u).loc = .slot q → (s.slotAt q).chain.head? = some h → p h) :
    ∃ (t : State) (c : List Nat), s.ChangesOnly p t ∧
      s.endThread u how = (t.modThread u (·.after how)).sendWith c (.report (s.threadAt u).fam u) := by
  unfold State.endThread
  extract_lets x passed told helper helped last
  have sends : s.OnlySends told := by
    cases how
    case killed => exact absurd rfl hk
    case ret => exact .passThrough u
    all_goals
      refine State.OnlySends.trans (.passThrough u) ?_
      simp only [told]
      split
      · exact ⟨rfl⟩
      · exact .refl _
  have below (h : Nat) (found : helper = some h) : p h := by
    simp only [helper] at found
    split at found
    next q loc =>
      rw [sends.slotAt] at found
      exact hp q h loc found
    next => exact absurd found (by simp)
  obtain ⟨helps, loc, slots⟩ : told.ChangesOnly p helped ∧ (helped.threadAt u).loc = (told.threadAt u).loc ∧
      helped.slots = told.slots := by
    clear_value helper
    cases helper with
    | none => exact ⟨.refl p told, rfl, rfl⟩
    | some h =>
      refine ⟨.modThread h _ (below h rfl) (fun _ => rfl), ?_, rfl⟩
      simp only [helped]
      rw [State.threadAt_modThread]
      split
      · subst u; rfl
      · rfl
  have leaves : helped.ChangesOnly p (helped.leaveSlot u) :=
    .leaveSlot u (fun q h hq hh => hp q h (by rw [← hq, loc, sends.threadAt])
      (by rw [← hh, ← sends.slotAt q, State.slotAt, State.slotAt, slots]))
  refine ⟨helped.leaveSlot u, last.clockFrom x, (State.ChangesOnly.of_sends sends).trans (helps.trans leaves), ?_⟩
  have runs : ¬ x.ended.isSome = true := by rw [show x.ended = none from live]; simp
  rw [if_neg runs]
  rfl

/-- The end of a thread that has not ended, but for one by a kill: it has ended and its report is on its way, and beside
threads, slots, cores, clusters, families and messages nothing changes (R81). -/
theorem State.endThread_ends (s : State) (u : Nat) (how : Ended) (live : (s.threadAt u).ended = none)
    (hk : how ≠ .killed) : (s.endThread u how).threadEnds u how ∧ s.ChangesOnly (fun _ => True) (s.endThread u how) := by
  obtain ⟨t, c, changes, e⟩ := s.endThread_eq (p := fun _ => True) u how live hk (fun _ _ _ _ => trivial)
  have gone : ((s.endThread u how).threadAt u) = (t.threadAt u).after how := by
    rw [e, State.threadAt_sendWith, State.threadAt_modThread_self]
  refine ⟨⟨?_, ?_, ?_, t.nextId, ?_⟩, ?_⟩
  · rw [gone]; rfl
  · rw [gone]; rfl
  · rw [gone]; rfl
  · rw [gone, show ((t.threadAt u).after how).fam = (s.threadAt u).fam from changes.fam u, e]
    exact Tab.find?_put_self _ _ _
  · have ends : t.ChangesOnly (fun _ => True) (t.modThread u (·.after how)) := .modThread u _ trivial (fun _ => rfl)
    rw [e]
    exact (changes.trans ends).trans ⟨rfl, fun _ => rfl, fun _ _ => rfl⟩

/-! Faults. -/

@[simp] theorem State.threadAt_dropWaits (s : State) (q u : Nat) : (s.dropWaits q).threadAt u = s.threadAt u := rfl
@[simp] theorem State.dropWaits_mem (s : State) (q : Nat) : (s.dropWaits q).mem = s.mem := rfl
@[simp] theorem State.dropWaits_walks (s : State) (q : Nat) : (s.dropWaits q).walks = s.walks := rfl
/-- A fault that parks its thread (R350): a record is made, and the thread waits for its answer. -/
theorem State.raiseAt_eq_waits (s : State) (u : Nat) (pc : Word) (code cause : Nat) (addr : Word) (type level : Nat)
    (h : faultParks code cause type = true) :
    ∃ (r : Record) (q : Nat), s.raiseAt u pc code cause addr type level =
      ((s.addRecord r).dropWaits q).modThread u (fun t => { t with wait := .answer s.nextId }) := by
  unfold State.raiseAt
  extract_lets x q parks t
  exact ⟨_, q, if_pos h⟩
theorem State.raiseAt_parks (s : State) (u : Nat) (pc : Word) (code cause : Nat) (addr : Word) (type level : Nat)
    (h : faultParks code cause type = true) :
    let t := s.raiseAt u pc code cause addr type level
    t.threadAt u = { s.threadAt u with wait := .answer s.nextId } ∧ t.mem = s.mem ∧ t.walks = s.walks := by
  obtain ⟨r, q, e⟩ := s.raiseAt_eq_waits u pc code cause addr type level h
  rw [e]
  simp
/-- A fault that does not park its thread ends it, once its record is made (R346, R347). -/
theorem State.raiseAt_eq_endThread (s : State) (u : Nat) (pc : Word) (code cause : Nat) (addr : Word) (type level : Nat)
    (h : faultParks code cause type = false) :
    ∃ r : Record, s.raiseAt u pc code cause addr type level = (s.addRecord r).endThread u (.fault code cause) := by
  unfold State.raiseAt
  extract_lets x q parks t
  exact ⟨_, if_neg (by rw [show parks = false from h]; exact nofun)⟩
theorem State.raiseAt_ends (s : State) (u : Nat) (pc : Word) (code cause : Nat) (addr : Word) (type level : Nat)
    (h : faultParks code cause type = false) (live : (s.threadAt u).ended = none) :
    let t := s.raiseAt u pc code cause addr type level
    t.threadEnds u (.fault code cause) ∧ t.mem = s.mem ∧ t.walks = s.walks := by
  obtain ⟨r, e⟩ := s.raiseAt_eq_endThread u pc code cause addr type level h
  rw [e]
  obtain ⟨ends, rest⟩ := (s.addRecord r).endThread_ends u (.fault code cause) live nofun
  exact ⟨ends, rest.mem, rest.walks⟩

end Sys2Proof.Machine
end

section
/-! SUPPORT. Translation walks and code fetches: what a walker finds, and where its result lands. -/

namespace Sys2Proof.Machine

/-! The table. -/

theorem bitOf_eq_testBit (n i : Nat) : bitOf n i = n.testBit i := by
  rw [Nat.testBit_eq_decide_div_mod_eq]; rfl
@[simp] theorem State.markDirty_threads (s : State) (a : Nat) : (s.markDirty a).threads = s.threads := by
  unfold State.markDirty; split <;> rfl
@[simp] theorem State.poke_threads (s : State) (a : Nat) (bs : List Byte) : (s.poke a bs).threads = s.threads := by
  have marks (is : List Nat) (t : State) :
      (is.foldl (fun (t : State) i => t.markDirty (a + 65536 * i)) t).threads = t.threads := by
    induction is generalizing t with
    | nil => rfl
    | cons i is ih => rw [List.foldl_cons, ih, State.markDirty_threads]
  unfold State.poke State.markRange
  split
  · rfl
  · rw [State.markDirty_threads, marks, State.markDirty_threads]

@[simp] theorem State.walkFrom_threads (s : State) (vf va : Nat) (write both : Bool) (lv tb : Nat) :
    (s.walkFrom vf va write both lv tb).1.threads = s.threads := by
  induction lv generalizing tb with
  | zero => rfl
  | succ lv ih =>
    unfold State.walkFrom
    dsimp only
    split
    · rfl
    · split
      · rfl
      · split
        · rfl
        · split
          · split
            · rfl
            · split
              · exact s.poke_threads _ _
              · rfl
          · split
            · rfl
            · exact ih _
/-- What a walk tells of latest-only pages changes their list and numbers alone. -/
theorem State.noteWalk_rest (s : State) (vf va : Nat) (f : Found) :
    { s.noteWalk vf va f with nums := s.nums, latest := s.latest } = s := by
  unfold State.noteWalk State.latestFound State.latestMapped State.setNums
  dsimp only
  repeat' split
  all_goals rfl
@[simp] theorem State.noteWalk_mem (s : State) (vf va : Nat) (f : Found) : (s.noteWalk vf va f).mem = s.mem := by
  have e := congrArg State.mem (s.noteWalk_rest vf va f); exact e
@[simp] theorem State.noteWalk_threads (s : State) (vf va : Nat) (f : Found) :
    (s.noteWalk vf va f).threads = s.threads := by
  have e := congrArg State.threads (s.noteWalk_rest vf va f); exact e

/-- A function's walk begins at the table that CTXROOT names (R336, R339). -/
theorem State.walk_of_walkFrom {s s1 : State} {vf va : Nat} {write both : Bool} {f : Found}
    (h : s.walkFrom vf va write both 5 (bitsOf (s.funcAt vf).ctxroot.toNat 12 40 * 4096) = (s1, f)) :
    s.walk vf va write both = (s1.noteWalk vf va f, f) := by
  rw [State.walk, h]
theorem State.threads_of_walk {s s1 : State} {vf va : Nat} {write both : Bool} {f : Found}
    (h : s.walk vf va write both = (s1, f)) : s1.threads = s.threads := by
  rcases e : s.walkFrom vf va write both 5 (bitsOf (s.funcAt vf).ctxroot.toNat 12 40 * 4096) with ⟨t, g⟩
  have kept : t.threads = s.threads := by rw [← s.walkFrom_threads vf va write both 5, e]
  rw [State.walk_of_walkFrom e, Prod.mk.injEq] at h
  rw [← h.1, State.noteWalk_threads, kept]

/-- An entry that points on: the walk goes on in the table that it names (R339). -/
theorem State.walkFrom_next (s : State) (vf va : Nat) (write both : Bool) (lv tb e : Nat)
    (he : (s.dwordAt (tb + 8 * bitsOf va (12 + 9 * (lv + 1)) 9)).toNat = e)
    (clean : s.poisoned (tb + 8 * bitsOf va (12 + 9 * (lv + 1)) 9) 8 = false)
    (valid : e.testBit 0 = true) (high : bitsOf e 59 5 = 0) (low : bitsOf e 10 2 = 0) (on : e.testBit 1 = false)
    (inHbm : isHbm (bitsOf e 12 40 * 4096) = true) :
    s.walkFrom vf va write both (lv + 2) tb = s.walkFrom vf va write both (lv + 1) (bitsOf e 12 40 * 4096) := by
  rw [State.walkFrom]
  simp [he, clean, bitOf_eq_testBit, valid, high, low, on, inHbm]

/-- An entry that is not valid: PAGE (R339). -/
theorem State.walkFrom_invalid (s : State) (vf va : Nat) (write both : Bool) (lv tb e : Nat)
    (he : (s.dwordAt (tb + 8 * bitsOf va (12 + 9 * lv) 9)).toNat = e)
    (clean : s.poisoned (tb + 8 * bitsOf va (12 + 9 * lv) 9) 8 = false) (invalid : e.testBit 0 = false) :
    s.walkFrom vf va write both (lv + 1) tb = (s, .fault fPAGE (if e.testBit 9 = true then 2 else 1) lv) := by
  rw [State.walkFrom]
  simp [he, clean, bitOf_eq_testBit, invalid]

/-- A leaf that passes every check maps its page, and has d set where an access needs it (R339, R340). -/
theorem State.walkFrom_leaf (s : State) (vf va : Nat) (write both : Bool) (lv tb e : Nat) (hlv : lv < 3)
    (he : (s.dwordAt (tb + 8 * bitsOf va (12 + 9 * lv) 9)).toNat = e)
    (clean : s.poisoned (tb + 8 * bitsOf va (12 + 9 * lv) 9) 8 = false)
    (valid : e.testBit 0 = true) (high : bitsOf e 59 5 = 0) (low : bitsOf e 10 2 = 0) (leaf : e.testBit 1 = true)
    (aligned : bitsOf e 12 40 * 4096 % leafSize lv (e.testBit 7) = 0)
    (passes : s.leafRefused vf (bitsOf e 12 40 * 4096) (leafSize lv (e.testBit 7)) (e.testBit 5) (e.testBit 6)
      (bitsOf e 52 7) = none) :
    let size := leafSize lv (e.testBit 7)
    let d := e.testBit 8 || ((write || (both && e.testBit 2)) && e.testBit 3)
    s.walkFrom vf va write both (lv + 1) tb =
      (if d && !e.testBit 8 then s.poke (tb + 8 * bitsOf va (12 + 9 * lv) 9) (toBytes 8 (putBits e 8 1 1)) else s,
       .leaf ⟨vf, va - va % size, size, bitsOf e 12 40 * 4096, e.testBit 2, e.testBit 3 && d, e.testBit 4, e.testBit 5,
         e.testBit 6, bitsOf e 52 7⟩ none) := by
  rw [State.walkFrom]
  simp [he, clean, bitOf_eq_testBit, valid, high, low, leaf, aligned, passes, Nat.not_le.mpr hlv]

/-- The walk from the root down to a level whose entries above all point on. -/
theorem State.walkFrom_down (s : State) (vf va : Nat) (write both : Bool) (tb : Nat → Nat) (n k : Nat)
    (on : ∀ lv, n < lv → lv ≤ n + k →
      let at' := tb lv + 8 * bitsOf va (12 + 9 * lv) 9
      let e := (s.dwordAt at').toNat
      s.poisoned at' 8 = false ∧ e.testBit 0 = true ∧ bitsOf e 59 5 = 0 ∧ bitsOf e 10 2 = 0 ∧ e.testBit 1 = false ∧
      isHbm (bitsOf e 12 40 * 4096) = true ∧ tb (lv - 1) = bitsOf e 12 40 * 4096) :
    s.walkFrom vf va write both (n + k + 1) (tb (n + k)) = s.walkFrom vf va write both (n + 1) (tb n) := by
  induction k with
  | zero => rfl
  | succ k ih =>
    obtain ⟨clean, valid, high, low, ptr, inHbm, next⟩ := on (n + k + 1) (by omega) (by omega)
    calc s.walkFrom vf va write both (n + k + 2) (tb (n + k + 1))
        = s.walkFrom vf va write both (n + k + 1) (tb (n + k)) := by
          rw [s.walkFrom_next vf va write both (n + k) _ _ rfl clean valid high low ptr inHbm, ← next]; rfl
      _ = s.walkFrom vf va write both (n + 1) (tb n) := ih (fun lv h1 h2 => on lv h1 (by omega))

/-! What a walker does. -/

/-- A walk that has no walker yet waits (R342). -/
theorem State.walkRun_held (s : State) (id : Nat) (w : Walk) (here : s.walks.find? id = some w) (h : s.walkerFree id w = false) :
    s.walkRun id = s := by
  simp [State.walkRun, here, h]
/-- A walk that has a walker notes what it finds. -/
theorem State.walkRun_runs {s s1 : State} {id : Nat} {w : Walk} {f : Found} (here : s.walks.find? id = some w)
    (due : w.result = none) (free : s.walkerFree id w = true)
    (found : s.walk w.vf (w.page * 4096) (w.joined.any (fun j => j.2.1 == .store)) (w.joined.any (fun j => j.2.1 == .both)) =
      (s1, f)) :
    s.walkRun id = { s1 with walks := s1.walks.put id { w with result := some f } } := by
  simp [State.walkRun, here, due, free, found]

/-- A leaf outside host memory that is populated whole, and plain in an unprotected function or under a key of its own
function, is refused for nothing (R340). -/
theorem State.leafRefused_none (s : State) (vf pa size : Nat) (lo enc : Bool) (key : Nat)
    (populated : s.pagePopulated pa size = true) (device : isHost pa = false)
    (plain : enc = false → (s.funcAt vf).prot = false) (keyed : enc = true → s.owns vf (resKey key) = true) :
    s.leafRefused vf pa size lo enc key = none := by
  cases enc with
  | false => simp [State.leafRefused, populated, device, plain rfl]
  | true => simp [State.leafRefused, populated, device, keyed rfl]

/-- Setting a clear bit d adds its weight. -/
theorem putBits_dirty (e : Nat) (h : e.testBit 8 = false) : putBits e 8 1 1 = e + 2 ^ 8 := by
  rw [Nat.testBit_eq_decide_div_mod_eq, decide_eq_false_iff_not] at h
  unfold putBits
  omega
/-- A table entry whose d is set reads so. -/
theorem State.dwordAt_setDirty (s : State) (a : Nat) (h : (s.dwordAt a).toNat.testBit 8 = false) :
    ((s.poke a (toBytes 8 (putBits (s.dwordAt a).toNat 8 1 1))).dwordAt a).toNat = (s.dwordAt a).toNat + 2 ^ 8 := by
  have room : (s.dwordAt a).toNat + 2 ^ 8 < 2 ^ 64 := by
    have clear := h
    rw [Nat.testBit_eq_decide_div_mod_eq, decide_eq_false_iff_not] at clear
    have below := (s.dwordAt a).isLt
    omega
  have e : putBits (s.dwordAt a).toNat 8 1 1 = (word ((s.dwordAt a).toNat + 2 ^ 8)).toNat := by
    rw [putBits_dirty _ h, word, BitVec.toNat_ofNat, Nat.mod_eq_of_lt room]
  rw [e, State.dwordAt_poke, word, BitVec.toNat_ofNat, Nat.mod_eq_of_lt room]

theorem State.dwordAt_congr {s t : State} (h : t.mem = s.mem) (a : Nat) : t.dwordAt a = s.dwordAt a := by
  simp only [State.dwordAt, State.peek, State.byteAt, h]

/-- A walk sets bit d of a leaf where it is clear, w is set, and an access needs w (R340). -/
theorem needsDirty : ∀ d w write : Bool, ((d || (write && w)) && !d) = true ↔ d = false ∧ w = true ∧ write = true := by
  decide

theorem writes_of_dirty : ∀ d w write : Bool, (w && (d || (write && w))) = (w && (d || write)) := by decide

/-- Where the entries above level `n` point on and the one of level `n` maps a page that no check refuses, a walk finds that
page, with d set where an access needs it (R339, R340). -/
theorem State.walkFrom_finds (s : State) (vf va : Nat) (write : Bool) (tb : Nat → Nat) (n : Nat) (hn : n ≤ 2)
    (levels : ∀ lv, n ≤ lv → lv ≤ 4 →
      let at' := tb lv + 8 * bitsOf va (12 + 9 * lv) 9
      let e := (s.dwordAt at').toNat
      s.poisoned at' 8 = false ∧ e.testBit 0 = true ∧ bitsOf e 59 5 = 0 ∧ bitsOf e 10 2 = 0)
    (points : ∀ lv, n ≤ lv → lv < 4 →
      let e := (s.dwordAt (tb (lv + 1) + 8 * bitsOf va (12 + 9 * (lv + 1)) 9)).toNat
      e.testBit 1 = false ∧ isHbm (bitsOf e 12 40 * 4096) = true ∧ tb lv = bitsOf e 12 40 * 4096)
    (e : Nat) (he : (s.dwordAt (tb n + 8 * bitsOf va (12 + 9 * n) 9)).toNat = e) (leaf : e.testBit 1 = true)
    (aligned : bitsOf e 12 40 * 4096 % leafSize n (e.testBit 7) = 0)
    (passes : s.leafRefused vf (bitsOf e 12 40 * 4096) (leafSize n (e.testBit 7)) (e.testBit 5) (e.testBit 6)
      (bitsOf e 52 7) = none) :
    let sets := e.testBit 8 = false ∧ e.testBit 3 = true ∧ write = true
    ∃ marked : State, (sets → marked = s.poke (tb n + 8 * bitsOf va (12 + 9 * n) 9) (toBytes 8 (putBits e 8 1 1))) ∧
      (¬ sets → marked = s) ∧
      s.walkFrom vf va write false 5 (tb 4) =
        (marked, .leaf ⟨vf, va - va % leafSize n (e.testBit 7), leafSize n (e.testBit 7), bitsOf e 12 40 * 4096, e.testBit 2,
          e.testBit 3 && (e.testBit 8 || write), e.testBit 4, e.testBit 5, e.testBit 6, bitsOf e 52 7⟩ none) := by
  intro sets
  obtain ⟨clean, valid, high, low⟩ := levels n le_rfl (by omega)
  rw [he] at valid high low
  have down := s.walkFrom_down vf va write false tb n (4 - n) (fun lv h1 h2 => by
    obtain ⟨k, rfl⟩ : ∃ k, lv = k + 1 := ⟨lv - 1, by omega⟩
    obtain ⟨clean, valid, high, low⟩ := levels (k + 1) (by omega) (by omega)
    obtain ⟨ptr, inHbm, below⟩ := points k (by omega) (by omega)
    exact ⟨clean, valid, high, low, ptr, inHbm, below⟩)
  rw [show n + (4 - n) = 4 by omega] at down
  rw [down, s.walkFrom_leaf vf va write false n _ e (by omega) he clean valid high low leaf aligned passes]
  simp only [Bool.false_and, Bool.or_false, writes_of_dirty]
  by_cases h : sets
  · exact ⟨_, fun _ => rfl, fun k => absurd h k, by rw [if_pos ((needsDirty _ _ _).mpr h)]⟩
  · exact ⟨s, fun k => absurd k h, fun _ => rfl, by rw [if_neg (mt (needsDirty _ _ _).mp h)]⟩

/-! Where a walk's result lands. -/

/-- Only a leaf that no check refuses gives an access its translation (R340). -/
theorem Found.eq_leaf_of_forAcc {f : Found} {acc : Acc} {x : Trans} (h : f.forAcc acc = .ok x) : f = .leaf x none := by
  unfold Found.forAcc at h
  split at h
  · cases h
  next t bad =>
    dsimp only at h
    split at h
    · cases h
    · split at h
      · cases h
      · split at h
        · cases h
        · split at h
          · cases h
          · cases h; rfl

theorem State.keepEntry_rest (s : State) (id u : Nat) (acc : Acc) : { s.keepEntry id u acc with cores := s.cores } = s := by
  unfold State.keepEntry
  split
  · split <;> rfl
  · rfl
@[simp] theorem State.keepEntry_mem (s : State) (id u : Nat) (acc : Acc) : (s.keepEntry id u acc).mem = s.mem := by
  have e := congrArg State.mem (s.keepEntry_rest id u acc); exact e
@[simp] theorem State.keepEntry_threads (s : State) (id u : Nat) (acc : Acc) : (s.keepEntry id u acc).threads = s.threads := by
  have e := congrArg State.threads (s.keepEntry_rest id u acc); exact e
@[simp] theorem State.keepEntry_walks (s : State) (id u : Nat) (acc : Acc) : (s.keepEntry id u acc).walks = s.walks := by
  have e := congrArg State.walks (s.keepEntry_rest id u acc); exact e
@[simp] theorem State.clusterAt_keepEntry (s : State) (id u : Nat) (acc : Acc) (c : Nat) :
    (s.keepEntry id u acc).clusterAt c = s.clusterAt c := by
  have e := congrArg (State.clusterAt · c) (s.keepEntry_rest id u acc); exact e
/-- An access that keeps its entry leaves every micro-TLB as it was. -/
theorem State.keepEntry_utlb (s : State) (id u : Nat) (acc : Acc) (c : Nat) :
    ((s.keepEntry id u acc).coreAt c).utlb = (s.coreAt c).utlb := by
  unfold State.keepEntry
  split
  · split
    · rw [State.coreAt_modCore]
      split
      · subst_vars; rfl
      · rfl
    · rfl
  · rfl

/-- A fill of a TLB holds its translation. -/
theorem Tlb.fillAt_holds (t : Tlb) (k base set : Nat) (x : Trans) : ∃ n, (t.fillAt k base set x).entries.find? n = some x :=
  ⟨_, Tab.find?_put_self _ _ _⟩

/-- The translation enters the micro-TLB of a core and the TLB of its cluster (R341). -/
theorem State.install_one (s : State) (x : Trans) (c : Nat) :
    s.install x [c] = (s.modCore c (fun c => { c with utlb := c.utlb.fillMicro x })).modCluster (clusterOfCore c)
      (fun c => { c with tlb := c.tlb.fillCluster x }) := by
  simp [State.install, List.eraseDups_cons]

/-- The machine without a walk whose result has been taken. -/
def State.endWalk (s : State) (id : Nat) : State := { s with walks := s.walks.del id }

section
variable (s : State) (id : Nat)
@[simp] theorem State.find?_endWalk : (s.endWalk id).walks.find? id = none := Tab.find?_del_self _ _
@[simp] theorem State.threadAt_endWalk (u : Nat) : (s.endWalk id).threadAt u = s.threadAt u := rfl
@[simp] theorem State.coreAt_endWalk (c : Nat) : (s.endWalk id).coreAt c = s.coreAt c := rfl
@[simp] theorem State.settled_endWalk (u : Nat) : (s.endWalk id).settled u = s.settled u := rfl
@[simp] theorem State.reissues_endWalk (u : Nat) : (s.endWalk id).reissues u = s.reissues u := rfl
end

section Lands
variable {s : State} {id u : Nat} {w : Walk} {f : Found} {acc : Acc} {va : Word} {x : Trans}

theorem State.walkLands_leaf (here : s.walks.find? id = some w) (done : w.result = some (.leaf x none))
    (joined : w.joined = [(u, acc, va)]) :
    s.walkLands id = (if w.drop then s.endWalk id else (s.endWalk id).install x ((s.endWalk id).walkCores w (.leaf x none))).walkReaches
      id (.leaf x none) (u, acc, va) := by
  simp only [State.walkLands, here, done, joined, List.foldl_cons, List.foldl_nil]; rfl

variable (here : s.walks.find? id = some w) (done : w.result = some f) (joined : w.joined = [(u, acc, va)])
include here done joined

/-- The one access of a walk receives its translation, and the core where its thread is takes it (R341, R342). -/
theorem State.walkLands_installs {q : Nat} (ok : f.forAcc acc = .ok x) (live : w.drop = false)
    (slot : (s.threadAt u).slot? = some q) :
    s.walkLands id = ((s.endWalk id).install x [coreOfSlot q]).keepEntry id u acc := by
  obtain rfl := Found.eq_leaf_of_forAcc ok
  have cores : (s.endWalk id).walkCores w (.leaf x none) = [coreOfSlot q] := by
    simp [State.walkCores, joined, ok, slot, Except.toOption, List.eraseDups_cons]
  rw [State.walkLands_leaf here done joined, cores, if_neg (by simp [live])]
  simp [State.walkReaches, ok]
/-- A walk that a `tlbinv` matched fills no TLB (R345). -/
theorem State.walkLands_dropped (ok : f.forAcc acc = .ok x) (dropped : w.drop = true) :
    s.walkLands id = (s.endWalk id).keepEntry id u acc := by
  obtain rfl := Found.eq_leaf_of_forAcc ok
  rw [State.walkLands_leaf here done joined, if_pos dropped]
  simp [State.walkReaches, ok]
/-- The one access of a walk meets its fault, and no TLB takes anything. -/
theorem State.walkLands_faults {e : Nat × Nat × Nat} (fault : f.forAcc acc = .error e) :
    s.walkLands id = (s.endWalk id).walkReaches id f (u, acc, va) := by
  by_cases leaf : ∃ x, f = .leaf x none
  · obtain ⟨x, rfl⟩ := leaf
    have nowhere : (s.endWalk id).walkCores w (.leaf x none) = [] := by
      simp [State.walkCores, joined, fault, Except.toOption]
    rw [State.walkLands_leaf here done joined, nowhere]
    split <;> rfl
  · simp only [State.walkLands, here, done, joined, List.foldl_cons, List.foldl_nil]
    split
    next x => exact absurd ⟨x, rfl⟩ leaf
    next => rfl

end Lands

/-- The access's thread still waits for the walk, has not ended, and issues nothing again: it waits until its earlier
instructions are complete, and then meets the fault (R10, R340). -/
theorem State.walkReaches_faults {s : State} {id u : Nat} {f : Found} {acc : Acc} {va : Word} {c k lv : Nat}
    (fault : f.forAcc acc = .error (c, k, lv)) (waits : (s.threadAt u).wait = .walk id) (live : (s.threadAt u).ended = none)
    (first : s.reissues u = none) :
    s.walkReaches id f (u, acc, va) =
      if s.settled u = true then s.raiseFor u c k va acc.type lv else s.modThread u (fun t => { t with wait := .settle }) := by
  have type : (if acc = .fetch then 2 else acc.type) = acc.type := by cases acc <;> rfl
  cases settled : s.settled u <;> simp [State.walkReaches, fault, waits, live, first, settled, type]

/-- The access's thread still waits for the walk, has not ended, and issues nothing again: it waits until its earlier
instructions are complete, and then meets the fault, which parks or ends it (R10, R340, R346). -/
theorem State.walkReaches_meets {s : State} {id u : Nat} {f : Found} {acc : Acc} {va : Word} {c k lv : Nat}
    (fault : f.forAcc acc = .error (c, k, lv)) (waits : (s.threadAt u).wait = .walk id) (live : (s.threadAt u).ended = none)
    (first : s.reissues u = none) :
    let t := s.walkReaches id f (u, acc, va)
    t.mem = s.mem ∧ t.walks = s.walks ∧
    (s.settled u = false → (t.threadAt u).wait = .settle ∧ (t.threadAt u).pc = (s.threadAt u).pc ∧ t.records = s.records) ∧
    (s.settled u = true → faultParks c k acc.type = true →
      (t.threadAt u).wait = .answer s.nextId ∧ (t.threadAt u).ended = none ∧ (t.threadAt u).pc = (s.threadAt u).pc) ∧
    (s.settled u = true → faultParks c k acc.type = false → t.threadEnds u (.fault c k)) := by
  intro t
  have met : t = _ := State.walkReaches_faults fault waits live first
  cases settled : s.settled u with
  | false =>
    rw [settled, if_neg nofun] at met
    rw [met]
    refine ⟨rfl, rfl, fun _ => ⟨?_, ?_, rfl⟩, nofun, nofun⟩
    · rw [State.threadAt_modThread_self]
    · rw [State.threadAt_modThread_self]
  | true =>
    rw [settled, if_pos rfl, State.raiseFor] at met
    rw [met]
    cases parks : faultParks c k acc.type with
    | true =>
      obtain ⟨thread, mem, walks⟩ := s.raiseAt_parks u (s.threadAt u).pc c k va acc.type lv parks
      refine ⟨mem, walks, nofun, fun _ _ => ?_, nofun⟩
      rw [thread]
      exact ⟨rfl, live, rfl⟩
    | false =>
      obtain ⟨ends, mem, walks⟩ := s.raiseAt_ends u (s.threadAt u).pc c k va acc.type lv parks live
      exact ⟨mem, walks, nofun, nofun, fun _ _ => ends⟩

/-! Code fetches. -/

/-- A code fetch waits while a store that it is to bring is short of its home (R118). -/
theorem State.fetchLands_waits {s : State} {id : Nat} {x : Fetch} (here : s.fetches.find? id = some x)
    (h : s.gathered x.core x.addr 64 = false) : s.fetchLands id = s := by
  simp [State.fetchLands, here, h]
/-- A code fetch that meets no fault fills its line in the instruction cache (R154). -/
theorem State.fetchLands_fills {s : State} {id : Nat} {x : Fetch} (here : s.fetches.find? id = some x)
    (h : s.gathered x.core x.addr 64 = true) (key : s.keyReady x.key = true) (clean : s.poisoned x.addr 64 = false) :
    s.fetchLands id = ({ s with fetches := s.fetches.del id } : State).modCore x.core (fun c => { c with
      icache := c.icache.fill iWays x.addr (BitVec.ofNat 512 (ofBytes ((s.readLine x.key x.addr).getD []))) }) := by
  have key' : ({ s with fetches := s.fetches.del id } : State).keyReady x.key = true := key
  have clean' : ({ s with fetches := s.fetches.del id } : State).poisoned x.addr 64 = false := clean
  have line : ({ s with fetches := s.fetches.del id } : State).readLine x.key x.addr = s.readLine x.key x.addr := rfl
  simp [State.fetchLands, here, h, key', clean', line]
/-- A cache holds the line that fills it. -/
theorem Cache.fill_holds (c : Cache) (k line : Nat) (data : VWord) :
    ∃ w, (c.fill k line data).lines.find? w = some ⟨line, data⟩ := ⟨_, Tab.find?_put_self _ _ _⟩

end Sys2Proof.Machine
end

section
/-! PROOF. Walks and code fetches. -/

namespace Sys2Proof.Proofs

open Sys2Proof Sys2Proof.Machine

/-- Settles O43: a walk by induction on the levels that point on, its landing by what the access makes of its result, a
fault by whether it parks the thread, and a code fetch by the fill of its line. -/
theorem walksAndFetches : Obligations.WalksAndFetches := by
  unfold Obligations.WalksAndFetches
  refine ⟨fun id w s here due => ⟨fun held => ?_, fun free => ?_, ?_, ?_⟩,
    fun id u w acc va f s here done joined => ⟨fun x q ok live slot => ?_, fun x ok dropped => ?_,
      fun c k lv fault waits live first => ?_⟩, fun id x s here held => ?_, fun id x s here due key clean => ?_⟩
  · rw [exec_translationWalk, execTranslationWalk, s.walkRun_held id w here held]
  · obtain ⟨s1, f, found⟩ : ∃ s1 f, s.walk w.vf (w.page * 4096) (w.joined.any (fun j => j.2.1 == .store))
        (w.joined.any (fun j => j.2.1 == .both)) = (s1, f) := ⟨_, _, rfl⟩
    have kept := State.threads_of_walk found
    exact ⟨_, congrArg Host.Outcome.next (State.walkRun_runs here due free found), s1, f, found,
      Tab.find?_put_self _ _ _, rfl, kept⟩
  · intro at' e free clean invalid
    have unmapped : e.testBit 0 = false := by rw [Nat.testBit_eq_decide_div_mod_eq]; simp [invalid]
    have meets := s.walkFrom_invalid w.vf (w.page * 4096) (w.joined.any (fun j => j.2.1 == .store))
      (w.joined.any (fun j => j.2.1 == .both)) 4 _ e rfl clean unmapped
    refine ⟨_, congrArg Host.Outcome.next (State.walkRun_runs here due free (State.walk_of_walkFrom meets)), ?_, ?_⟩
    · exact State.noteWalk_mem _ _ _ _
    · rw [Nat.testBit_eq_decide_div_mod_eq, Tab.find?_put_self]
      simp only [decide_eq_true_eq]
  · intro tb n free hn root va at' entry next levels points e span size leaf two aligned populated device plain keyed kinds sets
    have wants : w.joined.any (fun j => j.2.1 == .both) = false := by
      rw [List.any_eq_false]
      intro j hj
      rcases kinds j hj with k | k <;> rw [k] <;> decide
    have stores : w.joined.any (fun j => j.2.1 == .store) = true ↔ ∃ j ∈ w.joined, j.2.1 = .store := by
      simp only [List.any_eq_true, beq_iff_eq]
    have passes := s.leafRefused_none w.vf (next n) size (e.testBit 5) (e.testBit 6) (e / 2 ^ 52 % 2 ^ 7) populated device
      plain keyed
    obtain ⟨marked, set, unset, finds⟩ := s.walkFrom_finds w.vf va (w.joined.any (fun j => j.2.1 == .store)) tb n hn
      (fun lv h1 h2 => by
        obtain ⟨clean, valid, high, low⟩ := levels lv h1 h2
        have none : entry lv / 2 ^ 59 % 2 ^ 5 = 0 := by rw [high, Nat.zero_mod]
        exact ⟨clean, valid, none, low⟩)
      points e rfl leaf aligned passes
    rw [root, ← wants] at finds
    rw [stores] at set unset
    refine ⟨_, _, congrArg Host.Outcome.next (State.walkRun_runs here due free (State.walk_of_walkFrom finds)),
      Tab.find?_put_self _ _ _, ?_, fun h => ?_, fun h _ => ?_⟩
    · rw [← stores, Bool.and_eq_true, Bool.or_eq_true]
    · exact (State.noteWalk_mem _ _ _ _).trans (congrArg State.mem (unset h))
    · have dirty := s.dwordAt_setDirty (at' n) h.1
      exact (congrArg BitVec.toNat (State.dwordAt_congr ((State.noteWalk_mem _ _ _ _).trans (congrArg State.mem (set h))) _)).trans dirty
  · have lands := State.walkLands_installs here done joined ok live slot
    rw [State.install_one] at lands
    refine ⟨_, congrArg Host.Outcome.next lands, ?_, ?_, ?_, ?_, ?_⟩
    · rw [State.keepEntry_walks]; exact s.find?_endWalk id
    · rw [State.keepEntry_mem]; rfl
    · rw [State.keepEntry_threads]; rfl
    · rw [State.keepEntry_utlb, State.coreAt_modCluster, State.coreAt_modCore_self]
      exact Tlb.fillAt_holds _ _ _ _ _
    · rw [State.clusterAt_keepEntry, State.clusterAt_modCluster_self]
      exact Tlb.fillAt_holds _ _ _ _ _
  · have lands := State.walkLands_dropped here done joined ok dropped
    refine ⟨_, congrArg Host.Outcome.next lands, ?_, ?_, State.keepEntry_utlb _ id u acc⟩
    · rw [State.keepEntry_walks]; exact s.find?_endWalk id
    · exact congrArg (fun t : State => { t with walks := s.walks }) (State.keepEntry_rest (s.endWalk id) id u acc)
  · have lands := State.walkLands_faults here done joined fault
    obtain ⟨mem, walks, settles, parks, ends⟩ := State.walkReaches_meets (s := s.endWalk id) (va := va) fault waits live first
    refine ⟨_, congrArg Host.Outcome.next lands, ?_, mem, settles, parks, ends⟩
    rw [walks]; exact s.find?_endWalk id
  · exact congrArg Host.Outcome.next (State.fetchLands_waits here held)
  · exact ⟨_, congrArg Host.Outcome.next (State.fetchLands_fills here due key clean), Tab.find?_del_self _ _, rfl, rfl, by
      rw [State.coreAt_modCore_self]; exact Cache.fill_holds _ _ _ _⟩

end Sys2Proof.Proofs
end

section
/-! PROOF. Statements of the issue and landing of instructions that some states, of those that they speak of, do not keep. -/

namespace Sys2Proof.Proofs

open Sys2Proof Sys2Proof.Machine

/-- Thread 1 occupies slot 0, whose turn it is, but its own location names slot 16, where it stands once more as the
occupant and again as the helper beneath itself; its register l1 is `a`. The slot area of function 0 is laid so that the
chain level of slot 16 falls into the local store of core 1, where every byte is zero. `State.mayFault` looks at the chain of
the executing slot alone, so this thread may fault; no step leads here. -/
def strayThread (a : FReg) : State :=
  { State.reset with
    threads := [(1, { Thread.blank with regs := [(1, a)], loc := .slot 16 })]
    slots := [(0, { Slot.blank with occ := some 1 }), (16, { Slot.blank with occ := some 1, chain := [1] })]
    funcs := [(0, { Func.blank with slotarea := word (localBase - 16 * 0x12000) })] }

/-- The thread runs, is not in the chain of its slot, and has nothing outstanding. -/
theorem strayThread_mayFault (a : FReg) : (strayThread a).mayFault :=
  ⟨rfl, List.not_mem_nil, rfl⟩

/-- Refutes O11: a fault ends its thread, and the slot that the thread's location names pops its helper, which is read back
from its record. The statement leaves open that this is another slot than the executing one, with the thread beneath itself:
there FCTL is read back from the record's zeros by a write of FCTL that sets a reserved bit. -/
theorem not_controlRegisterWrites : ¬ Obligations.ControlRegisterWrites := by
  unfold Obligations.ControlRegisterWrites
  intro h
  have ready : (strayThread ⟨32#64, .full⟩).Ready Mods.base 0 { src := [1#5] } :=
    ⟨rfl, rfl, .inl rfl, by simp [State.operandsReady]; decide +kernel⟩
  obtain ⟨-, ⟨reserved, -, -⟩, -⟩ := (h 1#5 Mods.base (strayThread ⟨32#64, .full⟩)).1 ready
  obtain ⟨t, run, -, -, -, fctl, -⟩ := reserved (by decide +kernel) (strayThread_mayFault _)
  have readBack : (match exec (.kwr 0x001#10 1#5 Mods.base) (strayThread ⟨32#64, .full⟩) with
      | .next t => (t.threadAt 1).fctl
      | _ => 1#5) = 0#5 := by decide +kernel
  rw [show exec (.kwr 0x001#10 1#5 Mods.base) _ = _ from run] at readBack
  have kept : (t.threadAt 1).fctl = 1#5 := fctl
  exact absurd (readBack.symm.trans kept) (by decide)

/-- Refutes O37 by the same stray thread: an `add` of its empty l1 faults LINK(1), and its record's zeros, read back as of the
helper beneath it, make l1 full. -/
theorem not_issueChecksInOrder : ¬ Obligations.IssueChecksInOrder := by
  unfold Obligations.IssueChecksInOrder
  rintro ⟨-, h⟩
  obtain ⟨empty, -⟩ := h .add (by simp) 3#5 1#5 2#5 Mods.base (strayThread ⟨0#64, .empty⟩) rfl rfl
  obtain ⟨t, run, -, regs⟩ := empty rfl (strayThread_mayFault _)
  have readBack : (match exec (.add 3#5 1#5 2#5 false Mods.base) (strayThread ⟨0#64, .empty⟩) with
      | .next t => ((t.threadAt 1).reg 1).st
      | _ => .empty) = .full := by decide +kernel
  rw [show exec (.add 3#5 1#5 2#5 false Mods.base) _ = _ from run] at readBack
  have kept : ((t.threadAt 1).reg 1).st = .empty := by
    have same : (t.threadAt 1).reg 1 = ⟨0#64, .empty⟩ := regs 1
    rw [same]
  exact absurd (readBack.symm.trans kept) (by decide)

/-- Thread 5 is chained beneath thread 7 in slot 0, and the answer of its `tkwait`, request 1, is on its way, while a write of
an agent of the device to the local store of core 0 has not been applied. Function 0's slot area lies in that local store, so
that the answer's note in the thread's record waits behind the agent's write, as a new request under the machine's next name.
That name is 1, the request's own; names of requests are drawn in order, so no step leads here. -/
def nameTaken : State :=
  { State.reset with
    threads := [(5, { Thread.blank with loc := .chain 0 })]
    slots := [(0, { Slot.blank with occ := some 7, chain := [5] })]
    reqs := [(1, { Req.blank with kind := .tkwait, phase := .replied, thread := some 5 }),
             (2, { Req.blank with kind := .store, addr := localStore 0, engine := some agentName })]
    funcs := [(0, { Func.blank with slotarea := word localBase })]
    nextId := 1 }

/-- Refutes O38: an answer's request is said to be gone once it has landed, but the note of it in the record of a thread that
rests in memory may leave as a new request, and the statement leaves open that the next name is the one of the request. -/
theorem not_repliesLand : ¬ Obligations.RepliesLand := by
  unfold Obligations.RepliesLand
  intro h
  obtain ⟨lands, -⟩ := h 1 5 _ nameTaken rfl rfl (by decide +kernel) rfl rfl
  obtain ⟨-, -, -, -, -, answers, -⟩ := lands rfl rfl
  obtain ⟨t, run, gone, -⟩ := answers (.inl rfl)
  have stands : (match exec (.servedAnswerLands 1) nameTaken with
      | .next t => (t.reqs.find? 1).isSome
      | _ => false) = true := by decide +kernel
  rw [run] at stands
  rw [show (match (.next t : Out) with | .next t => (t.reqs.find? 1).isSome | _ => false) = (t.reqs.find? 1).isSome from rfl, gone] at stands
  exact absurd stands (by decide)

end Sys2Proof.Proofs
end

section
/-! SUPPORT. Every instruction with words comes through one issue, and what a turn makes of the words it has fetched. -/

namespace Sys2Proof.Machine

/-! Issue. -/

/-- The outcome is the issue of an instruction with the fields `m` (R57): its guard is looked at before all else. -/
def State.Issues (s : State) (m : Mods) (o : Out) : Prop := ∃ priv n body, o = s.issue m priv n body

/-- The issue reads an instruction's length and guard alone. -/
theorem State.issue_congr (s : State) {x y : Mods} (len : x.len = y.len) (gpred : x.gpred = y.gpred)
    (gsense : x.gsense = y.gsense) (priv : Nat) (n : Need) (body : Out) : s.issue x priv n body = s.issue y priv n body := by
  simp [State.issue, State.guardHolds, State.advance, lenBytes, len, gpred, gsense]

/-- The words' fields of a placed immediate keep the length and the guard, so that they issue alike (R30). -/
theorem State.Issues.placed {s : State} {m : Mods} {o : Out} (major : BitVec 6) (d a : BitVec 5) (imm : Word)
    (h : s.Issues m o) : s.Issues (immRaw major d a imm m).m o := by
  obtain ⟨priv, n, body, rfl⟩ := h
  refine ⟨priv, n, body, ?_⟩
  unfold immRaw
  split <;> exact s.issue_congr rfl rfl rfl priv n body

/-- Where the guard does not hold, only the pc changes, past the instruction's words (R16). -/
theorem State.Issues.skipped {s : State} {m : Mods} {o : Out} (h : s.Issues m o) (occupied : s.uid?.isSome = true)
    (fails : s.guardHolds m = false) :
    o = .next (s.putThread s.uid { s.cur with pc := s.cur.pc + word (lenBytes m) }) := by
  obtain ⟨priv, n, body, rfl⟩ := h
  exact s.issue_skipped m priv n body occupied fails

/-- Every instruction with words issues with the fields that its words hold, by the form of its arm; a row without words has
no such fields. -/
theorem exec_issues {i : Instr} {r : Raw} (s : State) (h : toRaw i = some r) : s.Issues r.m (exec i s) := by
  cases i with
  -- The words hold the immediate where their length has room for it.
  | shlImm | shrImm | sarImm | rolImm | rorImm | bfxuImm | bfxImm =>
    cases h
    exact .placed _ _ _ _ ⟨0, _, _, rfl⟩
  -- No register is to be ready.
  | pand | por | pxor | pandn | pnot | pmov | nop | fence | trap | rft | b | bt | bf | callLit | ret | wflush | kill | yield
  | hwait | hcancel | ifence | vrel =>
    cases h
    exact ⟨_, {}, _, rfl⟩
  -- The registers and the privilege are those of the arm; without words there is no case.
  | _ => cases h <;> exact ⟨_, _, _, rfl⟩

/-! The turn that the agenda holds. -/

/-- A turn executes the instruction that its words decode to. -/
theorem step_executes {core : Nat} {rest : List Move} {s t : State} {ws more : List IWord} {i : Instr}
    (next : s.agenda = .turn core :: rest) (fetched : ({ s with agenda := rest } : State).turnStart core = .words t ws)
    (decoded : decodeWords ws = .ok (i, more)) : step s = exec i t := by
  simp only [step, next, State.turn, fetched, decoded]

/-- Words that decode to no instruction raise ILLEGAL with their cause (R56). -/
theorem step_raises_illegal {core : Nat} {rest : List Move} {s t : State} {ws : List IWord} {c : IllegalCause}
    (next : s.agenda = .turn core :: rest) (fetched : ({ s with agenda := rest } : State).turnStart core = .words t ws)
    (undecoded : decodeWords ws = .error (.illegal c)) : step s = .next (t.raise fILLEGAL c.toNat 0#64 3) := by
  simp only [step, next, State.turn, fetched, undecoded, State.illegal]

end Sys2Proof.Machine
end

section
/-! PROOF. An instruction whose guard fails. -/

namespace Sys2Proof.Proofs

open Sys2Proof Sys2Proof.Machine

/-- Settles O36: every instruction with words comes through the issue, which looks at the guard before all else. -/
theorem failedGuardOnlyAdvances : Obligations.FailedGuardOnlyAdvances := by
  unfold Obligations.FailedGuardOnlyAdvances
  refine ⟨fun i r s words occupied fails => (exec_issues s words).skipped occupied fails,
    fun core rest s t ws more next fetched => ⟨fun i r decoded words occupied fails => ?_,
      fun c undecoded => step_raises_illegal next fetched undecoded⟩⟩
  calc step s = exec i t := step_executes next fetched decoded
    _ = _ := (exec_issues t words).skipped occupied fails

end Sys2Proof.Proofs
end

section
/-! SUPPORT. Encoding and decoding: what the fields that an instruction's words hold give when they are read back. -/

namespace Sys2Proof

/-! Fields side by side. -/

/-- The low one of two fields side by side. -/
theorem extract_low {v w : Nat} (x : BitVec v) (y : BitVec w) : (x ++ y).extractLsb' 0 w = y := by
  rw [BitVec.extractLsb'_append_eq_of_add_le (Nat.le_of_eq (Nat.zero_add w)), BitVec.extractLsb'_eq_self]
theorem extract_halves (l : Word) : l.extractLsb' 32 32 ++ l.extractLsb' 0 32 = l :=
  (BitVec.extractLsb'_append_extractLsb'_eq_extractLsb' rfl).trans BitVec.extractLsb'_eq_self
theorem extract_imm14 (i : BitVec 14) : i.extractLsb' 5 9 ++ i.extractLsb' 0 5 = i :=
  (BitVec.extractLsb'_append_extractLsb'_eq_extractLsb' rfl).trans BitVec.extractLsb'_eq_self
theorem extract_kreg (k : BitVec 10) : k.extractLsb' 5 5 ++ k.extractLsb' 0 5 = k :=
  (BitVec.extractLsb'_append_extractLsb'_eq_extractLsb' rfl).trans BitVec.extractLsb'_eq_self
theorem extract_offset (o : BitVec 19) : o.extractLsb' 10 9 ++ o.extractLsb' 5 5 ++ o.extractLsb' 0 5 = o := by
  have joined : o.extractLsb' 10 9 ++ o.extractLsb' 5 5 = o.extractLsb' 5 14 :=
    BitVec.extractLsb'_append_extractLsb'_eq_extractLsb' rfl
  rw [joined]
  exact (BitVec.extractLsb'_append_extractLsb'_eq_extractLsb' rfl).trans BitVec.extractLsb'_eq_self
/-- A three-bit number in a register field, below two other bits (R36). -/
theorem extract_reg3 (x : BitVec 2) (p : BitVec 3) : BitVec.extractLsb' (n := 5) 0 3 (x ++ p) = p :=
  (BitVec.extractLsb'_append_eq_of_add_le (by decide)).trans BitVec.extractLsb'_eq_self
theorem extract_above_reg3 (x : BitVec 2) (p : BitVec 3) : BitVec.extractLsb' (n := 5) 3 2 (x ++ p) = x :=
  (BitVec.extractLsb'_append_eq_of_le (by decide)).trans BitVec.extractLsb'_eq_self
/-- The function and the destination tile of a matrix job (R54). -/
theorem extract_mma_func (D : BitVec 3) (c : BitVec 6) : BitVec.extractLsb' (n := 9) 0 6 (D ++ c) = c :=
  (BitVec.extractLsb'_append_eq_of_add_le (by decide)).trans BitVec.extractLsb'_eq_self
theorem extract_mma_tile (D : BitVec 3) (c : BitVec 6) : BitVec.extractLsb' (n := 9) 6 3 (D ++ c) = D :=
  (BitVec.extractLsb'_append_eq_of_le (by decide)).trans BitVec.extractLsb'_eq_self

/-! Words. -/

/-- The fields of word 0 side by side (R20), each read at its place. -/
theorem word0_fields (func : BitVec 9) (rb ra rd : BitVec 5) (major : BitVec 6) (len : BitVec 2) :
    let w := func ++ rb ++ ra ++ rd ++ major ++ len
    w.extractLsb' 0 2 = len ∧ w.extractLsb' 2 6 = major ∧ w.extractLsb' 8 5 = rd ∧ w.extractLsb' 13 5 = ra ∧
      w.extractLsb' 18 5 = rb ∧ w.extractLsb' 23 9 = func := by
  refine ⟨?_, ?_, ?_, ?_, ?_, ?_⟩
  case refine_6 =>
    repeat rw [BitVec.extractLsb'_append_eq_of_le (by omega)]
    exact BitVec.extractLsb'_eq_self
  all_goals
    repeat rw [BitVec.extractLsb'_append_eq_of_le (by omega)]
    exact extract_low _ _

/-- The fields of word 1 side by side (R23), each read at its place. -/
theorem word1_fields (rsv : BitVec 4) (fmtB fmtA : BitVec 5) (round scope gpred : BitVec 3) (gsense consC consB consA : Bool)
    (rc : BitVec 5) :
    let w := rsv ++ fmtB ++ fmtA ++ round ++ scope ++ BitVec.ofBool gsense ++ gpred ++ BitVec.ofBool consC ++
      BitVec.ofBool consB ++ BitVec.ofBool consA ++ rc
    w.extractLsb' 0 5 = rc ∧ w.getLsbD 5 = consA ∧ w.getLsbD 6 = consB ∧ w.getLsbD 7 = consC ∧ w.extractLsb' 8 3 = gpred ∧
      w.getLsbD 11 = gsense ∧ w.extractLsb' 12 3 = scope ∧ w.extractLsb' 15 3 = round ∧ w.extractLsb' 18 5 = fmtA ∧
      w.extractLsb' 23 5 = fmtB ∧ w.extractLsb' 28 4 = rsv := by
  refine ⟨?_, ?_, ?_, ?_, ?_, ?_, ?_, ?_, ?_, ?_, ?_⟩
  case refine_2 | refine_3 | refine_4 | refine_6 => simp only [BitVec.getLsbD_append]; simp
  case refine_11 =>
    repeat rw [BitVec.extractLsb'_append_eq_of_le (by omega)]
    exact BitVec.extractLsb'_eq_self
  all_goals
    repeat rw [BitVec.extractLsb'_append_eq_of_le (by omega)]
    exact extract_low _ _

/-- The fields of an instruction from its five words. -/
theorem rawOf_words (r : Raw) : rawOf r.word0 r.word1 r.m.w2 r.m.lit = r := by
  obtain ⟨len, major, rd, ra, rb, func⟩ := word0_fields r.func r.rb r.ra r.rd r.major r.m.len
  obtain ⟨rc, consA, consB, consC, gpred, gsense, scope, round, fmtA, fmtB, rsv⟩ :=
    word1_fields r.rsv r.m.fmtB r.m.fmtA r.m.round r.m.scope r.m.gpred r.m.gsense r.m.consC r.m.consB r.m.consA r.m.rc
  unfold rawOf modsOf Raw.word0 Raw.word1
  rw [len, major, rd, ra, rb, func, rc, consA, consB, consC, gpred, gsense, scope, round, fmtA, fmtB, rsv]
/-- Fields of word 1 that are all zero make a word of zeros. -/
theorem word1_of_base (r : Raw) (rsv : r.rsv = 0#4)
    (base : { r.m with len := 0#2, w2 := 0#32, lit := 0#64 } = Mods.base) : r.word1 = 0#32 := by
  simp only [Mods.base, Mods.mk.injEq] at base
  obtain ⟨-, gpred, gsense, consA, consB, consC, rc, scope, round, fmtA, fmtB, -, -⟩ := base
  rw [Raw.word1, rsv, gpred, gsense, consA, consB, consC, rc, scope, round, fmtA, fmtB]
  decide

/-- The first instruction's fields come off its words, whatever follows (R17, R18). -/
theorem splitWords_words (r : Raw) (rest : List IWord) (rsv : r.rsv = 0#4) (fits : r.m.fits = true) :
    splitWords (r.words ++ rest) = some (r, rest) := by
  have len : (r.word0.extractLsb' 0 2).toNat = r.m.len.toNat :=
    congrArg BitVec.toNat (word0_fields r.func r.rb r.ra r.rd r.major r.m.len).1
  have whole := rawOf_words r
  have four : r.m.len.toNat = 0 ∨ r.m.len.toNat = 1 ∨ r.m.len.toNat = 2 ∨ r.m.len.toNat = 3 := by omega
  rcases four with e | e | e | e <;> simp only [Mods.fits, e, beq_iff_eq] at fits <;>
    simp only [Raw.words, e, splitWords, len, List.cons_append, List.nil_append]
  · have w1 := word1_of_base r rsv (by rw [fits]; rfl)
    have w2 : r.m.w2 = 0#32 := by rw [fits]; rfl
    have lit : r.m.lit = 0#64 := by rw [fits]; rfl
    rw [w1, w2, lit] at whole
    rw [whole]
  · rw [fits] at whole
    rw [whole]
  · have w2 : r.m.w2 = 0#32 := congrArg Mods.w2 fits
    have w1 := word1_of_base r rsv (by rw [← fits, w2])
    rw [w1, w2] at whole
    rw [extract_halves, whole]
  · rw [extract_halves, whole]

/-! Placed immediates (R30, R39). -/
section
variable (major : BitVec 6) (d a : BitVec 5) (imm : Word) (m : Mods)

@[simp] theorem immRaw_major : (immRaw major d a imm m).major = major := by unfold immRaw; split <;> rfl
@[simp] theorem immRaw_rd : (immRaw major d a imm m).rd = d := by unfold immRaw; split <;> rfl
@[simp] theorem immRaw_ra : (immRaw major d a imm m).ra = a := by unfold immRaw; split <;> rfl
theorem immRaw_rsv : (immRaw major d a imm m).rsv = 0#4 := by unfold immRaw; split <;> rfl
@[simp] theorem immRaw_noImm : (immRaw major d a imm m).m.noImm = m.noImm := by unfold immRaw; split <;> rfl

/-- A number that the low bits hold, below the sign, is what they give when they are extended. -/
theorem signExtend_low (k : Nat) (small : imm.toNat < 2 ^ k) : (imm.extractLsb' 0 (k + 1)).signExtend 64 = imm := by
  have val : (imm.extractLsb' 0 (k + 1)).toNat = imm.toNat := by
    rw [BitVec.extractLsb'_toNat, Nat.shiftRight_zero, Nat.mod_eq_of_lt (small.trans (Nat.pow_lt_pow_succ (by decide)))]
  have msb : (imm.extractLsb' 0 (k + 1)).msb = false := by
    rw [BitVec.msb_eq_decide, val]; simpa using small
  rw [BitVec.signExtend_eq_setWidth_of_msb_false msb]
  exact BitVec.eq_of_toNat_eq (by rw [BitVec.toNat_setWidth, val, Nat.mod_eq_of_lt imm.isLt])

/-- A placed immediate reads back, in every length, where the shortest holds it (R30). -/
theorem immRaw_imm (small : imm.toNat < 2 ^ 13) : (immRaw major d a imm m).imm = imm := by
  unfold immRaw
  split
  next len =>
    simp only [Raw.imm, len, Raw.imm14]
    have joined : imm.extractLsb' 5 9 ++ imm.extractLsb' 0 5 = imm.extractLsb' 0 14 :=
      BitVec.extractLsb'_append_extractLsb'_eq_extractLsb' rfl
    rw [joined]
    exact signExtend_low imm 13 small
  next len =>
    simp only [Raw.imm, len]
    exact signExtend_low imm 31 (small.trans (by decide))
  next h0 h1 =>
    unfold Raw.imm
    split
    · contradiction
    · contradiction
    · rfl
end

theorem shiftImm_toNat (kind : BitVec 3) (n : BitVec 6) : (shiftImm kind n).toNat = kind.toNat * 64 + n.toNat := by
  simp only [shiftImm, BitVec.toNat_append]
  rw [← Nat.shiftLeft_add_eq_or_of_lt n.isLt]
  simp [Nat.shiftLeft_eq]
theorem fieldImm_toNat (sign : Bool) (p w : BitVec 6) :
    (fieldImm sign p w).toNat = sign.toNat * 2 ^ 12 + w.toNat * 64 + p.toNat := by
  simp only [fieldImm, BitVec.toNat_append]
  rw [← Nat.shiftLeft_add_eq_or_of_lt p.isLt, ← Nat.shiftLeft_add_eq_or_of_lt w.isLt]
  simp [Nat.shiftLeft_eq]; omega

/-- A shift's kind and amount read back (R39). -/
theorem build_shiftImm (d a : BitVec 5) (kind : BitVec 3) (n : BitVec 6) (m : Mods) (hm : m = m.noImm) :
    build (immRaw 0x7#6 d a (shiftImm kind n) m) = .ok (match kind.toNat with
      | 1 => .shrImm d a n m
      | 2 => .sarImm d a n m
      | 3 => .rolImm d a n m
      | 4 => .rorImm d a n m
      | _ => .shlImm d a n m) := by
  have hk := kind.isLt
  have hn := n.isLt
  have val := shiftImm_toNat kind n
  have imm : (immRaw 0x7#6 d a (shiftImm kind n) m).imm = shiftImm kind n := immRaw_imm _ _ _ _ _ (by omega)
  have low : (shiftImm kind n).extractLsb' 0 6 = n := BitVec.eq_of_toNat_eq (by
    rw [BitVec.extractLsb'_toNat, val, Nat.shiftRight_zero]; omega)
  have high : (shiftImm kind n).toNat / 64 = kind.toNat := by omega
  simp only [build, buildShift, immRaw_major, immRaw_rd, immRaw_ra, immRaw_noImm, imm, low, high, ← hm] <;> rfl
/-- A bit field's sign, width and position read back (R39). -/
theorem build_fieldImm (d a : BitVec 5) (sign : Bool) (p w : BitVec 6) (m : Mods) (hm : m = m.noImm) :
    build (immRaw 0x8#6 d a (fieldImm sign p w) m) = .ok (if sign then .bfxImm d a p w m else .bfxuImm d a p w m) := by
  have hp := p.isLt
  have hw := w.isLt
  have hs : sign.toNat ≤ 1 := sign.toNat_le
  have val := fieldImm_toNat sign p w
  have imm : (immRaw 0x8#6 d a (fieldImm sign p w) m).imm = fieldImm sign p w := immRaw_imm _ _ _ _ _ (by omega)
  have pos : (fieldImm sign p w).extractLsb' 0 6 = p := BitVec.eq_of_toNat_eq (by
    rw [BitVec.extractLsb'_toNat, val, Nat.shiftRight_zero]; omega)
  have width : (fieldImm sign p w).extractLsb' 6 6 = w := BitVec.eq_of_toNat_eq (by
    rw [BitVec.extractLsb'_toNat, val, Nat.shiftRight_eq_div_pow]; omega)
  have bit : (fieldImm sign p w).getLsbD 12 = sign := by
    rw [← BitVec.testBit_toNat, val, Nat.testBit_eq_decide_div_mod_eq]
    have : (sign.toNat * 2 ^ 12 + w.toNat * 64 + p.toNat) / 2 ^ 12 % 2 = sign.toNat := by omega
    rw [this]; cases sign <;> rfl
  simp only [build, buildField, immRaw_major, immRaw_rd, immRaw_ra, immRaw_noImm, imm, pos, width, bit, ← hm] <;> rfl
/-- No row of the tables sets word 1's reserved bits (R23). -/
theorem rsv_of_toRaw {i : Instr} {r : Raw} (h : toRaw i = some r) : r.rsv = 0#4 := by
  cases i with
  | shlImm d a n m | shrImm d a n m | sarImm d a n m | rolImm d a n m | rorImm d a n m | bfxuImm d a p w m
  | bfxImm d a p w m =>
    cases h; exact immRaw_rsv _ _ _ _ _
  | _ => cases h <;> rfl

/-! Branches (R22), control registers (R37), indexed accesses (R44), atomics (R47). -/

/-- A branch's sense, predicate and offset read back; `bt` of p0 is `b`. -/
theorem build_branch (sense : BitVec 1) (p : BitVec 3) (o : BitVec 19) (m : Mods) :
    build (branchRaw sense p o m) = .ok (if sense = 1#1 then .bf p o m else if p = 0#3 then .b o m else .bt p o m) := by
  have pred : ∀ (s : BitVec 1) (p : BitVec 3), BitVec.extractLsb' (n := 5) 0 3 (0#1 ++ s ++ p) = p := by decide
  have bit : ∀ (s : BitVec 1) (p : BitVec 3), BitVec.getLsbD (w := 5) (0#1 ++ s ++ p) 3 = (s == 1#1) := by decide
  show Except.ok (buildBranch (branchRaw sense p o m)) = _
  simp only [buildBranch, branchRaw, pred, bit, extract_offset, beq_iff_eq]

theorem build_krd (d : BitVec 5) (k : BitVec 10) (m : Mods) (form : canonical (.krd d k m) = true) :
    build ⟨0xF#6, d, k.extractLsb' 5 5, k.extractLsb' 0 5, 0x1#9, 0#4, m⟩ = .ok (.krd d k m) := by
  simp only [canonical, Bool.and_eq_true, bne_iff_ne] at form
  obtain ⟨fstat, adoptmax⟩ := form
  have e2 : k.toNat ≠ 0x002 := fun h => fstat (BitVec.eq_of_toNat_eq h)
  have e32 : k.toNat ≠ 0x020 := fun h => adoptmax (BitVec.eq_of_toNat_eq h)
  show buildKrd _ = _
  unfold buildKrd
  simp only [extract_kreg]
theorem build_kwr (k : BitVec 10) (a : BitVec 5) (m : Mods) (form : canonical (.kwr k a m) = true) :
    build ⟨0xF#6, k.extractLsb' 5 5, a, k.extractLsb' 0 5, 0x2#9, 0#4, m⟩ = .ok (.kwr k a m) := by
  simp only [canonical, Bool.and_eq_true, bne_iff_ne] at form
  show buildKwr _ = _
  simp [buildKwr, extract_kreg, form]
/-- A `kwr` of the eight registers from `8 * n` on, which TSHAPE and TMETA are. -/
theorem buildKwr_eight (n : BitVec 7) (i : BitVec 3) (a : BitVec 5) (m : Mods) (hn : n = 2#7 ∨ n = 3#7) :
    build ⟨0xF#6, BitVec.extractLsb' 5 5 (n ++ i), a, BitVec.extractLsb' 0 5 (n ++ i), 0x2#9, 0#4, m⟩ =
      .ok (if n = 2#7 then .kwrTshape i a m else .kwrTmeta i a m) := by
  have low : BitVec.extractLsb' (n := 10) 0 3 (n ++ i) = i := extract_low _ _
  have high : BitVec.extractLsb' (n := 10) 3 7 (n ++ i) = n :=
    (BitVec.extractLsb'_append_eq_of_le (by decide)).trans BitVec.extractLsb'_eq_self
  have others : ∀ i : BitVec 3, ∀ n ∈ [2#7, 3#7], ∀ k ∈ [0x002#10, 0x101#10, 0x112#10], (n ++ i : BitVec 10) ≠ k := by decide
  have other (k : BitVec 10) (hk : k ∈ [0x002#10, 0x101#10, 0x112#10]) : (n ++ i : BitVec 10) ≠ k :=
    others i n (by simpa using hn) k hk
  show buildKwr _ = _
  simp only [buildKwr, extract_kreg, low, high, beq_iff_eq, other 0x002#10 (by decide), other 0x101#10 (by decide),
    other 0x112#10 (by decide), if_false]
  rcases hn with rfl | rfl <;> rfl

/-- The store bit, scale and size of an indexed access. -/
theorem extract_indexed : ∀ (st : BitVec 1) (sc : BitVec 2) (z : BitVec 3),
    let func : BitVec 9 := 0#3 ++ st ++ sc ++ z
    func.extractLsb' 6 3 = 0#3 ∧ func.getLsbD 5 = (st == 1#1) ∧ func.extractLsb' 3 2 = sc ∧ func.extractLsb' 0 3 = z ∧
      func.toNat < 64 := by decide
theorem buildMemx_of_lt (r : Raw) (h : r.func.toNat < 64) : buildMemx r = buildIndexed r := by
  unfold buildMemx
  split
  · omega
  · omega
  · omega
  · rfl
theorem build_ldIndexed (sc : BitVec 2) (z : BitVec 3) (d a b : BitVec 5) (m : Mods)
    (form : canonical (.ldIndexed sc z d a b m) = true) :
    build ⟨0x1E#6, d, a, b, 0#3 ++ 0x0#1 ++ sc ++ z, 0#4, m⟩ = .ok (.ldIndexed sc z d a b m) := by
  obtain ⟨none, store, scale, size, small⟩ := extract_indexed 0x0#1 sc z
  have hz : z ≠ 7#3 := by simpa [canonical] using form
  show buildMemx _ = _
  rw [buildMemx_of_lt _ small, buildIndexed]
  simp only [none, store, scale, size]
  simp [hz]
theorem build_stIndexed (sc : BitVec 2) (z : BitVec 3) (d a b : BitVec 5) (m : Mods)
    (form : canonical (.stIndexed sc z d a b m) = true) :
    build ⟨0x1E#6, d, a, b, 0#3 ++ 0x1#1 ++ sc ++ z, 0#4, m⟩ = .ok (.stIndexed sc z d a b m) := by
  obtain ⟨none, store, scale, size, small⟩ := extract_indexed 0x1#1 sc z
  have even : z = 0#3 ∨ z = 2#3 ∨ z = 4#3 ∨ z = 6#3 := by simpa [canonical, or_assoc] using form
  show buildMemx _ = _
  rw [buildMemx_of_lt _ small, buildIndexed]
  simp only [none, store, scale, size]
  rcases even with rfl | rfl | rfl | rfl <;> rfl

/-- The order of an integer atomic, and its operation, which `buildAtom` finds by taking the order away. -/
theorem extract_amo : ∀ (o : BitVec 2) (w : Bool) (c : BitVec 4),
    let func : BitVec 9 := 0#1 ++ o ++ 0#1 ++ BitVec.ofBool w ++ c
    func.extractLsb' 6 2 = o ∧ func.toNat - o.toNat * 64 = w.toNat * 16 + c.toNat := by decide
/-- The same of a float atomic. -/
theorem extract_famo : ∀ (o : BitVec 2) (w : Bool) (c : BitVec 3),
    let func : BitVec 9 := 0#1 ++ o ++ 2#2 ++ BitVec.ofBool w ++ c
    func.extractLsb' 6 2 = o ∧ func.toNat - o.toNat * 64 = 32 + w.toNat * 8 + c.toNat := by decide

/-! Every row of the tables. -/

/-- What an instruction's fields name is the instruction (R38 to R55). The major and the function are numerals once the
operands that stand in them are split, so that evaluation finds the row; what is left is that operands read back. -/
theorem build_toRaw {i : Instr} {r : Raw} (h : toRaw i = some r) (form : canonical i = true) : build r = .ok i := by
  cases i with
  | add d a b imm m | sub d a b imm m | mul d a b imm m | mulh d a b imm m | mulhu d a b imm m | div d a b imm m
  | divu d a b imm m | rem d a b imm m | remu d a b imm m | and d a b imm m | or d a b imm m | xor d a b imm m
  | andn d a b imm m | shl d a b imm m | shr d a b imm m | sar d a b imm m | rol d a b imm m | ror d a b imm m
  | min d a b imm m | max d a b imm m | minu d a b imm m | maxu d a b imm m | bfxReg d a b imm m | bfxuReg d a b imm m
  | bfi d a b imm m =>
    cases h; cases imm <;> rfl
  -- I32 (R39, R44).
  | addi d a i m | muli d a i m | andi d a i m | ori d a i m | xori d a i m | movi d i m | ldB d a i m | ldBu d a i m
  | ldH d a i m | ldHu d a i m | ldW d a i m | ldWu d a i m | ldD d a i m | stB d a i m | stH d a i m | stW d a i m
  | stD d a i m | ldfe d a i m | stfe d a i m =>
    cases h
    conv_lhs => whnf
    simp only [Raw.imm14, extract_imm14]
  | cmpEqImm p a i m | cmpNeImm p a i m | cmpLtImm p a i m | cmpLeImm p a i m =>
    cases h
    simp [build, buildCmpA, Raw.imm14, extract_imm14, extract_reg3, extract_above_reg3]
  | cmpGtImm p a i m | cmpGeImm p a i m | cmpLtuImm p a i m | cmpLeuImm p a i m =>
    cases h
    simp [build, buildCmpB, Raw.imm14, extract_imm14, extract_reg3, extract_above_reg3]
  | cmpGtuImm p a i m | cmpGeuImm p a i m | cmpTstImm p a i m | cmpTstzImm p a i m =>
    cases h
    simp [build, buildCmpC, Raw.imm14, extract_imm14, extract_reg3, extract_above_reg3]
  | shlImm d a n m | shrImm d a n m | sarImm d a n m | rolImm d a n m | rorImm d a n m =>
    cases h; exact build_shiftImm d a _ n m (by simpa [canonical] using form)
  | bfxuImm d a p w m | bfxImm d a p w m =>
    cases h; exact build_fieldImm d a _ p w m (by simpa [canonical] using form)
  -- PRED and FP (R41, R42).
  | cmpEq p a b m | cmpNe p a b m | cmpLt p a b m | cmpLe p a b m | cmpGt p a b m | cmpGe p a b m | cmpLtu p a b m
  | cmpLeu p a b m | cmpGtu p a b m | cmpGeu p a b m | cmpTst p a b m | cmpTstz p a b m | pand d a b m | por d a b m
  | pxor d a b m | pandn d a b m | pnot d a m | pmov d a m =>
    cases h
    conv_lhs => whnf
    simp only [extract_reg3]
  | fcmpEq w p a b m | fcmpNe w p a b m | fcmpLt w p a b m | fcmpLe w p a b m | fcmpUn w p a b m =>
    cases h
    cases w <;> (conv_lhs => whnf) <;> simp only [extract_reg3]
  | fadd w d a b m | fsub w d a b m | fmul w d a b m | fdiv w d a b m | fsqrt w d a m | fmin w d a b m | fmax w d a b m
  | fabs w d a m | fneg w d a m | fma w d a b m | fnma w d a b m | fclass w d a m =>
    cases h; cases w <;> rfl
  -- SYS (R43).
  | krdFstat d m | krdAdoptmax d m => cases h; show buildKrd _ = _; simp [buildKrd]
  | kwrFstat a m | kwrAssign a m | keyload a m => cases h; show buildKwr _ = _; simp [buildKwr]
  | krd d k m => cases h; exact build_krd d k m form
  | kwr k a m => cases h; exact build_kwr k a m form
  | kwrTshape i a m => cases h; exact buildKwr_eight 2#7 i a m (.inl rfl)
  | kwrTmeta i a m => cases h; exact buildKwr_eight 3#7 i a m (.inr rfl)
  -- MEMX, branches and ATOM (R44, R22, R47).
  | ldIndexed sc z d a b m => cases h; exact build_ldIndexed sc z d a b m form
  | stIndexed sc z d a b m => cases h; exact build_stIndexed sc z d a b m form
  | b o m => cases h; exact build_branch 0#1 0#3 o m
  | bt p o m =>
    cases h
    have hp : p ≠ 0#3 := by simpa [canonical] using form
    exact (build_branch 0#1 p o m).trans (by simp [hp])
  | bf p o m => cases h; exact build_branch 1#1 p o m
  | amoAdd w o d a b m | amoAnd w o d a b m | amoOr w o d a b m | amoXor w o d a b m | amoMin w o d a b m
  | amoMax w o d a b m | amoMinu w o d a b m | amoMaxu w o d a b m | amoXchg w o d a b m | cas w o d a b m =>
    cases h
    show buildAtom _ = _
    cases w <;> simp only [buildAtom, extract_amo] <;> rfl
  | famoAdd w o d a b m | famoMin w o d a b m | famoMax w o d a b m =>
    cases h
    show buildAtom _ = _
    cases w <;> simp only [buildAtom, extract_famo] <;> rfl
  -- Vectors (R49 to R52).
  | vldContig e k d a m | vldStrided e k d a b m | vldIndexed e k d a b m | vstContig e k d a m | vstStrided e k d a b m
  | vstIndexed e k d a b m =>
    cases h
    cases e <;> cases k <;> (conv_lhs => whnf) <;> simp only [extract_reg3]
  | vadd t d a b m | vsub t d a b m | vmul t d a b m | vmulh t d a b m | vmin t d a b m | vmax t d a b m | vminu t d a b m
  | vmaxu t d a b m | vand t d a b m | vor t d a b m | vxor t d a b m | vshl t d a b m | vshr t d a b m | vsar t d a b m
  | vadds t d a b m | vaddus t d a b m | vsubs t d a b m | vsubus t d a b m | vabs t d a m | vneg t d a m
  | vcmpEq t d a b m | vcmpLt t d a b m | vcmpLe t d a b m | vcmpLtu t d a b m | vcmpLeu t d a b m | vmad t d a b m
  | vfadd t d a b m | vfsub t d a b m | vfmul t d a b m | vfdiv t d a b m | vfsqrt t d a m | vfmin t d a b m
  | vfmax t d a b m | vfabs t d a m | vfneg t d a m | vfma t d a b m | vfnma t d a b m | vfcmpEq t d a b m
  | vfcmpLt t d a b m | vfcmpLe t d a b m | vfcmpUn t d a b m | nzscan t d a m | vcompress t d a b m | vperm t d a b m =>
    cases h
    cases t <;> (conv_lhs => whnf) <;> simp only [extract_reg3]
  | vredAdd t o d a m | vredMin t o d a m | vredMax t o d a m =>
    have types : ∀ t : BitVec 2, t = 0#2 ∨ t = 1#2 ∨ t = 2#2 ∨ t = 3#2 := by decide
    cases h
    rcases types t with rfl | rfl | rfl | rfl <;> cases o <;> (conv_lhs => whnf) <;> simp only [extract_reg3]
  | vmov d a m | vbcastW d a m | vbcastD d a m | vextW d a b m | vextD d a b m | vinsW d a b m | vinsD d a b m | vcvt d a m
  | haccO d a b m | haccU d a b m | tld d t a m | tst d t a m | tzero d t m | tmov d t s m =>
    cases h
    conv_lhs => whnf
    simp only [extract_reg3]
  -- Matrix jobs and copies (R54, R55).
  | mma D d a b m | mmaQ D d a b m | mmaSp D d a b m | sca D d a b m | prune D d a m =>
    cases h
    show buildMma _ = _
    simp [buildMma, extract_mma_func, extract_mma_tile, extract_reg3]
  | cpyrAdd u rs d a b m | cpyrMin u rs d a b m | cpyrMax u rs d a b m =>
    cases h; cases u <;> cases rs <;> rfl
  | allredAdd u d a b m | allredMin u d a b m | allredMax u d a b m =>
    cases h; cases u <;> rfl
  -- Nothing of these stands below other bits; a row without words has no fields.
  | _ => cases h <;> rfl

end Sys2Proof
end

section
/-! PROOF. Words that are written down, and words that are read back. -/

namespace Sys2Proof.Proofs

open Sys2Proof Sys2Proof.Machine

/-- Settles O59: the words split into the fields that they were made of, and the fields build the instruction that they were
taken from, whose encoding has no fault. -/
theorem encodeDecodeRoundTrip : Obligations.EncodeDecodeRoundTrip := by
  unfold Obligations.EncodeDecodeRoundTrip
  intro i r rest fields wf
  unfold WellFormed wellFormed at wf
  simp only [fields, Bool.and_eq_true, beq_iff_eq] at wf
  obtain ⟨⟨fits, form⟩, faultless⟩ := wf
  have words : encode i = r.words := by rw [encode, fields]
  have split : splitWords (r.words ++ rest) = some (r, rest) := splitWords_words r rest (rsv_of_toRaw fields) fits
  have decoded : decodeRaw r = .ok i := by simp only [decodeRaw, build_toRaw fields form, faultless]
  simp only [decodeWords, words, split, decoded]

/-- Settles O56: the decoder evaluates to what the spec gives for each word. -/
theorem specWordsDecode : Obligations.SpecWordsDecode := by
  unfold Obligations.SpecWordsDecode
  refine ⟨rfl, rfl, rfl, rfl, rfl, rfl, rfl, rfl, rfl, rfl, rfl, rfl, rfl⟩

end Sys2Proof.Proofs
end

section
/-! SUPPORT. The fetch of words that a slot's buffer holds, and the beginning of a turn. -/

namespace Sys2Proof.Machine

/-! The words of a slot's buffer. -/

/-- A word of the buffer, by its place in it (R117). -/
theorem Slot.held?_of_drop {x : Slot} {base va : Nat} {l ws : List IWord} {w : IWord} (buffer : x.ibuf = some (base, l))
    (low : base ≤ va) (high : va < base + 32) (words : l.drop ((va - base) / 4) = w :: ws) : x.held? va = some w := by
  have first : (l.drop ((va - base) / 4))[0]? = some w := by rw [words]; rfl
  simp only [Slot.held?, buffer, low, high, and_self, if_true]
  simpa [List.getElem?_drop] using first

/-- A word in the image of the thread's launch, or of a launch at level 0, has no image fault (R316). -/
theorem State.imageFault_of_inside {s : State} {va : Word}
    (inside : (s.famAt s.cur.fam).level = 0 ∨
      ((s.famAt s.cur.fam).image.1 ≤ va.toNat ∧ va.toNat + 4 ≤ (s.famAt s.cur.fam).image.1 + (s.famAt s.cur.fam).image.2)) :
    s.imageFault va = false := by
  obtain flat | ⟨low, high⟩ := inside
  · simp [State.imageFault, flat]
  · simp [State.imageFault, low, high]

/-- The first of several words, where the buffer holds it within the image. -/
theorem State.fetchFrom_succ {s t : State} {va : Word} {n : Nat} {w : IWord} {ws : List IWord}
    (held : s.mySlot.held? va.toNat = some w) (clear : s.imageFault va = false)
    (more : s.fetchFrom (va + 4#64) n = .words t ws) : s.fetchFrom va (n + 1) = .words t (w :: ws) := by
  simp only [State.fetchFrom, held, clear, more, Bool.false_eq_true, if_false]

/-- Words that the executing slot's buffer holds within its launch's image are fetched from it, and nothing changes (R19,
R117). -/
theorem State.fetchFrom_held {s : State} {base : Nat} {l : List IWord} (buffer : s.mySlot.ibuf = some (base, l))
    (fits : base + 32 ≤ 2 ^ 64) (n : Nat) (va : Word) (low : base ≤ va.toNat) (high : va.toNat + 4 * n ≤ base + 32)
    (enough : n ≤ (l.drop ((va.toNat - base) / 4)).length)
    (inside : (s.famAt s.cur.fam).level = 0 ∨ ((s.famAt s.cur.fam).image.1 ≤ va.toNat ∧
      va.toNat + 4 * n ≤ (s.famAt s.cur.fam).image.1 + (s.famAt s.cur.fam).image.2)) :
    s.fetchFrom va n = .words s ((l.drop ((va.toNat - base) / 4)).take n) := by
  induction n generalizing va with
  | zero => simp [State.fetchFrom]
  | succ n ih =>
    obtain ⟨w, ws, words⟩ := List.exists_cons_of_length_pos (Nat.lt_of_lt_of_le n.succ_pos enough)
    have tail : l.drop ((va.toNat - base) / 4 + 1) = ws := by rw [← List.drop_drop, words]; rfl
    have held : s.mySlot.held? va.toNat = some w := Slot.held?_of_drop buffer low (by omega) words
    have clear : s.imageFault va = false := State.imageFault_of_inside (inside.imp_right fun h => ⟨h.1, by omega⟩)
    rw [words, List.take_succ_cons]
    refine State.fetchFrom_succ held clear ?_
    match n with
    -- The last word may end the address space, so the address after it is not looked at.
    | 0 => simp [State.fetchFrom]
    | k + 1 =>
      have next : (va + 4#64).toNat = va.toNat + 4 := by
        rw [BitVec.toNat_add]; exact Nat.mod_eq_of_lt (by simp; omega)
      have place : (va.toNat + 4 - base) / 4 = (va.toNat - base) / 4 + 1 := by omega
      have more := ih (va + 4#64)
      rw [next, place, tail] at more
      refine more (by omega) (by omega) ?_ (inside.imp_right fun h => ⟨by omega, by omega⟩)
      simpa [words] using enough

/-- An instruction has at least one word. -/
theorem wordCount_pos (w : IWord) : 0 < wordCount w := by
  unfold wordCount
  split <;> decide

/-- The next instruction's words, where the executing slot's buffer holds them all within its launch's image (R19, R117). -/
theorem State.fetch_held {s : State} {base : Nat} {l : List IWord} (buffer : s.mySlot.ibuf = some (base, l))
    (fits : base + 32 ≤ 2 ^ 64) (low : base ≤ s.cur.pc.toNat) (some_left : l.drop ((s.cur.pc.toNat - base) / 4) ≠ []) :
    let ws := l.drop ((s.cur.pc.toNat - base) / 4)
    let n := wordCount (ws.getD 0 0#32)
    s.cur.pc.toNat + 4 * n ≤ base + 32 → n ≤ ws.length →
    (s.famAt s.cur.fam).level = 0 ∨ ((s.famAt s.cur.fam).image.1 ≤ s.cur.pc.toNat ∧
      s.cur.pc.toNat + 4 * n ≤ (s.famAt s.cur.fam).image.1 + (s.famAt s.cur.fam).image.2) →
    s.fetch = .words s (ws.take n) := by
  intro ws n high enough inside
  have one : 1 ≤ n := wordCount_pos _
  have first := State.fetchFrom_held buffer fits 1 s.cur.pc low (by omega) (one.trans enough)
    (inside.imp_right fun h => ⟨h.1, by omega⟩)
  have all := State.fetchFrom_held buffer fits n s.cur.pc low high enough inside
  obtain ⟨w, more, words⟩ := List.exists_cons_of_ne_nil some_left
  have count : n = wordCount w := by simp only [n, ws, words, List.getD_cons_zero]
  rw [words, List.take_succ_cons] at first
  simp only [State.fetch, first, ← count, all, ws]

/-! The beginning of a turn. -/

section
variable {s : State} {q u : Nat}

@[simp] theorem State.beginTurn_me : (s.beginTurn q).me = q := rfl
@[simp] theorem State.reissues_beginTurn : (s.beginTurn q).reissues u = s.reissues u := rfl

/-- The turn's slot changes in the cycle of its next turn alone (R92). -/
theorem State.slotAt_beginTurn :
    (s.beginTurn q).slotAt q = { s.slotAt q with nextAt := (s.coreAt (coreOfSlot q)).cycle + 8 } := by
  simp [State.beginTurn, State.slotAt]

theorem State.uid_beginTurn (occ : (s.slotAt q).occ = some u) : (s.beginTurn q).uid = u := by
  rw [State.uid, State.uid?, State.beginTurn_me, State.slotAt_beginTurn]
  simp only [occ, Option.getD_some]

/-- Of the threads, a turn's beginning ends its own thread's wait alone. -/
theorem State.threadAt_beginTurn (occ : (s.slotAt q).occ = some u) (v : Nat) :
    (s.beginTurn q).threadAt v = if v = u then { s.threadAt u with wait := .none } else s.threadAt v := by
  have occupant : ((s.beginTurn q).slotAt q).occ.getD 0 = u := by
    rw [State.slotAt_beginTurn]
    simp only [occ, Option.getD_some]
  calc (s.beginTurn q).threadAt v
      = if v = ((s.beginTurn q).slotAt q).occ.getD 0 then
          { s.threadAt (((s.beginTurn q).slotAt q).occ.getD 0) with wait := .none } else s.threadAt v :=
        State.threadAt_modThread ..
    _ = _ := by rw [occupant]
end

/-- A turn of a core whose next slot's words stand in its buffer fetches them (R19, R117). -/
theorem State.turnStart_held {s : State} {core q u base : Nat} {l : List IWord} (exists_core : core < Config.coreCount)
    (parked : s.parkAll core = s) (next : s.nextSlot core = some q) (occ : (s.slotAt q).occ = some u)
    (alive : (s.threadAt u).killed = false) (found : (s.threadAt u).lost = none)
    (buffer : (s.slotAt q).ibuf = some (base, l)) (none_again : s.reissues u = none)
    (low : base ≤ (s.threadAt u).pc.toNat) (fits : base + 32 ≤ 2 ^ 64)
    (some_left : l.drop (((s.threadAt u).pc.toNat - base) / 4) ≠ []) :
    let pc := (s.threadAt u).pc.toNat
    let ws := l.drop ((pc - base) / 4)
    let n := wordCount (ws.getD 0 0#32)
    let f := s.famAt (s.threadAt u).fam
    pc + 4 * n ≤ base + 32 → n ≤ ws.length →
    f.level = 0 ∨ (f.image.1 ≤ pc ∧ pc + 4 * n ≤ f.image.1 + f.image.2) →
    s.turnStart core = .words (s.beginTurn q) (ws.take n) := by
  intro pc ws n f high enough inside
  have cur : (s.beginTurn q).cur = { s.threadAt u with wait := .none } := by
    rw [State.cur, State.uid_beginTurn occ, State.threadAt_beginTurn occ, if_pos rfl]
  have held : (s.beginTurn q).mySlot.ibuf = some (base, l) := by
    rw [State.mySlot, State.beginTurn_me, State.slotAt_beginTurn]
    exact buffer
  have fetched : (s.beginTurn q).fetch = .words (s.beginTurn q) (ws.take n) := by
    have h := State.fetch_held held fits
    rw [cur] at h
    exact h low some_left high enough inside
  simp only [State.turnStart, Nat.not_le_of_lt exists_core, if_false, parked, next, cur, alive, Bool.false_eq_true, found,
    State.uid_beginTurn occ, State.reissues_beginTurn, none_again, fetched]

/-! The moves of a step. -/

/-- A turn that the machine chooses executes the instruction that its words decode to. -/
theorem step_executes_chosen {core : Nat} {s t : State} {ws more : List IWord} {i : Instr} (idle : s.agenda = [])
    (ready : s.readyCore = some core) (fetched : s.turnStart core = .words t ws)
    (decoded : decodeWords ws = .ok (i, more)) : step s = exec i t := by
  simp only [step, idle, ready, State.turn, fetched, decoded]

/-- An event of the agenda is a row without words. -/
theorem step_event {i : Instr} {rest : List Move} {s : State} (next : s.agenda = .event i :: rest) (wordless : toRaw i = none) :
    step s = exec i { s with agenda := rest } := by
  simp only [step, next, wordless, Option.isNone_none, if_true]

/-- An error that arises marks its unit, and changes nothing else. -/
theorem step_upset {unit : Nat} {rest : List Move} {s : State} (next : s.agenda = .upset unit :: rest) :
    ∃ t, step s = .next t ∧ (∀ u, u ∈ t.bad ↔ u = unit ∨ u ∈ s.bad) ∧ { t with bad := s.bad, agenda := s.agenda } = s := by
  refine ⟨({ s with agenda := rest } : State).upset unit, by simp only [step, next], fun u => ?_, rfl⟩
  by_cases same : u = unit <;> simp [State.upset, same]

end Sys2Proof.Machine
end

section
/-! PROOF. A step and the words that its turn has fetched. -/

namespace Sys2Proof.Proofs

open Sys2Proof Sys2Proof.Machine

/-- Settles O57: a turn whose words stand in its slot's buffer takes them from it one by one, and what a turn has fetched is
what its step decodes. -/
theorem stepRunsDecoded : Obligations.StepRunsDecoded := by
  unfold Obligations.StepRunsDecoded
  refine ⟨?_, ?_, ?_, ?_, ?_⟩
  · intro core rest s t ws more i next fetched
    exact ⟨step_executes next fetched, fun c => step_raises_illegal next fetched⟩
  · intro core s t ws more i idle ready fetched decoded
    exact step_executes_chosen idle ready fetched decoded
  · intro i rest s next wordless
    exact step_event next wordless
  · intro unit rest s next
    exact step_upset next
  · intro core q u base l s exists_core parked next occ alive found buffer none_again pc ws low fits some_left n f high enough
      inside
    exact ⟨State.turnStart_held exists_core parked next occ alive found buffer none_again low fits some_left high enough inside,
      State.threadAt_beginTurn occ⟩

end Sys2Proof.Proofs
end

section
/-! SUPPORT. What an instruction with one source writes, and the arithmetic of the immediate majors. -/

namespace Sys2Proof.Machine

/-- A ready instruction with one source writes its function of it, and completes (R30, R35). -/
theorem State.unary_writes {s : State} {m : Mods} {d a : BitVec 5} {v : Word} (f : Word → Word)
    (ready : s.Ready m 0 { src := [a], dst := [d] }) (value : f (s.gpr a) = v) :
    ∃ t, s.unary f d a m = .next t ∧ s.keepsThread t ∧ s.regResult t m a 27#5 d v := by
  subst value
  obtain ⟨result, keeps⟩ := s.complete_writes m a 27#5 d (f (s.gpr a))
  exact ⟨_, s.issue_ready m 0 _ _ ready, keeps, result⟩

/-- The immediate by the instruction's length (R30). -/
theorem imm32_eq (i : BitVec 14) (m : Mods) :
    imm32 i m = if m.len = 0#2 then i.signExtend 64 else if m.len = 1#2 then m.w2.signExtend 64 else m.lit := by
  unfold imm32
  split
  · next h => simp [h]
  · next h => simp [h]
  · next short middle => rw [if_neg short, if_neg middle]

theorem shiftLeft_eq_ofNat (x : Word) (n : Nat) : x <<< n = BitVec.ofNat 64 (x.toNat * 2 ^ n) := by
  apply BitVec.eq_of_toNat_eq
  simp [Nat.shiftLeft_eq]

theorem ushiftRight_eq_ofNat (x : Word) (n : Nat) : x >>> n = BitVec.ofNat 64 (x.toNat / 2 ^ n) := by
  apply BitVec.eq_of_toNat_eq
  rw [BitVec.toNat_ushiftRight, Nat.shiftRight_eq_div_pow, BitVec.toNat_ofNat,
    Nat.mod_eq_of_lt (Nat.lt_of_le_of_lt (Nat.div_le_self ..) x.isLt)]

theorem sshiftRight_eq_ofInt (x : Word) (n : Nat) : x.sshiftRight n = BitVec.ofInt 64 (x.toInt / 2 ^ n) := by
  rw [BitVec.sshiftRight, Int.shiftRight_eq_div_pow]
  norm_cast

theorem rotateLeft_eq_or (x : Word) (n : BitVec 6) : x.rotateLeft n.toNat = x <<< n.toNat ||| x >>> (64 - n.toNat) := by
  rw [BitVec.rotateLeft, Nat.mod_eq_of_lt n.isLt, BitVec.rotateLeftAux]

theorem rotateRight_eq_or (x : Word) (n : BitVec 6) : x.rotateRight n.toNat = x >>> n.toNat ||| x <<< (64 - n.toNat) := by
  rw [BitVec.rotateRight, Nat.mod_eq_of_lt n.isLt, BitVec.rotateRightAux]

/-- A field that ends within the word is read whole (R124). -/
theorem fieldU_eq {p w : Nat} (x : Word) (fits : p + w ≤ 64) : fieldU x p w = BitVec.ofNat 64 (x.toNat / 2 ^ p % 2 ^ w) := by
  rw [fieldU, Nat.min_eq_left (by omega)]
  rfl

theorem fieldS_eq {p w : Nat} (x : Word) (fits : p + w ≤ 64) :
    fieldS x p w = BitVec.ofInt 64 (Int.bmod (x.toNat / 2 ^ p % 2 ^ w : Nat) (2 ^ w)) := by
  rw [fieldS, Nat.min_eq_left (by omega), sextN, BitVec.signExtend, BitVec.toInt_ofNat']
  rfl

end Sys2Proof.Machine
end

section
/-! PROOF. What the immediate majors write. -/

namespace Sys2Proof.Proofs

open Sys2Proof Sys2Proof.Machine

/-- Settles O3: each immediate major is a function of its one source, which the completion writes. -/
theorem immediateResults : Obligations.ImmediateResults := by
  unfold Obligations.ImmediateResults
  simp only [List.forall_mem_cons, List.not_mem_nil, false_imp_iff, implies_true, and_true, ← imm32_eq]
  refine ⟨⟨?_, ?_, ?_, ?_, ?_⟩, ⟨?_, ?_, ?_, ?_, ?_⟩, ?_, ?_⟩
  · intro d a i m s ready
    exact State.unary_writes (· + imm32 i m) ready rfl
  · intro d a i m s ready
    exact State.unary_writes (· * imm32 i m) ready rfl
  · intro d a i m s ready
    exact State.unary_writes (· &&& imm32 i m) ready rfl
  · intro d a i m s ready
    exact State.unary_writes (· ||| imm32 i m) ready rfl
  · intro d a i m s ready
    exact State.unary_writes (· ^^^ imm32 i m) ready rfl
  · intro d a n m s ready
    exact State.unary_writes (· <<< n.toNat) ready (shiftLeft_eq_ofNat ..)
  · intro d a n m s ready
    exact State.unary_writes (· >>> n.toNat) ready (ushiftRight_eq_ofNat ..)
  · intro d a n m s ready
    exact State.unary_writes (·.sshiftRight n.toNat) ready (sshiftRight_eq_ofInt ..)
  · intro d a n m s ready
    exact State.unary_writes (·.rotateLeft n.toNat) ready (rotateLeft_eq_or ..)
  · intro d a n m s ready
    exact State.unary_writes (·.rotateRight n.toNat) ready (rotateRight_eq_or ..)
  · intro d a p w m s ready fits
    exact ⟨State.unary_writes (fieldS · p.toNat (w.toNat + 1)) ready (fieldS_eq _ fits),
      State.unary_writes (fieldU · p.toNat (w.toNat + 1)) ready (fieldU_eq _ fits)⟩
  · intro d i m s ready
    exact State.unary_writes (fun _ => imm32 i m) ready rfl

end Sys2Proof.Proofs
end

section
/-! SUPPORT. What an access and an instruction that reaches memory leave of the threads, from the access to the request. -/

namespace Sys2Proof.Machine

/-! What goes on beside the threads. -/

/-- Cores, clusters, dies and requests apart, the machine is as it was. -/
structure State.Beside (s t : State) : Prop where
  rest : { t with cores := s.cores, clusters := s.clusters, dies := s.dies, reqs := s.reqs } = s

namespace State.Beside

variable {s t v : State}

theorem refl (s : State) : s.Beside s := ⟨rfl⟩
theorem trans (h : s.Beside t) (g : t.Beside v) : s.Beside v := by
  have e : { ({ v with cores := t.cores, clusters := t.clusters, dies := t.dies, reqs := t.reqs } : State) with
             cores := s.cores, clusters := s.clusters, dies := s.dies, reqs := s.reqs } = s := by
    rw [g.rest]; exact h.rest
  exact ⟨e⟩

theorem mem (h : s.Beside t) : t.mem = s.mem := by have := congrArg State.mem h.rest; exact this
theorem bad (h : s.Beside t) : t.bad = s.bad := by have := congrArg State.bad h.rest; exact this
theorem threads (h : s.Beside t) : t.threads = s.threads := by have := congrArg State.threads h.rest; exact this
theorem slots (h : s.Beside t) : t.slots = s.slots := by have := congrArg State.slots h.rest; exact this
theorem me (h : s.Beside t) : t.me = s.me := by have := congrArg State.me h.rest; exact this
theorem nextId (h : s.Beside t) : t.nextId = s.nextId := by have := congrArg State.nextId h.rest; exact this
theorem threadAt (h : s.Beside t) (u : Nat) : t.threadAt u = s.threadAt u := by rw [State.threadAt, h.threads, State.threadAt]
theorem uid (h : s.Beside t) : t.uid = s.uid := by have := congrArg State.uid h.rest; exact this
theorem cur (h : s.Beside t) : t.cur = s.cur := by have := congrArg State.cur h.rest; exact this
theorem gpr (h : s.Beside t) (r : BitVec 5) : t.gpr r = s.gpr r := by have := congrArg (State.gpr · r) h.rest; exact this
theorem myCore (h : s.Beside t) : t.myCore = s.myCore := by have := congrArg State.myCore h.rest; exact this
theorem byteAt (h : s.Beside t) (x : Nat) : t.byteAt x = s.byteAt x := by rw [State.byteAt, h.mem, State.byteAt]
theorem peek (h : s.Beside t) (a n : Nat) : t.peek a n = s.peek a n := by simp only [State.peek, h.byteAt]

theorem modCore (c : Nat) (f : Core → Core) : s.Beside (s.modCore c f) := ⟨rfl⟩
theorem tookResv : s.Beside s.tookResv := ⟨rfl⟩
theorem staleFills (core : Nat) (p : Req → Bool) : s.Beside (s.staleFills core p) := ⟨rfl⟩
theorem storeLine (core a : Nat) (bs : List Byte) : s.Beside (s.storeLine core a bs) := ⟨rfl⟩
theorem tellDie (die : Nat) (c : List Nat) : s.Beside (s.tellDie die c) := ⟨rfl⟩
theorem acquireIssue (wide : Bool) : s.Beside (s.acquireIssue wide) := by cases wide <;> exact ⟨rfl⟩
theorem dropPlace (p : Place) : s.Beside (s.dropPlace p) := by
  unfold State.dropPlace
  split
  · exact refl s
  · exact ⟨rfl⟩

/-- A lookup changes the trees and entries of the TLBs (R341). -/
theorem lookup {core vf va : Nat} {acc : Acc} {x : Option Trans} (h : s.lookup core vf va acc = (t, x)) : s.Beside t := by
  unfold State.lookup at h
  split at h
  · cases h; exact ⟨rfl⟩
  · split at h
    · cases h; exact ⟨rfl⟩
    · cases h; exact refl s

/-- An access that reaches its place has looked up its translation at most (R160). -/
theorem reach {u core vf align : Nat} {acc : Acc} {va : Word} {p : Place} (h : s.reach u core vf acc align va = .ok t p) :
    s.Beside t := by
  unfold State.reach at h
  split at h
  · exact absurd h nofun
  · cases h; exact refl s
  · cases h; exact refl s
  · split at h
    · next found => cases h; exact lookup found
    · exact absurd h nofun

end State.Beside

/-! An instruction that reaches its place. -/

section
variable {s s1 : State} {rel : Bool} {acc : Acc} {size n : Nat} {ea : Word} {p : Place}
  (h : s.Reaches rel acc size ea n s1 p)
include h

theorem State.Reaches.beside : s.Beside s1 := .reach h.place
theorem State.Reaches.beside_tookResv : s.Beside s1.tookResv := h.beside.trans .tookResv

/-- The access of an instruction that reaches its place comes to what the instruction does there. -/
theorem State.Reaches.access (body : State → Place → Out) : s.ordered rel (s.access acc size ea body) = body s1 p := by
  have level : ((s.famAt s.cur.fam).level == 2 && (inTier2 p.addr || isHost p.addr)) = false := by
    obtain flat | ⟨tier, host⟩ := h.determ
    · simp [flat]
    · simp [tier, host]
  have released : (rel && !s.releaseReady s.uid) = false := by
    cases order : rel
    · rfl
    · simp [h.release order]
  simp only [State.ordered, State.access, h.idle, released, h.place, level, Bool.false_eq_true, if_false]

/-- It takes the reservations that are free. -/
theorem State.Reaches.resv (body : State → Out) : s1.withResv n body = body s1.tookResv := by
  rw [State.withResv, if_pos h.free]
  rfl
end

/-! The thread of an instruction that completes. -/

/-- The executing thread once an instruction has completed but for its effect: the consumes, and the next instruction's
address (R35). -/
def State.done (s : State) (m : Mods) (a b : BitVec 5) : Thread :=
  { s.cur.consumed m a b with pc := s.cur.pc + word (lenBytes m) }

/-- The registers of a thread but `d`, pc among them, are those of another. -/
structure Thread.SameBut (x y : Thread) (d : BitVec 5) : Prop where
  pc : x.pc = y.pc
  gpr : ∀ (q : Nat) (r : BitVec 5), r ≠ d → r ≠ 31#5 → x.gpr q r.toNat = y.gpr q r.toNat
  fe : ∀ r : BitVec 5, r ≠ d → x.fe r.toNat = y.fe r.toNat

/-- A register becomes empty with a fill pending, where it can be. -/
def Thread.pended (t : Thread) (d : BitVec 5) (f : Fill) : Thread :=
  if hasFe d.toNat then t.setReg d.toNat ⟨0#64, .pending f⟩ else t

theorem Thread.fe_pended (t : Thread) (d : BitVec 5) (f : Fill) (h : hasFe d.toNat = true) :
    (t.pended d f).fe d.toNat = .pending f := by
  simp [Thread.pended, h, Thread.fe_setReg]

theorem toNat_ne_of_ne {r d : BitVec 5} (h : r ≠ d) : r.toNat ≠ d.toNat := fun e => h (BitVec.eq_of_toNat_eq e)

namespace Thread.SameBut

variable {x y z : Thread} {d : BitVec 5}

theorem refl (x : Thread) (d : BitVec 5) : x.SameBut x d := ⟨rfl, fun _ _ _ _ => rfl, fun _ _ => rfl⟩
theorem trans (h : x.SameBut y d) (g : y.SameBut z d) : x.SameBut z d :=
  ⟨h.pc.trans g.pc, fun q r hr hpc => (h.gpr q r hr hpc).trans (g.gpr q r hr hpc), fun r hr => (h.fe r hr).trans (g.fe r hr)⟩
theorem of_sameRegs (h : x.sameRegs y) (pc : x.pc = y.pc) : x.SameBut y d :=
  ⟨pc, fun q _ _ hpc => Thread.gpr_congr h q _ (toNat_ne_of_ne hpc), fun _ _ => Thread.fe_congr h.1 _⟩
theorem written (v : Word) : (x.written d.toNat v).SameBut x d where
  pc := by rw [Thread.written_rest]
  gpr q r hr _ := Thread.gpr_written_ne x q _ _ v (toNat_ne_of_ne hr)
  fe _ hr := by simp [Thread.fe_written, toNat_ne_of_ne hr]
theorem pended (f : Fill) : (x.pended d f).SameBut x d := by
  unfold Thread.pended
  split
  · exact ⟨rfl, fun q _ hr _ => by simp [Thread.gpr_setReg, toNat_ne_of_ne hr],
      fun _ hr => by simp [Thread.fe_setReg, toNat_ne_of_ne hr]⟩
  · exact refl x d
theorem withSeen (h : x.SameBut y d) (ids : List Nat) : Thread.SameBut { x with seen := ids } y d :=
  .trans (y := x) (.of_sameRegs ⟨rfl, rfl, rfl, rfl, rfl, rfl⟩ rfl) h
theorem withBoundary (h : x.SameBut y d) (n : Nat) : Thread.SameBut { x with boundary := n } y d :=
  .trans (y := x) (.of_sameRegs ⟨rfl, rfl, rfl, rfl, rfl, rfl⟩ rfl) h

end Thread.SameBut

/-- The executing thread of `s` is `x` in `t`; every other thread, the slots and memory are as they were. -/
structure State.Ran (s t : State) (x : Thread) : Prop where
  me : t.me = s.me
  slots : t.slots = s.slots
  mem : t.mem = s.mem
  cur : t.threadAt s.uid = x
  others : ∀ u, u ≠ s.uid → t.threadAt u = s.threadAt u

namespace State.Ran

variable {s t v : State} {x : Thread}

theorem uid_eq (h : s.Ran t x) : t.uid = s.uid := by simp only [State.uid, State.uid?, State.slotAt, h.me, h.slots]
theorem cur_eq (h : s.Ran t x) : t.cur = x := by rw [State.cur, h.uid_eq, h.cur]
theorem gpr_eq (h : s.Ran t x) (r : BitVec 5) : t.gpr r = x.gpr s.me r.toNat := by rw [State.gpr_def, h.cur_eq, h.me]
theorem byteAt_eq (h : s.Ran t x) (a : Nat) : t.byteAt a = s.byteAt a := by rw [State.byteAt, h.mem, State.byteAt]

/-- What goes on beside the threads leaves the thread. -/
theorem beside (h : s.Ran t x) (g : t.Beside v) : s.Ran v x where
  me := g.me.trans h.me
  slots := g.slots.trans h.slots
  mem := g.mem.trans h.mem
  cur := (g.threadAt _).trans h.cur
  others u hu := (g.threadAt u).trans (h.others u hu)

/-- A later change of the thread itself. -/
theorem modThread (h : s.Ran t x) (f : Thread → Thread) : s.Ran (t.modThread s.uid f) (f x) where
  me := h.me
  slots := h.slots
  mem := h.mem
  cur := by rw [State.threadAt_modThread_self, h.cur]
  others u hu := by rw [State.threadAt_modThread, if_neg hu, h.others u hu]
theorem modCur (h : s.Ran t x) (f : Thread → Thread) : s.Ran (t.modCur f) (f x) := by
  rw [State.modCur, h.uid_eq]
  exact h.modThread f

theorem pendGpr (h : s.Ran t x) (d : BitVec 5) (f : Fill) : s.Ran (t.pendGpr d f) (x.pended d f) := by
  unfold State.pendGpr Thread.pended
  split
  · exact h.modCur _
  · exact h

/-- A message that leaves changes no thread. -/
theorem withMsgs (h : s.Ran t x) (ms : Tab Msg) (b : Tab Nat) (c : Tab (List Nat)) (n : Nat) : s.Ran (t.withMsgs ms b c n) x :=
  ⟨h.me, h.slots, h.mem, h.cur, h.others⟩

theorem writeGpr (h : s.Ran t x) (d : BitVec 5) (v : Word) : s.Ran (t.writeGpr d v) (x.written d.toNat v) := by
  rw [State.writeGpr, h.uid_eq]
  unfold State.landGpr Thread.written
  by_cases local_reg : d.toNat < 10
  · rw [if_pos local_reg, if_pos (.inl local_reg)]
    exact h.modThread _
  · by_cases shared : 18 ≤ d.toNat ∧ d.toNat < 22
    · rw [if_neg local_reg, if_pos shared, if_pos (.inr shared)]
      obtain ⟨ms, b, c, n, sent⟩ := State.sendDep_eq (t.modThread s.uid (fun t => t.setReg d.toNat ⟨v, .full⟩))
        (t.threadAt s.uid) (d.toNat - 18) (some v)
      simp only [sent]
      exact (h.modThread _).withMsgs ms b c n
    · rw [if_neg local_reg, if_neg shared, if_neg (not_or.mpr ⟨local_reg, shared⟩)]
      by_cases link : d.toNat = 29
      · rw [if_pos link, if_pos link]
        exact h.modThread _
      · rw [if_neg link, if_neg link]
        exact h

theorem addReq (h : s.Ran t x) (r : Req) : s.Ran (t.addReq r) x := ⟨h.me, h.slots, h.mem, h.cur, h.others⟩
theorem dispatch (h : s.Ran t x) (r : Req) : s.Ran (t.dispatch r) x := by
  unfold State.dispatch
  split
  · exact ⟨h.me, h.slots, h.mem, h.cur, h.others⟩
  · exact h.addReq r

/-- The completion of an instruction, from a state in which no thread has changed yet. -/
theorem consume_advance {m : Mods} {a b : BitVec 5} (h : s.Beside t) : s.Ran ((t.consume m a b).advance m) (s.done m a b) := by
  rw [State.consume_advance, h.uid, h.cur]
  exact ⟨h.me, h.slots, h.mem, State.threadAt_putThread_self _ _ _,
    fun u hu => by rw [State.threadAt_putThread, if_neg hu, h.threadAt]⟩

/-- Whatever keeps the threads of a state in which the instruction has completed, but for a destination, has its effect on
the registers. -/
theorem advancesRegs {m : Mods} {a b d : BitVec 5} (h : s.Ran t x) (same : x.SameBut (s.done m a b) d)
    (threads : v.threads = t.threads) (slots : v.slots = t.slots) (me : v.me = t.me) : s.advancesRegs v m a b d := by
  have now (u : Nat) : v.threadAt u = t.threadAt u := by rw [State.threadAt, threads, State.threadAt]
  have uid : v.uid = s.uid := by rw [← h.uid_eq]; simp only [State.uid, State.uid?, State.slotAt, slots, me]
  have cur : v.cur = x := by rw [State.cur, uid, now, h.cur]
  have regs : (s.done m a b).sameRegs (s.cur.consumed m a b) := ⟨rfl, rfl, rfl, rfl, rfl, rfl⟩
  refine ⟨?_, fun r other free not_pc => ?_, fun r named low other => ?_, fun u hu => ?_⟩
  · rw [cur, same.pc, State.done]
  · obtain ⟨gpr, fe⟩ := Thread.consumed_keeps s.cur m a b r free
    constructor
    · rw [State.gpr_def, cur, me, h.me, same.gpr _ r other not_pc, Thread.gpr_congr regs _ _ (toNat_ne_of_ne not_pc), gpr]
      rfl
    · rw [cur, same.fe r other, Thread.fe_congr regs.1, fe]
  · rw [cur, same.fe r other, Thread.fe_congr regs.1, Thread.consumed_fe _ _ _ _ _ named low]
  · rw [now, h.others u hu]
theorem advances {m : Mods} {a b d : BitVec 5} (h : s.Ran t x) (same : x.SameBut (s.done m a b) d) : s.advances t m a b d :=
  ⟨h.advancesRegs same rfl rfl rfl, h.byteAt_eq⟩

end State.Ran

end Sys2Proof.Machine
end

section
/-! SUPPORT. Requests as they leave, and the scalar loads. -/

namespace Sys2Proof.Machine

/-! Requests as they leave. -/

/-- The executing thread's request for a place, made once it has reached it (R156, R258). -/
theorem State.request_of {s t : State} (h : s.Beside t) (k : Ask) (p : Place) (va : Word) :
    (t.request k p va).of s k.kind k.size va p k.scope k.acq k.rel := by
  refine ⟨rfl, ?_, h.myCore, h.me, ?_, rfl, rfl, rfl, rfl, rfl, rfl, rfl, rfl, ?_⟩
  · exact congrArg some h.uid
  · exact congrArg Thread.vf h.cur
  · exact congrArg Thread.pc h.cur

/-- A request that leaves stands under the next name; one that is counted has its place among its die's writes (R263). -/
theorem State.find?_dispatch (s : State) (r : Req) :
    ∃ place, (s.dispatch r).reqs.find? s.nextId = some { r with place := place } := by
  unfold State.dispatch
  split
  · exact ⟨_, Tab.find?_put_self _ _ _⟩
  · exact ⟨r.place, Tab.find?_put_self _ _ _⟩

/-- A request that is not to the core's own local store only leaves. -/
theorem State.post_away (s : State) (r : Req) (away : isLocalStore r.addr = false) : s.post r = s.dispatch r := by
  simp only [State.post, away, Bool.not_false, if_true]

/-- An instruction has completed with the thread `x`, and has taken no name for a request yet. -/
structure State.Poised (s t : State) (x : Thread) : Prop extends State.Ran s t x where
  nextId : t.nextId = s.nextId

namespace State.Poised

variable {s t v : State} {x : Thread} {m : Mods} {a b d : BitVec 5}

theorem consume_advance (h : s.Beside t) : s.Poised ((t.consume m a b).advance m) (s.done m a b) where
  toRan := .consume_advance h
  nextId := by rw [State.consume_advance]; exact h.nextId
theorem beside (h : s.Poised t x) (g : t.Beside v) : s.Poised v x := ⟨h.toRan.beside g, g.nextId.trans h.nextId⟩
theorem pendGpr (h : s.Poised t x) (d : BitVec 5) (f : Fill) : s.Poised (t.pendGpr d f) (x.pended d f) where
  toRan := h.toRan.pendGpr d f
  nextId := by
    rw [State.pendGpr]
    split <;> exact h.nextId

/-- The request leaves under the next name, and the instruction has its effect on the registers. -/
theorem leaves (h : s.Poised t x) (same : x.SameBut (s.done m a b) d) (r : Req) :
    s.advances (t.dispatch r) m a b d ∧ (t.dispatch r).cur = x ∧
      ∃ place, (t.dispatch r).reqs.find? s.nextId = some { r with place := place } := by
  refine ⟨(h.toRan.dispatch r).advances same, (h.toRan.dispatch r).cur_eq, ?_⟩
  rw [← h.nextId]
  exact t.find?_dispatch r

end State.Poised

/-! Loads. -/

/-- What a load gives in a register that it can write. -/
theorem Thread.written_reads (t : Thread) (q : Nat) {d : BitVec 5} (v : Word) (h : writable d = true) :
    (t.written d.toNat v).gpr q d.toNat = v ∧ (t.written d.toNat v).fe d.toNat = .full := by
  simp only [writable, Bool.or_eq_true, Bool.and_eq_true, decide_eq_true_eq, beq_iff_eq] at h
  refine ⟨Thread.gpr_written_self t q _ v (by omega), ?_⟩
  rw [Thread.fe_written]
  split
  · rfl
  · have link : d.toNat = 29 := by omega
    simp [link, Thread.fe, hasFe]

/-- A landing marks its thread's boundary at most (R262, R263). -/
theorem State.Ran.landed {s t : State} {x : Thread} (h : s.Ran t x) {r : Req} (own : r.thread = some s.uid) :
    ∃ boundary, s.Ran (t.landed r) { x with boundary := boundary } := by
  unfold State.landed
  extract_lets told stale
  have tells : t.Beside told := by
    simp only [told]
    split
    · exact .tellDie _ _
    · exact .refl t
  have stales : told.Beside stale := by
    simp only [stale]
    split
    · exact .staleFills _ _
    · exact .refl told
  have ran : s.Ran stale x := h.beside (tells.trans stales)
  split
  · rw [own]
    exact ⟨_, ran.modThread _⟩
  · exact ⟨x.boundary, ran⟩

/-- A hit in the data cache notes what the thread has seen (R259). -/
theorem State.Ran.noteHit {s t : State} {x : Thread} (h : s.Ran t x) (a n : Nat) :
    ∃ seen, s.Ran (t.noteHit a n) { x with seen := seen } := by
  unfold State.noteHit State.sees
  rw [h.uid_eq]
  exact ⟨_, (h.beside (.modCore _ _)).modThread _⟩

/-- What a load asks for (R258). -/
def loadAsk (size : Nat) (m : Mods) : Ask := { kind := .load, size := size, scope := m.scope.toNat, acq := m.scope != 0#3 }

/-- The line that a core's data cache gives a load, with the cache after the hit (R150, R153). -/
def State.cachedLine (s : State) (core : Nat) (m : Mods) (p : Place) : Option (VWord × Cache) :=
  if p.cached = true ∧ p.isLocal = false ∧ ¬ ((m.scope != 0#3) = true ∧ 2 ≤ m.scope.toNat)
    then (s.coreAt core).dcache.hit? dWays (lineOf p.addr) else none

theorem State.cachedLine_local {s : State} {core : Nat} {m : Mods} {p : Place} (here : p.isLocal = true) :
    s.cachedLine core m p = none := by
  simp [State.cachedLine, here]

section
variable {s s1 : State} {m : Mods} {src : List (BitVec 5)} {a b d : BitVec 5} {ea : Word} {size n : Nat} {signed : Bool}
  {p : Place} (ready : s.Ready m 0 { src := src, dst := [d] }) (reaches : s.Reaches false .load size ea n s1 p)
include ready reaches

/-- A load that is ready and reaches its place is from the local store, from the data cache, or by a request (R162). -/
theorem State.load_eq : s.load m src a b d ea size signed =
    if p.isLocal then
      s1.finish m a b (fun t => ((t.acquireIssue (loadAsk size m).wide).writeGpr d (extend signed (s1.peek p.addr size))).landed
        { s1.request (loadAsk size m) p ea with clock := [] })
    else
      match s1.cachedLine s.myCore m p with
      | some (l, c) => s1.finish m a b (fun t =>
          ((t.noteHit p.addr size).modCore s1.myCore (fun x => { x with dcache := c })).writeGpr d
            (extend signed (lineBytes l p.addr size)))
      | none => s1.withResv 1 (fun s =>
          s.finish m a b (fun t => ((t.acquireIssue (loadAsk size m).wide).pendGpr d (.load t.nextId)).post
            { s.request (loadAsk size m) p ea with install := p.cached, signed := signed, rd := d.toNat })) := by
  have line : s1.cachedLine s.myCore m p = if p.cached && !p.isLocal && !(loadAsk size m).wide
      then (s1.coreAt s1.myCore).dcache.hit? dWays (lineOf p.addr) else none := by
    have wide : (loadAsk size m).wide = decide ((m.scope != 0#3) = true ∧ 2 ≤ m.scope.toNat) := by
      rw [Bool.decide_and, Bool.decide_coe]
      rfl
    simp only [State.cachedLine, wide, reaches.beside.myCore, Bool.and_eq_true, Bool.not_eq_true', decide_eq_false_iff_not, and_assoc]
  rw [State.load, State.issue_ready _ _ _ _ _ ready, reaches.access, line]
  rfl

/-- From the core's own local store a load gives the bytes at once (R146). -/
theorem State.load_local (here : p.isLocal = true) : ∃ t, s.load m src a b d ea size signed = .next t ∧ s.advances t m a b d ∧
    (writable d = true → t.gpr d = extend signed (s.peek p.addr size) ∧ t.cur.fe d.toNat = .full) := by
  have beside : s.Beside s1 := reaches.beside
  have own : (s1.request (loadAsk size m) p ea).thread = some s.uid := congrArg some beside.uid
  have done : s.Ran ((s1.consume m a b).advance m) (s.done m a b) := .consume_advance beside
  have wrote := (done.beside (.acquireIssue (loadAsk size m).wide)).writeGpr d (extend signed (s1.peek p.addr size))
  obtain ⟨boundary, ran⟩ := wrote.landed (r := { s1.request (loadAsk size m) p ea with clock := [] }) own
  rw [State.load_eq ready reaches, if_pos here]
  refine ⟨_, rfl, ran.advances (.withBoundary (.written _) _), fun able => ?_⟩
  rw [ran.gpr_eq, ran.cur_eq, ← beside.peek]
  exact Thread.written_reads (s.done m a b) s.me _ able

/-- A load of a line in the data cache gives the line's bytes (R150, R162). -/
theorem State.load_hit {l : VWord} {c : Cache} (away : p.isLocal = false) (hit : s1.cachedLine s.myCore m p = some (l, c)) :
    ∃ t, s.load m src a b d ea size signed = .next t ∧ s.advances t m a b d ∧
      (writable d = true → t.gpr d = extend signed (lineBytes l p.addr size) ∧ t.cur.fe d.toNat = .full) := by
  have done : s.Ran ((s1.consume m a b).advance m) (s.done m a b) := .consume_advance reaches.beside
  obtain ⟨seen, noted⟩ := done.noteHit p.addr size
  have ran := (noted.beside (.modCore s1.myCore (fun x => { x with dcache := c }))).writeGpr d (extend signed (lineBytes l p.addr size))
  rw [State.load_eq ready reaches, if_neg (by simp [away]), hit]
  refine ⟨_, rfl, ran.advances (.trans (.written _) (.withSeen (.refl _ _) _)), fun able => ?_⟩
  rw [ran.gpr_eq, ran.cur_eq]
  exact Thread.written_reads _ s.me _ able
end

/-- Any other load leaves its destination pending, and sends its request (R156, R162, R258). -/
theorem State.load_miss {s s1 : State} {m : Mods} {src : List (BitVec 5)} {a b d : BitVec 5} {ea : Word} {size : Nat}
    {signed : Bool} {p : Place} (ready : s.Ready m 0 { src := src, dst := [d] })
    (reaches : s.Reaches false .load size ea 1 s1 p) (away : p.isLocal = false) (miss : s1.cachedLine s.myCore m p = none) :
    ∃ t, s.load m src a b d ea size signed = .next t ∧ s.advances t m a b d ∧
      (hasFe d.toNat = true → t.cur.fe d.toNat = .pending (.load s.nextId)) ∧
      ∃ r, t.reqs.find? s.nextId = some r ∧ r.of s .load size ea p m.scope.toNat (m.scope != 0#3) false ∧ r.rd = d.toNat ∧
        r.signed = signed ∧ r.install = p.cached := by
  have beside : s.Beside s1.tookResv := reaches.beside_tookResv
  have done : s.Poised ((s1.tookResv.consume m a b).advance m) (s.done m a b) := .consume_advance beside
  obtain ⟨advances, cur, place, found⟩ := ((done.beside (.acquireIssue (loadAsk size m).wide)).pendGpr d (.load s.nextId)).leaves
    (.pended _) { s1.tookResv.request (loadAsk size m) p ea with install := p.cached, signed := signed, rd := d.toNat }
  rw [State.load_eq ready reaches, if_neg (by simp [away]), miss]
  simp only [reaches.resv, State.finish, done.nextId]
  refine ⟨_, rfl, ?_⟩
  rw [State.post_away _ _ (show isLocalStore p.addr = false from away)]
  refine ⟨advances, fun can => ?_, _, found, State.request_of beside (loadAsk size m) p ea, rfl, rfl, rfl⟩
  rw [cur]
  exact Thread.fe_pended _ _ _ can

/-- A load that is ready and reaches its place: from the core's own local store, from the data cache, or by a request. -/
theorem State.load_reads {s s1 : State} {m : Mods} {src : List (BitVec 5)} {a b d : BitVec 5} {ea : Word} {size : Nat}
    {signed : Bool} {p : Place} (ready : s.Ready m 0 { src := src, dst := [d] })
    (reaches : s.Reaches false .load size ea
      (if p.isLocal = true ∨ (s1.cachedLine s.myCore m p).isSome = true then 0 else 1) s1 p) :
    ∃ t, s.load m src a b d ea size signed = .next t ∧ s.advances t m a b d ∧
      (p.isLocal = true → writable d = true → t.gpr d = extend signed (s.peek p.addr size) ∧ t.cur.fe d.toNat = .full) ∧
      (∀ l c, s1.cachedLine s.myCore m p = some (l, c) → writable d = true →
        t.gpr d = extend signed (lineBytes l p.addr size) ∧ t.cur.fe d.toNat = .full) ∧
      (p.isLocal = false → s1.cachedLine s.myCore m p = none →
        (hasFe d.toNat = true → t.cur.fe d.toNat = .pending (.load s.nextId)) ∧
        ∃ r, t.reqs.find? s.nextId = some r ∧ r.of s .load size ea p m.scope.toNat (m.scope != 0#3) false ∧ r.rd = d.toNat ∧
          r.signed = signed ∧ r.install = p.cached) := by
  cases place : p.isLocal
  case true =>
    have line : s1.cachedLine s.myCore m p = none := State.cachedLine_local place
    obtain ⟨t, run, advances, reads⟩ := State.load_local (a := a) (b := b) (signed := signed) ready reaches place
    refine ⟨t, run, advances, fun _ => reads, fun l c hit => ?_, nofun⟩
    rw [line] at hit
    exact absurd hit (Option.some_ne_none _).symm
  case false =>
    cases line : s1.cachedLine s.myCore m p with
    | some found =>
      obtain ⟨t, run, advances, reads⟩ := State.load_hit (a := a) (b := b) (signed := signed) ready reaches place line
      refine ⟨t, run, advances, nofun, fun l c hit => ?_, fun _ => nofun⟩
      cases hit
      exact reads
    | none =>
      rw [if_neg (by simp [place, line])] at reaches
      obtain ⟨t, run, advances, sends⟩ := State.load_miss (a := a) (b := b) (signed := signed) ready reaches place line
      exact ⟨t, run, advances, nofun, fun _ _ hit => absurd hit (Option.some_ne_none _).symm, fun _ _ => sends⟩

end Sys2Proof.Machine
end

section
/-! PROOF. What the scalar loads read. -/

namespace Sys2Proof.Proofs

open Sys2Proof Sys2Proof.Machine

/-- Settles O17: both forms load by an address, and where the access leads decides among the local store, the data cache and
a request. -/
theorem loadsRead : Obligations.LoadsRead := by
  unfold Obligations.LoadsRead
  intro reads
  have reads_of_load {i : Instr} {m : Mods} {src : List (BitVec 5)} {a b d : BitVec 5} {ea : Word} {size : Nat} {signed : Bool}
      {s : State} (run : exec i s = s.load m src a b d ea size signed) : reads i m src a b d ea size signed s := by
    intro ready s1 p acq hit reaches
    rw [run]
    exact State.load_reads ready reaches
  refine ⟨?_, ?_⟩
  · intro op mem d a i m s
    refine reads_of_load ?_
    rw [← imm32_eq]
    simp only [List.mem_cons, List.not_mem_nil, or_false] at mem
    rcases mem with rfl | rfl | rfl | rfl | rfl | rfl | rfl <;> rfl
  · intro z mem sc d a b m s
    refine reads_of_load ?_
    simp only [List.mem_cons, List.not_mem_nil, or_false] at mem
    rcases mem with rfl | rfl | rfl | rfl | rfl | rfl | rfl <;> rfl

end Sys2Proof.Proofs
end

section
/-! SUPPORT. Faults that end their thread, and the scalar stores. -/

namespace Sys2Proof.Machine

/-! What a lookup leaves of a thread's outstanding work. -/

theorem Tab.mem_of_find? {α : Type} {t : Tab α} {n : Nat} {v : α} (h : Tab.find? t n = some v) : (n, v) ∈ t := by
  induction t with
  | nil => exact absurd h nofun
  | cons e t ih =>
    obtain ⟨k, w⟩ := e
    rw [Tab.find?] at h
    split at h
    next same => cases h; subst same; exact List.mem_cons_self
    next => exact List.mem_cons_of_mem _ (ih h)

/-- A test that fails of the default and holds of a key's value holds of an entry. -/
theorem Tab.any_of_get {α : Type} {P : α → Bool} {t : Tab α} {d : α} {n : Nat} (h : P (t.get d n) = true)
    (blank : P d = false) : t.any (fun e => P e.2) = true := by
  rw [Tab.get] at h
  cases found : Tab.find? t n with
  | none => rw [found, Option.getD_none, blank] at h; exact absurd h nofun
  | some v =>
    rw [found, Option.getD_some] at h
    exact List.any_eq_true.mpr ⟨_, Tab.mem_of_find? found, h⟩

/-- A test that tells a key's new value no differently from the old one finds in the table what it found. -/
theorem Tab.any_put {α : Type} {P : α → Bool} {t : Tab α} {d y : α} {n : Nat} (same : P y = P (t.get d n))
    (blank : P d = false) : (Tab.put t n y).any (fun e => P e.2) = t.any (fun e => P e.2) := by
  induction t with
  | nil => simpa [Tab.put, blank] using same
  | cons e t ih =>
    obtain ⟨k, v⟩ := e
    by_cases before : n < k
    · rw [Tab.put, if_pos before, List.any_cons, same]
      cases value : P (Tab.get ((k, v) :: t) d n) with
      | false => rfl
      | true => exact (Tab.any_of_get value blank).symm
    · by_cases here : n = k
      · have value : Tab.get ((k, v) :: t) d n = v := by simp [Tab.get, Tab.find?, here]
        rw [Tab.put, if_neg before, if_pos here, List.any_cons, List.any_cons, same, value]
      · have value : Tab.get ((k, v) :: t) d n = Tab.get t d n := by simp [Tab.get, Tab.find?, here]
        rw [Tab.put, if_neg before, if_neg here, List.any_cons, List.any_cons, ih (by rw [same, value])]

/-- A change of a core that leaves its store queue and its divide unit leaves what its threads have outstanding. -/
theorem State.settled_modCore (s : State) (core u : Nat) (f : Core → Core) (loq : ∀ c, (f c).loq = c.loq)
    (div : ∀ c, (f c).div = c.div) : (s.modCore core f).settled u = s.settled u := by
  have held : (s.modCore core f).hasHeldStore u = s.hasHeldStore u :=
    Tab.any_put (P := fun c : Core => c.loq.any (fun x => x.thread == u || x.also.contains u)) (by rw [loq]; rfl) rfl
  have divides : (s.modCore core f).dividing u = s.dividing u :=
    Tab.any_put (P := fun c : Core => match c.div with | some d => d.thread == u | none => false) (by rw [div]; rfl) rfl
  rw [State.settled, State.settled, held, divides]
  rfl

theorem State.settled_lookup {s t : State} {core vf va : Nat} {acc : Acc} {x : Option Trans} (u : Nat)
    (h : s.lookup core vf va acc = (t, x)) : t.settled u = s.settled u := by
  unfold State.lookup at h
  split at h
  · cases h
    exact s.settled_modCore _ u _ (fun _ => rfl) (fun _ => rfl)
  · split at h
    · cases h
      refine (State.settled_modCore _ core u _ ?_ ?_).trans rfl
      · exact fun _ => rfl
      · exact fun _ => rfl
    · cases h; rfl

/-- An access that reaches its place leaves what a thread has outstanding. -/
theorem State.settled_reach {s t : State} {v core vf align : Nat} {acc : Acc} {va : Word} {p : Place} (u : Nat)
    (h : s.reach v core vf acc align va = .ok t p) : t.settled u = s.settled u := by
  unfold State.reach at h
  split at h
  · exact absurd h nofun
  · cases h; rfl
  · cases h; rfl
  · split at h
    · next found => cases h; exact State.settled_lookup u found
    · exact absurd h nofun

/-! A precise fault that ends its thread. -/

/-- The code and cause in a fault word (R347). -/
theorem faultWord_code {code cause : Nat} (type level : Nat) (fits : code + cause * 2 ^ 8 < 2 ^ 16) :
    (faultWord code cause type level).toNat % 2 ^ 16 = code + cause * 2 ^ 8 := by
  rw [faultWord, word, BitVec.toNat_ofNat]
  omega

/-- A fault that does not park its thread makes a record of it first (R346, R347). -/
theorem State.raiseAt_records (s : State) (u : Nat) (pc : Word) (code cause : Nat) (addr : Word) (type level : Nat)
    (h : faultParks code cause type = false) :
    ∃ r : Record, s.raiseAt u pc code cause addr type level = (s.addRecord r).endThread u (.fault code cause) ∧
      r.queue = (s.threadAt u).vf ∧ r.kind = 2 ∧ r.awaits = false ∧
      ∃ more, r.body = (s.threadAt u).identity :: faultWord code cause type level :: addr :: pc :: more := by
  unfold State.raiseAt
  extract_lets x q parks t
  have ends : parks = false := h
  refine ⟨_, if_neg (by rw [ends]; exact nofun), rfl, ?_, ends, _, rfl⟩
  rw [ends]
  rfl

/-- The executing thread, where it may fault, ends with its fault recorded. -/
theorem State.raise_faultsEnd {s : State} {code cause : Nat} (addr : Word) {type : Nat} (may : s.mayFault)
    (ending : faultParks code cause type = false) (fits : code + cause * 2 ^ 8 < 2 ^ 16) :
    s.faultsEnd (s.raise code cause addr type) code cause addr := by
  obtain ⟨r, run, queue, kind, awaits, more, body⟩ := s.raiseAt_records s.uid s.cur.pc code cause addr type 0 ending
  obtain ⟨⟨ended, loc, -, -⟩, rest⟩ := (s.addRecord r).endThread_ends s.uid (.fault code cause) may.runs nofun
  have now : s.raise code cause addr type = (s.addRecord r).endThread s.uid (.fault code cause) := by
    rw [State.raise, State.raiseNow, if_pos may.settled, State.raiseFor, ← run]
    rfl
  rw [now]
  refine ⟨ended, loc, ?_⟩
  rw [rest.records]
  refine ⟨_, Tab.find?_put_self _ _ _, queue, kind, awaits, ?_, ?_, ?_, ?_⟩
  · simp only [body]; rfl
  · simp only [body]; exact faultWord_code type 0 fits
  · simp only [body]; rfl
  · simp only [body]; rfl

/-- A fault is as precise after the lookup of the access that meets it. -/
theorem State.Reaches.faultsEnd {s s1 : State} {rel : Bool} {acc : Acc} {size n code cause type : Nat} {ea : Word} {p : Place}
    (h : s.Reaches rel acc size ea n s1 p) (may : s.mayFault) (ending : faultParks code cause type = false)
    (fits : code + cause * 2 ^ 8 < 2 ^ 16) : s.faultsEnd (s1.raise code cause ea type) code cause ea := by
  have slot : s1.mySlot = s.mySlot := by simp only [State.mySlot, State.slotAt, h.beside.me, h.beside.slots]
  have may1 : s1.mayFault :=
    ⟨by rw [h.beside.cur]; exact may.runs, by rw [h.beside.uid, slot]; exact may.alone,
      by rw [h.beside.uid, State.settled_reach _ h.place]; exact may.settled⟩
  have ends := State.raise_faultsEnd ea may1 ending fits
  rwa [State.faultsEnd, h.beside.uid, h.beside.nextId, h.beside.cur] at ends

/-! Bytes. -/

theorem getD_toBytes {n k : Nat} (v : Nat) (h : k < n) : (toBytes n v).getD k 0#8 = BitVec.ofNat 8 (v / 256 ^ k) := by
  induction n generalizing v k with
  | zero => omega
  | succ n ih =>
    cases k with
    | zero => simp [toBytes]
    | succ k => rw [toBytes, List.getD_cons_succ, ih _ (by omega), Nat.div_div_eq_div_mul, Nat.pow_succ']

/-- What a home writes outside encrypted pages where no uncorrectable error stands: its bytes, and no other (R152). -/
theorem State.byteAt_homeWrite {s : State} {a : Nat} {bs : List Byte} (vf : Nat) (va : Word) (x : Nat)
    (clean : ∀ u ∈ s.bad, u < a / 64 ∨ (a + bs.length - 1) / 64 < u) :
    (s.homeWrite vf va none a bs).byteAt x = if a ≤ x ∧ x < a + bs.length then bs.getD (x - a) 0#8 else s.byteAt x := by
  have free : s.bad.any (fun u => a / 64 ≤ u && u ≤ (a + bs.length - 1) / 64) = false := by
    refine List.any_eq_false.mpr fun u hu => ?_
    have outside := clean u hu
    simp only [Bool.and_eq_true, decide_eq_true_eq]
    omega
  rw [State.byteAt, s.homeWrite_mem vf va a bs free, pokeMem_get, State.byteAt]

/-- Threads, slots and whose turn it is stay. -/
structure State.SameThreads (s t : State) : Prop where
  threads : t.threads = s.threads
  slots : t.slots = s.slots
  me : t.me = s.me

namespace State.SameThreads

variable {s t v : State}

theorem refl (s : State) : s.SameThreads s := ⟨rfl, rfl, rfl⟩
theorem trans (h : s.SameThreads t) (g : t.SameThreads v) : s.SameThreads v :=
  ⟨g.threads.trans h.threads, g.slots.trans h.slots, g.me.trans h.me⟩
theorem foldl {α : Type} (xs : List α) (f : State → α → State) (hf : ∀ t x, State.SameThreads t (f t x)) (s : State) :
    s.SameThreads (xs.foldl f s) := by
  induction xs generalizing s with
  | nil => exact refl s
  | cons x xs ih => exact (hf s x).trans (ih (f s x))

theorem markDirty (a : Nat) : s.SameThreads (s.markDirty a) := by
  unfold State.markDirty
  split <;> exact ⟨rfl, rfl, rfl⟩
theorem markRange (a n : Nat) : s.SameThreads (s.markRange a n) := (foldl _ _ (fun _ _ => markDirty _) s).trans (markDirty _)
theorem poke (a : Nat) (bs : List Byte) : s.SameThreads (s.poke a bs) := by
  unfold State.poke
  split
  · exact refl s
  · have writes : s.SameThreads { s with mem := pokeMem s.mem a bs } := ⟨rfl, rfl, rfl⟩
    exact (writes.trans (markDirty a)).trans (markRange a _)
theorem storeError (vf : Nat) (va : Word) (a : Nat) : s.SameThreads (s.storeError vf va a) := ⟨rfl, rfl, rfl⟩
theorem emptyBarriers (a n : Nat) : s.SameThreads (s.emptyBarriers a n) := ⟨rfl, rfl, rfl⟩
theorem answerWaits (a : Nat) (always : Bool) : s.SameThreads (s.answerWaits a always) := ⟨rfl, rfl, rfl⟩

/-- A write at a home outside encrypted pages changes no thread (R152). -/
theorem homeWrite (vf : Nat) (va : Word) (a : Nat) (bs : List Byte) : s.SameThreads (s.homeWrite vf va none a bs) := by
  unfold State.homeWrite
  extract_lets hit units mended written
  have mends : s.SameThreads mended := by
    simp only [mended]
    split
    · have clears : s.SameThreads { s with bad := s.bad.filter (fun u => !units.contains u) } := ⟨rfl, rfl, rfl⟩
      exact (clears.trans (foldl _ _ (fun _ _ => poke _ _) _)).trans (storeError vf va a)
    · exact refl s
  have writes : mended.SameThreads written := (poke a bs).trans (emptyBarriers a _)
  exact (mends.trans writes).trans (foldl _ _ (fun _ _ => answerWaits _ _) _)

end State.SameThreads

/-! Stores. -/

/-- What a store asks for (R164, R258). -/
def storeAsk (size : Nat) (m : Mods) : Ask := { kind := .store, size := size, scope := m.scope.toNat, rel := m.scope != 0#3 }

section
variable {s s1 : State} {m : Mods} {src : List (BitVec 5)} {a b d : BitVec 5} {ea : Word} {size n : Nat} {p : Place}
  (ready : s.Ready m 0 { src := src ++ [d] }) (reaches : s.Reaches (m.scope != 0#3) .store size ea n s1 p)
include ready reaches

/-- A store that is ready and reaches its place is refused, into the local store, or by a request (R162, R291). -/
theorem State.store_eq : s.store m src a b d ea size =
    if p.lo then s1.fail fACCESS 6 ea 1
    else if p.isLocal then
      s1.finish m a b (fun t => t.homeWrite s1.cur.vf ea none p.addr (toBytes size (s.gpr d).toNat))
    else s1.withResv 1 (fun s' =>
      s'.finish m a b (fun t => (t.storeLine s'.myCore p.addr (toBytes size (s.gpr d).toNat)).post
        { s'.request (storeAsk size m) p ea with data := toBytes size (s.gpr d).toNat })) := by
  rw [State.store, State.issue_ready _ _ _ _ _ ready]
  exact reaches.access _

/-- A store to a latest-only page faults ACCESS(6) (R291). -/
theorem State.store_latest (latest : p.lo = true) (may : s.mayFault) :
    ∃ t, s.store m src a b d ea size = .next t ∧ s.faultsEnd t fACCESS 6 ea := by
  rw [State.store_eq ready reaches, if_pos latest]
  exact ⟨_, rfl, reaches.faultsEnd may rfl (by decide)⟩

/-- Into the core's own local store a store writes exactly its bytes at once, where no uncorrectable error stands (R146). -/
theorem State.store_local (plain : p.lo = false) (here : p.isLocal = true) :
    ∃ t, s.store m src a b d ea size = .next t ∧ s.advancesRegs t m a b 27#5 ∧
      ((∀ u ∈ s.bad, u < p.addr / 64 ∨ (p.addr + size - 1) / 64 < u) →
        (∀ k, k < size → t.byteAt (p.addr + k) = BitVec.ofNat 8 ((s.gpr d).toNat / 256 ^ k)) ∧ s.keepsBytes t p.addr size) := by
  have done : s.Ran ((s1.consume m a b).advance m) (s.done m a b) := .consume_advance reaches.beside
  have bad : ((s1.consume m a b).advance m).bad = s.bad := by
    rw [State.consume_advance]; exact reaches.beside.bad
  have same : ((s1.consume m a b).advance m).SameThreads _ :=
    .homeWrite s1.cur.vf ea p.addr (toBytes size (s.gpr d).toNat)
  rw [State.store_eq ready reaches, if_neg (by simp [plain]), if_pos here]
  simp only [State.finish]
  refine ⟨_, rfl, done.advancesRegs (.refl _ _) same.threads same.slots same.me, fun clean => ?_⟩
  have free : ∀ u ∈ ((s1.consume m a b).advance m).bad, u < p.addr / 64 ∨
      (p.addr + (toBytes size (s.gpr d).toNat).length - 1) / 64 < u := by
    rw [bad, length_toBytes]; exact clean
  refine ⟨fun k hk => ?_, fun x hx => ?_⟩
  · rw [State.byteAt_homeWrite _ _ _ free, length_toBytes, if_pos (by omega), Nat.add_sub_cancel_left, getD_toBytes _ hk]
  · rw [State.byteAt_homeWrite _ _ _ free, length_toBytes, if_neg (by omega), done.byteAt_eq]
end

/-- Elsewhere a store sends one request with its bytes (R156, R162). -/
theorem State.store_away {s s1 : State} {m : Mods} {src : List (BitVec 5)} {a b d : BitVec 5} {ea : Word} {size : Nat}
    {p : Place} (ready : s.Ready m 0 { src := src ++ [d] })
    (reaches : s.Reaches (m.scope != 0#3) .store size ea 1 s1 p) (plain : p.lo = false) (away : p.isLocal = false) :
    ∃ t, s.store m src a b d ea size = .next t ∧ s.advances t m a b 27#5 ∧ ∃ r, t.reqs.find? s.nextId = some r ∧
      r.of s .store size ea p m.scope.toNat false (m.scope != 0#3) ∧ r.data = toBytes size (s.gpr d).toNat := by
  have beside : s.Beside s1.tookResv := reaches.beside_tookResv
  have done : s.Poised ((s1.tookResv.consume m a b).advance m) (s.done m a b) := .consume_advance beside
  obtain ⟨advances, -, place, found⟩ :=
    (done.beside (.storeLine s1.tookResv.myCore p.addr (toBytes size (s.gpr d).toNat))).leaves (.refl _ 27#5)
      { s1.tookResv.request (storeAsk size m) p ea with data := toBytes size (s.gpr d).toNat }
  rw [State.store_eq ready reaches, if_neg (by simp [plain]), if_neg (by simp [away]), reaches.resv]
  simp only [State.finish]
  refine ⟨_, rfl, ?_⟩
  rw [State.post_away _ _ (show isLocalStore p.addr = false from away)]
  exact ⟨advances, _, found, State.request_of beside (storeAsk size m) p ea, rfl⟩

end Sys2Proof.Machine
end

section
/-! PROOF. What the scalar stores write. -/

namespace Sys2Proof.Proofs

open Sys2Proof Sys2Proof.Machine

/-- Settles O18: both forms store by an address, and its place decides among the local store, a request and the fault. -/
theorem storesWrite : Obligations.StoresWrite := by
  unfold Obligations.StoresWrite
  intro writes
  have writes_of_store {i : Instr} {m : Mods} {src : List (BitVec 5)} {a b d : BitVec 5} {ea : Word} {size : Nat} {s : State}
      (run : exec i s = s.store m src a b d ea size) : writes i m (src ++ [d]) a b d ea size s := by
    intro ready s1 p reaches
    rw [run]
    refine ⟨fun plain => ?_, fun latest may => State.store_latest ready reaches latest may⟩
    cases place : p.isLocal
    case true =>
      obtain ⟨t, run, advances, bytes⟩ := State.store_local (a := a) (b := b) ready reaches plain place
      exact ⟨t, run, advances, fun _ => bytes, nofun⟩
    case false =>
      rw [if_neg (by simp [place])] at reaches
      obtain ⟨t, run, advances, sends⟩ := State.store_away (a := a) (b := b) ready reaches plain place
      exact ⟨t, run, advances.1, nofun, fun _ => ⟨advances.2, sends⟩⟩
  refine ⟨?_, ?_⟩
  · intro op mem d a i m s
    refine writes_of_store (src := [a]) ?_
    rw [← imm32_eq]
    simp only [List.mem_cons, List.not_mem_nil, or_false] at mem
    rcases mem with rfl | rfl | rfl | rfl <;> rfl
  · intro z mem sc d a b m s
    refine writes_of_store (src := [a, b]) ?_
    simp only [List.mem_cons, List.not_mem_nil, or_false] at mem
    rcases mem with rfl | rfl | rfl | rfl <;> rfl

end Sys2Proof.Proofs
end

section
/-! SUPPORT. Synchronisation instructions as they leave. -/

namespace Sys2Proof.Machine

/-- An instruction sends one request of its executing thread for the 8 bytes at a place, with an operand or a pending
destination where it has one, and waits for the reply where its kind has it (R156, R253, R258). -/
def State.Sends (s : State) (o : Out) (m : Mods) (kind : ReqKind) (ea : Word) (p : Place) (scope : Nat) (acq rel : Bool)
    (a b d : BitVec 5) (opB : Option Word) (pend : Option Fill) : Prop :=
  ∃ u t r, o = .next t ∧ u.posts t s.nextId r ∧ s.advances u m a b d ∧ r.of s kind 8 ea p scope acq rel ∧
    (∀ v, opB = some v → r.opB = v) ∧
    (∀ f, pend = some f → r.rd = d.toNat ∧ (hasFe d.toNat = true → u.cur.fe d.toNat = .pending f)) ∧
    (kind.isReply = true → t.cur.wait = .reply s.nextId)

/-- What a request comes to as it leaves: to the core's own local store it is served at once, and where its thread waits for
the reply it suspends (R146, R253, R270). -/
theorem State.posts_post (s : State) (r : Req) :
    ∃ place, (s.dispatch r).posts
      (if r.kind.isReply = true then (s.post r).suspend (.reply s.nextId) else s.post r) s.nextId { r with place := place } := by
  obtain ⟨place, found⟩ := s.find?_dispatch r
  refine ⟨place, found, ?_⟩
  unfold State.post
  cases here : isLocalStore r.addr
  case false => simp
  case true => cases waits : r.kind.isReply <;> simp

section
variable {s c : State} {x : Thread} {m : Mods} {kind : ReqKind} {ea : Word} {p : Place} {scope : Nat} {acq rel : Bool}
  {a b d : BitVec 5} {opB : Option Word} {pend : Option Fill} {r : Req}

/-- A request that leaves from a state in which the instruction has completed but for it. -/
theorem State.Poised.sends (h : s.Poised c x) (same : x.SameBut (s.done m a b) d) (of : r.of s kind 8 ea p scope acq rel)
    (operand : ∀ v, opB = some v → r.opB = v)
    (fill : ∀ f, pend = some f → r.rd = d.toNat ∧ (hasFe d.toNat = true → x.fe d.toNat = .pending f)) :
    s.Sends (.next (if r.kind.isReply = true then (c.post r).suspend (.reply s.nextId) else c.post r)) m kind ea p scope acq rel
      a b d opB pend := by
  obtain ⟨place, posts⟩ := c.posts_post r
  rw [h.nextId] at posts
  obtain ⟨advances, cur, -⟩ := h.leaves same r
  refine ⟨_, _, _, rfl, posts, advances, of, operand, fun f asked => ?_, fun waits => ?_⟩
  · rw [cur]; exact fill f asked
  · have kind_eq : r.kind = kind := of.1
    rw [kind_eq, if_pos waits, State.suspend, State.cur_modCur]

variable {s1 : State} {size n : Nat} {acc : Acc} (reaches : s.Reaches rel acc size ea n s1 p)
include reaches

/-- A load of a synchronisation word leaves its destination pending (R166, R251). -/
theorem State.Reaches.sends_load {f : Fill} {g : Nat → Fill} (wide : Bool) (fills : g s.nextId = f)
    (of : r.of s kind 8 ea p scope acq false) (away : kind.isReply = false) (rd : r.rd = d.toNat) :
    s.Sends (s1.tookResv.finish m a b (fun t => (((t.dropPlace p).acquireIssue wide).pendGpr d (g t.nextId)).post r))
      m kind ea p scope acq false a b d none (some f) := by
  have done : s.Poised ((s1.tookResv.consume m a b).advance m) (s.done m a b) := .consume_advance reaches.beside_tookResv
  have pends := ((done.beside (.dropPlace p)).beside (.acquireIssue wide)).pendGpr d f
  have sends := pends.sends (opB := none) (pend := some f) (.pended f) of nofun
    (by rintro - ⟨⟩; exact ⟨rd, Thread.fe_pended _ _ _⟩)
  have kind_eq : r.kind = kind := of.1
  rw [kind_eq, away, if_neg Bool.false_ne_true] at sends
  simp only [State.finish, done.nextId, fills]
  exact sends

/-- A request that is only acknowledged (R166, R251, R277). -/
theorem State.Reaches.sends_store (of : r.of s kind 8 ea p scope acq rel) (away : kind.isReply = false)
    (operand : ∀ v, opB = some v → r.opB = v) :
    s.Sends (s1.tookResv.finish m a b (fun t => (t.dropPlace p).post r)) m kind ea p scope acq rel a b 27#5 opB none := by
  have done : s.Poised ((s1.tookResv.consume m a b).advance m) (s.done m a b) := .consume_advance reaches.beside_tookResv
  have sends := (done.beside (.dropPlace p)).sends (pend := none) (.refl _ 27#5) of operand nofun
  have kind_eq : r.kind = kind := of.1
  rw [kind_eq, away, if_neg Bool.false_ne_true] at sends
  exact sends

/-- A request whose reply the thread waits for, with its operand and what it consumes (R253, R274, R277, R280). -/
theorem State.Reaches.sends_wait {w v : Word} {undo : List (Nat × Word)} (of : r.of s kind 8 ea p scope acq rel)
    (waits : kind.isReply = true) (operand : w = v) :
    s.Sends (s1.tookResv.finish m a b (fun t => t.postWait p { r with opB := w, undo := undo })) m kind ea p scope acq rel
      a b 27#5 (some v) none := by
  subst operand
  have done : s.Poised ((s1.tookResv.consume m a b).advance m) (s.done m a b) := .consume_advance reaches.beside_tookResv
  have sends := (done.beside (.dropPlace p)).sends (opB := some w) (pend := none) (r := { r with opB := w, undo := undo })
    (.refl _ 27#5) of (fun _ => Option.some.inj) nofun
  have kind_eq : r.kind = kind := of.1
  rw [if_pos (show r.kind.isReply = true by rw [kind_eq]; exact waits), ← done.nextId] at sends
  exact sends
end

section
variable {s s1 : State} {m : Mods} {need : Need} {rel : Bool} {size : Nat} {ea : Word} {p : Place}
  (ready : s.Ready m 0 need) (reaches : s.Reaches rel .both size ea (if p.isLocal = true then 0 else 1) s1 p)
include ready reaches

/-- A ready access to a word at its home, on a page that takes it, comes to its completion. -/
theorem State.issue_homeAccess (plain : p.lo = false) (body : State → Place → Out) :
    s.issue m 0 need (s.homeAccess rel size ea body) = body s1.tookResv p := by
  rw [State.issue_ready _ _ _ _ _ ready, State.homeAccess, reaches.access, plain, if_neg Bool.false_ne_true, reaches.resv]

/-- So does a ready wait, on any page (R289). -/
theorem State.issue_anyPage (body : State → Place → Out) :
    s.issue m 0 need (s.ordered rel (s.access .both size ea (fun s p =>
      s.withResv (if p.isLocal then 0 else 1) (fun s => body s p)))) = body s1.tookResv p := by
  rw [State.issue_ready _ _ _ _ _ ready, reaches.access, reaches.resv]
end

/-! The instructions. -/

section
variable {s s1 : State} {m : Mods} {p : Place} {a b d : BitVec 5}

theorem execLdfe_sends {i : BitVec 14} (ready : s.Ready m 0 { src := [a], dst := [d] })
    (reaches : s.Reaches false .both 8 (s.dispAddr a i m) (if p.isLocal = true then 0 else 1) s1 p) (plain : p.lo = false) :
    s.Sends (execLdfe d a i m s) m .ldfe (s.dispAddr a i m) p m.scope.toNat (m.scope != 0#3) false a 27#5 d none
      (some (.ldfe s.nextId (s.dispAddr a i m))) := by
  rw [execLdfe, State.issue_homeAccess ready reaches plain]
  refine reaches.sends_load (g := fun id => .ldfe id (s.dispAddr a i m)) _ rfl ?_ rfl rfl
  exact State.request_of reaches.beside_tookResv { kind := .ldfe, size := 8, scope := m.scope.toNat, acq := m.scope != 0#3 } p _

theorem execStfe_sends {i : BitVec 14} (ready : s.Ready m 0 { src := [a, d] })
    (reaches : s.Reaches (m.scope != 0#3) .both 8 (s.dispAddr a i m) (if p.isLocal = true then 0 else 1) s1 p)
    (plain : p.lo = false) :
    s.Sends (execStfe d a i m s) m .stfe (s.dispAddr a i m) p m.scope.toNat false (m.scope != 0#3) a 27#5 27#5
      (some (s.gpr d)) none := by
  rw [execStfe, State.issue_homeAccess ready reaches plain]
  refine reaches.sends_store ?_ rfl (by rintro v ⟨⟩; rfl)
  exact State.request_of reaches.beside_tookResv { kind := .stfe, size := 8, scope := m.scope.toNat, rel := m.scope != 0#3 } p _

theorem execTkget_sends (ready : s.Ready m 0 { src := [a], dst := [d] })
    (reaches : s.Reaches false .both 8 (s.gpr a) (if p.isLocal = true then 0 else 1) s1 p) (plain : p.lo = false) :
    s.Sends (execTkget d a m s) m .tkget (s.gpr a) p (syncScope m) true false a 27#5 d none (some (.load s.nextId)) := by
  rw [execTkget, State.issue_homeAccess ready reaches plain]
  refine reaches.sends_load (g := .load) _ rfl ?_ rfl rfl
  exact State.request_of reaches.beside_tookResv { kind := .tkget, size := 8, scope := syncScope m, acq := true } p _

/-- `tkadv` and `lkrel` (R251, R277). -/
theorem State.syncRelease_sends {kind : ReqKind} (ready : s.Ready m 0 { src := [a] })
    (reaches : s.Reaches true .both 8 (s.gpr a) (if p.isLocal = true then 0 else 1) s1 p) (plain : p.lo = false)
    (away : kind.isReply = false) :
    s.Sends (s.syncRelease kind a m) m kind (s.gpr a) p (syncScope m) false true a 27#5 27#5 none none := by
  rw [State.syncRelease, State.issue_homeAccess ready reaches plain]
  refine reaches.sends_store ?_ away nofun
  exact State.request_of reaches.beside_tookResv { kind := kind, size := 8, scope := syncScope m, rel := true } p _

theorem execTkwait_sends (ready : s.Ready m 0 { src := [a, b] })
    (reaches : s.Reaches false .both 8 (s.gpr a) (if p.isLocal = true then 0 else 1) s1 p) (plain : p.lo = false) :
    s.Sends (execTkwait a b m s) m .tkwait (s.gpr a) p (syncScope m) true false a b 27#5 (some (s.gpr b)) none := by
  rw [execTkwait, State.issue_homeAccess ready reaches plain]
  refine reaches.sends_wait ?_ rfl (reaches.beside_tookResv.gpr b)
  exact State.request_of reaches.beside_tookResv { kind := .tkwait, size := 8, scope := syncScope m, acq := true } p _

/-- `waiteq` and `waitne`, on a latest-only page too (R274, R289). -/
theorem State.waitOp_sends (eq : Bool) (ready : s.Ready m 0 { src := [a, b] })
    (reaches : s.Reaches false .both 8 (s.gpr a) (if p.isLocal = true then 0 else 1) s1 p) :
    s.Sends (s.waitOp eq a b m) m (.wait eq) (s.gpr a) p (syncScope m) true false a b 27#5 (some (s.gpr b)) none := by
  rw [State.waitOp, State.issue_anyPage ready reaches]
  refine reaches.sends_wait ?_ rfl (reaches.beside_tookResv.gpr b)
  exact State.request_of reaches.beside_tookResv { kind := .wait eq, size := 8, scope := syncScope m, acq := true } p _

theorem execLkacq_sends (ready : s.Ready m 0 { src := [a] })
    (reaches : s.Reaches false .both 8 (s.gpr a) (if p.isLocal = true then 0 else 1) s1 p) (plain : p.lo = false) :
    s.Sends (execLkacq a m s) m .lkacq (s.gpr a) p (syncScope m) true false a 27#5 27#5 (some s.cur.tag) none := by
  rw [execLkacq, State.issue_homeAccess ready reaches plain]
  refine reaches.sends_wait ?_ rfl (congrArg Thread.tag reaches.beside_tookResv.cur)
  exact State.request_of reaches.beside_tookResv { kind := .lkacq, size := 8, scope := syncScope m, acq := true } p _

/-- The barrier instructions (R280). -/
theorem State.barrierOp_sends {kind : ReqKind} (ready : s.Ready m 0 { src := [a] })
    (reaches : s.Reaches true .both 8 (s.gpr a) (if p.isLocal = true then 0 else 1) s1 p) (plain : p.lo = false)
    (waits : kind.isReply = true) :
    s.Sends (s.barrierOp kind a m) m kind (s.gpr a) p (syncScope m) false true a 27#5 27#5 (some s.cur.tag) none := by
  rw [State.barrierOp, State.issue_homeAccess ready reaches plain]
  refine reaches.sends_wait ?_ waits (congrArg Thread.tag reaches.beside_tookResv.cur)
  exact State.request_of reaches.beside_tookResv { kind := kind, size := 8, scope := syncScope m, rel := true } p _
end

end Sys2Proof.Machine
end

section
/-! PROOF. What synchronisation instructions send. -/

namespace Sys2Proof.Proofs

open Sys2Proof Sys2Proof.Machine

/-- Settles O21: a load of a word leaves its destination pending, a release is only acknowledged, and a wait, lock or barrier
instruction waits; each by one request under the next name. -/
theorem synchronisationLeaves : Obligations.SynchronisationLeaves := by
  unfold Obligations.SynchronisationLeaves
  intro sends d a b i m s sync ea
  have address : ea = s.dispAddr a i m := by rw [State.dispAddr, imm32_eq]
  clear_value ea
  subst address
  have plain {p : Place} (takes : false = true ∨ p.lo = false) : p.lo = false := takes.resolve_left Bool.false_ne_true
  refine ⟨?_, ?_, ?_, ?_, ?_, ?_, ?_, ?_, ?_, ?_, ?_, ?_⟩ <;> intro ready s1 p takes reaches
  · exact execLdfe_sends ready reaches (plain takes)
  · exact execStfe_sends ready reaches (plain takes)
  · exact execTkget_sends ready reaches (plain takes)
  · exact execTkwait_sends ready reaches (plain takes)
  · exact State.syncRelease_sends ready reaches (plain takes) rfl
  · exact State.waitOp_sends true ready reaches
  · exact State.waitOp_sends false ready reaches
  · exact execLkacq_sends ready reaches (plain takes)
  · exact State.syncRelease_sends ready reaches (plain takes) rfl
  · exact State.barrierOp_sends ready reaches (plain takes) rfl
  · exact State.barrierOp_sends ready reaches (plain takes) rfl
  · exact State.barrierOp_sends ready reaches (plain takes) rfl

end Sys2Proof.Proofs
end

section
/-! SUPPORT. The divide unit: what its issue captures, and where its results land. -/

namespace Sys2Proof.Machine

/-! Lanes that are laid side by side. -/

/-- A number of lanes side by side, each read back. -/
theorem bitsOf_foldr_lanes (w : Nat) (xs : List Nat) (j : Nat) :
    bitsOf (xs.foldr (fun x acc => x % 2 ^ w + 2 ^ w * acc) 0) (w * j) w = xs.getD j 0 % 2 ^ w := by
  induction xs generalizing j with
  | nil => simp [bitsOf]
  | cons x xs ih =>
    cases j with
    | zero => simp [bitsOf]
    | succ j =>
      have below : x % 2 ^ w < 2 ^ w := Nat.mod_lt _ (Nat.two_pow_pos _)
      rw [List.getD_cons_succ, ← ih, List.foldr_cons, bitsOf, bitsOf, Nat.mul_succ, Nat.add_comm (w * j), Nat.pow_add,
        ← Nat.div_div_eq_div_mul, Nat.add_mul_div_left _ _ (Nat.two_pow_pos _), Nat.div_eq_of_lt below, Nat.zero_add]

/-- A field within the low `k` bits of a number is a field of those bits. -/
theorem bitsOf_mod (n : Nat) {lo w k : Nat} (fits : lo + w ≤ k) : bitsOf (n % 2 ^ k) lo w = bitsOf n lo w := by
  refine Nat.eq_of_testBit_eq fun i => ?_
  rw [testBit_bitsOf, testBit_bitsOf, Nat.testBit_mod_two_pow]
  by_cases h : i < w
  · simp [h, show lo + i < k by omega]
  · simp [h]

/-- Lane `j` of a vector that is made of lanes. -/
theorem lane_ofLanes (w : Nat) (xs : List Nat) (j : Nat) (fits : w * j + w ≤ 512) :
    lane w (ofLanes w xs) j = xs.getD j 0 % 2 ^ w := by
  rw [lane, ofLanes, BitVec.toNat_ofNat]
  exact (bitsOf_mod (k := 512) _ fits).trans (bitsOf_foldr_lanes w xs j)

/-- Lane `j` of results by lane, where that lane is among them. -/
theorem lane_laneResults {w n : Nat} (r : Nat → FRes) {j : Nat} (here : j < n) (fits : w * n ≤ 512) :
    lane w (laneResults w ((List.range n).map r)).1 j = (r j).1 % 2 ^ w := by
  have room : w * j + w ≤ 512 := by
    have := Nat.mul_le_mul_left w (Nat.succ_le_of_lt here)
    rw [Nat.mul_succ] at this
    omega
  rw [laneResults, lane_ofLanes w _ j room]
  simp [here]
theorem flags_laneResults (w n : Nat) (r : Nat → FRes) :
    (laneResults w ((List.range n).map r)).2 = (List.range n).foldl (fun acc j => acc ||| (r j).2) 0#5 := by
  simp [laneResults, List.foldl_map]

/-! The issue. -/

/-- A thread whose seed steps where its instruction rounds stochastically (R236). -/
def Thread.stepSeed (t : Thread) (stochastic : Bool) : Thread :=
  if stochastic then { t with srseed := t.srseed + 1#64 } else t

theorem Thread.stepSeed_eq (t : Thread) (c : Bool) : t.stepSeed c = { t with srseed := (t.stepSeed c).srseed } := by
  cases c <;> rfl
theorem Thread.SameBut.stepSeed {x y : Thread} {d : BitVec 5} (h : x.SameBut y d) (c : Bool) : (x.stepSeed c).SameBut y d := by
  rw [Thread.stepSeed_eq]
  exact .trans (y := x) (.of_sameRegs ⟨rfl, rfl, rfl, rfl, rfl, rfl⟩ rfl) h
theorem Thread.fe_stepSeed (t : Thread) (c : Bool) (r : Nat) : (t.stepSeed c).fe r = t.fe r := by
  rw [Thread.stepSeed_eq]; rfl
theorem Thread.pended_eq (t : Thread) (d : BitVec 5) (f : Fill) : t.pended d f = { t with regs := (t.pended d f).regs } := by
  unfold Thread.pended
  split <;> rfl
/-- Beside its full/empty registers and pc, a completed instruction's thread is as it was. -/
theorem State.done_eq (s : State) (m : Mods) (a b : BitVec 5) :
    s.done m a b = { s.cur with regs := (s.done m a b).regs, pc := (s.done m a b).pc } := by
  rw [State.done, Thread.consumed_eq]

theorem State.bumpSeed_putThread (s : State) (x : Thread) (c : Bool) :
    (s.putThread s.uid x).bumpSeed c = s.putThread s.uid (x.stepSeed c) := by
  cases c
  · rfl
  · exact s.modCur_putThread x (fun t => { t with srseed := t.srseed + 1#64 })

theorem State.pendGpr_putThread (s : State) (x : Thread) (d : BitVec 5) (f : Fill) :
    (s.putThread s.uid x).pendGpr d f = s.putThread s.uid (x.pended d f) := by
  unfold State.pendGpr Thread.pended
  split
  · exact s.modCur_putThread x _
  · rfl

/-- Whoever executes stays where a slot's change keeps its occupant. -/
theorem State.uid_modSlot (s : State) (q : Nat) (f : Slot → Slot) (occ : ∀ x, (f x).occ = x.occ) : (s.modSlot q f).uid = s.uid := by
  simp only [State.uid, State.uid?, State.modSlot_me, State.slotAt_modSlot]
  split
  next same => rw [occ, same]
  next => rfl

theorem State.modSlot_modCur_putThread (s : State) (x : Thread) (q : Nat) (f : Slot → Slot) (g : Thread → Thread)
    (occ : ∀ x, (f x).occ = x.occ) :
    ((s.putThread s.uid x).modSlot q f).modCur g = (s.modSlot q f).putThread s.uid (g x) := by
  rw [State.modCur, State.uid_modSlot _ _ _ occ]
  have now : (s.putThread s.uid x).uid = s.uid := rfl
  rw [now, State.modThread, State.threadAt_modSlot, State.threadAt_putThread_self]
  exact (s.modSlot q f).putThread_putThread s.uid x (g x)

/-- The executing slot's operation enters its core's divide unit, and the slot waits in no order for it (R137). -/
def State.divides (s : State) (e : DivOp) : State :=
  s.modCore s.myCore (fun c => { c with divWait := dropSlot s.me c.divWait, div := some e })

section
variable {s : State} {m : Mods} {a b d : BitVec 5} {val : VWord} {fl : Flags} {more : State → State}
  (idle : (s.coreAt s.myCore).div = none) (first : (s.coreAt s.myCore).divWait = [])
include idle first

theorem State.divFree_idle : s.divFree s.me = true := by
  have unit : (s.coreAt (coreOfSlot s.me)).div = none := idle
  have order : (s.coreAt (coreOfSlot s.me)).divWait = [] := first
  simp [State.divFree, unit, order, State.nextIn]

/-- An operation with a general destination enters the idle unit, and leaves its destination pending (R137). -/
theorem State.divide_general : s.divide m a b d false val fl more = .next (more
    ((s.divides ⟨s.uid, s.me, d.toNat, false, val, fl⟩).putThread s.uid ((s.done m a b).pended d .divide))) := by
  rw [State.divide, if_pos (State.divFree_idle idle first), State.finish, State.consume_advance]
  exact congrArg (fun t => Host.Outcome.next (more t))
    ((s.divides ⟨s.uid, s.me, d.toNat, false, val, fl⟩).pendGpr_putThread (s.done m a b) d .divide)

/-- An operation with a vector destination enters the idle unit, leaves its destination pending and pins its thread (R168,
R169, R176). -/
theorem State.divide_vector : s.divide m a b d true val fl more = .next (more
    (((s.divides ⟨s.uid, s.me, d.toNat, true, val, fl⟩).modSlot s.me
      (fun x => { x with vpend := x.vpend.put d.toNat 1 })).putThread s.uid { s.done m a b with vpin := true })) := by
  rw [State.divide, if_pos (State.divFree_idle idle first), State.finish, State.consume_advance]
  exact congrArg (fun t => Host.Outcome.next (more t))
    ((s.divides ⟨s.uid, s.me, d.toNat, true, val, fl⟩).modSlot_modCur_putThread (s.done m a b) s.me
      (fun x => { x with vpend := x.vpend.put d.toNat 1 }) (fun x => { x with vpin := true }) (fun _ => rfl))
end

/-- Whoever executes stays: the effect on the registers is what has become of the executing thread. -/
theorem State.advances_of_cur {s t : State} {x : Thread} {m : Mods} {a b d : BitVec 5} (same : x.SameBut (s.done m a b) d)
    (me : t.me = s.me) (uid : t.uid = s.uid) (mem : t.mem = s.mem) (cur : t.threadAt s.uid = x)
    (others : ∀ u, u ≠ s.uid → t.threadAt u = s.threadAt u) : s.advances t m a b d := by
  have ran : s.Ran { t with slots := s.slots } x := ⟨me, rfl, mem, cur, others⟩
  have reads : ({ t with slots := s.slots } : State).cur = t.cur := by
    rw [ran.cur_eq, State.cur, uid, cur]
  obtain ⟨⟨pc, keeps, empties, others⟩, bytes⟩ := ran.advances same
  have gpr (r : BitVec 5) : ({ t with slots := s.slots } : State).gpr r = t.gpr r := by
    rw [State.gpr_def, State.gpr_def, reads]
  simp only [State.keepsRegs, State.consumes, gpr, reads] at pc keeps empties
  exact ⟨⟨pc, keeps, empties, others⟩, bytes⟩


@[simp] theorem State.uid_divides (s : State) (e : DivOp) : (s.divides e).uid = s.uid := rfl
theorem State.coreAt_divides (s : State) (e : DivOp) (c : Nat) :
    (s.divides e).coreAt c =
      if c = s.myCore then { s.coreAt s.myCore with divWait := dropSlot s.me (s.coreAt s.myCore).divWait, div := some e }
      else s.coreAt c := by
  rw [State.divides, State.coreAt_modCore]

/-- What an operation with a general destination leaves as it enters the divide unit: its result `v` and its flags are in the
unit, its destination is pending, and of the machine only the executing thread and the unit change (R137, R138). -/
def State.Captures (s : State) (o : Out) (m : Mods) (a b d : BitVec 5) (v : VWord) (fl : Flags) : Prop :=
  ∃ t, o = .next t ∧ (t.coreAt s.myCore).div = some ⟨s.uid, s.me, d.toNat, false, v, fl⟩ ∧
    (hasFe d.toNat = true → t.cur.fe d.toNat = .pending .divide) ∧ s.advances t m a b d ∧ s.keepsThreadFp t ∧
    t.cur.fstat = s.cur.fstat ∧ { t with threads := s.threads, cores := s.cores } = s ∧
    (∀ c, c ≠ s.myCore → t.coreAt c = s.coreAt c)

section
variable {s : State} (idle : (s.coreAt s.myCore).div = none) (first : (s.coreAt s.myCore).divWait = [])
include idle first

theorem State.divide_captures (m : Mods) (a b d : BitVec 5) (v : VWord) (fl : Flags) (stochastic : Bool) :
    s.Captures (s.divide m a b d false v fl (fun t => t.bumpSeed stochastic)) m a b d v fl := by
  have left := State.bumpSeed_putThread (s.divides ⟨s.uid, s.me, d.toNat, false, v, fl⟩) ((s.done m a b).pended d .divide) stochastic
  have thread : ((s.done m a b).pended d .divide).stepSeed stochastic =
      { s.cur with
        regs := ((s.done m a b).pended d .divide).regs, pc := (s.done m a b).pc
        srseed := (((s.done m a b).pended d .divide).stepSeed stochastic).srseed } := by
    rw [Thread.stepSeed_eq, Thread.pended_eq, State.done_eq]
  rw [State.uid_divides] at left
  generalize hx : ((s.done m a b).pended d .divide).stepSeed stochastic = x at left thread
  have same : x.SameBut (s.done m a b) d := hx ▸ (Thread.SameBut.pended _).stepSeed _
  have cur : ((s.divides ⟨s.uid, s.me, d.toNat, false, v, fl⟩).putThread s.uid x).cur = x := State.cur_putThread (s.divides _) x
  refine ⟨_, (State.divide_general idle first).trans (congrArg Host.Outcome.next left), ?_, fun can => ?_, ?_, ?_, ?_, rfl, fun c other => ?_⟩
  · rw [State.coreAt_putThread, State.coreAt_divides, if_pos rfl]
  · rw [cur, ← hx, Thread.fe_stepSeed, Thread.fe_pended _ _ _ can]
  · exact State.advances_of_cur same rfl rfl rfl (State.threadAt_putThread_self _ _ _)
      (fun u hu => by rw [State.threadAt_putThread, if_neg hu]; rfl)
  · rw [State.keepsThreadFp, cur, thread]
  · rw [cur, thread]
  · rw [State.coreAt_putThread, State.coreAt_divides, if_neg other]

/-- An operation with a vector destination enters the unit with its lanes' results; the destination is pending, the slot's
vector registers are as they were, and its thread is pinned (R168, R169, R176). -/
theorem State.divide_capturesLanes (m : Mods) (d : BitVec 5) (v : VWord) (fl : Flags) (stochastic : Bool) :
    ∃ t, s.divide m 27#5 27#5 d true v fl (fun t => t.bumpSeed stochastic) = .next t ∧
      (t.coreAt s.myCore).div = some ⟨s.uid, s.me, d.toNat, true, v, fl⟩ ∧ t.mySlot.vpend.get 0 d.toNat = 1 ∧
      t.mySlot.vecs = s.mySlot.vecs ∧ t.cur.vpin = true ∧ s.advances t m 27#5 27#5 27#5 := by
  have run := State.divide_vector (m := m) (a := 27#5) (b := 27#5) (d := d) (val := v) (fl := fl)
    (more := fun t => t.bumpSeed stochastic) idle first
  generalize hv : (s.divides ⟨s.uid, s.me, d.toNat, true, v, fl⟩).modSlot s.me (fun x => { x with vpend := x.vpend.put d.toNat 1 })
    = left at run
  have uid : left.uid = s.uid := by
    rw [← hv]; exact State.uid_modSlot (s.divides _) _ _ (fun _ => rfl)
  have seeded := State.bumpSeed_putThread left { s.done m 27#5 27#5 with vpin := true } stochastic
  rw [uid] at seeded
  have pinned : ({ s.done m 27#5 27#5 with vpin := true } : Thread).SameBut (s.done m 27#5 27#5) 27#5 :=
    .of_sameRegs ⟨rfl, rfl, rfl, rfl, rfl, rfl⟩ rfl
  have me : left.me = s.me := by rw [← hv]; rfl
  have slot : (left.slotAt s.me) = { s.mySlot with vpend := s.mySlot.vpend.put d.toNat 1 } := by
    rw [← hv, State.slotAt_modSlot_self]; rfl
  refine ⟨_, run.trans (congrArg Host.Outcome.next seeded), ?_, ?_, ?_, ?_, ?_⟩
  · rw [State.coreAt_putThread, ← hv, State.coreAt_modSlot, State.coreAt_divides, if_pos rfl]
  · rw [State.mySlot, State.me_putThread', me, State.slotAt_putThread, slot, Tab.get_put_self]
  · rw [State.mySlot, State.me_putThread', me, State.slotAt_putThread, slot]
  · rw [← uid, State.cur_putThread, Thread.stepSeed_eq]
  · refine State.advances_of_cur (pinned.stepSeed stochastic) me uid ?_ (State.threadAt_putThread_self _ _ _) fun u hu => ?_
    · rw [← hv]; rfl
    · rw [State.threadAt_putThread, if_neg hu, ← hv]; rfl
end

/-! Where a result lands. -/

/-- A general register's value as it lands: the thread takes it, and beside threads and messages nothing changes. -/
theorem State.threadAt_landGpr (s : State) (u n : Nat) (v : Word) : (s.landGpr u n v).threadAt u = (s.threadAt u).written n v := by
  unfold State.landGpr Thread.written
  by_cases local_reg : n < 10
  · rw [if_pos local_reg, if_pos (.inl local_reg), State.threadAt_modThread_self]
  · by_cases shared : 18 ≤ n ∧ n < 22
    · rw [if_neg local_reg, if_pos shared, if_pos (.inr shared)]
      obtain ⟨ms, b, c, k, sent⟩ := State.sendDep_eq (s.modThread u (fun t => t.setReg n ⟨v, .full⟩)) (s.threadAt u) (n - 18) (some v)
      simp only [sent]
      exact State.threadAt_modThread_self s u (fun t => t.setReg n ⟨v, .full⟩)
    · rw [if_neg local_reg, if_neg shared, if_neg (not_or.mpr ⟨local_reg, shared⟩)]
      split
      · rw [State.threadAt_modThread_self]
      · rfl
theorem State.landGpr_rest (s : State) (u n : Nat) (v : Word) :
    { s.landGpr u n v with threads := s.threads, msgs := s.msgs, bound := s.bound, carried := s.carried, nextId := s.nextId } = s := by
  unfold State.landGpr
  split
  · rfl
  · split
    · obtain ⟨ms, b, c, k, sent⟩ := State.sendDep_eq (s.modThread u (fun t => t.setReg n ⟨v, .full⟩)) (s.threadAt u) (n - 18) (some v)
      simp only [sent]
      rfl
    · split <;> rfl
@[simp] theorem State.landGpr_mem (s : State) (u n : Nat) (v : Word) : (s.landGpr u n v).mem = s.mem := by
  have e := congrArg State.mem (s.landGpr_rest u n v); exact e
@[simp] theorem State.coreAt_landGpr (s : State) (u n : Nat) (v : Word) (c : Nat) : (s.landGpr u n v).coreAt c = s.coreAt c := by
  have e := congrArg (State.coreAt · c) (s.landGpr_rest u n v); exact e
theorem Thread.reg_written (t : Thread) (n : Nat) (v : Word) (h : n < 10 ∨ 18 ≤ n ∧ n < 22) : (t.written n v).reg n = ⟨v, .full⟩ := by
  rw [Thread.written, if_pos h, Thread.reg_setReg_self]

/-- The divide unit of a core becomes free. -/
def State.freesDivide (s : State) (core : Nat) : State := s.modCore core (fun c => { c with div := none })

section
variable {s : State} {core : Nat} {d : DivOp} (here : (s.coreAt core).div = some d)
include here

/-- A result for a killed thread is discarded (R138). -/
theorem State.divideLands_killed (killed : (s.threadAt d.thread).ended = some .killed) : s.divideLands core = s.freesDivide core := by
  have now : ((s.freesDivide core).threadAt d.thread).ended = some .killed := killed
  simp only [State.divideLands, here]
  exact if_pos (beq_iff_eq.mpr now)

variable (runs : (s.threadAt d.thread).ended ≠ some .killed)
include runs

/-- Any other gives its value to its general destination, and its flags to FSTAT (R137 to R139). -/
theorem State.divideLands_general (kind : d.vec = false) :
    s.divideLands core = ((s.freesDivide core).orFlags d.thread d.flags).landGpr d.thread d.rd (d.val.setWidth 64) := by
  have now : ((s.freesDivide core).threadAt d.thread).ended ≠ some .killed := runs
  simp only [State.divideLands, here, kind]
  exact if_neg (by rw [beq_iff_eq]; exact now)
/-- A vector register takes the lanes where the thread still has the slot (R168). -/
theorem State.divideLands_vector (kind : d.vec = true) :
    s.divideLands core = if (s.slotAt d.slot).occ = some d.thread
      then ((s.freesDivide core).orFlags d.thread d.flags).modSlot d.slot
        (fun x => { x with vecs := x.vecs.set 0#512 d.rd d.val, vpend := x.vpend.del d.rd })
      else (s.freesDivide core).orFlags d.thread d.flags := by
  have now : ((s.freesDivide core).threadAt d.thread).ended ≠ some .killed := runs
  simp only [State.divideLands, here, kind]
  refine (if_neg (by rw [beq_iff_eq]; exact now)).trans ?_
  by_cases there : (s.slotAt d.slot).occ = some d.thread
  · rw [if_pos there]; exact if_neg (show ¬ ((s.slotAt d.slot).occ != some d.thread) = true by simp [there])
  · rw [if_neg there]; exact if_pos (show ((s.slotAt d.slot).occ != some d.thread) = true by simp [there])
end

/-! The integer results, as numbers that fit a word. -/

theorem toNat_quotS (x y : Word) :
    (quotS x y).toNat = if y = 0#64 then 2 ^ 64 - 1 else (BitVec.ofInt 64 (x.toInt.tdiv y.toInt)).toNat := by
  unfold quotS
  split
  · simp
  · exact congrArg BitVec.toNat (BitVec.eq_of_toInt_eq (by rw [BitVec.toInt_sdiv, BitVec.toInt_ofInt]))
theorem toNat_quotU (x y : Word) : (quotU x y).toNat = if y = 0#64 then 2 ^ 64 - 1 else x.toNat / y.toNat := by
  unfold quotU
  split <;> simp
theorem toNat_remS (x y : Word) :
    (remS x y).toNat = if y = 0#64 then x.toNat else (BitVec.ofInt 64 (x.toInt.tmod y.toInt)).toNat := by
  unfold remS
  split
  · rfl
  · rw [← BitVec.toInt_srem, BitVec.ofInt_toInt]
theorem toNat_remU (x y : Word) : (remU x y).toNat = if y = 0#64 then x.toNat else x.toNat % y.toNat := by
  unfold remU
  split <;> simp

/-! Float arguments. -/

/-- Bit 4 of FCTL is daz (R128). -/
theorem Thread.daz_eq (t : Thread) : t.daz = t.fctl.getLsbD 4 := by
  rw [Thread.daz, bitOf_eq_testBit, BitVec.getLsbD]
theorem State.fpArg_eq (s : State) (w : Bool) (r : BitVec 5) :
    s.fpArg w r = (if w then f64 else f32).daz (s.cur.fctl.getLsbD 4) ((if w then f64 else f32).decode (s.gpr r).toNat) := by
  rw [← Thread.daz_eq]; rfl
theorem vfFmt_width (t : Bool) : (vfFmt t).width = laneW t := by cases t <;> rfl
theorem State.vfArg_eq (s : State) (t : Bool) (v : VWord) (i : Nat) :
    s.vfArg (vfFmt t) v i = (if t then f64 else f32).daz (s.cur.fctl.getLsbD 4)
      ((if t then f64 else f32).decode (lane (if t then 64 else 32) v i)) := by
  rw [← Thread.daz_eq, State.vfArg, vfFmt_width]; rfl

/-- The results of a float function by lane, with their flags joined (R175, R176). -/
theorem State.vfLanes_eq (s : State) (m : Mods) (t : Bool) (g : FloatFmt → FEnv → Nat → FRes) (r : Nat → FRes)
    (h : ∀ i, g (vfFmt t) (s.fenv m i) i = r i) :
    s.vfLanes m t g = laneResults (laneW t) ((List.range (laneN t)).map r) := by
  simp only [State.vfLanes, h]

theorem toNat_reg3 (d : BitVec 3) : (reg3 d).toNat = d.toNat := by
  rw [reg3, BitVec.toNat_setWidth, Nat.mod_eq_of_lt (by omega)]

end Sys2Proof.Machine
end

section
/-! PROOF. The divide unit. -/

namespace Sys2Proof.Proofs

open Sys2Proof Sys2Proof.Machine

/-- Settles O9: the issue enters the idle unit with the result and flags of its instruction, and the landing gives them to the
thread unless it was killed. -/
theorem divideUnit : Obligations.DivideUnit := by
  unfold Obligations.DivideUnit
  refine ⟨?_, ?_, ?_⟩
  · intro d a b m s idle first issued
    have captured {i : Instr} {b' : BitVec 5} {v : Nat} {fl : Flags} (stochastic : Bool)
        (run : exec i s = s.divide m a b' d false (BitVec.ofNat 512 v) fl (fun t => t.bumpSeed stochastic)) : issued i b' v fl := by
      have captures := State.divide_captures idle first m a b' d (BitVec.ofNat 512 v) fl stochastic
      rw [← run] at captures
      exact captures
    refine ⟨?_, ?_⟩
    · intro imm ready x y
      have integer {f : Word → Word → Word} {i : Instr} {v : Nat} (run : exec i s = s.intDiv f d a b imm m)
          (value : (f (s.gpr a) (s.opB b imm m)).toNat = v) : issued i b v 0#5 := by
        refine captured false (run.trans ?_)
        rw [State.intDiv, s.issue_ready m 0 { src := intSources a b imm, dst := [d] } _ ready, ← value, BitVec.ofNat_toNat]
        rfl
      exact ⟨integer (f := quotS) rfl (toNat_quotS _ _), integer (f := quotU) rfl (toNat_quotU _ _),
        integer (f := remS) rfl (toNat_remS _ _), integer (f := remU) rfl (toNat_remU _ _)⟩
    · intro w f x
      have arg (r : BitVec 5) : x r = s.fpArg w r := (s.fpArg_eq w r).symm
      refine ⟨fun ready => ?_, fun ready => ?_⟩
      · rw [arg, arg]
        exact captured (s.mode m == 5) (s.issue_ready m 0 _ _ ready)
      · rw [arg]
        exact captured (s.mode m == 5) (s.issue_ready m 0 _ _ ready)
  · intro core d s here
    refine ⟨_, rfl, ?_⟩
    by_cases killed : (s.threadAt d.thread).ended = some .killed
    · rw [State.divideLands_killed here killed]
      exact ⟨by rw [State.freesDivide, State.coreAt_modCore_self], rfl, fun _ => ⟨rfl, rfl, rfl⟩, fun runs => absurd killed runs⟩
    · have unit : ((s.freesDivide core).coreAt core).div = none := by rw [State.freesDivide, State.coreAt_modCore_self]
      have flags : ((s.freesDivide core).orFlags d.thread d.flags).threadAt d.thread =
          { s.threadAt d.thread with fstat := (s.threadAt d.thread).fstat ||| d.flags } := State.threadAt_modThread_self _ _ _
      cases kind : d.vec
      case false =>
        rw [State.divideLands_general here killed kind, State.coreAt_landGpr, State.landGpr_mem, State.threadAt_landGpr, flags]
        refine ⟨unit, rfl, fun k => absurd k killed, fun _ => ⟨?_, fun _ => Thread.reg_written _ _ _, nofun⟩⟩
        rw [Thread.written_rest]
      case true =>
        rw [State.divideLands_vector here killed kind]
        split
        next there =>
          refine ⟨unit, rfl, fun k => absurd k killed, fun _ => ⟨?_, nofun, fun _ _ => ?_⟩⟩
          · rw [State.threadAt_modSlot, flags]
          · rw [State.slotAt_modSlot_self]
            exact ⟨Tab.get_set_self _ _ _ _, by rw [Tab.get, Tab.find?_del_self]; rfl⟩
        next gone => exact ⟨unit, rfl, fun k => absurd k killed, fun _ => ⟨by rw [flags], nofun, fun _ there => absurd there gone⟩⟩
  · intro t d a b m s idle first f w x issued
    have lanes {i : Instr} {vecs : List (BitVec 3)} {g : FloatFmt → FEnv → Nat → FRes} (r : Nat → FRes)
        (run : exec i s = s.vfDivide m vecs d (s.vfLanes m t g)) (ready : s.Ready m 0 { vec := (d :: vecs).map reg3 })
        (each : ∀ i, g (vfFmt t) (s.fenv m i) i = r i) : issued i r := by
      have fits : laneW t * laneN t ≤ 512 := by cases t <;> decide
      obtain ⟨u, out, unit, pending, vecs, pinned, advances⟩ := State.divide_capturesLanes idle first m (reg3 d)
        (s.vfLanes m t g).1 (s.vfLanes m t g).2 (s.mode m == 5)
      refine ⟨u, _, (run.trans (s.issue_ready m 0 _ _ ready)).trans out, unit, rfl, rfl, toNat_reg3 d, rfl, ?_, fun j hj => ?_,
        ?_, vecs, pinned, advances⟩
      · rw [s.vfLanes_eq m t g r each, flags_laneResults]; rfl
      · rw [s.vfLanes_eq m t g r each]; exact lane_laneResults r hj fits
      · rw [← toNat_reg3]; exact pending
    have arg (v : BitVec 3) (i : Nat) : s.vfArg (vfFmt t) (s.vec (reg3 v)) i = x v i := s.vfArg_eq t _ i
    refine ⟨fun ready => ?_, fun ready => ?_⟩
    · exact lanes _ rfl ready (fun i => by rw [arg, arg]; rfl)
    · exact lanes _ rfl ready (fun i => by rw [arg]; rfl)

end Sys2Proof.Proofs
end

section
/-! PROOF. A break whose kill is lost among the messages that its family's end takes back. -/

namespace Sys2Proof.Proofs

open Sys2Proof Sys2Proof.Machine

/-- Member 1 of family 1, thread 7, runs; member 0 has ended with a break, message 1, which is on its way to the family's
home. A claim of the family for slot 0, message 5, is on its way too, but the table of messages lists it behind message 9, out
of order, and 5 is the machine's next name besides. Tables rise in every state that steps lead to, and names are drawn in
order, so no step leads here. -/
def claimOutOfOrder : State :=
  { State.reset with
    threads := [(7, { Thread.blank with fam := 1, k := 1, fh := 256#64, loc := .runq 0 })]
    families := [(1, { Family.blank with alloc := true, count := 2, endedK := [0] })]
    msgs := [(1, .brk 1 0 (.brk 0)), (9, .arm 0#64 0), (5, .claim 1 0 0 none none)]
    nextId := 5 }

/-- Refutes O46: a break is said to leave a kill on its way to each live member above it, whatever else the family's home does
with it. Here the kill of thread 7 takes the name 5 of the claim; the break also ends the family, which delivers its end to no
one and so frees its entry at once; and the entry takes back its claim by name, the kill with it. The statement leaves open
that a name stands twice in the table of messages. -/
theorem not_familyMessagesLand : ¬ Obligations.FamilyMessagesLand := by
  unfold Obligations.FamilyMessagesLand
  intro h
  obtain ⟨-, -, -, -, -, -, -, breaks, -⟩ := h 1 claimOutOfOrder
  obtain ⟨-, recorded⟩ := breaks 1 0 (.brk 0) rfl
  obtain ⟨t, run, -, -, kills⟩ := recorded rfl rfl nofun
  obtain ⟨j, kill⟩ := kills _ (List.mem_singleton.mpr rfl) rfl (by decide +kernel) rfl (by decide)
  have left : (match exec (.breakAtHome 1) claimOutOfOrder with
      | .next t => t.msgs
      | _ => []) = [(9, .arm 0#64 0)] := by decide +kernel
  rw [run] at left
  rw [show t.msgs = [(9, .arm 0#64 0)] from left] at kill
  by_cases only : j = 9 <;> simp [Tab.find?, only] at kill

end Sys2Proof.Proofs
end

section
/-! SUPPORT. Launch queues: what the write of a queue's agent leaves, and how a packet starts and ends. -/

namespace Sys2Proof.Machine

/-! A queue and its packets. -/

section
variable (s : State) (vf q n : Nat)

theorem State.queueAt_congr {s t : State} (h : t.funcs = s.funcs) (vf q : Nat) : t.queueAt vf q = s.queueAt vf q := by
  simp only [State.queueAt, State.funcAt, h]
@[simp] theorem State.queueAt_modQueue_self (f : Queue → Queue) :
    (s.modQueue vf q f).queueAt vf q = f (s.queueAt vf q) := by
  simp [State.queueAt, State.modQueue, Func.queueAt]
@[simp] theorem State.queueAt_putPacket_self (p : Packet) :
    (s.putPacket vf q n p).queueAt vf q = { s.queueAt vf q with packets := (s.queueAt vf q).packets.put n p } := by
  simp [State.putPacket]
@[simp] theorem State.packetAt_putPacket_self (p : Packet) : (s.putPacket vf q n p).packetAt? vf q n = some p := by
  simp [State.packetAt?]
theorem State.queueAt_started_self (p : Packet) :
    (s.started vf q n p).queueAt vf q = { s.queueAt vf q with
      head := (s.queueAt vf q).head + 1, packets := (s.queueAt vf q).packets.put n { p with stage := 2 } } := by
  simp [State.started]
@[simp] theorem State.packetAt_started_self (p : Packet) :
    (s.started vf q n p).packetAt? vf q n = some { p with stage := 2 } := by
  simp [State.started]
theorem State.modQueue_modQueue (f g : Queue → Queue) :
    (s.modQueue vf q f).modQueue vf q g = s.modQueue vf q (g ∘ f) := by
  simp [State.modQueue, State.modFunc, Func.queueAt, State.funcAt]
theorem State.queueAt_modFunc_self (f : Func → Func) : (s.modFunc vf f).queueAt vf q = (f (s.funcAt vf)).queueAt q := by
  simp [State.queueAt]
end

/-- The packets that are dropped from the front raise done by their number, and leave the rest of the queue. -/
theorem Queue.advanceDone_eq (m : Nat) (y : Queue) :
    ∃ k ps, y.advanceDone m = { y with done := y.done + word k, packets := ps } ∧
      (∀ p, 0 < m → y.packets.find? y.done.toNat = some p → p.stage = 3 → 1 ≤ k) := by
  induction m generalizing y with
  | zero => exact ⟨0, y.packets, by simp [Queue.advanceDone, word], fun _ h => absurd h (Nat.lt_irrefl 0)⟩
  | succ m ih =>
    rw [Queue.advanceDone]
    split
    · next p found =>
      split
      · obtain ⟨k, ps, eq, -⟩ := ih { y with done := y.done + 1, packets := y.packets.del y.done.toNat }
        have sum : y.done + 1 + word k = y.done + word (k + 1) := by
          rw [word, word, BitVec.ofNat_add, BitVec.add_assoc, BitVec.add_comm 1]
          rfl
        exact ⟨k + 1, ps, by rw [eq, ← sum], fun _ _ _ _ => Nat.succ_pos k⟩
      · next open' =>
        refine ⟨0, y.packets, by simp [word], fun p' _ found' done => ?_⟩
        rw [found, Option.some.injEq] at found'
        exact absurd (found' ▸ done) open'
    · next missing =>
      exact ⟨0, y.packets, by simp [word], fun p' _ found _ => absurd (missing ▸ found) nofun⟩

/-! The write of a queue's agent. -/

/-- Beside memory with its marks and the numbers of latest-only pages, nothing changes. -/
structure State.OnlyMemory (s t : State) : Prop where
  rest : { t with mem := s.mem, dirty := s.dirty, nums := s.nums, latest := s.latest } = s

namespace State.OnlyMemory

variable {s t v : State}

theorem refl (s : State) : s.OnlyMemory s := ⟨rfl⟩
theorem trans (h : s.OnlyMemory t) (g : t.OnlyMemory v) : s.OnlyMemory v := by
  refine ⟨?_⟩
  have e : { ({ v with mem := t.mem, dirty := t.dirty, nums := t.nums, latest := t.latest } : State) with
             mem := s.mem, dirty := s.dirty, nums := s.nums, latest := s.latest } = s := by
    rw [g.rest]; exact h.rest
  exact e
theorem foldl {α : Type} (xs : List α) (f : State → α → State) (hf : ∀ t x, State.OnlyMemory t (f t x)) (s : State) :
    s.OnlyMemory (xs.foldl f s) := by
  induction xs generalizing s with
  | nil => exact refl s
  | cons x xs ih => exact (hf s x).trans (ih (f s x))

theorem funcs (h : s.OnlyMemory t) : t.funcs = s.funcs := by have := congrArg State.funcs h.rest; exact this
theorem records (h : s.OnlyMemory t) : t.records = s.records := by have := congrArg State.records h.rest; exact this
theorem nextId (h : s.OnlyMemory t) : t.nextId = s.nextId := by have := congrArg State.nextId h.rest; exact this
theorem reqs (h : s.OnlyMemory t) : t.reqs = s.reqs := by have := congrArg State.reqs h.rest; exact this
theorem bad (h : s.OnlyMemory t) : t.bad = s.bad := by have := congrArg State.bad h.rest; exact this
theorem pkg (h : s.OnlyMemory t) : t.pkg = s.pkg := by have := congrArg State.pkg h.rest; exact this

theorem markDirty (s : State) (a : Nat) : s.OnlyMemory (s.markDirty a) := by
  unfold State.markDirty
  split
  · exact ⟨rfl⟩
  · exact refl s
theorem poke (s : State) (a : Nat) (bs : List Byte) : s.OnlyMemory (s.poke a bs) := by
  unfold State.poke
  split
  · exact refl s
  · have writes : s.OnlyMemory { s with mem := pokeMem s.mem a bs } := ⟨rfl⟩
    exact (writes.trans (markDirty _ a)).trans ((foldl _ _ (fun t _ => markDirty t _) _).trans (markDirty _ _))
theorem writeRun (s : State) (key : Option Nat) (a : Nat) (bs : List Byte) : s.OnlyMemory (s.writeRun key a bs) := by
  unfold State.writeRun
  split
  · exact poke s _ _
  · split
    · exact poke s _ _
    · exact refl s
theorem writeBytes (s : State) (key : Option Nat) (a : Nat) (bs : List Byte) : s.OnlyMemory (s.writeBytes key a bs) := by
  unfold State.writeBytes
  split
  · exact poke s _ _
  · exact foldl _ _ (fun t _ => writeRun t _ _ _) s

/-- A walk sets bit d of a leaf at most (R339). -/
theorem walkFrom (s : State) (vf va : Nat) (write both : Bool) (lv tb : Nat) :
    s.OnlyMemory (s.walkFrom vf va write both lv tb).1 := by
  induction lv generalizing tb with
  | zero => exact refl s
  | succ lv ih =>
    unfold State.walkFrom
    dsimp only
    split
    · exact refl s
    · split
      · exact refl s
      · split
        · exact refl s
        · split
          · split
            · exact refl s
            · split
              · dsimp only
                exact poke s _ _
              · exact refl s
          · split
            · exact refl s
            · exact ih _
theorem noteWalk (s : State) (vf va : Nat) (f : Found) : s.OnlyMemory (s.noteWalk vf va f) := by
  have e := s.noteWalk_rest vf va f
  have mem := s.noteWalk_mem vf va f
  have dirty : (s.noteWalk vf va f).dirty = s.dirty := by have d := congrArg State.dirty e; exact d
  exact ⟨by rw [← mem, ← dirty]; exact e⟩
theorem engineReach (s : State) (core vf : Nat) (acc : Acc) (align : Nat) (va : Word) :
    s.OnlyMemory (s.engineReach core vf acc align va).1 := by
  have walks (w b : Bool) : s.OnlyMemory (s.walk vf va.toNat w b).1 :=
    (walkFrom s vf va.toNat w b 5 _).trans (noteWalk _ vf va.toNat _)
  unfold State.engineReach
  split
  · exact refl s
  · exact refl s
  · exact refl s
  · dsimp only
    split <;> exact walks _ _

end State.OnlyMemory

/-- Every function stays, and so do the records made before. -/
structure State.KeepsQueues (s t : State) : Prop where
  funcs : t.funcs = s.funcs
  names : s.nextId ≤ t.nextId
  records : ∀ i, i < s.nextId → t.records.find? i = s.records.find? i

namespace State.KeepsQueues

variable {s t v : State}

theorem refl (s : State) : s.KeepsQueues s := ⟨rfl, Nat.le_refl _, fun _ _ => rfl⟩
theorem trans (h : s.KeepsQueues t) (g : t.KeepsQueues v) : s.KeepsQueues v :=
  ⟨g.funcs.trans h.funcs, h.names.trans g.names, fun i hi => (g.records i (hi.trans_le h.names)).trans (h.records i hi)⟩
theorem foldl {α : Type} (xs : List α) (f : State → α → State) (hf : ∀ t x, State.KeepsQueues t (f t x)) (s : State) :
    s.KeepsQueues (xs.foldl f s) := by
  induction xs generalizing s with
  | nil => exact refl s
  | cons x xs ih => exact (hf s x).trans (ih (f s x))
theorem of_memory (h : s.OnlyMemory t) : s.KeepsQueues t :=
  ⟨h.funcs, h.nextId.ge, fun i _ => by rw [h.records]⟩

theorem addRecord (s : State) (r : Record) : s.KeepsQueues (s.addRecord r) := by
  refine ⟨rfl, Nat.le_succ _, fun i hi => ?_⟩
  rw [State.addRecord_records, Tab.find?_put_ne _ _ _ _ hi.ne]
theorem addReq (s : State) (r : Req) : s.KeepsQueues (s.addReq r) := ⟨rfl, Nat.le_succ _, fun _ _ => rfl⟩
theorem answerWaits (s : State) (a : Nat) (always : Bool) : s.KeepsQueues (s.answerWaits a always) :=
  ⟨rfl, Nat.le_refl _, fun _ _ => rfl⟩
theorem homeWrite (s : State) (vf : Nat) (va : Word) (key : Option Nat) (a : Nat) (bs : List Byte) :
    s.KeepsQueues (s.homeWrite vf va key a bs) := by
  unfold State.homeWrite
  extract_lets hit units mended written
  have mends : s.KeepsQueues mended := by
    simp only [mended]
    split
    · have clears : s.KeepsQueues { s with bad := s.bad.filter (fun u => !units.contains u) } :=
        ⟨rfl, Nat.le_refl _, fun _ _ => rfl⟩
      exact (clears.trans (foldl _ _ (fun t _ => of_memory (.poke t _ _)) _)).trans (addRecord _ _)
    · exact refl s
  have writes : mended.KeepsQueues written :=
    (of_memory (.writeBytes mended key a bs)).trans ⟨rfl, Nat.le_refl _, fun _ _ => rfl⟩
  exact (mends.trans writes).trans (foldl _ _ (fun t _ => answerWaits t _ _) _)
theorem agentStore (s : State) (vf : Nat) (va : Word) (key : Option Nat) (a : Nat) (bs : List Byte) :
    s.KeepsQueues (s.agentStore vf va key a bs) := by
  unfold State.agentStore
  split
  · exact addReq s _
  · exact homeWrite s vf va key a bs
theorem queueWrite (s : State) (vf q : Nat) (tag addr w : Word) : s.KeepsQueues (s.queueWrite vf q tag addr w) := by
  have reach := of_memory (OnlyMemory.engineReach s (s.queueAt vf q).core vf .store 8 addr)
  unfold State.queueWrite
  dsimp only
  split
  · exact refl s
  · split
    · next found =>
      rw [found] at reach
      exact reach.trans (addRecord _ _)
    · next found =>
      rw [found] at reach
      split
      · exact reach.trans (addRecord _ _)
      · split
        · exact reach.trans (addRecord _ _)
        · exact reach.trans (agentStore _ _ _ _ _ _)

end State.KeepsQueues

@[simp] theorem State.queueWrite_nowhere (s : State) (vf q : Nat) (tag w : Word) : s.queueWrite vf q tag 0#64 w = s := rfl

/-- A write at a home where no uncorrectable error stands writes its bytes, encrypted or not (R152). -/
theorem State.homeWrite_mem_of_clean (s : State) (vf : Nat) (va : Word) (key : Option Nat) (a : Nat) (bs : List Byte)
    (clean : s.bad = []) : (s.homeWrite vf va key a bs).mem = (s.writeBytes key a bs).mem := by
  unfold State.homeWrite
  refine (State.foldl_mem _ _ (fun t d => t.answerWaits d false) (fun t x => t.answerWaits_mem x false)).trans ?_
  simp [clean]

/-- A queue's word lands where its address leads, when nothing refuses the write or holds it back (R306, R371, R410). -/
theorem State.queueWrite_writes {s v : State} {vf q : Nat} {pl : Place} (tag w : Word) {addr : Word} (some' : addr ≠ 0#64)
    (clean : s.bad = []) (free : ∀ e ∈ s.reqs, e.2.engine ≠ some agentName)
    (reach : s.engineReach (s.queueAt vf q).core vf .store 8 addr = (v, .ok pl)) (plain : pl.lo = false)
    (ready : v.keyReady pl.key = true) (near : inTier2 pl.addr = false) :
    v.homeWrites (s.queueWrite vf q tag addr w) pl.key pl.addr (toBytes 8 w.toNat) := by
  have only := OnlyMemory.engineReach s (s.queueAt vf q).core vf .store 8 addr
  rw [reach] at only
  have none_held : (v.reqs.any fun e => e.2.engine == some agentName && e.2.unserved && homeOf e.2.addr == homeOf pl.addr) =
      false := by
    rw [only.reqs, List.any_eq_false]
    intro e he
    simp [free e he]
  have now : s.queueWrite vf q tag addr w = v.homeWrite vf addr pl.key pl.addr (toBytes 8 w.toNat) := by
    rw [State.queueWrite, if_neg some']
    simp [reach, plain, ready, State.agentStore, State.linkDown, near, none_held]
  rw [now]
  exact v.homeWrite_mem_of_clean vf addr pl.key pl.addr _ (only.bad.trans clean)

/-! The end of a packet. -/

section
variable {s : State} {vf q n : Nat} {p : Packet}

/-- A packet that completes raises done by the packets that it drops, and writes it where it changes (R306). -/
theorem State.packetDone_eq (here : s.packetAt? vf q n = some p) :
    ∃ k ps, let y : Queue := { s.queueAt vf q with done := (s.queueAt vf q).done + word k, packets := ps }
      let t := s.modQueue vf q (fun _ => y)
      s.packetDone vf q n = (if y.done = (s.queueAt vf q).done then t else t.queueWrite vf q p.tag y.doneaddr y.done) ∧
      ((s.queueAt vf q).done = word n → n < 2 ^ 64 → 1 ≤ k) := by
  obtain ⟨k, ps, advance, rises⟩ := Queue.advanceDone_eq ((s.queueAt vf q).packets.put n { p with stage := 3 }).length
    { s.queueAt vf q with packets := (s.queueAt vf q).packets.put n { p with stage := 3 } }
  refine ⟨k, ps, ?_, fun front fits => ?_⟩
  · rw [State.packetDone, here]
    simp only [State.queueAt_putPacket_self, advance]
    rw [State.putPacket, State.modQueue_modQueue]
    rfl
  · have here' : (word n).toNat = n := by rw [word, BitVec.toNat_ofNat, Nat.mod_eq_of_lt fits]
    refine rises { p with stage := 3 } ?_ ?_ rfl
    · exact List.length_pos_of_mem (Tab.mem_of_find? (Tab.find?_put_self _ n _))
    · simp [front, here']

/-- A packet that completes where no doneaddr is set changes its queue alone, and raises done from its own number on. -/
theorem State.packetDone_quiet (here : s.packetAt? vf q n = some p) (nowhere : (s.queueAt vf q).doneaddr = 0#64) :
    ∃ k ps, s.packetDone vf q n =
        s.modQueue vf q (fun x => { x with done := x.done + word k, packets := ps }) ∧
      ((s.queueAt vf q).done = word n → n < 2 ^ 64 → 1 ≤ k) := by
  obtain ⟨k, ps, eq, rises⟩ := State.packetDone_eq here
  refine ⟨k, ps, ?_, rises⟩
  rw [eq, nowhere, State.queueWrite_nowhere, ite_self]
  rfl

/-- A packet that completes keeps its queue's head, and the records made before. -/
theorem State.packetDone_keeps (here : s.packetAt? vf q n = some p) :
    ((s.packetDone vf q n).queueAt vf q).head = (s.queueAt vf q).head ∧
      ∀ i, i < s.nextId → (s.packetDone vf q n).records.find? i = s.records.find? i := by
  obtain ⟨k, ps, completes⟩ := State.packetDone_eq here
  extract_lets x y t at completes
  have queue : t.queueAt vf q = y := State.queueAt_modQueue_self s vf q _
  have writes := State.KeepsQueues.queueWrite t vf q p.tag y.doneaddr y.done
  rw [completes.1]
  split
  · exact ⟨by rw [queue], fun _ _ => rfl⟩
  · exact ⟨by rw [State.queueAt_congr writes.funcs, queue], fun i hi => writes.records i hi⟩

/-- A queue that has written a completion word is as it was, and its packet completes. -/
theorem State.packetEnds_eq (here : s.packetAt? vf q n = some p) (addr w : Word) :
    let t := s.queueWrite vf q p.tag addr w
    s.packetEnds vf q n addr w = t.packetDone vf q n ∧ t.queueAt vf q = s.queueAt vf q ∧ t.packetAt? vf q n = some p := by
  have queue := State.queueAt_congr (State.KeepsQueues.queueWrite s vf q p.tag addr w).funcs vf q
  exact ⟨by rw [State.packetEnds, here], queue, by rw [State.packetAt?, queue]; exact here⟩
/-- The end of a packet keeps its queue's head, and the records made before. -/
theorem State.packetEnds_keeps (here : s.packetAt? vf q n = some p) (addr w : Word) :
    ((s.packetEnds vf q n addr w).queueAt vf q).head = (s.queueAt vf q).head ∧
      ∀ i, i < s.nextId → (s.packetEnds vf q n addr w).records.find? i = s.records.find? i := by
  have writes := State.KeepsQueues.queueWrite s vf q p.tag addr w
  obtain ⟨ends, queue, here'⟩ := State.packetEnds_eq here addr w
  obtain ⟨head, records⟩ := State.packetDone_keeps here'
  rw [ends]
  exact ⟨by rw [head, queue], fun i hi => (records i (hi.trans_le writes.names)).trans (writes.records i hi)⟩
/-- Where no doneaddr is set, the end of a packet writes its completion word alone. -/
theorem State.packetEnds_mem (here : s.packetAt? vf q n = some p) (nowhere : (s.queueAt vf q).doneaddr = 0#64) (addr w : Word) :
    (s.packetEnds vf q n addr w).mem = (s.queueWrite vf q p.tag addr w).mem := by
  obtain ⟨ends, queue, here'⟩ := State.packetEnds_eq here addr w
  obtain ⟨k, ps, eq, -⟩ := State.packetDone_quiet here' (by rw [queue]; exact nowhere)
  rw [ends, eq]
  rfl
end

/-- What the completion word of a packet depends on is alike: memory, the package, the function's context, and the queue but
for its packets and its done. -/
structure State.SameEnd (vf q : Nat) (s t : State) : Prop where
  mem : t.mem = s.mem
  pkg : t.pkg = s.pkg
  bad : t.bad = s.bad
  reqs : t.reqs = s.reqs
  ctxroot : (t.funcAt vf).ctxroot = (s.funcAt vf).ctxroot
  prot : (t.funcAt vf).prot = (s.funcAt vf).prot
  head : (t.queueAt vf q).head = (s.queueAt vf q).head
  core : (t.queueAt vf q).core = (s.queueAt vf q).core
  doneaddr : (t.queueAt vf q).doneaddr = (s.queueAt vf q).doneaddr

section
variable {s v : State} {vf q n : Nat} {p : Packet}

theorem State.SameEnd.started (h : s.SameEnd vf q v) :
    (v.started vf q n p).mem = s.mem ∧ (v.started vf q n p).pkg = s.pkg ∧ (v.started vf q n p).bad = s.bad ∧
      (v.started vf q n p).reqs = s.reqs ∧ ((v.started vf q n p).funcAt vf).ctxroot = (s.funcAt vf).ctxroot ∧
      ((v.started vf q n p).funcAt vf).prot = (s.funcAt vf).prot := by
  refine ⟨h.mem, h.pkg, h.bad, h.reqs, ?_, ?_⟩
  · rw [← h.ctxroot]; simp [State.started, State.putPacket, State.modQueue]
  · rw [← h.prot]; simp [State.started, State.putPacket, State.modQueue]

/-- A packet that starts and ends at once moves the head on and writes its completion word (R309, R313). -/
theorem State.SameEnd.ends (h : s.SameEnd vf q v) (w : Word) :
    let t := (v.started vf q n p).packetEnds vf q n (p.dword 4) w
    (t.queueAt vf q).head = (s.queueAt vf q).head + 1#64 ∧
      (p.dword 4 = 0#64 → (s.queueAt vf q).doneaddr = 0#64 → t.mem = s.mem) ∧
      (p.dword 4 ≠ 0#64 → s.bad = [] → (s.queueAt vf q).doneaddr = 0#64 →
        (∀ e ∈ s.reqs, e.2.engine ≠ some agentName) →
        s.wordWritten t vf (s.queueAt vf q).core (p.dword 4) w) := by
  intro t
  have here : (v.started vf q n p).packetAt? vf q n = some { p with stage := 2 } := State.packetAt_started_self v vf q n p
  obtain ⟨mem, pkg, bad, reqs, ctxroot, prot⟩ := h.started (n := n) (p := p)
  have queue := State.queueAt_started_self v vf q n p
  have core : ((v.started vf q n p).queueAt vf q).core = (s.queueAt vf q).core := by rw [queue]; exact h.core
  have done (nowhere : (s.queueAt vf q).doneaddr = 0#64) : ((v.started vf q n p).queueAt vf q).doneaddr = 0#64 := by
    rw [queue, ← nowhere]; exact h.doneaddr
  refine ⟨?_, fun none' nowhere => ?_, fun some' clean nowhere free => ?_⟩
  · rw [(State.packetEnds_keeps here (p.dword 4) w).1, queue, ← h.head]; rfl
  · rw [State.packetEnds_mem here (done nowhere), none', State.queueWrite_nowhere, mem]
  · refine ⟨v.started vf q n p, mem, pkg, bad, ctxroot, prot, fun a pl reach plain ready near => ?_⟩
    rw [← core] at reach
    have writes := State.queueWrite_writes (Packet.tag { p with stage := 2 }) w some' (bad.trans clean) (by rw [reqs]; exact free)
      reach plain ready near
    rw [State.homeWrites, State.packetEnds_mem here (done nowhere)]
    exact writes
end
end Sys2Proof.Machine
end

section
/-! SUPPORT. The deal of a family: its members start, and nothing else of the machine changes. -/

namespace Sys2Proof.Machine

/-- Threads, slots, cores, the requests of their caches' fills and the names to come change alone. -/
structure State.OnlyStarts (s t : State) : Prop where
  rest : { t with threads := s.threads, slots := s.slots, cores := s.cores, reqs := s.reqs, fresh := s.fresh,
                  nextId := s.nextId } = s

namespace State.OnlyStarts

variable {s t v : State}

theorem refl (s : State) : s.OnlyStarts s := ⟨rfl⟩
theorem trans (h : s.OnlyStarts t) (g : t.OnlyStarts v) : s.OnlyStarts v := by
  refine ⟨?_⟩
  have e : { ({ v with threads := t.threads, slots := t.slots, cores := t.cores, reqs := t.reqs, fresh := t.fresh,
                       nextId := t.nextId } : State) with
             threads := s.threads, slots := s.slots, cores := s.cores, reqs := s.reqs, fresh := s.fresh,
             nextId := s.nextId } = s := by
    rw [g.rest]; exact h.rest
  exact e
theorem foldl {α : Type} (xs : List α) (f : State → α → State) (hf : ∀ t x, State.OnlyStarts t (f t x)) (s : State) :
    s.OnlyStarts (xs.foldl f s) := by
  induction xs generalizing s with
  | nil => exact refl s
  | cons x xs ih => exact (hf s x).trans (ih (f s x))

theorem mem (h : s.OnlyStarts t) : t.mem = s.mem := by have := congrArg State.mem h.rest; exact this
theorem funcs (h : s.OnlyStarts t) : t.funcs = s.funcs := by have := congrArg State.funcs h.rest; exact this
theorem clusters (h : s.OnlyStarts t) : t.clusters = s.clusters := by have := congrArg State.clusters h.rest; exact this
theorem families (h : s.OnlyStarts t) : t.families = s.families := by have := congrArg State.families h.rest; exact this

theorem modCore (s : State) (c : Nat) (f : Core → Core) : s.OnlyStarts (s.modCore c f) := ⟨rfl⟩
theorem modSlot (s : State) (q : Nat) (f : Slot → Slot) : s.OnlyStarts (s.modSlot q f) := ⟨rfl⟩
theorem modThread (s : State) (u : Nat) (f : Thread → Thread) : s.OnlyStarts (s.modThread u f) := ⟨rfl⟩
theorem draw (s : State) : s.OnlyStarts s.draw := ⟨rfl⟩
theorem emptyCache (s : State) (c : Nat) : s.OnlyStarts (s.emptyCache c) := ⟨rfl⟩
theorem wake (s : State) (c : Nat) : s.OnlyStarts (s.wake c) := by
  unfold State.wake
  split
  · exact modCore s c _
  · exact refl s
theorem checkHandles (s : State) (u : Nat) : s.OnlyStarts (s.checkHandles u) := by
  unfold State.checkHandles
  refine foldl _ _ (fun t r => ?_) s
  split
  · split
    · exact modThread t u _
    · exact refl t
  · exact refl t
theorem enterSlot (s : State) (u q : Nat) : s.OnlyStarts (s.enterSlot u q) := by
  unfold State.enterSlot
  extract_lets taken cleared
  have takes : s.OnlyStarts taken := ((wake s _).trans (modSlot _ q _)).trans (draw _)
  have clears : taken.OnlyStarts cleared := by
    simp only [cleared]
    split
    · exact emptyCache taken _
    · exact refl taken
  exact ((takes.trans clears).trans (modThread _ u _)).trans (checkHandles _ u)

end State.OnlyStarts

/-- Of memory, functions, clusters and a family, only the family's progress, by `k`, and its work area change. -/
structure State.Deals (fk k : Nat) (s t : State) : Prop where
  mem : t.mem = s.mem
  funcs : t.funcs = s.funcs
  clusters : t.clusters = s.clusters
  family : ∃ ws, t.famAt fk = { s.famAt fk with progress := (s.famAt fk).progress + k, work := ws }

namespace State.Deals

variable {fk j k : Nat} {s t v : State}

theorem of_starts (h : s.OnlyStarts t) : State.Deals fk 0 s t :=
  ⟨h.mem, h.funcs, h.clusters, (s.famAt fk).work, by rw [State.famAt, h.families]; rfl⟩
theorem refl (fk : Nat) (s : State) : State.Deals fk 0 s s := of_starts (.refl s)
theorem trans (h : State.Deals fk j s t) (g : State.Deals fk k t v) : State.Deals fk (j + k) s v := by
  obtain ⟨ws, one⟩ := h.family
  obtain ⟨ws', two⟩ := g.family
  refine ⟨g.mem.trans h.mem, g.funcs.trans h.funcs, g.clusters.trans h.clusters, ws', ?_⟩
  rw [two, one, Nat.add_assoc]
theorem progress (h : State.Deals fk k s t) : (t.famAt fk).progress = (s.famAt fk).progress + k := by
  obtain ⟨ws, eq⟩ := h.family
  rw [eq]
theorem count (h : State.Deals fk k s t) : (t.famAt fk).count = (s.famAt fk).count := by
  obtain ⟨ws, eq⟩ := h.family
  rw [eq]

theorem makeMember (fk m : Nat) (loc : Loc) (s : State) : State.Deals fk 0 s (s.makeMember fk m loc) := by
  unfold State.makeMember
  extract_lets x base seated
  have seats : seated.famAt fk = s.famAt fk := rfl
  refine ⟨rfl, rfl, rfl, (s.famAt fk).work.filter (fun e => e.1 / 4 != m), ?_⟩
  rw [State.famAt_modFam_self, seats, Nat.add_zero]
theorem dealMember (fk q : Nat) (s : State) : State.Deals fk 1 s (s.dealMember fk q) := by
  have steps : State.Deals fk 1 s (s.modFam fk (fun f => { f with progress := (s.famAt fk).progress + 1 })) :=
    ⟨rfl, rfl, rfl, (s.famAt fk).work, State.famAt_modFam_self _ _ _⟩
  exact (steps.trans (makeMember fk _ _ _)).trans (of_starts (.enterSlot _ _ _))
theorem dealMembers (fk : Nat) (qs : List Nat) (s : State) :
    State.Deals fk qs.length s (qs.foldl (fun (s : State) q => s.dealMember fk q) s) := by
  induction qs generalizing s with
  | nil => exact refl fk s
  | cons q qs ih =>
    rw [List.foldl_cons, List.length_cons, Nat.add_comm]
    exact (dealMember fk q s).trans (ih (s.dealMember fk q))
/-- A core starts as many members as it has slots for, within its block and what is left (R71). -/
theorem dealCore (fk c : Nat) (s : State) :
    ∃ k, k ≤ (s.famAt fk).count - (s.famAt fk).progress ∧ State.Deals fk k s (s.dealCore fk c) := by
  unfold State.dealCore
  dsimp only
  split
  · exact ⟨0, Nat.zero_le _, refl fk s⟩
  · refine ⟨_, ?_, dealMembers fk _ s⟩
    rw [List.length_take]
    omega
theorem dealCores (fk : Nat) (cs : List Nat) (s : State) :
    ∃ k, k ≤ (s.famAt fk).count - (s.famAt fk).progress ∧
      State.Deals fk k s (cs.foldl (fun (s : State) c => s.dealCore fk c) s) := by
  induction cs generalizing s with
  | nil => exact ⟨0, Nat.zero_le _, refl fk s⟩
  | cons c cs ih =>
    obtain ⟨j, hj, one⟩ := dealCore fk c s
    obtain ⟨k, hk, more⟩ := ih (s.dealCore fk c)
    rw [one.count, one.progress] at hk
    exact ⟨j + k, by omega, one.trans more⟩
/-- The deal starts members of its family, none beyond the last (R71). -/
theorem deal (fk : Nat) (s : State) :
    ∃ k, k ≤ (s.famAt fk).count - (s.famAt fk).progress ∧ State.Deals fk k s (s.deal fk) := by
  unfold State.deal
  extract_lets f cs dealt queued
  obtain ⟨k, hk, deals⟩ := dealCores fk cs s
  have queues : dealt.OnlyStarts queued := by
    simp only [queued]
    split
    · exact .refl dealt
    · exact .foldl _ _ (fun t c => .modCore t c _) dealt
  have numbers : queued.OnlyStarts { queued with nextId := queued.nextId + 1 } := ⟨rfl⟩
  exact ⟨k, hk, deals.trans (of_starts (queues.trans numbers))⟩

end State.Deals
end Sys2Proof.Machine
end

section
/-! SUPPORT. The admission of a launch, step by step (R312). -/

namespace Sys2Proof.Machine

/-! What an admission keeps while it waits. -/

/-- Beside the packets of a queue and the promises of its function, nothing changes. -/
structure State.SameLaunch (vf q : Nat) (s t : State) : Prop where
  rest : { t with funcs := s.funcs } = s
  func : ∃ ps qs, t.funcAt vf = { s.funcAt vf with promises := ps, queues := qs }
  queue : ∃ pk, t.queueAt vf q = { s.queueAt vf q with packets := pk }

namespace State.SameLaunch

variable {s t v : State} {vf q : Nat}

theorem trans (h : s.SameLaunch vf q t) (g : t.SameLaunch vf q v) : s.SameLaunch vf q v := by
  obtain ⟨ps, qs, one⟩ := h.func
  obtain ⟨ps', qs', two⟩ := g.func
  obtain ⟨pk, first⟩ := h.queue
  obtain ⟨pk', second⟩ := g.queue
  refine ⟨?_, ⟨ps', qs', by rw [two, one]⟩, ⟨pk', by rw [second, first]⟩⟩
  have e : { ({ v with funcs := t.funcs } : State) with funcs := s.funcs } = s := by rw [g.rest]; exact h.rest
  exact e
theorem putPacket (s : State) (vf q n : Nat) (p : Packet) : s.SameLaunch vf q (s.putPacket vf q n p) := by
  have func : (s.putPacket vf q n p).funcAt vf = { s.funcAt vf with
      queues := (s.funcAt vf).queues.put q { s.queueAt vf q with packets := (s.queueAt vf q).packets.put n p } } := by
    rw [State.putPacket, State.modQueue, State.funcAt_modFunc_self]
    rfl
  exact ⟨rfl, ⟨(s.funcAt vf).promises, _, func⟩, ⟨_, State.queueAt_putPacket_self s vf q n p⟩⟩
/-- The promise of an image is noted at its function (R315). -/
theorem promise {core len pr : Nat} {base : Word} {u : State} (q : Nat) (h : s.promise vf core base len = some (u, pr)) :
    s.SameLaunch vf q u := by
  have notes (ps : List (Nat × Nat × Nat)) : s.SameLaunch vf q (s.modFunc vf (fun f => { f with promises := ps })) := by
    refine ⟨rfl, ⟨ps, (s.funcAt vf).queues, State.funcAt_modFunc_self s vf _⟩, ⟨(s.queueAt vf q).packets, ?_⟩⟩
    rw [State.queueAt_modFunc_self]
    rfl
  unfold State.promise at h
  extract_lets ps others note at h
  split at h
  · rw [Option.some.injEq, Prod.mk.injEq] at h
    rw [← h.1]
    exact notes _
  · obtain ⟨bs, -, made⟩ := Option.map_eq_some_iff.mp h
    rw [Prod.mk.injEq] at made
    rw [← made.1]
    exact notes _

theorem eq (h : s.SameLaunch vf q t) : t = { s with funcs := t.funcs } := by
  have e : t = { ({ t with funcs := s.funcs } : State) with funcs := t.funcs } := rfl
  rwa [h.rest] at e
theorem mem (h : s.SameLaunch vf q t) : t.mem = s.mem := by rw [h.eq]
theorem nextId (h : s.SameLaunch vf q t) : t.nextId = s.nextId := by rw [h.eq]
theorem clusterAt (h : s.SameLaunch vf q t) (c : Nat) : t.clusterAt c = s.clusterAt c := by rw [h.eq]; rfl
theorem det (h : s.SameLaunch vf q t) : (t.funcAt vf).det = (s.funcAt vf).det := by
  obtain ⟨ps, qs, eq⟩ := h.func
  rw [eq]
theorem gangOn (h : s.SameLaunch vf q t) (k : Nat) : (t.funcAt vf).gangOn k = (s.funcAt vf).gangOn k := by
  obtain ⟨ps, qs, eq⟩ := h.func
  rw [eq]
  rfl
theorem head (h : s.SameLaunch vf q t) : (t.queueAt vf q).head = (s.queueAt vf q).head := by
  obtain ⟨pk, eq⟩ := h.queue
  rw [eq]
theorem done (h : s.SameLaunch vf q t) : (t.queueAt vf q).done = (s.queueAt vf q).done := by
  obtain ⟨pk, eq⟩ := h.queue
  rw [eq]
theorem doneaddr (h : s.SameLaunch vf q t) : (t.queueAt vf q).doneaddr = (s.queueAt vf q).doneaddr := by
  obtain ⟨pk, eq⟩ := h.queue
  rw [eq]
theorem core (h : s.SameLaunch vf q t) : (t.queueAt vf q).core = (s.queueAt vf q).core := by
  obtain ⟨pk, eq⟩ := h.queue
  rw [eq]
  rfl
theorem freeEntry (h : s.SameLaunch vf q t) : t.freeEntry vf = s.freeEntry vf := by
  obtain ⟨ps, qs, func⟩ := h.func
  have base : (t.funcAt vf).arenaBase = (s.funcAt vf).arenaBase := by rw [func]; rfl
  have entries : (t.funcAt vf).arenaEntries = (s.funcAt vf).arenaEntries := by rw [func]; rfl
  have families : t.families = s.families := by rw [h.eq]
  simp only [State.freeEntry, State.famAt, base, entries, families]
theorem launchCore (h : s.SameLaunch vf q t) : t.launchCore vf q = s.launchCore vf q := by
  have core := h.core
  rw [h.eq] at core ⊢
  simp only [State.launchCore, core]
  rfl
theorem sameEnd (h : s.SameLaunch vf q t) : s.SameEnd vf q t := by
  obtain ⟨ps, qs, func⟩ := h.func
  exact ⟨h.mem, by rw [h.eq], by rw [h.eq], by rw [h.eq], by rw [func], by rw [func], h.head, h.core, h.doneaddr⟩

end State.SameLaunch

/-- A record changes nothing that a packet's completion word depends on. -/
theorem State.SameEnd.addRecord {s v : State} {vf q : Nat} (h : s.SameEnd vf q v) (r : Record) :
    s.SameEnd vf q (v.addRecord r) :=
  ⟨h.mem, h.pkg, h.bad, h.reqs, h.ctxroot, h.prot, h.head, h.core, h.doneaddr⟩

/-! The steps. -/

section
variable {s v : State} {vf q n fk : Nat} {p : Packet}

/-- The packet at a queue's head that may start (R308). -/
theorem State.atHead_iff : s.atHead vf q n = some p ↔
    s.packetAt? vf q n = some p ∧ p.stage = 1 ∧ (s.queueAt vf q).head = word n ∧
      (∀ b, s.packetAt? vf q (n - 1) = some b → n ≠ 0 → 4 ≤ b.type → b.stage = 3) ∧
      ((bitOf (p.dword 0).toNat 8 || p.type == 6) = true → (s.queueAt vf q).done = (s.queueAt vf q).head) := by
  unfold State.atHead State.packetAt?
  cases here : (s.queueAt vf q).packets.find? n with
  | none => simp [here]
  | some y =>
    cases before : (s.queueAt vf q).packets.find? (n - 1) <;> grind
theorem State.packetAt_of_atHead (h : s.atHead vf q n = some p) : s.packetAt? vf q n = some p := (State.atHead_iff.mp h).1
/-- A packet at the head that keeps its words and its stage is at the head still. -/
theorem State.atHead_putPacket {p' : Packet} (h : s.atHead vf q n = some p) (stage : p'.stage = p.stage)
    (words : p'.words = p.words) :
    (s.putPacket vf q n p').atHead vf q n = some p' := by
  obtain ⟨-, begun, head, before, ordered⟩ := State.atHead_iff.mp h
  have dword (i : Nat) : p'.dword i = p.dword i := by rw [Packet.dword, words, Packet.dword]
  refine State.atHead_iff.mpr ⟨by simp, stage.trans begun, by simpa using head, fun b found some' => ?_, fun kind => ?_⟩
  · have ne : n - 1 ≠ n := by omega
    rw [State.packetAt?, State.queueAt_putPacket_self, Tab.find?_put_ne _ _ _ _ ne] at found
    exact before b found some'
  · rw [State.queueAt_putPacket_self]
    refine ordered ?_
    rw [← dword, show p.type = p'.type by rw [Packet.type, Packet.type, dword]]
    exact kind
theorem State.begin_eq {t : Nat} (h : s.atHead vf q n = some p) (good : p.bad = none) (type : p.type = t)
    (f : State → Packet → State) : s.begin vf q n t f = f s p := by
  simp [State.begin, h, good, type]

/-- A launch that begins its admission, or is woken before it has an entry, reads its record (R312). -/
theorem State.launch_eq (h : s.atHead vf q n = some p) (good : p.bad = none) (type : p.type = 1)
    (alone : (s.funcAt vf).gangOn q = false) (open' : (s.funcAt vf).setDet = []) (fresh : p.admission = 0) :
    s.launch vf q n = s.admitFresh vf q n p := by
  rw [State.launch, State.begin_eq h good type, if_pos fresh]
  simp [State.admitStart, alone, open']
theorem State.admissionWake_fresh (h : s.atHead vf q n = some p) (good : p.bad = none) (type : p.type = 1)
    (alone : (s.funcAt vf).gangOn q = false) (open' : (s.funcAt vf).setDet = []) (waits : p.admission = 1) :
    s.admissionWake vf q n = s.admitFresh vf q n p := by
  rw [State.admissionWake, State.begin_eq h good type]
  simp [State.admitNext, waits, State.admitStart, alone, open']
theorem State.admissionWake_copied (h : s.atHead vf q n = some p) (good : p.bad = none) (type : p.type = 1)
    (copied : p.admission = 3) (entry : p.fam = some fk) : s.admissionWake vf q n = s.admitMake vf q n p fk := by
  rw [State.admissionWake, State.begin_eq h good type]
  simp [State.admitNext, copied, entry]

/-- Step 1 notes the record and the promise, and refuses a launch whose level exceeds it (R315, R316). -/
theorem State.admitFresh_eq {bs : List Byte} {u : State} {pr : Nat}
    (record : (p.record = [] ∧ s.rangeBytes (s.queueAt vf q).core vf (runsOfRange (p.dword 1) 128) = some bs) ∨
      (p.record ≠ [] ∧ p.record = bs))
    (promise : s.promise vf (s.queueAt vf q).core (p.dword 2) (p.dword 3).toNat = some (u, pr)) :
    s.admitFresh vf q n p =
      if pr < (s.funcAt vf).det then
        (u.putPacket vf q n { p with record := bs }).refuseLaunch vf q n { p with record := bs } 0x10 pr
      else (u.putPacket vf q n { p with record := bs }).admitEntry vf q n { p with record := bs } := by
  have read : (if p.record.isEmpty then s.rangeBytes (s.queueAt vf q).core vf (runsOfRange (p.dword 1) 128) else some p.record)
      = some bs := by
    obtain ⟨none', found⟩ | ⟨some', kept⟩ := record
    · rw [none', List.isEmpty_nil, if_pos rfl, found]
    · rw [if_neg (by simpa using some'), kept]
  unfold State.admitFresh
  simp only [read, promise]

/-- A refused launch moves the head on and writes its completion word; one that the promise refuses leaves a record
(R313, R316). -/
theorem State.refuseLaunch_eq (alone : (s.funcAt vf).gangOn q = false) (status value : Nat) :
    s.refuseLaunch vf q n p status value =
      ((if status = 0x10 then s.addRecord
        { queue := vf, src := vf, kind := 7, die := (s.queueAt vf q).die, holder := .none, awaits := false
          stage := .unclaimed, page := 0, level := 0, body := [p.tag, word q, p.dword 2, 0#64, 0#64, 0#64] } else s).started
        vf q n p).packetEnds vf q n (p.dword 4) (word (value % 2 ^ 56 * 2 ^ 8 + status)) := by
  rw [State.refuseLaunch, alone]
  rfl

/-- The completion of a launch that is refused (R313, R316). -/
theorem State.refuseLaunch_ends (same : s.SameLaunch vf q v) (alone : (s.funcAt vf).gangOn q = false) (status value : Nat) :
    let t := v.refuseLaunch vf q n p status value
    (t.queueAt vf q).head = (s.queueAt vf q).head + 1#64 ∧
      (p.dword 4 = 0#64 → (s.queueAt vf q).doneaddr = 0#64 → t.mem = s.mem) ∧
      (p.dword 4 ≠ 0#64 → s.bad = [] → (s.queueAt vf q).doneaddr = 0#64 →
        (∀ e ∈ s.reqs, e.2.engine ≠ some agentName) →
        s.wordWritten t vf (s.queueAt vf q).core (p.dword 4) (word (value % 2 ^ 56 * 2 ^ 8 + status))) := by
  rw [State.refuseLaunch_eq ((same.gangOn q).trans alone)]
  split
  · exact (same.sameEnd.addRecord _).ends _
  · exact same.sameEnd.ends _
/-- The record of a launch that its promise refuses (R316). -/
theorem State.refuseLaunch_record (same : s.SameLaunch vf q v) (alone : (s.funcAt vf).gangOn q = false) (value : Nat) :
    ∃ r, (v.refuseLaunch vf q n p 0x10 value).records.find? s.nextId = some r ∧ r.kind = 7 ∧ r.queue = vf ∧
      r.awaits = false ∧ r.body.getD 2 0#64 = p.dword 2 := by
  rw [State.refuseLaunch_eq ((same.gangOn q).trans alone), if_pos rfl]
  rw [(State.packetEnds_keeps (State.packetAt_started_self _ vf q n p) _ _).2]
  · rw [← same.nextId]
    exact ⟨_, Tab.find?_put_self _ _ _, rfl, rfl, rfl, rfl⟩
  · rw [← same.nextId]
    exact Nat.lt_succ_self _

/-- A launch's packet once its entry is taken, and the state in which that is noted (R312). -/
def Packet.taken (p : Packet) (core fk : Nat) : Packet := { p with core := core, fam := some fk, admission := 5 }
def State.entryTaken (s : State) (vf q n : Nat) (p : Packet) (fk : Nat) : State :=
  (s.modFam fk (fun x => { Family.blank with
    alloc := true, gen := (x.gen + 1) % 256, vf := vf, queue := q, level := (s.funcAt vf).det })).putPacket vf q n
    (p.taken (s.launchCore vf q) fk)

theorem State.queueAt_entryTaken (s : State) (vf q n : Nat) (p : Packet) (fk : Nat) :
    (s.entryTaken vf q n p fk).queueAt vf q = { s.queueAt vf q with
      packets := (s.queueAt vf q).packets.put n (p.taken (s.launchCore vf q) fk) } :=
  State.queueAt_putPacket_self _ vf q n _
theorem State.famAt_entryTaken (s : State) (vf q n : Nat) (p : Packet) (fk : Nat) :
    ((s.entryTaken vf q n p fk).famAt fk).alloc = true ∧
      ((s.entryTaken vf q n p fk).famAt fk).level = (s.funcAt vf).det := by
  rw [State.entryTaken, State.putPacket, State.famAt_modQueue, State.famAt_modFam_self]
  exact ⟨rfl, rfl⟩

/-- Steps 2 and 3: a launch waits for an entry of the arena (R312). -/
theorem State.admitEntry_waits (same : s.SameLaunch vf q v) (full : s.freeEntry vf = none) (fresh : p.admission < 7) :
    v.admitEntry vf q n p = v.putPacket vf q n { p with admission := 1 } := by
  rw [State.admitEntry, same.freeEntry, full]
  dsimp only
  rw [if_neg (Nat.not_le.mpr fresh)]
/-- Steps 2 to 4 beneath level 2: a launch whose range fails is refused (R62, R312). -/
theorem State.admitEntry_refuses {c : Nat} (same : s.SameLaunch vf q v) (free : s.freeEntry vf = some fk)
    (fresh : p.admission < 7) (level : (s.funcAt vf).det ≠ 2) (range : p.members = .error c) :
    v.admitEntry vf q n p = v.refuseLaunch vf q n { p with core := v.launchCore vf q } 0x11 c := by
  have place : (v.funcAt vf).det ≠ 2 := same.det.symm ▸ level
  have range' : Packet.members { p with core := v.launchCore vf q } = .error c := range
  rw [State.admitEntry, same.freeEntry, free]
  dsimp only
  rw [if_neg (Nat.not_le.mpr fresh), State.admitPlace]
  dsimp only
  rw [if_pos place, range']
/-- Steps 2 to 4 beneath level 2: a launch whose range passes takes its entry at the context's level (R62, R312). -/
theorem State.admitEntry_takes {count : Nat} (same : s.SameLaunch vf q v) (free : s.freeEntry vf = some fk)
    (fresh : p.admission < 7) (level : (s.funcAt vf).det ≠ 2) (alone : (s.funcAt vf).gangOn q = false)
    (range : p.members = .ok count) :
    v.admitEntry vf q n p = (v.entryTaken vf q n p fk).admitCopy vf q n (p.taken (v.launchCore vf q) fk) fk := by
  have place : (v.funcAt vf).det ≠ 2 := same.det.symm ▸ level
  have range' : Packet.members { p with core := v.launchCore vf q } = .ok count := range
  rw [State.admitEntry, same.freeEntry, free]
  dsimp only
  rw [if_neg (Nat.not_le.mpr fresh), State.admitPlace]
  dsimp only
  rw [if_pos place, range']
  dsimp only
  rw [State.admitTake, if_neg (by rw [same.gangOn, alone]; exact nofun)]
  rfl

end

/-! The family of a launch. -/

/-- A launch's head has moved on, and its family stands in its entry as its record says (R59, R62, R66, R97, R312). -/
structure State.Launched (vf q n fk count level : Nat) (p : Packet) (s t : State) : Prop where
  head : (t.queueAt vf q).head = (s.queueAt vf q).head + 1#64
  packet : ∃ p', t.packetAt? vf q n = some p' ∧ p'.stage = 2
  mem : t.mem = s.mem
  clusters : t.clusters = s.clusters
  atLevel : (t.famAt fk).level = level
  family : let f := t.famAt fk
    f.alloc = true ∧ f.vf = vf ∧ f.queue = q ∧ f.count = count ∧ f.first = (p.field 1).toNat ∧
    f.step = (p.field 3).toNat ∧ f.body = p.field 0 ∧ f.progress ≤ count ∧ f.fixed = none ∧ f.deliver = .packet q n ∧
    (∀ j, j < fieldOf (p.field 4) 7 4 → j < 8 → f.globals.getD j 0#64 = p.field (8 + j)) ∧ f.links = List.replicate 4 15

section
variable {s v : State} {vf q n fk count : Nat} {p : Packet}

theorem Packet.getD_globals (p : Packet) {j : Nat} (named : j < fieldOf (p.field 4) 7 4) (room : j < 8) :
    p.globals.getD j 0#64 = p.field (8 + j) := by
  have both : j < min 8 (fieldOf (p.field 4) 7 4) := lt_min room named
  simp [Packet.globals, both]

/-- A family as it is made, whatever of it the deal has started (R66, R71). -/
theorem State.makeFamily_made (s : State) (fk : Nat) (x : Making) :
    let t := s.makeFamily fk x
    t.mem = s.mem ∧ t.funcs = s.funcs ∧ t.clusters = s.clusters ∧
      let f := t.famAt fk
      f.alloc = true ∧ f.vf = x.vf ∧ f.queue = x.queue ∧ f.level = x.level ∧ f.globals = x.globals ∧ f.first = x.first ∧
      f.count = x.count ∧ f.step = x.step ∧ f.body = x.body ∧ f.progress ≤ x.count ∧ f.fixed = none ∧
      f.deliver = x.deliver ∧ f.links = x.links := by
  intro t
  obtain ⟨f, made, alloc, fvf, queue, level, globals, first, count, step, body, progress, fixed, deliver, links⟩ :
      ∃ f : Family, t = (s.modFam fk (fun _ => f)).deal fk ∧ f.alloc = true ∧ f.vf = x.vf ∧ f.queue = x.queue ∧
        f.level = x.level ∧ f.globals = x.globals ∧ f.first = x.first ∧ f.count = x.count ∧ f.step = x.step ∧
        f.body = x.body ∧ f.progress = 0 ∧ f.fixed = none ∧ f.deliver = x.deliver ∧ f.links = x.links :=
    ⟨_, rfl, rfl, rfl, rfl, rfl, rfl, rfl, rfl, rfl, rfl, rfl, rfl, rfl, rfl⟩
  obtain ⟨k, hk, deals⟩ := State.Deals.deal fk (s.modFam fk (fun _ => f))
  obtain ⟨ws, dealt⟩ := deals.family
  rw [State.famAt_modFam_self] at hk dealt
  rw [made]
  refine ⟨deals.mem, deals.funcs, deals.clusters, ?_⟩
  rw [dealt]
  exact ⟨alloc, fvf, queue, level, globals, first, count, step, body, by dsimp only; omega, fixed, deliver, links⟩

/-- The family of a launch with members is made from its record (R312, step 5). -/
theorem State.admitMake_launches (range : p.members = .ok count) (some' : 0 < count) :
    State.Launched vf q n fk count (s.famAt fk).level p s (s.admitMake vf q n p fk) := by
  obtain ⟨x, w, makes, wmem, wfuncs, wclusters, xvf, xqueue, xlevel, xglobals, xfirst, xcount, xstep, xbody, xdeliver, xlinks⟩ :
      ∃ (x : Making) (w : State), s.admitMake vf q n p fk = w.makeFamily fk x ∧ w.mem = s.mem ∧
        w.funcs = (s.started vf q n { p with admission := 0 }).funcs ∧ w.clusters = s.clusters ∧ x.vf = vf ∧ x.queue = q ∧
        x.level = (s.famAt fk).level ∧ x.globals = p.globals ∧ x.first = (p.field 1).toNat ∧ x.count = count ∧
        x.step = (p.field 3).toNat ∧ x.body = p.field 0 ∧ x.deliver = .packet q n ∧ x.links = List.replicate 4 15 := by
    rw [State.admitMake, range]
    dsimp only
    rw [if_neg some'.ne']
    exact ⟨_, _, rfl, rfl, rfl, rfl, rfl, rfl, rfl, rfl, rfl, rfl, rfl, rfl, rfl, rfl⟩
  obtain ⟨mem, funcs, clusters, alloc, fvf, queue, level, globals, first, fcount, step, body, progress, fixed, deliver,
      links⟩ := State.makeFamily_made w fk x
  have at' : (w.makeFamily fk x).queueAt vf q = (s.started vf q n { p with admission := 0 }).queueAt vf q :=
    State.queueAt_congr (funcs.trans wfuncs) vf q
  rw [makes]
  refine ⟨?_, ⟨{ p with admission := 0, stage := 2 }, ?_, rfl⟩, mem.trans wmem, clusters.trans wclusters, level.trans xlevel,
    alloc, fvf.trans xvf, queue.trans xqueue, fcount.trans xcount, first.trans xfirst, step.trans xstep, body.trans xbody,
    xcount ▸ progress, fixed, deliver.trans xdeliver, fun j named room => ?_, links.trans xlinks⟩
  · rw [at', State.queueAt_started_self]
    rfl
  · rw [State.packetAt?, at']
    exact State.packetAt_started_self s vf q n _
  · rw [globals, xglobals, p.getD_globals named room]

/-- A launch with no member completes at once, and its entry is free (R62, R312). -/
theorem State.admitMake_empty (range : p.members = .ok 0) (quiet : p.dword 4 = 0#64) (nowhere : (s.queueAt vf q).doneaddr = 0#64) :
    let t := s.admitMake vf q n p fk
    (t.queueAt vf q).head = (s.queueAt vf q).head + 1#64 ∧ t.mem = s.mem ∧ (t.famAt fk).alloc = false ∧
      ((s.queueAt vf q).done = word n → n < 2 ^ 64 → ∃ k, 1 ≤ k ∧ (t.queueAt vf q).done = word (n + k)) := by
  intro t
  let w := (s.started vf q n { p with admission := 0 }).modFam fk (fun f => { f with alloc := false })
  have queue : w.queueAt vf q = (s.started vf q n { p with admission := 0 }).queueAt vf q := rfl
  rw [State.queueAt_started_self] at queue
  have here : w.packetAt? vf q n = some { p with admission := 0, stage := 2 } := State.packetAt_started_self s vf q n _
  have ends : t = w.packetDone vf q n := by
    simp only [t]
    rw [State.admitMake, range]
    dsimp only
    rw [if_pos rfl, quiet, State.packetEnds, here]
    rfl
  obtain ⟨k, ps, eq, rises⟩ := State.packetDone_quiet here (by rw [queue]; exact nowhere)
  rw [ends, eq, State.queueAt_modQueue_self, queue]
  refine ⟨rfl, rfl, ?_, fun front fits => ⟨k, rises (by rw [queue]; exact front) fits, ?_⟩⟩
  · rw [State.famAt_modQueue, State.famAt_modFam_self]
  · rw [front, word, word, word, BitVec.ofNat_add]

/-! The copy of a local section. -/

theorem State.admitCopy_none (without : p.field 5 = 0#64) : s.admitCopy vf q n p fk = s.admitMake vf q n p fk := by
  rw [State.admitCopy]
  exact if_pos (.inl without)
/-- A copy stands in the lowest free entry of its table (R186). -/
theorem State.copyAt_addCopy (s : State) (cl : Nat) (c : CopyOp) :
    ∃ o, (s.addCopy cl c).1.copyAt? cl (s.clusterAt cl).freeCopy = some o ∧ o.core = c.core ∧ o.dst = c.dst ∧
      o.src = c.src ∧ o.size = c.size ∧ o.packet = c.packet := by
  simp [State.copyAt?, State.addCopy]
/-- The copy of a local section takes an entry of its cluster's table, and the launch waits for it (R312, R394). -/
theorem State.admitCopy_starts (names : p.field 5 ≠ 0#64)
    (legal : (Packet.copyOp vf q n p.core (word localBase) (p.field 5) (p.field 6).toNat).cause = none)
    (some' : (Packet.copyOp vf q n p.core (word localBase) (p.field 5) (p.field 6).toNat).empty = false)
    (room : (s.clusterAt (clusterOfCore p.core)).copyRoom = true) :
    let t := s.admitCopy vf q n p fk
    ∃ e o, (t.queueAt vf q).head = (s.queueAt vf q).head ∧
      t.packetAt? vf q n = some { p with admission := 2, copy := some (clusterOfCore p.core, e) } ∧
      t.copyAt? (clusterOfCore p.core) e = some o ∧ o.core = p.core ∧ o.dst = word localBase ∧ o.src = p.field 5 ∧
      o.size = (p.field 6).toNat ∧ o.packet = some (q, n) ∧ t.families = s.families := by
  intro t
  let c : CopyOp := { Packet.copyOp vf q n p.core (word localBase) (p.field 5) (p.field 6).toNat with
    before := s.nextId, clock := s.clockOf (dieOfCore p.core) }
  let e := (s.clusterAt (clusterOfCore p.core)).freeCopy
  let w := ({ s with nextId := s.nextId + 1 }.addCopy (clusterOfCore p.core) c).1
  have starts : t = w.putPacket vf q n { p with admission := 2, copy := some (clusterOfCore p.core, e) } := by
    have legal' : c.cause = none := legal
    have copies : ¬ (p.field 5 = 0#64 ∨ c.empty = true) := by
      rw [show c.empty = false from some']
      exact fun h => h.elim names nofun
    simp only [t, State.admitCopy]
    rw [if_neg copies, if_neg (by rw [legal']; exact nofun), if_neg (by rw [room]; exact nofun)]
  have queue : w.queueAt vf q = s.queueAt vf q := State.queueAt_congr rfl vf q
  obtain ⟨o, found, core, dst, src, size, packet⟩ :=
    State.copyAt_addCopy { s with nextId := s.nextId + 1 } (clusterOfCore p.core) c
  rw [starts]
  exact ⟨e, o, by rw [State.queueAt_putPacket_self, queue], State.packetAt_putPacket_self _ _ _ _ _, found, core, dst, src, size,
    packet, rfl⟩

/-- A launch's packet once its local section is copied, and the state in which the copy's entry is free (R189, R312). -/
def Packet.copied (p : Packet) : Packet := { p with admission := 3, copy := none }
def State.sectionCopied (s : State) (vf q n : Nat) (p : Packet) (cl e : Nat) : State :=
  (s.modCluster cl (fun x => { x with copies := x.copies.del e })).putPacket vf q n p.copied
theorem State.head_sectionCopied (s : State) (vf q n : Nat) (p : Packet) (cl e : Nat) :
    ((s.sectionCopied vf q n p cl e).queueAt vf q).head = (s.queueAt vf q).head := by
  rw [State.sectionCopied, State.queueAt_putPacket_self]
  rfl
theorem State.copyAt_sectionCopied (s : State) (vf q n : Nat) (p : Packet) (cl e : Nat) :
    (s.sectionCopied vf q n p cl e).copyAt? cl e = none := by
  rw [State.copyAt?, State.sectionCopied, State.putPacket, State.clusterAt_modQueue, State.clusterAt_modCluster_self]
  exact Tab.find?_del_self _ e

/-- The copy of a local section ends: its entry is free, and its launch may go on (R189, R312). -/
theorem State.copyComplete_section {cl e : Nat} {o : CopyOp} (here : s.copyAt? cl e = some o) (owner : o.packet = some (q, n))
    (of : o.vf = vf) (alone : o.group = none) (runs : o.stop = 0) (forked : o.forked = true) (record : o.record = none)
    (fault : o.fault = none) (all : o.total ≤ o.cursor) (chunks : o.chunks = []) (waiters : o.waiters = [])
    (acked : s.copyAcked o = true) (packet : s.packetAt? vf q n = some p) (type : p.type = 1) :
    s.copyComplete cl e = s.sectionCopied vf q n p cl e := by
  have packet' : (s.modCluster cl (fun x => { x with copies := x.copies.del e })).packetAt? vf q n = some p := packet
  have ends : s.copyComplete cl e = s.endCopy cl e o 0#64 := by
    rw [State.copyComplete, here]
    simp [acked, runs, forked, record, fault, all, chunks]
  rw [ends, State.endCopy, owner, of]
  simp [alone, waiters, packet', type, State.sectionCopied, Packet.copied]
/-- A launch whose local section has been copied is made (R312). -/
theorem State.localCopyLands_launches {cl e : Nat} (head : s.atHead vf q n = some p) (good : p.bad = none)
    (type : p.type = 1) (copying : p.admission = 2) (copy : p.copy = some (cl, e)) (entry : p.fam = some fk)
    (ends : s.copyComplete cl e = s.sectionCopied vf q n p cl e) :
    s.localCopyLands vf q n = (s.sectionCopied vf q n p cl e).admitMake vf q n p.copied fk := by
  have head' : (s.modCluster cl (fun x => { x with copies := x.copies.del e })).atHead vf q n = some p := head
  have still := State.atHead_putPacket (p' := p.copied) head' rfl rfl
  simp only [State.localCopyLands, State.packetAt_of_atHead head, copying, copy, ends]
  exact State.admissionWake_copied still good type rfl entry

/-! What becomes of a launch that takes its entry. -/

section
variable {count : Nat} (same : s.SameLaunch vf q v) (free : s.freeEntry vf = some fk) (fresh : p.admission < 7)
  (level : (s.funcAt vf).det ≠ 2) (alone : (s.funcAt vf).gangOn q = false) (range : p.members = .ok count)
include same free fresh level alone range

/-- A launch without a local section is made at once, at the context's level (R312). -/
theorem State.admitEntry_launches (without : p.field 5 = 0#64) (some' : 0 < count) :
    State.Launched vf q n fk count (s.funcAt vf).det p s (v.admitEntry vf q n p) := by
  have without' : (p.taken (v.launchCore vf q) fk).field 5 = 0#64 := without
  have range' : (p.taken (v.launchCore vf q) fk).members = .ok count := range
  rw [State.admitEntry_takes same free fresh level alone range, State.admitCopy_none without']
  obtain ⟨head, packet, mem, clusters, atLevel, family⟩ := State.admitMake_launches (s := v.entryTaken vf q n p fk) (vf := vf)
    (q := q) (n := n) (fk := fk) range' some'
  refine ⟨?_, packet, mem.trans same.mem, clusters.trans (by rw [same.eq]; rfl), ?_, family⟩
  · rw [head, State.queueAt_entryTaken, ← same.head]
  · rw [atLevel, (State.famAt_entryTaken v vf q n p fk).2, same.det]
/-- A launch without a local section and without a member completes at once (R62, R312). -/
theorem State.admitEntry_empty (without : p.field 5 = 0#64) (none' : count = 0) (nowhere : (s.queueAt vf q).doneaddr = 0#64)
    (quiet : p.dword 4 = 0#64) :
    let t := v.admitEntry vf q n p
    (t.queueAt vf q).head = (s.queueAt vf q).head + 1#64 ∧ t.mem = s.mem ∧ (t.famAt fk).alloc = false ∧
      ((s.queueAt vf q).done = word n → n < 2 ^ 64 → ∃ k, 1 ≤ k ∧ (t.queueAt vf q).done = word (n + k)) := by
  have without' : (p.taken (v.launchCore vf q) fk).field 5 = 0#64 := without
  have range' : (p.taken (v.launchCore vf q) fk).members = .ok 0 := none' ▸ range
  rw [State.admitEntry_takes same free fresh level alone range, State.admitCopy_none without']
  obtain ⟨head, mem, alloc, done⟩ := State.admitMake_empty (s := v.entryTaken vf q n p fk) (vf := vf) (q := q) (n := n)
    (fk := fk) range' quiet (by rw [State.queueAt_entryTaken, ← nowhere]; exact same.doneaddr)
  rw [State.queueAt_entryTaken] at head done
  exact ⟨by rw [head, ← same.head], mem.trans same.mem, alloc, fun front => done (same.done.trans front)⟩
/-- A launch with a local section begins its copy, and keeps its entry (R312, R394). -/
theorem State.admitEntry_copies (names : p.field 5 ≠ 0#64)
    (legal : (Packet.copyOp vf q n (v.launchCore vf q) (word localBase) (p.field 5) (p.field 6).toNat).cause = none)
    (some' : (Packet.copyOp vf q n (v.launchCore vf q) (word localBase) (p.field 5) (p.field 6).toNat).empty = false)
    (room : (s.clusterAt (clusterOfCore (v.launchCore vf q))).copyRoom = true) :
    let t := v.admitEntry vf q n p
    let core := v.launchCore vf q
    ∃ p' e o, (t.queueAt vf q).head = (s.queueAt vf q).head ∧ t.packetAt? vf q n = some p' ∧ p'.admission = 2 ∧
      p'.fam = some fk ∧ p'.copy = some (clusterOfCore core, e) ∧ t.copyAt? (clusterOfCore core) e = some o ∧
      o.core = core ∧ o.dst = word localBase ∧ o.src = p.field 5 ∧ o.size = (p.field 6).toNat ∧ o.packet = some (q, n) ∧
      (t.famAt fk).alloc = true := by
  rw [← same.clusterAt] at room
  rw [State.admitEntry_takes same free fresh level alone range]
  obtain ⟨e, o, head, packet, found, core, dst, src, size, owner, families⟩ := State.admitCopy_starts
    (s := v.entryTaken vf q n p fk) (vf := vf) (q := q) (n := n) (fk := fk) (p := p.taken (v.launchCore vf q) fk)
    names legal some' room
  refine ⟨_, e, o, ?_, packet, rfl, rfl, rfl, found, core, dst, src, size, owner, ?_⟩
  · rw [head, State.queueAt_entryTaken, ← same.head]
  · rw [State.famAt, families]
    exact (State.famAt_entryTaken v vf q n p fk).1
end
end

end Sys2Proof.Machine
end

section
/-! PROOF. A LAUNCH makes its family from its record, waits, or is refused. -/

namespace Sys2Proof.Proofs

open Sys2Proof Sys2Proof.Machine

/-- Settles O51, through what each step of the admission leaves: the record and the promise, the entry, the copy, the
family. -/
theorem launchesAdmitted : Obligations.LaunchesAdmitted := by
  unfold Obligations.LaunchesAdmitted
  intro vf q n pr count fk p bs s u head good type alone undrained level x field made ends begins
  have fresh (i : Instr) (runs : exec i s = .next (s.admitFresh vf q n p)) (early : p.admission < 7) : begins i := by
    intro record promise
    let r : Packet := { p with record := bs }
    have noted := State.admitFresh_eq record promise (n := n)
    let v := u.putPacket vf q n r
    have same : s.SameLaunch vf q v := (State.SameLaunch.promise q promise).trans (.putPacket u vf q n _)
    have core : v.launchCore vf q = u.launchCore vf q := (State.SameLaunch.putPacket u vf q n _).launchCore
    have granted (h : (s.funcAt vf).det ≤ pr) : s.admitFresh vf q n p = v.admitEntry vf q n r := by
      rw [noted, if_neg (Nat.not_lt.mpr h)]
    refine ⟨fun exceeds => ?_, fun within full => ?_, fun c within free range => ?_, fun within free range =>
      ⟨fun without some' => ?_, fun without none' nowhere quiet => ?_, fun names => ?_⟩⟩
    · obtain ⟨x, found, record⟩ := State.refuseLaunch_record (n := n) (p := r) same alone pr
      rw [runs, noted, if_pos exceeds]
      exact ⟨_, x, rfl, State.refuseLaunch_ends same alone 0x10 pr, found, record⟩
    · rw [runs, granted within, State.admitEntry_waits (p := r) same full early]
      refine ⟨_, { r with admission := 1 }, rfl, ?_, State.packetAt_putPacket_self v vf q n _, rfl, rfl, same.mem⟩
      rw [State.queueAt_putPacket_self]
      exact same.head
    · rw [runs, granted within, State.admitEntry_refuses (p := r) same free early level range]
      exact ⟨_, rfl, State.refuseLaunch_ends (p := { r with core := v.launchCore vf q }) same alone 0x11 c⟩
    · obtain ⟨head, packet, mem, -, atLevel, family⟩ := State.admitEntry_launches (n := n) (p := r)
        same free early level alone range without some'
      rw [runs, granted within]
      exact ⟨_, rfl, ⟨head, packet, family⟩, atLevel, mem⟩
    · rw [runs, granted within]
      exact ⟨_, rfl, State.admitEntry_empty (p := r) same free early level alone range without none'
        nowhere quiet⟩
    · intro home c legal filled room
      have copies := State.admitEntry_copies (n := n) (p := r) same free early level alone range names
      rw [core] at copies
      rw [runs, granted within]
      obtain ⟨p', e, o, more⟩ := copies legal filled room
      exact ⟨_, p', e, o, rfl, more⟩
  refine ⟨fun waits => fresh _ ?_ (by omega), fun waits => fresh _ ?_ (by omega), fun record entry range some' =>
    ⟨fun copied => ?_, fun cl e o copying copy here owner of single going forked unrecorded fault all chunks waiters acked =>
      ?_⟩⟩
  · rw [exec_launch, execLaunch, State.launch_eq head good type alone undrained waits]
  · rw [exec_admissionWake, execAdmissionWake, State.admissionWake_fresh head good type alone undrained waits]
  · obtain ⟨moved, packet, mem, -, -, family⟩ := State.admitMake_launches (s := s) (vf := vf) (q := q) (n := n) (fk := fk)
      range some'
    rw [exec_admissionWake, execAdmissionWake, State.admissionWake_copied head good type copied entry]
    subst record
    exact ⟨_, rfl, ⟨moved, packet, family⟩, mem⟩
  · have lands := State.copyComplete_section here owner of single going forked unrecorded fault all chunks waiters acked
      (State.packetAt_of_atHead head) type
    obtain ⟨moved, packet, mem, clusters, -, family⟩ := State.admitMake_launches (s := s.sectionCopied vf q n p cl e) (vf := vf)
      (q := q) (n := n) (fk := fk) (p := p.copied) range some'
    rw [exec_localSectionCopyLands, execLocalSectionCopyLands,
      State.localCopyLands_launches head good type copying copy entry lands]
    subst record
    refine ⟨_, rfl, ⟨moved.trans (by rw [State.head_sectionCopied]), packet, family⟩, mem, ?_⟩
    rw [State.copyAt?, State.clusterAt, clusters]
    exact s.copyAt_sectionCopied vf q n p cl e

end Sys2Proof.Proofs
end

section
/-! SUPPORT. A thread enters a slot: its handles are looked at, and nothing else of the machine changes but its core. -/

namespace Sys2Proof.Machine

/-! The handles that a thread's locals wait on (R86). -/

/-- A register once the handle that it waits on has been looked at. -/
def FReg.looked (x : FReg) (ended : Fill → Option Word) : FReg :=
  match x.st with
  | .pending f => ((ended f).map (fun v => (⟨v, .full⟩ : FReg))).getD x
  | _ => x

/-- Nothing of the machine changes but the registers of a thread. -/
structure State.OnlyRegs (u : Nat) (s t : State) : Prop where
  rest : { t with threads := s.threads } = s
  others : ∀ v, v ≠ u → t.threadAt v = s.threadAt v
  thread : ∃ rs, t.threadAt u = { s.threadAt u with regs := rs }

namespace State.OnlyRegs

variable {u : Nat} {s t v : State}

theorem refl (u : Nat) (s : State) : State.OnlyRegs u s s := ⟨rfl, fun _ _ => rfl, (s.threadAt u).regs, rfl⟩
theorem trans (h : State.OnlyRegs u s t) (g : State.OnlyRegs u t v) : State.OnlyRegs u s v := by
  obtain ⟨rs, one⟩ := h.thread
  obtain ⟨rs', two⟩ := g.thread
  refine ⟨?_, fun w hw => (g.others w hw).trans (h.others w hw), rs', by rw [two, one]⟩
  have e : { ({ v with threads := t.threads } : State) with threads := s.threads } = s := by rw [g.rest]; exact h.rest
  exact e
theorem setLocal (s : State) (u r : Nat) (w : Word) : State.OnlyRegs u s (s.setLocal u r w) :=
  ⟨rfl, fun v hv => by rw [State.setLocal, State.threadAt_modThread, if_neg hv], _, State.threadAt_modThread_self s u _⟩

theorem slots (h : State.OnlyRegs u s t) : t.slots = s.slots := by have := congrArg State.slots h.rest; exact this
theorem cores (h : State.OnlyRegs u s t) : t.cores = s.cores := by have := congrArg State.cores h.rest; exact this
theorem families (h : State.OnlyRegs u s t) : t.families = s.families := by
  have := congrArg State.families h.rest; exact this
theorem nextId (h : State.OnlyRegs u s t) : t.nextId = s.nextId := by have := congrArg State.nextId h.rest; exact this
theorem endedValue (h : State.OnlyRegs u s t) (vf : Nat) (f : Fill) : t.endedValue vf f = s.endedValue vf f := by
  have := congrArg (State.endedValue · vf f) h.rest; exact this

end State.OnlyRegs

/-- One local's handle is looked at. -/
def State.checkHandle (s : State) (u r : Nat) : State :=
  match ((s.threadAt u).reg r).st with
  | .pending f => match s.endedValue (s.threadAt u).vf f with
    | some v => s.setLocal u r v
    | none => s
  | _ => s
theorem State.checkHandles_eq (s : State) (u : Nat) :
    s.checkHandles u = (List.range 10).foldl (fun (s : State) r => s.checkHandle u r) s := rfl

theorem State.checkHandle_only (s : State) (u r : Nat) : State.OnlyRegs u s (s.checkHandle u r) := by
  unfold State.checkHandle
  split
  · split
    · exact .setLocal s u r _
    · exact .refl u s
  · exact .refl u s
theorem State.reg_checkHandle (s : State) (u r i : Nat) :
    ((s.checkHandle u r).threadAt u).reg i =
      if i = r then ((s.threadAt u).reg r).looked (s.endedValue (s.threadAt u).vf) else (s.threadAt u).reg i := by
  unfold State.checkHandle FReg.looked
  cases st : ((s.threadAt u).reg r).st with
  | pending f =>
    cases value : s.endedValue (s.threadAt u).vf f with
    | some v => simp [State.setLocal, Thread.reg_setReg, value]
    | none => by_cases same : i = r <;> simp [same, value]
  | full => by_cases same : i = r <;> simp [same]
  | empty => by_cases same : i = r <;> simp [same]

/-- The looks at distinct locals, one after the other. -/
theorem State.foldl_checkHandle (u : Nat) (rs : List Nat) (distinct : rs.Nodup) (s : State) :
    let t := rs.foldl (fun (s : State) r => s.checkHandle u r) s
    State.OnlyRegs u s t ∧ ∀ i, (t.threadAt u).reg i =
      if i ∈ rs then ((s.threadAt u).reg i).looked (s.endedValue (s.threadAt u).vf) else (s.threadAt u).reg i := by
  induction rs generalizing s with
  | nil => exact ⟨.refl u s, fun i => by simp⟩
  | cons r rs ih =>
    obtain ⟨new, distinct⟩ := List.nodup_cons.mp distinct
    obtain ⟨more, regs⟩ := ih distinct (s.checkHandle u r)
    have one := s.checkHandle_only u r
    have values : (s.checkHandle u r).endedValue ((s.checkHandle u r).threadAt u).vf = s.endedValue (s.threadAt u).vf := by
      obtain ⟨rs, thread⟩ := one.thread
      rw [thread]
      exact funext (one.endedValue _)
    refine ⟨one.trans more, fun i => ?_⟩
    rw [List.foldl_cons, regs i, values, State.reg_checkHandle]
    by_cases here : i = r
    · subst here; simp [new]
    · simp [here]

/-- The look at a thread's handles changes its registers alone: each of its locals as the handle shows it (R86). -/
theorem State.checkHandles_only (s : State) (u : Nat) : State.OnlyRegs u s (s.checkHandles u) :=
  (State.foldl_checkHandle u _ List.nodup_range s).1
theorem State.reg_checkHandles (s : State) (u i : Nat) :
    ((s.checkHandles u).threadAt u).reg i =
      if i < 10 then ((s.threadAt u).reg i).looked (s.endedValue (s.threadAt u).vf) else (s.threadAt u).reg i := by
  rw [State.checkHandles_eq, (State.foldl_checkHandle u _ List.nodup_range s).2]
  simp only [List.mem_range]

/-! A slot is entered. -/

/-- Thread `u` has entered slot `q`: it runs there, with its registers looked at; the slot holds it, above no helper and with
zero vectors; and a core's queues, and every other slot and thread, are as they were (R86, R116, R168). -/
structure State.Enters (u q : Nat) (s t : State) : Prop where
  starts : s.OnlyStarts t
  names : t.nextId = s.nextId
  thread : ∃ rs w, t.threadAt u = { s.threadAt u with loc := .slot q, emptyCache := false, wait := w, regs := rs }
  regs : ∀ i, (t.threadAt u).reg i =
    if i < 10 then ((s.threadAt u).reg i).looked (s.endedValue (s.threadAt u).vf) else (s.threadAt u).reg i
  others : ∀ v, v ≠ u → t.threadAt v = s.threadAt v
  occupant : (t.slotAt q).occ = some u
  vectors : (t.slotAt q).vecs = []
  slots : ∀ p, p ≠ q → t.slotAt p = s.slotAt p
  cores : ∀ c, ∃ g d, t.coreAt c = { s.coreAt c with gated := g, dcache := d }

/-- A core that wakes, or empties its data cache, keeps all else (R76, R153). -/
theorem State.coreAt_wake (s : State) (k c : Nat) : ∃ g, (s.wake k).coreAt c = { s.coreAt c with gated := g } := by
  unfold State.wake
  split
  · rw [State.coreAt_modCore]
    split
    · subst_vars; exact ⟨false, rfl⟩
    · exact ⟨(s.coreAt c).gated, rfl⟩
  · exact ⟨(s.coreAt c).gated, rfl⟩
theorem State.coreAt_emptyCache (s : State) (k c : Nat) : ∃ d, (s.emptyCache k).coreAt c = { s.coreAt c with dcache := d } := by
  rw [State.emptyCache, State.staleFills, State.coreAt_mapReqs, State.coreAt_modCore]
  split
  · subst_vars; exact ⟨_, rfl⟩
  · exact ⟨(s.coreAt c).dcache, rfl⟩
theorem State.wake_kept (s : State) (k : Nat) : (s.wake k).threads = s.threads ∧ (s.wake k).slots = s.slots ∧
    (s.wake k).nextId = s.nextId := by
  unfold State.wake
  split <;> exact ⟨rfl, rfl, rfl⟩

theorem State.OnlyStarts.endedValue {s t : State} (h : s.OnlyStarts t) (vf : Nat) (f : Fill) :
    t.endedValue vf f = s.endedValue vf f := by
  have := congrArg (State.endedValue · vf f) h.rest; exact this

/-- A slot that a thread has entered (R86, R169). -/
def Slot.entered (u : Nat) (key : Word) (x : Slot) : Slot := { x with
  occ := some u, chain := [], vecs := [], vpend := [], readTab := [], frames := [], flushing := 0, noSpill := false,
  frameKey := key, ibuf := none, reserved := none }

theorem State.enterSlot_enters (s : State) (u q : Nat) : State.Enters u q s (s.enterSlot u q) := by
  have starts : s.OnlyStarts (s.enterSlot u q) := .enterSlot s u q
  revert starts
  unfold State.enterSlot
  extract_lets taken cleared
  obtain ⟨wthreads, wslots, wnames⟩ := s.wake_kept (coreOfSlot q)
  have takes : s.OnlyStarts taken := ((State.OnlyStarts.wake s _).trans (.modSlot _ q _)).trans (.draw _)
  obtain ⟨clears, threads, slots, names, cores⟩ : taken.OnlyStarts cleared ∧ cleared.threads = taken.threads ∧
      cleared.slots = taken.slots ∧ cleared.nextId = taken.nextId ∧
      ∀ c, ∃ d, cleared.coreAt c = { taken.coreAt c with dcache := d } := by
    simp only [cleared]
    split
    · exact ⟨.emptyCache taken _, rfl, rfl, rfl, taken.coreAt_emptyCache _⟩
    · exact ⟨.refl taken, rfl, rfl, rfl, fun c => ⟨(taken.coreAt c).dcache, rfl⟩⟩
  have thread (v : Nat) : cleared.threadAt v = s.threadAt v := by
    rw [State.threadAt, threads, show taken.threads = s.threads from wthreads, State.threadAt]
  have filled : cleared.slots = ((s.wake (coreOfSlot q)).modSlot q (Slot.entered u (Config.frameKey s.fresh))).slots := by
    rw [slots]; rfl
  have slot (p : Nat) : cleared.slotAt p = if p = q then (s.slotAt q).entered u (Config.frameKey s.fresh) else s.slotAt p := by
    rw [State.slotAt, filled, ← State.slotAt, State.slotAt_modSlot, State.slotAt, State.slotAt, wslots, ← State.slotAt, ← State.slotAt]
  intro starts
  have only := State.checkHandles_only (cleared.modThread u (fun t => { t with
    loc := .slot q, emptyCache := false, wait := cleared.rewait u })) u
  have seated (p : Nat) : _ = cleared.slotAt p := congrArg (Tab.get · Slot.blank p) only.slots
  refine ⟨starts, ?_, ?_, fun i => ?_, fun v hv => ?_, ?_, ?_, fun p hp => ?_, fun c => ?_⟩
  · exact only.nextId.trans (names.trans wnames)
  · obtain ⟨rs, only⟩ := only.thread
    exact ⟨rs, cleared.rewait u, by rw [only, State.threadAt_modThread_self, thread]⟩
  · have values := (takes.trans clears).endedValue (s.threadAt u).vf
    rw [State.reg_checkHandles, State.threadAt_modThread_self, thread]
    exact congrArg (fun e => if i < 10 then ((s.threadAt u).reg i).looked e else (s.threadAt u).reg i) (funext values)
  · rw [only.others v hv, State.threadAt_modThread, if_neg hv, thread]
  · exact (congrArg Slot.occ (seated q)).trans (by rw [slot, if_pos rfl, Slot.entered])
  · exact (congrArg Slot.vecs (seated q)).trans (by rw [slot, if_pos rfl, Slot.entered])
  · exact (seated p).trans (by rw [slot, if_neg hp])
  · obtain ⟨g, wakes⟩ := s.coreAt_wake (coreOfSlot q) c
    obtain ⟨d, empties⟩ := cores c
    have settled := congrArg (Tab.get · Core.blank c) only.cores
    exact ⟨g, d, settled.trans (empties.trans (by rw [show taken.coreAt c = _ from wakes]))⟩

theorem State.Enters.loc {u q : Nat} {s t : State} (h : State.Enters u q s t) : (t.threadAt u).loc = .slot q := by
  obtain ⟨_, _, thread⟩ := h.thread
  rw [thread]
theorem State.Enters.pc {u q : Nat} {s t : State} (h : State.Enters u q s t) : (t.threadAt u).pc = (s.threadAt u).pc := by
  obtain ⟨_, _, thread⟩ := h.thread
  rw [thread]

end Sys2Proof.Machine
end

section
/-! SUPPORT. A thread that runs alone in its slot leaves it, for another place (R101, R107, R108). -/

namespace Sys2Proof.Machine

/-- Thread `u` has left slot `q`, above no helper: the slot is free, and the threads, the run queues, the messages and the
names are as they were. -/
structure State.Leaves (q : Nat) (s t : State) : Prop where
  free : (t.slotAt q).occ = none
  threads : t.threads = s.threads
  names : t.nextId = s.nextId
  me : t.me = s.me
  runq : ∀ c, (t.coreAt c).runq = (s.coreAt c).runq

theorem State.leaveSlot_leaves (s : State) (u q : Nat) (loc : (s.threadAt u).loc = .slot q)
    (occ : (s.slotAt q).occ = some u) (alone : (s.slotAt q).chain = []) : State.Leaves q s (s.leaveSlot u) := by
  have e : s.leaveSlot u = (s.dropWaits q).freeSlot q := by
    have chain : ((s.dropWaits q).slotAt q).chain = [] := alone
    simp [State.leaveSlot, loc, occ, State.popHelper, chain]
  rw [e]
  refine ⟨by simp [State.freeSlot], rfl, rfl, rfl, fun c => ?_⟩
  show ((s.dropWaits q).coreAt c).runq = _
  rw [State.dropWaits, State.coreAt_modCluster, State.coreAt_modCore]
  split
  · next here => rw [here]
  · rfl

/-- The executing thread is the occupant of its slot. -/
theorem State.Ready.occ {s : State} {m : Mods} {priv : Nat} {n : Need} (h : s.Ready m priv n) :
    (s.slotAt s.me).occ = some s.uid := by
  obtain ⟨u, occ⟩ := Option.isSome_iff_exists.mp h.here
  rw [State.uid, occ]
  exact occ

/-- An access that reaches its place, in a thread whose determinism is not that of level 2, comes to what is done there. -/
theorem State.access_ok {s s1 : State} {acc : Acc} {align : Nat} {va : Word} {p : Place} (body : State → Place → Out)
    (h : s.reach s.uid s.myCore s.cur.vf acc align va = .ok s1 p) (flat : (s.famAt s.cur.fam).level ≠ 2) :
    s.access acc align va body = body s1 p := by
  simp [State.access, h, flat]

/-- The run queues are not what a lookup changes (R341). -/
theorem State.runq_reach {s t : State} {u core vf align : Nat} {acc : Acc} {va : Word} {p : Place}
    (h : s.reach u core vf acc align va = .ok t p) (c : Nat) : (t.coreAt c).runq = (s.coreAt c).runq := by
  have kept (k : Nat) (s : State) (f : Core → Core) (same : ∀ x, (f x).runq = x.runq) :
      ((s.modCore k f).coreAt c).runq = (s.coreAt c).runq := by
    rw [State.coreAt_modCore]
    split
    · next here => rw [same, here]
    · rfl
  unfold State.reach at h
  split at h
  · exact absurd h nofun
  · cases h; rfl
  · cases h; rfl
  · split at h
    · next found =>
      cases h
      unfold State.lookup at found
      split at found
      · cases found; exact kept _ _ _ fun _ => rfl
      · split at found
        · cases found; exact kept _ _ _ fun _ => rfl
        · cases found
    · exact absurd h nofun

/-- The owner core of an address, by the address's bits (R90). -/
theorem ownerCore_eq (c a : Nat) : ownerCore c a =
    if isVault a = true then (a / 2 ^ 28 % 16 * 64 + a / 2 ^ 22 % 64) * 8 + a / 64 % 8
    else if a < 2 ^ 40 then a / 2 ^ 36 * 512 + 32 * (a / 4096 % 16) + a / 64 % 8 else c := by
  simp [ownerCore, vaultDie, vaultCluster, bitsOf]

end Sys2Proof.Machine
end

section
/-! PROOF. brk, mig, mig.s and yield. -/

namespace Sys2Proof.Proofs
open Sys2Proof Sys2Proof.Machine

/-- `brk` ends its thread with its value, of 56 bits (R101). -/
theorem exec_brk_ends (a : BitVec 5) (m : Mods) (s : State) (ready : s.Ready m 0 { src := [a] }) (live : s.cur.ended = none) :
    ∃ t, exec (.brk a m) s = .next t ∧ t.threadEnds s.uid (.brk ((s.gpr a).toNat % 2 ^ 56)) ∧ t.mem = s.mem := by
  have value : fieldOf (s.gpr a) 0 56 = (s.gpr a).toNat % 2 ^ 56 := by simp [fieldOf, bitsOf]
  have ran := State.Ran.consume_advance (m := m) (a := a) (b := 27#5) (State.Beside.refl s)
  obtain ⟨ends, rest⟩ := ((s.consume m a 27#5).advance m).endThread_ends s.uid
    (.brk ((s.gpr a).toNat % 2 ^ 56)) (by
      rw [ran.cur, State.done, Thread.consumed_eq]; exact live) nofun
  refine ⟨_, ?_, ends, rest.mem.trans ran.mem⟩
  rw [exec_brk, execBrk, State.issue_ready s m 0 _ _ ready, State.finish, value]

/-- `mig` and `mig.s`, by their one operation (R90, R91). -/
theorem exec_migrate (serial : Bool) (a : BitVec 5) (m : Mods) (s : State) :
    exec (if serial then .migS a m else .mig a m) s = s.migrate serial a m := by
  cases serial
  · exact exec_mig a m s
  · exact exec_migS a m s

/-- A pinned thread does not move: FAMILY(6) (R90). -/
theorem exec_mig_pinned (serial : Bool) (a : BitVec 5) (m : Mods) (s : State) (ready : s.Ready m 0 { src := [a] })
    (pinned : s.cur.pinned = true) (may : s.mayFault) :
    ∃ t, exec (if serial then .migS a m else .mig a m) s = .next t ∧ s.faultsEnd t fFAMILY 6 0#64 := by
  refine ⟨_, ?_, State.raise_faultsEnd (type := 3) 0#64 may rfl (by decide)⟩
  rw [exec_migrate, State.migrate, State.issue_ready s m 0 _ _ ready, if_pos pinned, State.fail]

/-- A thread that is not pinned leaves its slot, for the owner core of the address that it translates: to the run queue of
its own, or on its way to another or to a serial queue (R90, R91, R107). -/
theorem exec_mig_moves (serial : Bool) (a : BitVec 5) (m : Mods) (s s1 : State) (p : Place)
    (ready : s.Ready m 0 { src := [a] }) (free : s.cur.pinned = false)
    (reach : s.reach s.uid s.myCore s.cur.vf .load 1 (s.gpr a) = .ok s1 p) (flat : (s.famAt s.cur.fam).level ≠ 2)
    (goes : s1.moveWait s.uid = .none) (loc : s.cur.loc = .slot s.me) (alone : s.mySlot.chain = []) :
    let o := ownerCore s.myCore p.addr
    ∃ t, exec (if serial then .migS a m else .mig a m) s = .next t ∧ (t.slotAt s.me).occ = none ∧
      (t.threadAt s.uid).serial = serial ∧ (t.threadAt s.uid).pc = s.cur.pc + word (Machine.lenBytes m) ∧
      (o = s.myCore ∧ serial = false → (t.threadAt s.uid).loc = .runq o ∧
        (t.coreAt o).runq = (s.coreAt o).runq ++ [s.uid]) ∧
      (o ≠ s.myCore ∨ serial = true → (t.threadAt s.uid).loc = .moving o ∧
        t.msgs.find? s1.nextId = some (.move s.uid o serial)) := by
  intro o
  have beside := State.Beside.reach reach
  have ran : s.Poised ((s1.consume m a 27#5).advance m) (s.done m a 27#5) := .consume_advance beside
  have done : (s.done m a 27#5).loc = .slot s.me := by rw [State.done, Thread.consumed_eq]; exact loc
  generalize before : (s1.consume m a 27#5).advance m = t0 at ran
  have queues (c : Nat) : (t0.coreAt c).runq = (s.coreAt c).runq := by
    rw [← State.runq_reach reach c, ← before, State.consume_advance]; rfl
  have slot : t0.slotAt s.me = s.slotAt s.me := by rw [State.slotAt, ran.slots, State.slotAt]
  let t1 := t0.modCur (fun x => { x with serial := serial })
  have thread : t1.threadAt s.uid = { s.done m a 27#5 with serial := serial } := by
    rw [← ran.uid_eq]; simp only [t1]; rw [State.modCur, State.threadAt_modThread_self, ran.uid_eq, ran.cur]
  have left : State.Leaves s.me t1 (t1.leaveSlot s.uid) :=
    t1.leaveSlot_leaves s.uid s.me (by rw [thread]; exact done) ((congrArg Slot.occ slot).trans ready.occ)
      ((congrArg Slot.chain slot).trans alone)
  have runs : exec (if serial then .migS a m else .mig a m) s = .next (
      let t2 := t1.leaveSlot s.uid
      let t := if o = s.myCore then t2 else t2.modThread s.uid (fun x => { x with emptyCache := true })
      if o = s.myCore && !serial then
        (t.modThread s.uid (fun x => { x with loc := .runq s.myCore })).modCore s.myCore
          (fun x => { x with runq := x.runq ++ [s.uid] })
      else (t.modThread s.uid (fun x => { x with loc := .moving o })).sendWith (s1.clockOf s1.myDie) (.move s.uid o serial)) := by
    rw [exec_migrate, State.migrate, State.issue_ready s m 0 _ _ ready, free, if_neg (by decide), State.access_ok _ reach flat]
    simp only [beside.uid, goes, beside.myCore, State.finish, before]
    rfl
  rw [runs]
  have empty := left.free
  have queue := (left.runq s.myCore).trans (queues s.myCore)
  have names : (t1.leaveSlot s.uid).nextId = s1.nextId := left.names.trans (ran.nextId.trans beside.nextId.symm)
  have now : (t1.leaveSlot s.uid).threadAt s.uid = { s.done m a 27#5 with serial := serial } := by
    rw [State.threadAt, left.threads, ← State.threadAt, thread]
  generalize t1.leaveSlot s.uid = t2 at empty queue names now
  by_cases here : o = s.myCore
  · cases serial with
    | false =>
      refine ⟨_, rfl, ?_⟩
      simp [here, now, State.done, empty, queue]
    | true =>
      refine ⟨_, rfl, ?_⟩
      simp [here, now, State.done, empty, names]
  · refine ⟨_, rfl, ?_⟩
    simp [here, now, State.done, empty, names]

/-- A `yield` that gives nothing up only advances (R108). -/
theorem finish_completes (m : Mods) (s : State) :
    ∃ t, s.finish m 27#5 27#5 id = .next t ∧ s.regResult t m 27#5 27#5 27#5 0#64 ∧ s.keepsThread t :=
  ⟨_, rfl, State.complete_writes s m 27#5 27#5 27#5 0#64⟩

/-- `yield` gives its slot to the first ready record of its core's run queue, and joins that queue's tail (R108). -/
theorem exec_yield_gives (m : Mods) (s : State) (h : Nat) (ready : s.Ready m 0 {}) (free : s.cur.pinned = false)
    (parallel : s.cur.serial = false) (alone : s.mySlot.chain = []) (loc : s.cur.loc = .slot s.me)
    (next : s.nextRecord s.myCore s.me = some h) (other : h ≠ s.uid) (goes : s.moveWait s.uid = .none) :
    ∃ t, exec (.yield m) s = .next t ∧ (t.slotAt s.me).occ = some h ∧ (t.threadAt h).loc = .slot s.me ∧
      (t.threadAt s.uid).loc = .runq s.myCore ∧ s.uid ∈ (t.coreAt s.myCore).runq ∧ h ∉ (t.coreAt s.myCore).runq ∧
      (t.threadAt s.uid).pc = s.cur.pc + word (Machine.lenBytes m) := by
  have ran : s.Poised ((s.consume m 27#5 27#5).advance m) (s.done m 27#5 27#5) := .consume_advance (.refl s)
  have done : (s.done m 27#5 27#5).loc = .slot s.me := by rw [State.done, Thread.consumed_eq]; exact loc
  let t0 := (s.consume m 27#5 27#5).advance m
  have slot : t0.slotAt s.me = s.slotAt s.me := by rw [State.slotAt, ran.slots, State.slotAt]
  have left : State.Leaves s.me t0 (t0.leaveSlot s.uid) :=
    t0.leaveSlot_leaves s.uid s.me (by rw [ran.cur]; exact done) ((congrArg Slot.occ slot).trans ready.occ)
      ((congrArg Slot.chain slot).trans alone)
  let t1 := ((t0.leaveSlot s.uid).modThread s.uid (fun x => { x with loc := .runq s.myCore })).modCore s.myCore
    (fun x => { x with runq := x.runq ++ [s.uid] })
  have enters := (t1.modCore s.myCore (fun x => { x with runq := x.runq.filter (· != h) })).enterSlot_enters h s.me
  have now : (t0.leaveSlot s.uid).threadAt s.uid = s.done m 27#5 27#5 := by
    rw [State.threadAt, left.threads, ← State.threadAt, ran.cur]
  obtain ⟨_, _, core⟩ := enters.cores s.myCore
  refine ⟨_, ?_, enters.occupant, enters.loc, ?_, ?_, ?_, ?_⟩
  · rw [exec_yield, execYield, State.issue_ready s m 0 _ _ ready, next]
    simp only [free, parallel, alone, goes]
    simp [State.finish, State.startRecord, t1, t0, ran.me, left.me]
  · rw [enters.others _ other.symm]
    simp [t1]
  · rw [core]
    simp [t1, other.symm]
  · rw [core]
    simp
  · rw [enters.others _ other.symm]
    simp [t1, now, State.done]

/-- Settles O33, one instruction at a time: a `brk` by what the end of a live thread leaves, the migrations by the slot that
their thread leaves, and `yield` by the slot that the record enters. -/
theorem threadsEndAndMove : Obligations.ThreadsEndAndMove := by
  unfold Obligations.ThreadsEndAndMove
  refine ⟨exec_brk_ends, ?_, fun m s ready => ⟨fun stays => ?_, fun h => exec_yield_gives m s h ready⟩⟩
  · intro serial a m s s1 p ready i
    refine ⟨exec_mig_pinned serial a m s ready, ?_⟩
    intro free reach flat goes loc alone
    have moves := exec_mig_moves serial a m s s1 p ready free reach flat goes loc alone
    rw [ownerCore_eq] at moves
    exact moves
  · have stops : exec (.yield m) s = s.finish m 27#5 27#5 id := by
      rw [exec_yield, execYield, State.issue_ready s m 0 _ _ ready]
      obtain pinned | serial | helped | none' := stays
      · simp [pinned]
      · simp [serial]
      · simp [helped]
      · simp [none']
    rw [stops]
    exact finish_completes m s

end Sys2Proof.Proofs
end

section
/-! SUPPORT. What a thread's departure, its end and its fault leave of the families: all but their parking lists and the
shareds that they pass on. -/

namespace Sys2Proof.Machine

/-- What each step of a fold keeps, the fold keeps. -/
theorem State.foldl_kept {α β : Type} (g : State → β) {f : State → α → State} (hf : ∀ t x, g (f t x) = g t) (xs : List α)
    (s : State) : g (xs.foldl f s) = g s := by
  induction xs generalizing s with
  | nil => rfl
  | cons x xs ih => exact (ih (f s x)).trans (hf s x)

/-- Of a family's entry only its parking list and its stubs change. -/
def State.KeepsFamilies (s t : State) : Prop :=
  ∀ fk, ∃ ps st, t.famAt fk = { s.famAt fk with parked := ps, stubs := st }

namespace State.KeepsFamilies

variable {s t v : State}

theorem of_families (h : t.families = s.families) : s.KeepsFamilies t :=
  fun fk => ⟨(s.famAt fk).parked, (s.famAt fk).stubs, by rw [State.famAt, h]; rfl⟩
theorem refl (s : State) : s.KeepsFamilies s := of_families rfl
theorem trans (h : s.KeepsFamilies t) (g : t.KeepsFamilies v) : s.KeepsFamilies v := fun fk => by
  obtain ⟨_, _, one⟩ := h fk
  obtain ⟨ps, st, two⟩ := g fk
  exact ⟨ps, st, by rw [two, one]⟩
theorem foldl {α : Type} (xs : List α) (f : State → α → State) (hf : ∀ t x, State.KeepsFamilies t (f t x)) (s : State) :
    s.KeepsFamilies (xs.foldl f s) := by
  induction xs generalizing s with
  | nil => exact refl s
  | cons x xs ih => exact (hf s x).trans (ih (f s x))
theorem modThread (u : Nat) (f : Thread → Thread) : s.KeepsFamilies (s.modThread u f) := of_families rfl
theorem modSlot (q : Nat) (f : Slot → Slot) : s.KeepsFamilies (s.modSlot q f) := of_families rfl
theorem putSlot (q : Nat) (x : Slot) : s.KeepsFamilies (s.putSlot q x) := of_families rfl
theorem modCore (c : Nat) (f : Core → Core) : s.KeepsFamilies (s.modCore c f) := of_families rfl
theorem send (m : Msg) : s.KeepsFamilies (s.send m) := of_families rfl
theorem modParked (n : Nat) (f : List Nat → List Nat) : s.KeepsFamilies (s.modFam n (fun x => { x with parked := f x.parked })) := by
  intro fk
  rw [State.famAt_modFam]
  split
  · next here => subst here; exact ⟨_, (s.famAt fk).stubs, rfl⟩
  · exact ⟨(s.famAt fk).parked, (s.famAt fk).stubs, rfl⟩
theorem modStubs (n : Nat) (f : Tab Nat → Tab Nat) : s.KeepsFamilies (s.modFam n (fun x => { x with stubs := f x.stubs })) := by
  intro fk
  rw [State.famAt_modFam]
  split
  · next here => subst here; exact ⟨(s.famAt fk).parked, _, rfl⟩
  · exact ⟨(s.famAt fk).parked, (s.famAt fk).stubs, rfl⟩

theorem sendDep (x : Thread) (i : Nat) (v : Option Word) : s.KeepsFamilies (s.sendDep x i v) := by
  obtain ⟨ms, b, c, n, e⟩ := State.sendDep_eq s x i v
  rw [e]; exact of_families rfl
/-- A thread's end passes its shareds on (R81). -/
theorem passThrough (u : Nat) : s.KeepsFamilies (s.passThrough u) := by
  unfold State.passThrough
  extract_lets x
  refine foldl _ _ (fun t i => ?_) s
  split
  · exact refl t
  · split
    · exact sendDep _ _ _
    · split
      · exact refl t
      · exact modStubs x.fam (·.put (4 * x.k + i) x.core)
    · exact sendDep _ _ _

theorem sendHelp (u fk : Nat) (want : Option Nat) : s.KeepsFamilies (s.sendHelp u fk want) := by
  unfold State.sendHelp
  split
  · exact (send _).trans (modThread u _)
  · exact refl s
theorem helpArmed (u id : Nat) : s.KeepsFamilies (s.helpArmed u id) := by
  have asks (fk : Nat) (want : Option Nat) :
      s.KeepsFamilies ((s.modThread u (fun t => { t with helpReq := some id })).sendHelp u fk want) :=
    (modThread u _).trans (sendHelp u fk want)
  unfold State.helpArmed
  dsimp only
  split
  · exact modThread u _
  · split
    · exact refl s
    · split
      · split
        · exact modThread u _
        · split
          · exact asks _ _
          · exact refl s
      · split
        · exact refl s
        · split
          · exact modThread u _
          · split
            · exact asks _ _
            · exact refl s
      · exact refl s
theorem readHelper (u q d : Nat) : s.KeepsFamilies (s.readHelper u q d) := by
  unfold State.readHelper
  extract_lets x lose t
  have loses (v : State) (va : Nat) : v.KeepsFamilies (lose v va) := modThread u _
  have record : s.KeepsFamilies t := by
    simp only [t]
    split
    · exact modThread u _
    · exact loses s _
  split
  · exact record
  · refine record.trans ?_
    split
    · exact modSlot _ _
    · exact loses t _
theorem checkHandles (u : Nat) : s.KeepsFamilies (s.checkHandles u) := by
  exact of_families (s.checkHandles_only u).families
/-- The helper beneath pops back (R171, R301). -/
theorem popHelper (q : Nat) : s.KeepsFamilies (s.popHelper q) := by
  unfold State.popHelper
  extract_lets x
  split
  · exact modSlot q _
  next h rest chain =>
    extract_lets atop back t
    have pops : s.KeepsFamilies atop := putSlot q _
    have placed : atop.KeepsFamilies (atop.modThread h (fun t => { t with loc := .slot q })) := modThread h _
    have reads : atop.KeepsFamilies back := (placed.trans (readHelper h q rest.length)).trans (checkHandles h)
    have waits : back.KeepsFamilies t := modThread h (fun t => { t with wait := back.rewait h })
    refine ((pops.trans reads).trans waits).trans ?_
    split
    · exact refl t
    · split
      · exact modThread h _
      · exact helpArmed h _
/-- A thread leaves where it is. -/
theorem leaveSlot (u : Nat) : s.KeepsFamilies (s.leaveSlot u) := by
  unfold State.leaveSlot
  split
  · split
    · exact (of_families (t := s.dropWaits _) rfl).trans (popHelper _)
    · exact refl s
  · exact modParked _ (fun ps => ps.filter (· != u))
  · exact modCore _ _
  · exact modCore _ _
  · exact refl s

/-- A thread ends, but for one by a kill (R81). -/
theorem endThread (u : Nat) (how : Ended) (hk : how ≠ .killed) : s.KeepsFamilies (s.endThread u how) := by
  unfold State.endThread
  extract_lets x passed told helper helped last
  have tells : s.KeepsFamilies told := by
    cases how
    case killed => exact absurd rfl hk
    case ret => exact passThrough u
    all_goals
      refine (passThrough u).trans ?_
      simp only [told]
      split
      · exact send _
      · exact refl _
  have helps : told.KeepsFamilies helped := by
    clear_value helper
    cases helper with
    | none => exact refl told
    | some h => exact modThread h _
  split
  · exact refl s
  · have ends : (helped.leaveSlot u).KeepsFamilies last := modThread u _
    exact (((tells.trans helps).trans (leaveSlot u)).trans ends).trans (of_families rfl)

/-- A fault that ends its thread (R346). -/
theorem raise (code cause : Nat) (addr : Word) (type : Nat) (ending : faultParks code cause type = false)
    (settled : s.settled s.uid = true) : s.KeepsFamilies (s.raise code cause addr type) := by
  obtain ⟨r, e⟩ := s.raiseAt_eq_endThread s.uid (s.threadAt s.uid).pc code cause addr type 0 ending
  rw [State.raise, State.raiseNow, if_pos settled, State.raiseFor, e]
  exact (of_families rfl).trans (endThread (s := s.addRecord r) s.uid _ nofun)

end State.KeepsFamilies

end Sys2Proof.Machine
end

section
/-! SUPPORT. A claim at its family's home, and one that is taken back (R75, R76). -/

namespace Sys2Proof.Machine

/-- A family whose members have all been claimed leaves the deques, and nothing else changes (R74). -/
theorem State.trimDeques_kept (s : State) (fk : Nat) : (s.trimDeques fk).threads = s.threads ∧
    (s.trimDeques fk).families = s.families ∧ (s.trimDeques fk).mem = s.mem := by
  unfold State.trimDeques
  extract_lets f
  split <;> exact ⟨rfl, rfl, rfl⟩

/-- A family's entry once a claim by thread `u` has taken its member `k`: the claim stands, and the progress has passed a
member that no claim gave back. -/
def Family.claimed (f : Family) (u k : Nat) (c : Claim) : Family := { f with
  progress := if f.returned.contains k then f.progress else k + 1
  returned := f.returned.filter (· != k)
  claims := f.claims.put u c }

theorem State.claimHome_fresh {s : State} {id fk core slot k : Nat}
    (here : s.msgs.find? id = some (.claim fk core slot none none)) (next : (s.famAt fk).nextK = some k) :
    s.claimHome id = (((({ s with carried := s.carried.put id (s.famAt fk).clock }).modFam fk
      (·.claimed s.nextId k ⟨id, core, slot, none, none, (Config.leaseExpiry id).toNat⟩)).makeMember fk k (.claimed core)).trimDeques fk).putMsg
      id (.landing s.nextId core slot none) := by
  have task : ({ s with carried := s.carried.put id (s.famAt fk).clock } : State).taskFor fk none none = some (.fresh k) := by
    show (s.famAt fk).nextK.map Task.fresh = _
    rw [next]; rfl
  simp only [State.claimHome, here, task]
  rfl

/-- A claim that is dropped changes no family, ends no thread, and leaves memory as it was. -/
theorem State.dropClaim_kept (s : State) (id slot : Nat) (helper : Option Nat) :
    (s.dropClaim id slot helper).families = s.families ∧
    (∀ u, ((s.dropClaim id slot helper).threadAt u).ended = (s.threadAt u).ended) ∧ (s.dropClaim id slot helper).mem = s.mem := by
  cases helper with
  | none => exact ⟨rfl, fun _ => rfl, rfl⟩
  | some h =>
    simp only [State.dropClaim]
    split
    · refine ⟨rfl, fun u => ?_, rfl⟩
      rw [State.helperWaits, State.threadAt_modThread]
      split
      · next here => rw [here]; rfl
      · rfl
    · exact ⟨rfl, fun _ => rfl, rfl⟩

/-- A record that lands in a slot: what the home knows comes with it, and its message is gone (R76, R263). -/
structure State.Arrives (id u : Nat) (s t : State) : Prop where
  gone : t.msgs.find? id = none
  names : t.nextId = s.nextId
  families : t.families = s.families
  funcs : t.funcs = s.funcs
  mem : t.mem = s.mem
  thread : ∃ n, t.threadAt u = { s.threadAt u with boundary := n }

theorem State.claimLands_enters {s : State} {id u core slot : Nat} {c : Claim}
    (here : s.msgs.find? id = some (.landing u core slot none)) (live : (s.threadAt u).ended = none)
    (stands : (s.famAt (s.threadAt u).fam).claims.find? u = some c) (same : c.id = id)
    (sound : s.coreMending (coreOfSlot slot) = false) (present : s.coreGone (coreOfSlot slot) = false) :
    ∃ a, State.Arrives id u s a ∧ s.claimLands id = (((a.modSlot slot (fun x => { x with reserved := none })).enterSlot u slot).modThread u
      (fun t => { t with wait := .lease })).send (.ack (s.threadAt u).fam u id) := by
  let told := (s.tellDie (dieOfCore (coreOfSlot slot)) (s.carriedBy id)).delMsg id
  have tells : State.Arrives id u s told := ⟨Tab.find?_del_self _ _, rfl, rfl, rfl, rfl, (s.threadAt u).boundary, rfl⟩
  have lands : s.claimLands id = ((((if (s.threadAt u).emptyCache && 4 ≤ (told.famAt (s.threadAt u).fam).place then
      told.modThread u (fun t => { t with boundary := told.nextId }) else told).modSlot slot
        (fun x => { x with reserved := none })).enterSlot u slot).modThread u (fun t => { t with wait := .lease })).send
      (.ack (s.threadAt u).fam u id) := by
    simp [State.claimLands, here, live, stands, same, sound, present, told]
  refine ⟨_, ?_, lands⟩
  split
  · exact ⟨tells.gone, rfl, rfl, rfl, rfl, told.nextId, State.threadAt_modThread_self _ _ _⟩
  · exact tells

theorem State.OnlyStarts.msgs {s t : State} (h : s.OnlyStarts t) : t.msgs = s.msgs := by
  have := congrArg State.msgs h.rest; exact this

/-- What a handle has come to depends on the families and the functions alone (R59). -/
theorem State.endedValue_congr {s t : State} (families : t.families = s.families) (funcs : t.funcs = s.funcs) (vf : Nat) :
    t.endedValue vf = s.endedValue vf := by
  have reads : t.endedValue vf = ({ s with families := t.families, funcs := t.funcs } : State).endedValue vf := rfl
  rw [reads, families, funcs]

/-- A claim of a fresh member that is taken back: the copy has ended, and its k returns to the family (R76). -/
theorem State.returnClaim_fresh {s : State} {u : Nat} {c : Claim} (live : (s.threadAt u).ended = none)
    (fresh : c.record = none) :
    ((s.returnClaim u c).famAt (s.threadAt u).fam).claims.find? u = none ∧
    (s.threadAt u).k ∈ ((s.returnClaim u c).famAt (s.threadAt u).fam).returned ∧
    ((s.returnClaim u c).threadAt u).ended = some .killed ∧ (s.returnClaim u c).mem = s.mem := by
  let fk := (s.threadAt u).fam
  let closed := s.modFam fk (fun f => { f with claims := f.claims.del u })
  obtain ⟨ps, st, family⟩ := State.KeepsFamilies.leaveSlot (s := closed) u fk
  have mem : (closed.leaveSlot u).mem = s.mem :=
    (State.ChangesOnly.leaveSlot (p := fun _ => True) u (fun _ _ _ _ => trivial)).mem
  rw [State.famAt_modFam_self] at family
  have runs : (s.threadAt u).ended.isSome = false := by rw [live]; rfl
  generalize ret : s.returnClaim u c = t
  unfold State.returnClaim at ret
  extract_lets x fk' closed' left work gone back f at ret
  rw [if_neg (by rw [runs]; exact nofun)] at ret
  simp only [fresh] at ret
  have entry : back.famAt fk = _ := State.famAt_modFam_self gone fk _
  have ended : (back.threadAt u).ended = some .killed := by simp [back, gone]
  have families : t.families = back.families := by
    rw [← ret]
    refine State.foldl_kept State.families (fun v c => ?_) _ _
    split <;> rfl
  have threads : t.threads = back.threads := by
    rw [← ret]
    refine State.foldl_kept State.threads (fun v c => ?_) _ _
    split <;> rfl
  have kept : t.mem = back.mem := by
    rw [← ret]
    refine State.foldl_kept State.mem (fun v c => ?_) _ _
    split <;> rfl
  have stands : t.famAt fk = _ := (congrArg (Tab.get · Family.blank fk) families).trans entry
  have copy : t.threadAt u = back.threadAt u := congrArg (Tab.get · Thread.blank u) threads
  have before : gone.famAt fk = _ := family
  rw [stands, copy, before]
  exact ⟨Tab.find?_del_self _ _, by simp [x], ended, kept.trans mem⟩

end Sys2Proof.Machine
end


section
/-! PROOF. Claims of members. -/

namespace Sys2Proof.Proofs
open Sys2Proof Sys2Proof.Machine

/-- A claim takes its family's next member, which the home makes and sends to the claimer (R75). -/
theorem exec_claimAtHome_takes (id fk core slot k : Nat) (s : State)
    (here : s.msgs.find? id = some (.claim fk core slot none none)) (next : (s.famAt fk).nextK = some k) :
    ∃ t e, exec (.claimAtHome id) s = .next t ∧ t.mem = s.mem ∧ t.msgs.find? id = some (.landing s.nextId core slot none) ∧
      (t.threadAt s.nextId).fam = fk ∧ (t.threadAt s.nextId).k = k ∧ (t.threadAt s.nextId).loc = .claimed core ∧
      (t.threadAt s.nextId).pc = (s.famAt fk).body ∧ (t.threadAt s.nextId).fh = s.handleOf fk ∧
      (t.threadAt s.nextId).ix = word (((s.famAt fk).first + k * (s.famAt fk).step) % 2 ^ 40) ∧
      (∀ u, u ≠ s.nextId → t.threadAt u = s.threadAt u) ∧
      (t.famAt fk).claims.find? s.nextId = some ⟨id, core, slot, none, none, e⟩ ∧
      (t.famAt fk).progress = (if k ∈ (s.famAt fk).returned then (s.famAt fk).progress else k + 1) ∧
      k ∉ (t.famAt fk).returned := by
  let c : Claim := ⟨id, core, slot, none, none, (Config.leaseExpiry id).toNat⟩
  let s1 := ({ s with carried := s.carried.put id (s.famAt fk).clock } : State).modFam fk (·.claimed s.nextId k c)
  let s2 := s1.makeMember fk k (.claimed core)
  obtain ⟨threads, families, mem⟩ := s2.trimDeques_kept fk
  have entry : s1.famAt fk = (s.famAt fk).claimed s.nextId k c := State.famAt_modFam_self _ _ _
  have handle : s1.handleOf fk = s.handleOf fk := by
    rw [State.handleOf, entry]; rfl
  have family : s2.famAt fk = { (s.famAt fk).claimed s.nextId k c with
      work := ((s.famAt fk).claimed s.nextId k c).work.filter (fun e => e.1 / 4 != k) } := by
    simp only [s2, State.makeMember, State.famAt_modFam_self]
    rw [← entry]; rfl
  have thread (u : Nat) : s2.threadAt u = if u = s.nextId then
      ((s.famAt fk).claimed s.nextId k c).member fk k (s.handleOf fk) (.claimed core) else s.threadAt u := by
    rw [← entry, ← handle]
    exact State.threadAt_putThread s1 s.nextId u _
  generalize home : (s2.trimDeques fk).putMsg id (.landing s.nextId core slot none) = t
  have now (u : Nat) : t.threadAt u = s2.threadAt u := by rw [← home]; exact congrArg (Tab.get · Thread.blank u) threads
  have fam : t.famAt fk = s2.famAt fk := by rw [← home]; exact congrArg (Tab.get · Family.blank fk) families
  have made : t.threadAt s.nextId = _ := (now s.nextId).trans ((thread s.nextId).trans (if_pos rfl))
  refine ⟨t, c.expiry, ?_, ?_, ?_, ?_, ?_, ?_, ?_, ?_, ?_, fun u hu => ?_, ?_, ?_, ?_⟩
  · rw [exec_claimAtHome, execClaimAtHome, State.claimHome_fresh here next, ← home]
  · rw [← home]; exact mem
  · rw [← home]; exact Tab.find?_put_self _ _ _
  · rw [made]; rfl
  · rw [made]; rfl
  · rw [made]; rfl
  · rw [made]; rfl
  · rw [made]; rfl
  · rw [made]; rfl
  · rw [now, thread, if_neg hu]
  · rw [fam, family]; exact Tab.find?_put_self _ _ _
  · rw [fam, family]; simp [Family.claimed]
  · rw [fam, family]; simp [Family.claimed]

/-- A claim of a family that has no member left takes nothing, and its slot is let go (R75). -/
theorem exec_claimAtHome_drops (id fk core slot : Nat) (s : State)
    (here : s.msgs.find? id = some (.claim fk core slot none none)) (last : (s.famAt fk).nextK = none) :
    ∃ t, exec (.claimAtHome id) s = .next t ∧ t.msgs.find? id = none ∧ t.threads = s.threads ∧ t.families = s.families ∧
      ((s.slotAt slot).reserved = some id → (t.slotAt slot).reserved = none) := by
  have task : ({ s with carried := s.carried.put id (s.famAt fk).clock } : State).taskFor fk none none = none := by
    show (s.famAt fk).nextK.map Task.fresh = _
    rw [last]; rfl
  refine ⟨({ s with carried := s.carried.put id (s.famAt fk).clock } : State).dropClaim id slot none, ?_, ?_, rfl, rfl,
    fun held => ?_⟩
  · simp only [exec_claimAtHome, execClaimAtHome, State.claimHome, here, task]
  · exact Tab.find?_del_self _ _
  · simp only [State.dropClaim, State.slotAt_modSlot_self]
    exact if_pos (beq_iff_eq.mpr held)

/-- A claim for a free slot is on its way, and the slot is reserved for it (R74). -/
theorem sendClaim_sends (s : State) (core fk q : Nat) :
    (s.sendClaim core fk q none).msgs.find? s.nextId = some (.claim fk core q none none) ∧
    ((s.sendClaim core fk q none).slotAt q).reserved = some s.nextId ∧ (s.sendClaim core fk q none).threads = s.threads ∧
    (s.sendClaim core fk q none).families = s.families ∧ (s.sendClaim core fk q none).mem = s.mem :=
  ⟨Tab.find?_put_self _ _ _, congrArg Slot.reserved (s.slotAt_modSlot_self q (fun x => { x with reserved := some s.nextId })),
    rfl, rfl, rfl⟩

/-- A core that may start a thread claims for its oldest deque entry when neither its serial queue nor its run queue has
one (R74). -/
theorem coreClaim_oldest {s : State} {core q : Nat} {d : DqEntry} (runs : (s.coreAt core).stopped = false)
    (awake : (s.coreAt core).gated = false) (noSerial : s.serialNext core = none) (noRecord : (s.coreAt core).runq = [])
    (oldest : s.oldestClaim core core = some (d, q)) : s.coreClaim core = s.sendClaim core d.fam q none := by
  simp [State.coreClaim, runs, awake, noSerial, noRecord, oldest]
/-- The serial queue's head takes slot 15 first (R91). -/
theorem coreClaim_serial {s : State} {core u : Nat} (runs : (s.coreAt core).stopped = false)
    (awake : (s.coreAt core).gated = false) (serial : s.serialNext core = some u) :
    s.coreClaim core = (s.modCore core (fun x => { x with serialq := x.serialq.filter (· != u) })).enterSlot u (16 * core + 15) := by
  simp [State.coreClaim, runs, awake, serial]
/-- A core without a deque entry of its own claims for another core's (R74). -/
theorem steal_claims {s : State} {core q : Nat} {d : DqEntry} (runs : (s.coreAt core).stopped = false)
    (awake : (s.coreAt core).gated = false) (idle : s.oldestClaim core core = none)
    (found : (scanOrder core).findSome? (fun x =>
      if (s.coreAt x).deque.isEmpty then none else s.oldestClaim core x) = some (d, q)) :
    s.steal core = s.sendClaim core d.fam q none := by
  simp only [State.steal, runs, awake, idle, found]
  rfl

/-- The serial thread that takes slot 15 runs there, and has left its core's serial queue (R91). -/
theorem exec_coreClaim_serial (core u : Nat) (s : State) (runs : (s.coreAt core).stopped = false)
    (awake : (s.coreAt core).gated = false) (serial : s.serialNext core = some u) :
    ∃ t, exec (.coreClaim core) s = .next t ∧ (t.slotAt (16 * core + 15)).occ = some u ∧
      (t.threadAt u).loc = .slot (16 * core + 15) ∧ u ∉ (t.coreAt core).serialq := by
  have enters := (s.modCore core (fun x => { x with serialq := x.serialq.filter (· != u) })).enterSlot_enters u (16 * core + 15)
  obtain ⟨_, _, queues⟩ := enters.cores core
  refine ⟨_, by rw [exec_coreClaim, execCoreClaim, coreClaim_serial runs awake serial], enters.occupant, enters.loc, ?_⟩
  rw [queues]
  simp

/-- The acknowledgement of a claim that stands ends the claim, and its thread may run (R76). -/
theorem exec_claimAckAtHome_acks (id fk u n : Nat) (c : Claim) (s : State) (here : s.msgs.find? id = some (.ack fk u n))
    (stands : (s.famAt fk).claims.find? u = some c) (same : c.id = n) :
    ∃ t, exec (.claimAckAtHome id) s = .next t ∧ t.msgs.find? id = none ∧ (t.famAt fk).claims.find? u = none ∧
      ((s.threadAt u).wait = .lease → (t.threadAt u).wait = s.rewait u) ∧
      (∀ v, v ≠ u → t.threadAt v = s.threadAt v ∧ (t.famAt fk).claims.find? v = (s.famAt fk).claims.find? v) := by
  let s1 := (s.delMsg id).modFam fk (fun f => { f with claims := f.claims.del u })
  have entry : s1.famAt fk = { s.famAt fk with claims := (s.famAt fk).claims.del u } := State.famAt_modFam_self _ _ _
  have gone : s1.msgs.find? id = none := Tab.find?_del_self _ _
  have left (v : Nat) (hv : v ≠ u) : (s1.famAt fk).claims.find? v = (s.famAt fk).claims.find? v := by
    rw [entry, Tab.find?_del, if_neg hv]
  have closed : (s1.famAt fk).claims.find? u = none := by rw [entry]; exact Tab.find?_del_self _ _
  have runs : exec (.claimAckAtHome id) s = .next (
      if (s.threadAt u).wait == .lease then s1.modThread u (fun t => { t with wait := s.rewait u }) else s1) := by
    have stands' : ((s.delMsg id).famAt fk).claims.find? u = some c := stands
    simp only [exec_claimAckAtHome, execClaimAckAtHome, State.claimAck, here, stands', same]
    simp only [bne_self_eq_false, Bool.false_eq_true, if_false]
    rfl
  rw [runs]
  by_cases leased : (s.threadAt u).wait = .lease
  · rw [if_pos (beq_iff_eq.mpr leased)]
    exact ⟨_, rfl, gone, closed, fun _ => by simp, fun v hv => ⟨by rw [State.threadAt_modThread, if_neg hv]; rfl, left v hv⟩⟩
  · rw [if_neg (fun h => leased (beq_iff_eq.mp h))]
    exact ⟨_, rfl, gone, closed, fun h => absurd h leased, fun v hv => ⟨rfl, left v hv⟩⟩

/-- The acknowledgement of an earlier claim changes nothing but that it is gone (R76). -/
theorem exec_claimAckAtHome_refuses (id fk u n : Nat) (s : State) (here : s.msgs.find? id = some (.ack fk u n))
    (earlier : ∀ c, (s.famAt fk).claims.find? u = some c → c.id ≠ n) :
    ∃ t, exec (.claimAckAtHome id) s = .next t ∧ t.msgs.find? id = none ∧
      { t with msgs := s.msgs, bound := s.bound, carried := s.carried } = s := by
  refine ⟨s.delMsg id, ?_, Tab.find?_del_self _ _, rfl⟩
  have found : ((s.delMsg id).famAt fk).claims.find? u = (s.famAt fk).claims.find? u := rfl
  simp only [exec_claimAckAtHome, execClaimAckAtHome, State.claimAck, here, found]
  cases stands : (s.famAt fk).claims.find? u with
  | none => rfl
  | some c => simp [earlier c stands]

/-- A claimed record lands in its slot, with its handles looked at, and its acknowledgement leaves for the home (R76, R86). -/
theorem exec_claimLands_enters (id u core slot : Nat) (c : Claim) (s : State)
    (here : s.msgs.find? id = some (.landing u core slot none)) (live : (s.threadAt u).ended = none)
    (stands : (s.famAt (s.threadAt u).fam).claims.find? u = some c) (same : c.id = id)
    (sound : s.coreMending (coreOfSlot slot) = false) (present : s.coreGone (coreOfSlot slot) = false) (old : id < s.nextId) :
    ∃ t, exec (.claimLands id) s = .next t ∧ t.msgs.find? id = none ∧ (t.slotAt slot).occ = some u ∧ (t.slotAt slot).vecs = [] ∧
      (t.threadAt u).loc = .slot slot ∧ (t.threadAt u).pc = (s.threadAt u).pc ∧
      (∀ r, (t.threadAt u).reg r = if r < 10 then ((s.threadAt u).reg r).looked (s.endedValue (s.threadAt u).vf)
        else (s.threadAt u).reg r) ∧
      (t.threadAt u).wait = .lease ∧ t.msgs.find? s.nextId = some (.ack (s.threadAt u).fam u id) ∧ t.mem = s.mem := by
  obtain ⟨a, arrives, lands⟩ := State.claimLands_enters here live stands same sound present
  have enters := (a.modSlot slot (fun x => { x with reserved := none })).enterSlot_enters u slot
  obtain ⟨n, before⟩ := arrives.thread
  have start : (a.modSlot slot (fun x => { x with reserved := none })).threadAt u = { s.threadAt u with boundary := n } := before
  have msgs := enters.starts.msgs
  have names := enters.names.trans arrives.names
  have values := State.endedValue_congr arrives.families arrives.funcs (s.threadAt u).vf
  have loc := enters.loc
  have pc := enters.pc
  have looked := enters.regs
  rw [start] at pc looked
  generalize (a.modSlot slot (fun x => { x with reserved := none })).enterSlot u slot = e at *
  rw [exec_claimLands, execClaimLands, lands]
  refine ⟨_, rfl, ?_, enters.occupant, enters.vectors, by simp [loc], by simp [pc],
    fun r => ?_, by simp, ?_, enters.starts.mem.trans arrives.mem⟩
  · rw [State.find?_send, if_neg (by show ¬ id = e.nextId; omega)]
    exact (congrArg (Tab.find? · id) msgs).trans arrives.gone
  · rw [State.threadAt_send, State.threadAt_modThread_self]
    refine (looked r).trans ?_
    show (if r < 10 then ((s.threadAt u).reg r).looked (a.endedValue (s.threadAt u).vf) else (s.threadAt u).reg r) = _
    rw [values]
  · rw [State.find?_send]
    exact if_pos names.symm

/-- An earlier claim's copy is discarded where it lands (R76). -/
theorem exec_claimLands_discards (id u core slot : Nat) (c : Claim) (s : State)
    (here : s.msgs.find? id = some (.landing u core slot none)) (live : (s.threadAt u).ended = none)
    (stands : (s.famAt (s.threadAt u).fam).claims.find? u = some c) (other : c.id ≠ id) :
    ∃ t, exec (.claimLands id) s = .next t ∧ t.msgs.find? id = none ∧ t.threads = s.threads ∧
      t.families = s.families ∧ (t.slotAt slot).occ = (s.slotAt slot).occ := by
  refine ⟨s.dropClaim id slot none, ?_, Tab.find?_del_self _ _, rfl, rfl, ?_⟩
  · rw [exec_claimLands, execClaimLands]
    simp [State.claimLands, here, live, stands, other]
  · simp only [State.dropClaim, State.slotAt_modSlot_self]
    rfl

/-- A claim whose lease expires gives its member back, and the copy on its way is discarded where it lands (R76). -/
theorem exec_leaseExpiry_returns (u : Nat) (c : Claim) (s : State)
    (stands : (s.famAt (s.threadAt u).fam).claims.find? u = some c) (live : (s.threadAt u).ended = none)
    (fresh : c.record = none) :
    ∃ t, exec (.leaseExpiry u) s = .next t ∧ (t.famAt (s.threadAt u).fam).claims.find? u = none ∧
      (s.threadAt u).k ∈ (t.famAt (s.threadAt u).fam).returned ∧ (t.threadAt u).ended.isSome = true ∧ t.mem = s.mem := by
  obtain ⟨closed, back, ended, mem⟩ := State.returnClaim_fresh live fresh
  refine ⟨_, rfl, ?_⟩
  simp only [State.leaseExpires, stands]
  split
  · next id _ _ slot helper found =>
    obtain ⟨families, kept, memory⟩ := State.dropClaim_kept (s.returnClaim u c) id slot helper
    have family : ((s.returnClaim u c).dropClaim id slot helper).famAt (s.threadAt u).fam =
        (s.returnClaim u c).famAt (s.threadAt u).fam := congrArg (Tab.get · Family.blank _) families
    rw [family, kept u, memory]
    exact ⟨closed, back, by rw [ended]; rfl, mem⟩
  · exact ⟨closed, back, by rw [ended]; rfl, mem⟩

/-- Settles O45, one event of a claim at a time: at the home, at the core that claims, where it lands, its acknowledgement,
and its expiry. -/
theorem claimsRun : Obligations.ClaimsRun := by
  unfold Obligations.ClaimsRun
  refine ⟨fun id fk core slot s here => ⟨fun k => exec_claimAtHome_takes id fk core slot k s here,
      exec_claimAtHome_drops id fk core slot s here⟩,
    fun core q d s runs awake => ⟨fun noSerial noRecord oldest => ?_, fun u => exec_coreClaim_serial core u s runs awake,
      fun idle found => ?_⟩,
    fun id u core slot c s here live stands => ⟨fun same sound present old => ?_,
      exec_claimLands_discards id u core slot c s here live stands⟩,
    fun id fk u n s here => ⟨fun c => exec_claimAckAtHome_acks id fk u n c s here,
      exec_claimAckAtHome_refuses id fk u n s here⟩,
    exec_leaseExpiry_returns⟩
  · exact ⟨_, by rw [exec_coreClaim, execCoreClaim, coreClaim_oldest runs awake noSerial noRecord oldest],
      sendClaim_sends s core d.fam q⟩
  · exact ⟨_, by rw [exec_steal, execSteal, steal_claims runs awake idle found], sendClaim_sends s core d.fam q⟩
  · obtain ⟨t, runs, gone, occupant, vectors, loc, pc, looked, rest⟩ :=
      exec_claimLands_enters id u core slot c s here live stands same sound present old
    refine ⟨t, runs, gone, occupant, vectors, loc, pc, fun r => ?_, rest⟩
    rw [looked r, FReg.looked]
    cases ((s.threadAt u).reg r).st with
    | pending f => rfl
    | full => exact ite_self _
    | empty => exact ite_self _

end Sys2Proof.Proofs
end

section
/-! SUPPORT. The members of a range (R62), and a family as it is made and dealt (R66, R67, R71). -/

namespace Sys2Proof.Machine

/-! The range of a `create`: its faults in their order, and the count of its members. -/

section
variable {start limit step body : Word}

theorem rangeCount_badStep (h : step.toInt ≤ 0) : rangeCount start limit step body = .error 1 := by
  simp only [rangeCount]
  rw [if_pos h]
theorem rangeCount_badBody (pos : 0 < step.toInt) (h : body.toNat % 4 ≠ 0) :
    rangeCount start limit step body = .error 4 := by
  simp only [rangeCount]
  rw [if_neg (by omega), if_pos (by simpa using h)]

variable (pos : 0 < step.toInt) (aligned : body.toNat % 4 = 0)
include pos aligned

theorem rangeCount_empty (h : limit.toInt ≤ start.toInt) : rangeCount start limit step body = .ok 0 := by
  simp only [rangeCount]
  rw [if_neg (by omega), if_neg (by simpa using aligned), if_pos h]
  rfl

variable (members : start.toInt < limit.toInt)
include members

omit aligned in
/-- A range with members has at least one. -/
theorem members_pos : 0 < (limit.toInt - start.toInt + step.toInt - 1) / step.toInt := by
  have one := Int.le_ediv_of_mul_le pos (show 1 * step.toInt ≤ limit.toInt - start.toInt + step.toInt - 1 by omega)
  omega
/-- The checks of a range with members, in their order (R62). -/
theorem rangeCount_members :
    let n := (limit.toInt - start.toInt + step.toInt - 1) / step.toInt
    rangeCount start limit step body = if start.toInt < 0 then .error 2 else if 2 ^ 40 - 1 < n then .error 3
      else if 2 ^ 40 - 1 < start.toInt + (n - 1) * step.toInt then .error 3 else .ok n.toNat := by
  have some' := members_pos pos members
  simp only [rangeCount, not_le.mpr pos, aligned, not_le.mpr members, some', if_false, bne_self_eq_false, Bool.false_eq_true,
    true_and]

end

/-! A family is dealt: nothing that stands already is touched. -/

/-- Members of family `fk` have been started: under new names, in slots that were free. -/
structure State.StartsNew (fk : Nat) (s t : State) : Prop where
  names : s.nextId ≤ t.nextId
  threads : ∀ u, u < s.nextId → t.threadAt u = s.threadAt u
  occupied : ∀ q, (s.slotAt q).occ ≠ none → (t.slotAt q).occ = (s.slotAt q).occ
  families : ∀ g, g ≠ fk → t.famAt g = s.famAt g
  me : t.me = s.me

/-- The slots that a deal takes are free (R72). -/
theorem State.freeSlots_free {s : State} {c vf qu q : Nat} (h : q ∈ s.freeSlots c vf qu) : (s.slotAt q).occ = none := by
  unfold State.freeSlots at h
  split at h
  · exact absurd h List.not_mem_nil
  · obtain ⟨i, free, rfl⟩ := List.mem_map.mp h
    simp only [List.mem_filter, Bool.and_eq_true, Option.isNone_iff_eq_none] at free
    exact free.2.1.1.1

theorem State.OnlyStarts.me {s t : State} (h : s.OnlyStarts t) : t.me = s.me := by
  have := congrArg State.me h.rest; exact this

namespace State.StartsNew

variable {fk : Nat} {s t : State}

theorem refl (fk : Nat) (s : State) : State.StartsNew fk s s := ⟨le_rfl, fun _ _ => rfl, fun _ _ => rfl, fun _ _ => rfl, rfl⟩
theorem free (h : State.StartsNew fk s t) {q : Nat} (now : (t.slotAt q).occ = none) : (s.slotAt q).occ = none := by
  by_contra taken
  rw [h.occupied q taken] at now
  exact taken now

/-- One member starts, in a slot that was free (R71). -/
theorem dealMember (h : State.StartsNew fk s t) {q : Nat} (free : (s.slotAt q).occ = none) :
    State.StartsNew fk s (t.dealMember fk q) := by
  unfold State.dealMember
  extract_lets k u
  let made := (t.modFam fk (fun f => { f with progress := k + 1 })).makeMember fk k (.slot q)
  have enters := made.enterSlot_enters u q
  have thread (v : Nat) (hv : v ≠ u) : made.threadAt v = t.threadAt v := (State.threadAt_putThread _ _ _ _).trans (if_neg hv)
  have families : (made.enterSlot u q).families = made.families := enters.starts.families
  refine ⟨?_, fun v hv => ?_, fun p hp => ?_, fun g hg => ?_, ?_⟩
  · rw [enters.names]; exact h.names.trans (Nat.le_succ _)
  · have old : v ≠ u := fun e => by have := h.names; omega
    rw [enters.others v old, thread v old, h.threads v hv]
  · have other : p ≠ q := fun e => hp (e ▸ free)
    rw [enters.slots p other]
    exact h.occupied p hp
  · rw [State.famAt, families, ← State.famAt, ← h.families g hg]
    have deals : made.famAt g = (t.modFam fk (fun f => { f with progress := k + 1 })).famAt g :=
      (State.famAt_modFam _ _ _ _).trans (if_neg hg)
    exact deals.trans ((State.famAt_modFam _ _ _ _).trans (if_neg hg))
  · exact enters.starts.me.trans h.me
theorem dealMembers (h : State.StartsNew fk s t) (qs : List Nat) (free : ∀ q ∈ qs, (s.slotAt q).occ = none) :
    State.StartsNew fk s (qs.foldl (fun (s : State) q => s.dealMember fk q) t) := by
  induction qs generalizing t with
  | nil => exact h
  | cons q qs ih =>
    rw [List.foldl_cons]
    exact ih (h.dealMember (free q List.mem_cons_self)) (fun p hp => free p (List.mem_cons_of_mem q hp))
theorem dealCore (h : State.StartsNew fk s t) (c : Nat) : State.StartsNew fk s (t.dealCore fk c) := by
  unfold State.dealCore
  dsimp only
  split
  · exact h
  · exact h.dealMembers _ (fun q hq => h.free (State.freeSlots_free (List.mem_of_mem_take hq)))
theorem modCore (h : State.StartsNew fk s t) (c : Nat) (f : Core → Core) : State.StartsNew fk s (t.modCore c f) :=
  ⟨h.names, h.threads, h.occupied, h.families, h.me⟩
theorem foldl {α : Type} (xs : List α) (f : State → α → State)
    (hf : ∀ v x, State.StartsNew fk s v → State.StartsNew fk s (f v x)) (h : State.StartsNew fk s t) :
    State.StartsNew fk s (xs.foldl f t) := by
  induction xs generalizing t with
  | nil => exact h
  | cons x xs ih => exact ih (hf t x h)
/-- The deal (R71, R74). -/
theorem deal (h : State.StartsNew fk s t) : State.StartsNew fk s (t.deal fk) := by
  unfold State.deal
  extract_lets f cs dealt named
  have deals : State.StartsNew fk s dealt := foldl cs _ (fun v c hv => hv.dealCore c) h
  have names : State.StartsNew fk s named := by
    simp only [named]
    split
    · exact deals
    · exact foldl cs _ (fun v c hv => hv.modCore c _) deals
  exact ⟨names.names.trans (Nat.le_succ _), names.threads, names.occupied, names.families, names.me⟩

end State.StartsNew

/-- The rest of a family's entry as it is made, and what the making leaves: it starts members only. -/
theorem State.makeFamily_starts (s : State) (fk : Nat) (x : Making) :
    State.StartsNew fk s (s.makeFamily fk x) ∧
      let f := (s.makeFamily fk x).famAt fk
      f.gen = ((s.famAt fk).gen + 1) % 256 ∧ f.origin = x.origin ∧ f.fctl = x.fctl ∧ f.srseed = x.srseed ∧
      f.adoptMax = x.adoptMax ∧ f.endedK = [] := by
  obtain ⟨f, made, gen, origin, fctl, srseed, adoptMax, endedK⟩ : ∃ f : Family,
      s.makeFamily fk x = (s.modFam fk (fun _ => f)).deal fk ∧ f.gen = ((s.famAt fk).gen + 1) % 256 ∧ f.origin = x.origin ∧
      f.fctl = x.fctl ∧ f.srseed = x.srseed ∧ f.adoptMax = x.adoptMax ∧ f.endedK = [] :=
    ⟨_, rfl, rfl, rfl, rfl, rfl, rfl, rfl⟩
  have entered : State.StartsNew fk s (s.modFam fk (fun _ => f)) :=
    ⟨le_rfl, fun _ _ => rfl, fun _ _ => rfl, fun g hg => (State.famAt_modFam _ _ _ _).trans (if_neg hg), rfl⟩
  obtain ⟨k, -, deals⟩ := State.Deals.deal fk (s.modFam fk (fun _ => f))
  obtain ⟨ws, dealt⟩ := deals.family
  rw [State.famAt_modFam_self] at dealt
  rw [made]
  refine ⟨entered.deal, ?_⟩
  rw [dealt]
  exact ⟨gen, origin, fctl, srseed, adoptMax, endedK⟩

/-! The creator's registers: its handle and its links wait for the family. -/

/-- A thread whose links wait for family `h`. -/
def Thread.pendLinks (x : Thread) (h : Word) (links : List (Nat × Nat)) : Thread :=
  links.foldl (fun x l => x.pended (BitVec.ofNat 5 l.2) (.link h l.1)) x

theorem Thread.fe_pended_ne (x : Thread) (d : BitVec 5) (f : Fill) (r : Nat) (h : r ≠ d.toNat) : (x.pended d f).fe r = x.fe r := by
  unfold Thread.pended
  split
  · simp [Thread.fe_setReg, h]
  · rfl
/-- Beside its registers, a thread with pending links is as it was. -/
theorem Thread.pendLinks_rest (x : Thread) (h : Word) (links : List (Nat × Nat)) :
    { x.pendLinks h links with regs := x.regs } = x := by
  induction links generalizing x with
  | nil => rfl
  | cons l links ih =>
    have one : { x.pended (BitVec.ofNat 5 l.2) (.link h l.1) with regs := x.regs } = x := by
      unfold Thread.pended
      split <;> rfl
    have more := congrArg (fun y : Thread => { y with regs := x.regs }) (ih (x.pended (BitVec.ofNat 5 l.2) (.link h l.1)))
    exact more.trans one

/-- A thread that has made family `h`: SRSEED has stepped (R235). -/
def Thread.created (x : Thread) (h : Word) : Thread := { x with srseed := x.srseed + 1, made := x.made ++ [h] }
/-- The creator's handle and links wait for its family, where it has a handle register (R59). -/
def Thread.waiting (x : Thread) (own : Bool) (d : BitVec 5) (h : Word) (links : List (Nat × Nat)) : Thread :=
  if own then (x.pended d (.family h)).pendLinks h links else x
theorem Thread.waiting_rest (x : Thread) (own : Bool) (d : BitVec 5) (h : Word) (links : List (Nat × Nat)) :
    { x.waiting own d h links with regs := x.regs } = x := by
  cases own with
  | false => rfl
  | true =>
    have one : { x.pended d (.family h) with regs := x.regs } = x := by
      unfold Thread.pended
      split <;> rfl
    have more := congrArg (fun y : Thread => { y with regs := x.regs }) (Thread.pendLinks_rest (x.pended d (.family h)) h links)
    exact more.trans one

section
variable {links : List (Nat × Nat)} (small : ∀ l ∈ links, l.2 < 32) (h : Word)
include small

/-- A register that is no link's local is as it was. -/
theorem Thread.fe_pendLinks_ne (x : Thread) (r : Nat) (other : ∀ l ∈ links, l.2 ≠ r) : (x.pendLinks h links).fe r = x.fe r := by
  induction links generalizing x with
  | nil => rfl
  | cons l links ih =>
    have here : r ≠ (BitVec.ofNat 5 l.2).toNat := by
      rw [BitVec.toNat_ofNat, Nat.mod_eq_of_lt (small l List.mem_cons_self)]
      exact (other l List.mem_cons_self).symm
    exact (ih (fun l' hl => small l' (List.mem_cons_of_mem l hl)) _ (fun l' hl => other l' (List.mem_cons_of_mem l hl))).trans
      (Thread.fe_pended_ne x _ _ r here)
/-- The local of one link alone waits for that link. -/
theorem Thread.fe_pendLinks (x : Thread) (l : Nat × Nat) (mem : l ∈ links) (waits : hasFe l.2 = true)
    (alone : ∀ l' ∈ links, l'.2 = l.2 → l' = l) : (x.pendLinks h links).fe l.2 = .pending (.link h l.1) := by
  induction links generalizing x with
  | nil => exact absurd mem List.not_mem_nil
  | cons l' links ih =>
    have smaller : ∀ l ∈ links, l.2 < 32 := fun k hk => small k (List.mem_cons_of_mem l' hk)
    by_cases later : l ∈ links
    · exact ih smaller _ later (fun k hk => alone k (List.mem_cons_of_mem l' hk))
    · obtain rfl : l = l' := (List.mem_cons.mp mem).resolve_right later
      have reg : (BitVec.ofNat 5 l.2).toNat = l.2 := by
        rw [BitVec.toNat_ofNat, Nat.mod_eq_of_lt (small l List.mem_cons_self)]
      have pends := Thread.fe_pended x (BitVec.ofNat 5 l.2) (.link h l.1) (by rw [reg]; exact waits)
      rw [reg] at pends
      refine (Thread.fe_pendLinks_ne smaller h (x.pended (BitVec.ofNat 5 l.2) (.link h l.1)) l.2 (fun k hk same => ?_)).trans pends
      exact later (alone k (List.mem_cons_of_mem l hk) same ▸ hk)

end

/-- The links of an instruction's second word are locals below 16. -/
theorem usedLinks_small (w2 : BitVec 32) : ∀ l ∈ usedLinks (mkLinks w2), l.2 < 32 := by
  intro l mem
  obtain ⟨⟨i, lt, rfl⟩, -⟩ : (∃ i, i < 4 ∧ (i, (mkLinks w2).getD i 15) = l) ∧ _ := by
    simpa only [usedLinks, List.mem_filter, List.mem_map, List.mem_range] using mem
  have field : (mkLinks w2).getD i 15 = w2.toNat / 2 ^ (7 + 4 * i) % 2 ^ 4 := by
    simp [mkLinks, bitsOf, lt]
  show (mkLinks w2).getD i 15 < 32
  rw [field]
  omega

/-- The write of a register changes no family: a shared's value leaves as a message (R77). -/
theorem State.families_writeGpr (s : State) (d : BitVec 5) (v : Word) : (s.writeGpr d v).families = s.families := by
  unfold State.writeGpr State.landGpr
  split
  · rfl
  · split
    · obtain ⟨ms, b, c, n, sent⟩ := State.sendDep_eq (s.modThread s.uid (fun t => t.setReg d.toNat ⟨v, .full⟩))
        (s.threadAt s.uid) (d.toNat - 18) (some v)
      simp only [sent]
      rfl
    · split <;> rfl

/-- Nothing of the machine changes but threads. -/
def State.OnlyThreads (s t : State) : Prop := { t with threads := s.threads } = s

namespace State.OnlyThreads

variable {s t : State}

theorem modCur (h : s.OnlyThreads t) (f : Thread → Thread) : s.OnlyThreads (t.modCur f) := h
theorem consume_advance (s : State) (m : Mods) (a b : BitVec 5) : s.OnlyThreads ((s.consume m a b).advance m) := by
  rw [State.consume_advance]; rfl
theorem pendGpr (h : s.OnlyThreads t) (d : BitVec 5) (f : Fill) : s.OnlyThreads (t.pendGpr d f) := by
  unfold State.pendGpr
  split
  · exact h.modCur _
  · exact h
theorem families (h : s.OnlyThreads t) : t.families = s.families := by have := congrArg State.families h; exact this
theorem funcs (h : s.OnlyThreads t) : t.funcs = s.funcs := by have := congrArg State.funcs h; exact this

end State.OnlyThreads

/-- The links of the executing thread wait for the family; nothing else changes. -/
theorem State.pendLinks_poised {s t : State} {x : Thread} (h : s.Poised t x) (only : s.OnlyThreads t) (w : Word)
    (links : List (Nat × Nat)) :
    let u := links.foldl (fun (t : State) l => t.pendGpr (BitVec.ofNat 5 l.2) (.link w l.1)) t
    s.Poised u (x.pendLinks w links) ∧ s.OnlyThreads u := by
  induction links generalizing t x with
  | nil => exact ⟨h, only⟩
  | cons l links ih => exact ih (h.pendGpr _ _) (only.pendGpr _ _)

end Sys2Proof.Machine
end

section
/-! PROOF. create and spawn. -/

namespace Sys2Proof.Proofs
open Sys2Proof Sys2Proof.Machine

/-- `create`, or `spawn`. -/
def familyInstr (own : Bool) (d a b : BitVec 5) (m : Mods) : Instr := if own then .create d a b m else .spawn a b m

/-- The operands of a `create` or a `spawn` can be read and written. -/
def FamilyReady (own : Bool) (d a b : BitVec 5) (m : Mods) (s : State) : Prop :=
  s.Ready m 0 { src := [a, b, m.rc] ++ (usedLinks (mkLinks m.w2)).map (fun l => BitVec.ofNat 5 l.2) ++ mkGlobals m.w2,
                dst := if own then [d] else [] }

/-- The creator once its family is to be made in entry `fk`: SRSEED has stepped, it has made the family, and its registers
wait for it. -/
def creating (own : Bool) (d : BitVec 5) (h : Word) (links : List (Nat × Nat)) (t : State) : State :=
  let t := t.modCur (·.created h)
  if own then links.foldl (fun (t : State) l => t.pendGpr (BitVec.ofNat 5 l.2) (.link h l.1)) (t.pendGpr d (.family h)) else t

/-- The creator as its family is to be made: its own registers have changed, and nothing else of the machine. -/
theorem creating_poised (own : Bool) (d : BitVec 5) (h : Word) (links : List (Nat × Nat)) (s : State) (m : Mods) (a b : BitVec 5) :
    let t := creating own d h links ((s.consume m a b).advance m)
    s.Poised t (((s.done m a b).created h).waiting own d h links) ∧ s.OnlyThreads t := by
  intro t
  have poised : s.Poised _ _ := .consume_advance (m := m) (a := a) (b := b) (.refl s)
  have steps : s.Poised (((s.consume m a b).advance m).modCur (·.created h)) ((s.done m a b).created h) :=
    ⟨poised.toRan.modCur _, poised.nextId⟩
  have only := (State.OnlyThreads.consume_advance s m a b).modCur (·.created h)
  cases own with
  | false => exact ⟨steps, only⟩
  | true => exact State.pendLinks_poised (steps.pendGpr d (.family h)) (only.pendGpr d (.family h)) h links

section
variable {own : Bool} {d a b : BitVec 5} {m : Mods} {s : State}

/-- `create` and `spawn` are one operation, the second without a handle register. -/
theorem exec_familyInstr : exec (familyInstr own d a b m) s = s.createFamily own (if own then d else 0#5) a b m := by
  cases own
  · exact exec_spawn a b m s
  · exact exec_create d a b m s

variable (ready : FamilyReady own d a b m s)
include ready

/-- An instruction that may issue comes to what its range and the arena say. -/
theorem issue_family (body : Out) :
    s.issue m 0 { src := [a, b, m.rc] ++ (usedLinks (mkLinks m.w2)).map (fun l => BitVec.ofNat 5 l.2) ++ mkGlobals m.w2,
                  dst := if own then [if own then d else 0#5] else [] } body = body := by
  refine State.issue_ready s m 0 _ body ?_
  cases own <;> exact ready
theorem exec_family_faults {c : Nat} (range : rangeCount (s.gpr a) (s.gpr b) (s.gpr m.rc) m.lit = .error c) :
    exec (familyInstr own d a b m) s = .next (s.raise fFAMILY c 0#64 3) := by
  rw [exec_familyInstr, State.createFamily, issue_family ready, range]
  rfl
theorem exec_family_empty (range : rangeCount (s.gpr a) (s.gpr b) (s.gpr m.rc) m.lit = .ok 0) :
    exec (familyInstr own d a b m) s = .next (
      let t := ((s.consume m a b).advance m).modCur (fun x => { x with srseed := x.srseed + 1 })
      if own then t.writeGpr d 0#64 else t) := by
  rw [exec_familyInstr, State.createFamily, issue_family ready, range]
  cases own <;> rfl
theorem exec_family_full {n : Nat} (some' : 0 < n) (range : rangeCount (s.gpr a) (s.gpr b) (s.gpr m.rc) m.lit = .ok n)
    (full : s.freeEntry s.cur.vf = none) :
    exec (familyInstr own d a b m) s = .next (s.raise fFAMILY 5 0#64 3) := by
  obtain ⟨k, rfl⟩ := Nat.exists_eq_succ_of_ne_zero some'.ne'
  rw [exec_familyInstr, State.createFamily, issue_family ready, range]
  simp only [full]
  rfl
theorem exec_family_makes {n fk : Nat} (some' : 0 < n) (range : rangeCount (s.gpr a) (s.gpr b) (s.gpr m.rc) m.lit = .ok n)
    (entry : s.freeEntry s.cur.vf = some fk) :
    ∃ x : Making, x.vf = s.cur.vf ∧ x.queue = s.cur.queue ∧ x.level = (s.famAt s.cur.fam).level ∧
      x.globals = (mkGlobals m.w2).map s.gpr ∧ x.first = (s.gpr a).toNat ∧ x.count = n ∧ x.step = (s.gpr m.rc).toNat ∧
      x.body = m.lit ∧ x.links = mkLinks m.w2 ∧ x.origin = s.myCore ∧ x.fctl = s.cur.fctl ∧ x.srseed = s.cur.srseed ∧
      x.adoptMax = s.cur.adoptMax ∧ x.deliver = (if own then .thread s.uid d.toNat (usedLinks (mkLinks m.w2)) else .nobody) ∧
      exec (familyInstr own d a b m) s = .next ((creating own d
        (word ((s.funcAt s.cur.vf).arenaBase + 256 * famIdOf fk + ((s.famAt fk).gen + 1) % 256)) (usedLinks (mkLinks m.w2))
        ((s.consume m a b).advance m)).makeFamily fk x) := by
  obtain ⟨k, rfl⟩ := Nat.exists_eq_succ_of_ne_zero some'.ne'
  refine ⟨s.making (if own then d else 0#5) a m.w2 (k + 1) own m, rfl, rfl, rfl, rfl, rfl, rfl, rfl, rfl, rfl, rfl, rfl, rfl, rfl,
    ?_, ?_⟩
  · cases own <;> rfl
  · rw [exec_familyInstr, State.createFamily, issue_family ready, range]
    simp only [entry]
    cases own <;> rfl

omit ready in
/-- A cause that ends the creator, which makes nothing. -/
theorem family_faultsEnd (c : Nat) (small : c < 8) (may : s.mayFault) (e : exec (familyInstr own d a b m) s = .next (s.raise fFAMILY c 0#64 3)) :
    ∃ t, exec (familyInstr own d a b m) s = .next t ∧ s.faultsEnd t fFAMILY c 0#64 ∧
      ∀ fk, (t.famAt fk).alloc = (s.famAt fk).alloc := by
  refine ⟨_, e, State.raise_faultsEnd 0#64 may rfl ?_, fun fk => ?_⟩
  · simp only [fFAMILY]
    omega
  · obtain ⟨_, _, family⟩ := State.KeepsFamilies.raise fFAMILY c 0#64 3 rfl may.settled fk
    rw [family]

/-- An empty range fills the handle with zero at once (R64). -/
theorem exec_family_fills (range : rangeCount (s.gpr a) (s.gpr b) (s.gpr m.rc) m.lit = .ok 0) :
    ∃ t, exec (familyInstr own d a b m) s = .next t ∧ t.families = s.families ∧ t.mem = s.mem ∧
      t.cur.srseed = s.cur.srseed + 1#64 ∧ t.cur.pc = s.cur.pc + word (Machine.lenBytes m) ∧
      s.keepsRegs t m a b (if own then d else 27#5) ∧ (∀ u, u ≠ s.uid → t.threadAt u = s.threadAt u) ∧
      (own = true → writable d = true → t.gpr d = 0#64 ∧ t.cur.fe d.toNat = .full) := by
  have ran := (State.Ran.consume_advance (m := m) (a := a) (b := b) (State.Beside.refl s)).modCur
    (fun x => { x with srseed := x.srseed + 1 })
  have same (d : BitVec 5) : Thread.SameBut { s.done m a b with srseed := (s.done m a b).srseed + 1 } (s.done m a b) d :=
    .of_sameRegs ⟨rfl, rfl, rfl, rfl, rfl, rfl⟩ rfl
  have seed : (s.done m a b).srseed = s.cur.srseed := by rw [State.done, Thread.consumed_eq]
  have only : s.OnlyThreads (((s.consume m a b).advance m).modCur (fun x => { x with srseed := x.srseed + 1 })) :=
    (State.OnlyThreads.consume_advance s m a b).modCur _
  rw [exec_family_empty ready range]
  generalize ((s.consume m a b).advance m).modCur (fun x => { x with srseed := x.srseed + 1 }) = t at ran only
  cases own with
  | false =>
    obtain ⟨pc, regs, -, others⟩ := ran.advancesRegs (same 27#5) rfl rfl rfl
    exact ⟨t, rfl, only.families, ran.mem, by rw [ran.cur_eq, ← seed]; rfl, pc, regs, others, fun h => absurd h nofun⟩
  | true =>
    have writes := ran.writeGpr d 0#64
    obtain ⟨pc, regs, -, others⟩ := writes.advancesRegs ((Thread.SameBut.written 0#64).trans (same d)) rfl rfl rfl
    refine ⟨t.writeGpr d 0#64, rfl, ?_, writes.mem, ?_, pc, regs, others, fun _ h => ?_⟩
    · exact (State.families_writeGpr t d 0#64).trans only.families
    · rw [writes.cur_eq, Thread.written_rest, ← seed]; rfl
    · rw [writes.gpr_eq, writes.cur_eq]
      exact Thread.written_reads _ _ 0#64 h

/-- A range with members makes its family in the entry that is free (R66, R67). -/
theorem exec_family_made {n fk : Nat} (some' : 0 < n) (range : rangeCount (s.gpr a) (s.gpr b) (s.gpr m.rc) m.lit = .ok n)
    (entry : s.freeEntry s.cur.vf = some fk) (home : fk / 2 ^ 24 = s.cur.vf) (old : s.uid < s.nextId) :
    let links := usedLinks (mkLinks m.w2)
    ∃ t, exec (familyInstr own d a b m) s = .next t ∧ t.mem = s.mem ∧ t.cur.pc = s.cur.pc + word (Machine.lenBytes m) ∧
      t.cur.srseed = s.cur.srseed + 1#64 ∧ t.cur.made = s.cur.made ++ [t.handleOf fk] ∧
      (∀ u, u ≠ s.uid → u < s.nextId → t.threadAt u = s.threadAt u) ∧
      (∀ g, g ≠ fk → t.famAt g = s.famAt g) ∧
      (own = true → hasFe d.toNat = true → (∀ l ∈ links, l.2 ≠ d.toNat) →
        t.cur.fe d.toNat = .pending (.family (t.handleOf fk))) ∧
      (own = true → ∀ l ∈ links, l.2 < 10 → (∀ l' ∈ links, l'.2 = l.2 → l' = l) →
        t.cur.fe l.2 = .pending (.link (t.handleOf fk) l.1)) ∧
      let f := t.famAt fk
      f.alloc = true ∧ f.gen = ((s.famAt fk).gen + 1) % 256 ∧ f.vf = s.cur.vf ∧ f.queue = s.cur.queue ∧
      f.level = (s.famAt s.cur.fam).level ∧ f.globals = (mkGlobals m.w2).map s.gpr ∧ f.first = (s.gpr a).toNat ∧
      f.count = n ∧ f.step = (s.gpr m.rc).toNat ∧ f.body = m.lit ∧ f.links = mkLinks m.w2 ∧ f.origin = s.myCore ∧
      f.fctl = s.cur.fctl ∧ f.srseed = s.cur.srseed ∧ f.adoptMax = s.cur.adoptMax ∧ f.fixed = none ∧ f.endedK = [] ∧
      f.deliver = (if own then .thread s.uid d.toNat links else .nobody) := by
  intro links
  obtain ⟨x, vf, queue, level, globals, first, count, step, body, xlinks, origin, fctl, srseed, adoptMax, deliver, makes⟩ :=
    exec_family_makes ready some' range entry
  obtain ⟨poised, only⟩ := creating_poised own d
    (word ((s.funcAt s.cur.vf).arenaBase + 256 * famIdOf fk + ((s.famAt fk).gen + 1) % 256)) links s m a b
  have pc : (s.done m a b).pc = s.cur.pc + word (Machine.lenBytes m) := rfl
  have seed : (s.done m a b).srseed = s.cur.srseed := by rw [State.done, Thread.consumed_eq]
  have earlier : (s.done m a b).made = s.cur.made := by rw [State.done, Thread.consumed_eq]
  generalize creating own d _ links ((s.consume m a b).advance m) = t1 at makes poised only
  obtain ⟨starts, gen, forigin, ffctl, fsrseed, fadoptMax, fended⟩ := t1.makeFamily_starts fk x
  obtain ⟨mem, funcs, -, alloc, fvf, fqueue, flevel, fglobals, ffirst, fcount, fstep, fbody, -, ffixed, fdeliver, flinks⟩ :=
    t1.makeFamily_made fk x
  have family (g : Nat) : t1.famAt g = s.famAt g := by rw [State.famAt, only.families, State.famAt]
  rw [family] at gen
  generalize t1.makeFamily fk x = t at *
  have handle : t.handleOf fk = word ((s.funcAt s.cur.vf).arenaBase + 256 * famIdOf fk + ((s.famAt fk).gen + 1) % 256) := by
    rw [State.handleOf, State.funcAt, funcs, only.funcs, ← State.funcAt, home, gen, Nat.mod_mod]
  have uid : t.uid = s.uid := by
    have here : (t1.slotAt s.me).occ = some s.uid := by
      rw [State.slotAt, poised.slots, ← State.slotAt]; exact State.Ready.occ ready
    rw [State.uid, State.uid?, starts.me, poised.me, starts.occupied _ (by rw [here]; exact nofun), here]
    rfl
  rw [← handle] at poised
  have cur : t.cur = ((s.done m a b).created (t.handleOf fk)).waiting own d (t.handleOf fk) links := by
    rw [State.cur, uid, starts.threads _ (by rw [poised.nextId]; exact old), poised.cur]
  have rest := Thread.waiting_rest ((s.done m a b).created (t.handleOf fk)) own d (t.handleOf fk) links
  rw [← cur] at rest
  refine ⟨t, makes, mem.trans poised.mem, (congrArg Thread.pc rest :).trans pc, ?_, ?_,
    fun u other lt => ?_, fun g hg => (starts.families g hg).trans (family g), fun made fe alone => ?_,
    fun made l mem low alone => ?_, alloc, gen, fvf.trans vf, fqueue.trans queue, flevel.trans level, fglobals.trans globals,
    ffirst.trans first, fcount.trans count, fstep.trans step, fbody.trans body, flinks.trans xlinks, forigin.trans origin,
    ffctl.trans fctl, fsrseed.trans srseed, fadoptMax.trans adoptMax, ffixed, fended, fdeliver.trans deliver⟩
  · rw [← seed]; exact (congrArg Thread.srseed rest :)
  · rw [← earlier]; exact (congrArg Thread.made rest :)
  · rw [starts.threads u (by rw [poised.nextId]; exact lt), poised.others u other]
  · subst made
    rw [cur, Thread.waiting, if_pos rfl, Thread.fe_pendLinks_ne (usedLinks_small m.w2) _ _ _ alone]
    exact Thread.fe_pended _ d _ fe
  · subst made
    rw [cur, Thread.waiting, if_pos rfl]
    exact Thread.fe_pendLinks (usedLinks_small m.w2) _ _ l mem (by simp [hasFe, low]) alone

end

/-- Settles O31, by the count of the range: each fault ends the creator and makes nothing, an empty range fills the handle,
and a range with members is made and dealt. -/
theorem familiesMade : Obligations.FamiliesMade := by
  unfold Obligations.FamiliesMade
  intro own d a b m s i links ready lo hi step n kept
  have faults (c : Nat) (small : c < 8) (range : rangeCount (s.gpr a) (s.gpr b) (s.gpr m.rc) m.lit = .error c) (may : s.mayFault) :
      ∃ t, exec i s = .next t ∧ s.faultsEnd t fFAMILY c 0#64 ∧ kept t :=
    family_faultsEnd c small may (exec_family_faults ready range)
  refine ⟨fun bad => faults 1 (by decide) (rangeCount_badStep bad), fun pos bad => faults 4 (by decide) (rangeCount_badBody pos bad),
    fun pos aligned none' => exec_family_fills ready (rangeCount_empty pos aligned none'),
    fun pos aligned some' negative => faults 2 (by decide) ?_, fun pos aligned some' natural wide => faults 3 (by decide) ?_,
    fun pos aligned some' natural narrow within => ?_⟩
  · rw [rangeCount_members pos aligned some', if_pos negative]
  · rw [rangeCount_members pos aligned some', if_neg (not_lt.mpr natural)]
    obtain many | far := wide
    · rw [if_pos many]
    · rw [if_pos far, ite_self]
  · have positive : 0 < n := members_pos pos some'
    have range : rangeCount (s.gpr a) (s.gpr b) (s.gpr m.rc) m.lit = .ok n.toNat := by
      rw [rangeCount_members pos aligned some', if_neg (not_lt.mpr natural), if_neg (not_lt.mpr narrow), if_neg (not_lt.mpr within)]
    have counted : 0 < n.toNat := by omega
    refine ⟨fun full may => family_faultsEnd 5 (by decide) may (exec_family_full ready counted range full), fun fk entry home old => ?_⟩
    obtain ⟨t, runs, mem, pc, seed, made, others, families, handle, linked, alloc, gen, vf, queue, level, globals, first, count, rest⟩ :=
      exec_family_made ready counted range entry home old
    exact ⟨t, runs, mem, pc, seed, made, others, families, handle, linked, alloc, gen, vf, queue, level, globals, first,
      by rw [count]; omega, rest⟩

end Sys2Proof.Proofs
end

section
/-! SUPPORT. The turns and the rotation of a core (R93, R94, R314, R356). -/

namespace Sys2Proof.Machine

/-- A core whose slots hold four frames at most has nothing to spill (R112). -/
theorem State.idleSpill_few (s : State) (core : Nat) (few : ∀ i, i < 16 → (s.slotAt (16 * core + i)).frames.length ≤ 4) :
    s.idleSpill core = s := by
  unfold State.idleSpill
  extract_lets held best q
  have among (is : List Nat) (small : ∀ i ∈ is, i < 16) (b : Nat) (hb : b < 16) :
      is.foldl (fun b i => if held b < held i then i else b) b < 16 := by
    induction is generalizing b with
    | nil => exact hb
    | cons i is ih =>
      refine ih (fun j hj => small j (List.mem_cons_of_mem i hj)) _ ?_
      dsimp only
      split
      · exact small i List.mem_cons_self
      · exact hb
  have low : held best ≤ 4 := (Nat.sub_le _ _).trans (few best (among _ (fun i hi => List.mem_range.mp hi) 0 (by decide)))
  rw [if_pos (by simp [low])]

/-- Nothing of the machine changes but slots and cores. -/
def State.OnlySlots (s t : State) : Prop := { t with slots := s.slots, cores := s.cores } = s

namespace State.OnlySlots

variable {s t v : State}

theorem refl (s : State) : s.OnlySlots s := rfl
theorem trans (h : s.OnlySlots t) (g : t.OnlySlots v) : s.OnlySlots v := by
  have e : { ({ v with slots := t.slots, cores := t.cores } : State) with slots := s.slots, cores := s.cores } = s := by
    rw [show ({ v with slots := t.slots, cores := t.cores } : State) = t from g]; exact h
  exact e
theorem modSlot (h : s.OnlySlots t) (q : Nat) (f : Slot → Slot) : s.OnlySlots (t.modSlot q f) := h
theorem modCore (h : s.OnlySlots t) (c : Nat) (f : Core → Core) : s.OnlySlots (t.modCore c f) := h

theorem threads (h : s.OnlySlots t) : t.threads = s.threads := by have := congrArg State.threads h; exact this
theorem mem (h : s.OnlySlots t) : t.mem = s.mem := by have := congrArg State.mem h; exact this
theorem pkg (h : s.OnlySlots t) : t.pkg = s.pkg := by have := congrArg State.pkg h; exact this
theorem funcs (h : s.OnlySlots t) : t.funcs = s.funcs := by have := congrArg State.funcs h; exact this
theorem resAt (h : s.OnlySlots t) (k : Nat) : t.resAt k = s.resAt k := by rw [State.resAt, h.pkg, State.resAt]
theorem funcAt (h : s.OnlySlots t) (vf : Nat) : t.funcAt vf = s.funcAt vf := by rw [State.funcAt, h.funcs, State.funcAt]
theorem famAt (h : s.OnlySlots t) (fk : Nat) : t.famAt fk = s.famAt fk := by
  have := congrArg (State.famAt · fk) h; exact this
theorem threadAt (h : s.OnlySlots t) (u : Nat) : t.threadAt u = s.threadAt u := by
  rw [State.threadAt, h.threads, State.threadAt]
theorem clusterAt (h : s.OnlySlots t) (cl : Nat) : t.clusterAt cl = s.clusterAt cl := by
  have := congrArg (State.clusterAt · cl) h; exact this
theorem launchAt (h : s.OnlySlots t) (cl : Nat) : t.launchAt cl = s.launchAt cl := by
  have := congrArg (State.launchAt · cl) h; exact this
theorem taking (h : s.OnlySlots t) (cl : Nat) : t.taking cl = s.taking cl := by
  have := congrArg (State.taking · cl) h; exact this

/-- Demand is that of the deques and the run queues (R314). -/
theorem demandList (h : s.OnlySlots t) (cores : ∀ c, t.coreAt c = s.coreAt c) (core : Nat) :
    t.demandList core = s.demandList core := by
  simp only [State.demandList, State.demands, State.inFamily, State.coreGone, State.owns, h.resAt, h.funcAt, h.famAt,
    h.threadAt, h.clusterAt, h.launchAt, h.taking, cores]

end State.OnlySlots

/-! The slots of removed queues. -/

/-- One slot's place in the rotation is looked at. -/
def State.rotateSlot (s : State) (core i : Nat) : State :=
  let q := 16 * core + i
  let gone := s.slotRemoved q
  let s := if gone then s else s.modCore core (fun c => { c with lent := dropSlot q c.lent })
  s.modSlot q (fun x => { x with removed := gone && !(s.coreAt core).lent.contains q })
theorem State.rotateSlots_eq (s : State) (core : Nat) :
    s.rotateSlots core = (List.range 16).foldl (fun (s : State) i => s.rotateSlot core i) s := rfl

/-- Slots of a core leave the rotation or return to it, and nothing else changes. -/
structure State.Rotates (s t : State) : Prop where
  only : s.OnlySlots t
  cores : ∀ c, t.coreAt c = s.coreAt c
  slots : ∀ p, ∃ r, t.slotAt p = { s.slotAt p with removed := r }

theorem State.Rotates.trans {s t v : State} (h : s.Rotates t) (g : t.Rotates v) : s.Rotates v := by
  refine ⟨h.only.trans g.only, fun c => (g.cores c).trans (h.cores c), fun p => ?_⟩
  obtain ⟨_, one⟩ := h.slots p
  obtain ⟨r, two⟩ := g.slots p
  exact ⟨r, by rw [two, one]⟩
theorem State.Rotates.slotRemoved {s t : State} (h : s.Rotates t) (q : Nat) : t.slotRemoved q = s.slotRemoved q := by
  obtain ⟨_, slot⟩ := h.slots q
  simp only [State.slotRemoved, h.only.resAt, h.only.funcAt, slot]

theorem State.rotateSlot_rotates (s : State) (core i : Nat) (none' : (s.coreAt core).lent = []) :
    s.Rotates (s.rotateSlot core i) ∧ ((s.rotateSlot core i).slotAt (16 * core + i)).removed = s.slotRemoved (16 * core + i) ∧
      ∀ p, p ≠ 16 * core + i → (s.rotateSlot core i).slotAt p = s.slotAt p := by
  unfold State.rotateSlot
  extract_lets q gone back
  obtain ⟨only, slots, cores⟩ : s.OnlySlots back ∧ (∀ p, back.slotAt p = s.slotAt p) ∧ ∀ c, back.coreAt c = s.coreAt c := by
    simp only [back]
    split
    · exact ⟨.refl s, fun _ => rfl, fun _ => rfl⟩
    · refine ⟨State.OnlySlots.modCore (.refl s) core _, fun _ => rfl, fun c => ?_⟩
      rw [State.coreAt_modCore]
      split
      · next here =>
        have lent : dropSlot q (s.coreAt core).lent = (s.coreAt core).lent := by rw [none']; rfl
        rw [here, lent]
      · rfl
  refine ⟨⟨only.modSlot q _, cores, fun p => ?_⟩, ?_, fun p hp => ?_⟩
  · rw [State.slotAt_modSlot, slots, slots]
    split
    · next here => rw [here]; exact ⟨_, rfl⟩
    · exact ⟨(s.slotAt p).removed, rfl⟩
  · rw [State.slotAt_modSlot_self, cores, none']
    simp [gone, q]
  · rw [State.slotAt_modSlot, if_neg hp, slots]

/-- The slots of a core that have been looked at; every other slot is as it was. -/
theorem State.foldl_rotateSlot (core : Nat) (is : List Nat) (s : State) (none' : (s.coreAt core).lent = []) :
    let t := is.foldl (fun (s : State) i => s.rotateSlot core i) s
    s.Rotates t ∧ (∀ i ∈ is, (t.slotAt (16 * core + i)).removed = s.slotRemoved (16 * core + i)) ∧
      ∀ p, (∀ i ∈ is, p ≠ 16 * core + i) → t.slotAt p = s.slotAt p := by
  induction is generalizing s with
  | nil => exact ⟨⟨.refl s, fun _ => rfl, fun p => ⟨(s.slotAt p).removed, rfl⟩⟩, nofun, fun _ _ => rfl⟩
  | cons i is ih =>
    obtain ⟨one, here, others⟩ := s.rotateSlot_rotates core i none'
    obtain ⟨more, looked, rest⟩ := ih (s.rotateSlot core i) (by rw [one.cores]; exact none')
    refine ⟨one.trans more, fun j hj => ?_, fun p hp => ?_⟩
    · by_cases later : j ∈ is
      · exact (looked j later).trans (one.slotRemoved _)
      · obtain rfl : j = i := (List.mem_cons.mp hj).resolve_right later
        refine (congrArg Slot.removed (rest _ (fun k hk same => later ?_))).trans here
        obtain rfl : j = k := by omega
        exact hk
    · exact (rest p (fun k hk => hp k (List.mem_cons_of_mem i hk))).trans (others p (hp i List.mem_cons_self))

/-! The slot arbiter. -/

/-- Slots are rewritten to other queues, and nothing else changes but the pass values. -/
structure State.Rewrites (s t : State) : Prop where
  only : s.OnlySlots t
  slots : ∀ p, ∃ o, t.slotAt p = { s.slotAt p with qowner := o }

theorem State.Rewrites.refl (s : State) : s.Rewrites s := ⟨.refl s, fun p => ⟨(s.slotAt p).qowner, rfl⟩⟩
theorem State.Rewrites.trans {s t v : State} (h : s.Rewrites t) (g : t.Rewrites v) : s.Rewrites v := by
  refine ⟨h.only.trans g.only, fun p => ?_⟩
  obtain ⟨_, one⟩ := h.slots p
  obtain ⟨o, two⟩ := g.slots p
  exact ⟨o, by rw [two, one]⟩
theorem State.rewriteSlot_rewrites (s : State) (core : Nat) (fqs : List Nat) (q : Nat) : s.Rewrites (s.rewriteSlot core fqs q) := by
  unfold State.rewriteSlot
  split
  · exact .refl s
  next fq _ =>
    refine ⟨rfl, fun p => ?_⟩
    rw [State.slotAt_modCore, State.slotAt_modSlot]
    split
    · next here => rw [here]; exact ⟨_, rfl⟩
    · exact ⟨(s.slotAt p).qowner, rfl⟩
theorem State.foldl_rewriteSlot (core : Nat) (fqs qs : List Nat) (s : State) :
    s.Rewrites (qs.foldl (fun (s : State) q => s.rewriteSlot core fqs q) s) := by
  induction qs generalizing s with
  | nil => exact .refl s
  | cons q qs ih => exact (s.rewriteSlot_rewrites core fqs q).trans (ih _)

/-- Where one queue alone has demand, with a weight, a free slot is rewritten to it (R314). -/
theorem State.qowner_rewriteSlot (s : State) (core vf o q p : Nat) (small : o < 16) (weighs : (s.queueAt vf o).weight ≠ 0) :
    ((s.rewriteSlot core [vf * 16 + o] q).slotAt p).qowner = if p = q then o else (s.slotAt p).qowner := by
  have queue : (vf * 16 + o) / 16 = vf ∧ (vf * 16 + o) % 16 = o := by omega
  have lowest : (s.coreAt core).lowestPass ([vf * 16 + o].filter (fun fq => (s.queueAt (fq / 16) (fq % 16)).weight != 0)) =
      some (vf * 16 + o) := by
    simp [queue, weighs, Core.lowestPass]
  rw [State.rewriteSlot, lowest]
  simp only [queue, State.slotAt_modCore, State.slotAt_modSlot]
  split <;> rfl
theorem State.qowner_foldl_rewriteSlot (core vf o : Nat) (qs : List Nat) (s : State) (p : Nat) (small : o < 16)
    (weighs : (s.queueAt vf o).weight ≠ 0) :
    ((qs.foldl (fun (s : State) q => s.rewriteSlot core [vf * 16 + o] q) s).slotAt p).qowner =
      if p ∈ qs then o else (s.slotAt p).qowner := by
  induction qs generalizing s with
  | nil => rfl
  | cons q qs ih =>
    have queues : (s.rewriteSlot core [vf * 16 + o] q).queueAt vf o = s.queueAt vf o := by
      rw [State.queueAt, (s.rewriteSlot_rewrites core _ q).only.funcAt, State.queueAt]
    rw [List.foldl_cons, ih _ (by rw [queues]; exact weighs), s.qowner_rewriteSlot core vf o q p small weighs]
    by_cases here : p = q
    · simp [here]
    · simp [here]

/-- Nothing that left its slot waits to return. -/
theorem State.returnSlots_none {s : State} {core vf : Nat} (owner : (s.resAt (resCore core)).owner = some vf)
    (spills : (s.funcAt vf).spills = []) (loaded : (s.funcAt vf).loaded = []) : s.returnSlots core = s := by
  simp [State.returnSlots, owner, spills, loaded]

/-- The free slots of a core whose queue is in the rotation and has no demand (R314). -/
def State.arbitrated (s : State) (core vf : Nat) (fqs : List Nat) : List Nat :=
  ((List.range 16).map (16 * core + ·)).filter (fun q =>
    let x := s.slotAt q
    x.occ.isNone && x.reserved.isNone && !x.removed && !fqs.contains (vf * 16 + x.qowner))

theorem State.arbitrate_rewrites (s : State) (core : Nat) : s.Rewrites (s.arbitrate core) := by
  unfold State.arbitrate
  extract_lets fqs met
  have meets : s.Rewrites met := ⟨rfl, fun p => ⟨(s.slotAt p).qowner, rfl⟩⟩
  split
  · exact meets
  · split
    · exact meets
    · exact meets.trans (State.foldl_rewriteSlot core fqs _ met)
/-- The arbiter works, unless a duty or a level-2 launch has it rest (R314, R319, R402). -/
theorem State.arbitrate_works {s : State} {core vf : Nat} (owner : (s.resAt (resCore core)).owner = some vf)
    (free : s.bound2 (clusterOfCore core) = false) (own : (s.dutyAt 1).cur = false) (open' : (s.dutyAt 1).draining = false) :
    s.arbitrate core = (s.arbitrated core vf (s.demandList core)).foldl
      (fun (t : State) q => t.rewriteSlot core (s.demandList core) q) (s.modCore core (·.meetDemand (s.demandList core))) := by
  unfold State.arbitrate
  extract_lets fqs met
  have works : ¬ (met.bound2 (clusterOfCore core) || (met.dutyAt 1).cur || (met.dutyAt 1).draining) = true := by
    show ¬ (s.bound2 (clusterOfCore core) || (s.dutyAt 1).cur || (s.dutyAt 1).draining) = true
    simp [free, own, open']
  have owned : (met.resAt (resCore core)).owner = some vf := owner
  rw [if_neg works]
  simp only [owned]
  rfl

/-- The choice of the slots to spill changes no slot, no thread and no memory (R357). -/
theorem State.chooseSpills_kept (s : State) (core : Nat) : (s.chooseSpills core).slots = s.slots ∧
    (s.chooseSpills core).threads = s.threads ∧ (s.chooseSpills core).mem = s.mem := by
  unfold State.chooseSpills
  extract_lets short need removed
  split
  · exact ⟨rfl, rfl, rfl⟩
  · split <;> exact ⟨rfl, rfl, rfl⟩

end Sys2Proof.Machine
end

section
/-! PROOF. Idle turns and rotation boundaries. -/

namespace Sys2Proof.Proofs
open Sys2Proof Sys2Proof.Machine

/-- An idle turn of a core with nothing to spill lets its cycle pass (R93). -/
theorem exec_idleTurn_passes (core : Nat) (s : State) (idle : s.nextSlot core = none) (due : (s.coreAt core).spillDue = [])
    (few : ∀ i, i < 16 → (s.slotAt (16 * core + i)).frames.length ≤ 4) :
    ∃ t, exec (.idleTurn core) s = .next t ∧ (t.coreAt core).cycle = (s.coreAt core).cycle + 1 ∧
      (t.coreAt core).last = (s.coreAt core).last ∧ { t with cores := s.cores } = s := by
  have core' : (s.modCore core (fun c => { c with cycle := c.cycle + 1 })).coreAt core =
      { s.coreAt core with cycle := (s.coreAt core).cycle + 1 } := State.coreAt_modCore_self _ _ _
  refine ⟨s.modCore core (fun c => { c with cycle := c.cycle + 1 }), ?_, by rw [core'], by rw [core'], rfl⟩
  rw [exec_idleTurn, execIdleTurn, State.idleIf, idle]
  simp only [Option.isNone_none, if_true, State.idleTurn, core', due]
  exact congrArg _ (State.idleSpill_few _ core few)

/-- At a rotation boundary the slots of removed queues leave the rotation, and the one queue with demand takes the free
slots of queues without (R94, R314, R356). -/
theorem exec_rotationBoundary_rotates (core vf : Nat) (s : State) (known : core < Config.coreCount)
    (owner : (s.resAt (resCore core)).owner = some vf) (spills : (s.funcAt vf).spills = []) (loaded : (s.funcAt vf).loaded = [])
    (lent : (s.coreAt core).lent = []) :
    ∃ t, exec (.rotationBoundary core) s = .next t ∧ t.threads = s.threads ∧ t.mem = s.mem ∧
      (∀ i, i < 16 → (t.slotAt (16 * core + i)).removed = (s.funcAt vf).removed.contains (s.slotAt (16 * core + i)).qowner) ∧
      (∀ q, q < 16 → s.demandList core = [vf * 16 + q] → s.bound2 (clusterOfCore core) = false → (s.dutyAt 1).cur = false →
        (s.dutyAt 1).draining = false → (s.queueAt vf q).weight ≠ 0 →
        ∀ i, i < 16 → (s.slotAt (16 * core + i)).occ = none → (s.slotAt (16 * core + i)).reserved = none →
          (s.funcAt vf).removed.contains (s.slotAt (16 * core + i)).qowner = false →
          (t.slotAt (16 * core + i)).qowner = q) := by
  obtain ⟨rotates, looked, -⟩ := State.foldl_rotateSlot core (List.range 16) s lent
  rw [← State.rotateSlots_eq] at rotates looked
  have runs : exec (.rotationBoundary core) s = .next (((s.rotateSlots core).arbitrate core).chooseSpills core) := by
    rw [exec_rotationBoundary, execRotationBoundary, State.rotationBoundary, if_pos known, State.returnSlots_none
      (by rw [rotates.only.resAt]; exact owner) (by rw [rotates.only.funcAt]; exact spills)
      (by rw [rotates.only.funcAt]; exact loaded)]
  have removed (i : Nat) (hi : i < 16) : ((s.rotateSlots core).slotAt (16 * core + i)).removed =
      (s.funcAt vf).removed.contains (s.slotAt (16 * core + i)).qowner := by
    have place : coreOfSlot (16 * core + i) = core := by rw [coreOfSlot]; omega
    rw [looked i (List.mem_range.mpr hi), State.slotRemoved, place, owner]
  generalize s.rotateSlots core = r at *
  have rewrites := r.arbitrate_rewrites core
  obtain ⟨slots, threads, mem⟩ := (r.arbitrate core).chooseSpills_kept core
  refine ⟨_, runs, threads.trans (rewrites.only.threads.trans rotates.only.threads),
    mem.trans (rewrites.only.mem.trans rotates.only.mem), fun i hi => ?_, ?_⟩
  · obtain ⟨o, slot⟩ := rewrites.slots (16 * core + i)
    rw [State.slotAt, slots, ← State.slotAt, slot]
    exact removed i hi
  · intro q hq demand free own open' weighs i hi occ reserved stays
    have demand' : r.demandList core = [vf * 16 + q] := (rotates.only.demandList rotates.cores core).trans demand
    have duty : r.dutyAt 1 = s.dutyAt 1 := by rw [State.dutyAt, rotates.only.pkg, State.dutyAt]
    have works := State.arbitrate_works (core := core) ((congrArg Res.owner (rotates.only.resAt _)).trans owner)
      (by rw [State.bound2, rotates.only.launchAt]; exact free) (by rw [duty]; exact own) (by rw [duty]; exact open')
    rw [State.slotAt, slots, ← State.slotAt, works, demand', State.qowner_foldl_rewriteSlot core vf q _ _ _ hq
      (by show (r.queueAt vf q).weight ≠ 0; rw [State.queueAt, rotates.only.funcAt]; exact weighs)]
    split
    · rfl
    next left =>
      obtain ⟨_, slot⟩ := rotates.slots (16 * core + i)
      by_contra other
      have owner' : (r.slotAt (16 * core + i)).qowner ≠ q := other
      refine left (List.mem_filter.mpr ⟨List.mem_map.mpr ⟨i, List.mem_range.mpr hi, rfl⟩, ?_⟩)
      have stays' := (removed i hi).trans stays
      have occ' : (r.slotAt (16 * core + i)).occ = none := by rw [slot]; exact occ
      have reserved' : (r.slotAt (16 * core + i)).reserved = none := by rw [slot]; exact reserved
      simp [occ', reserved', stays', owner']

end Sys2Proof.Proofs
end

section
/-! SUPPORT. Preemption (R355, R356, R361): the end of an action, and what a save and a load leave. -/

namespace Sys2Proof.Machine

/-- PSTAT once an action has ended with a result (R355). -/
theorem State.endPreempt_pkg (s : State) (result : Nat) (length : Option Nat) (small : result < 8) :
    (s.endPreempt result length).pkg.preempt = none ∧ (s.endPreempt result length).pkg.pstat.toNat / 2 ^ 61 = result ∧
      (s.endPreempt result length).pkg.pstat.toNat % 2 ^ 48 = (length.getD (s.pkg.pstat.toNat % 2 ^ 48)) % 2 ^ 48 := by
  generalize len : (length.getD (s.pkg.pstat.toNat % 2 ^ 48)) % 2 ^ 48 = n
  have lt : n < 2 ^ 48 := by rw [← len]; exact Nat.mod_lt _ (by decide)
  have value : (s.endPreempt result length).pkg.pstat.toNat = result * 2 ^ 61 + n := by
    show (word (result * 2 ^ 61 + (length.getD (s.pkg.pstat.toNat % 2 ^ 48)) % 2 ^ 48)).toNat = _
    rw [len, word, BitVec.toNat_ofNat, Nat.mod_eq_of_lt]
    omega
  refine ⟨rfl, ?_, ?_⟩
  · rw [value]; omega
  · rw [value]; omega

/-! Save. -/

/-- A write to a slot area keeps every function (R111). -/
theorem State.areaWrite_keeps {s t : State} {q vf va : Nat} {bs : List Byte} (h : s.areaWrite q vf va bs = .ok t) :
    s.KeepsQueues t := by
  have reach := State.KeepsQueues.of_memory (State.OnlyMemory.engineReach s (coreOfSlot q) vf .store 8 (word va))
  unfold State.areaWrite at h
  split at h
  · exact absurd h nofun
  next u p reached =>
    have walked : u = (s.engineReach (coreOfSlot q) vf .store 8 (word va)).1 := by
      unfold State.areaReach at reached
      split at reached
      · exact absurd reached nofun
      next v place found =>
        replace found : s.engineReach (coreOfSlot q) vf .store 8 (word va) = (v, .ok place) := found
        split at reached
        · exact absurd reached nofun
        · split at reached
          · exact absurd reached nofun
          · cases reached; rw [found]
    split at h
    · cases h
      rw [walked]
      exact reach.trans (.agentStore _ _ _ _ _ _)
    · exact absurd h nofun
/-- The resident frames of a slot go to their spill places; every function stays (R359). -/
theorem State.spillOldest_keeps {s t : State} {q : Nat} (h : s.spillOldest q = .ok t) : s.KeepsQueues t := by
  unfold State.spillOldest at h
  split at h
  · cases h; exact .refl s
  · dsimp only at h
    split at h
    · exact absurd h nofun
    next written =>
      cases h
      exact (State.areaWrite_keeps written).trans ⟨rfl, Nat.le_refl _, fun _ _ => rfl⟩
theorem State.spillAll_keeps {s t : State} {q n : Nat} (h : s.spillAll q n = .ok t) : s.KeepsQueues t := by
  induction n generalizing s with
  | zero => cases h; exact .refl _
  | succ n ih =>
    unfold State.spillAll at h
    split at h
    · exact absurd h nofun
    next one => exact (State.spillOldest_keeps one).trans (ih h)
/-- One slot's turn in `State.spillContext`: nothing more is spilled after a fault. -/
def spillTurn (r : Except (Nat × Nat × Nat × Nat × Nat) State) (x : Nat × Nat) :
    Except (Nat × Nat × Nat × Nat × Nat) State :=
  match r with
  | .error e => .error e
  | .ok s => match s.spillAll x.1 8 with
    | .error e => .error (x.1, e)
    | .ok t => .ok t
theorem State.spillContext_eq (s : State) (vf : Nat) :
    s.spillContext vf = (s.occupied (s.ownedCores vf)).foldl spillTurn (.ok s) := rfl
theorem spillTurn_keeps {r : Except (Nat × Nat × Nat × Nat × Nat) State} {x : Nat × Nat} {t : State}
    (h : spillTurn r x = .ok t) : ∃ u, r = .ok u ∧ u.KeepsQueues t := by
  cases r with
  | error e => exact absurd h nofun
  | ok u =>
    dsimp only [spillTurn] at h
    split at h
    · exact absurd h nofun
    next spilled =>
      cases h
      exact ⟨u, rfl, State.spillAll_keeps spilled⟩
theorem spillTurns_keep {r : Except (Nat × Nat × Nat × Nat × Nat) State} {xs : List (Nat × Nat)} {t : State}
    (h : xs.foldl spillTurn r = .ok t) : ∃ u, r = .ok u ∧ u.KeepsQueues t := by
  induction xs generalizing r with
  | nil => exact ⟨t, h, .refl t⟩
  | cons x xs ih =>
    obtain ⟨v, one, more⟩ := ih h
    obtain ⟨u, start, first⟩ := spillTurn_keeps one
    exact ⟨u, start, first.trans more⟩
theorem State.spillContext_keeps {s t : State} {vf : Nat} (h : s.spillContext vf = .ok t) : s.KeepsQueues t := by
  rw [State.spillContext_eq] at h
  obtain ⟨u, start, keeps⟩ := spillTurns_keep h
  cases start
  exact keeps

/-- A write of the device's own, where no link holds it back and no error is in the way (R371). -/
theorem State.deviceWrite_mem {s : State} {a : Nat} {bs : List Byte} (clean : s.poisoned a bs.length = false)
    (near : inTier2 a = false) (idle : ∀ e ∈ s.reqs, e.2.engine ≠ some agentName) :
    (s.deviceWrite a bs).mem = (s.writeBytes none a bs).mem := by
  have free : ¬ (s.linkDown a || s.reqs.any (fun e => e.2.engine == some agentName && e.2.unserved && homeOf e.2.addr == homeOf a)) =
      true := by
    simp only [State.linkDown, near, Bool.false_and, Bool.false_or, List.any_eq_true, Bool.and_eq_true, beq_iff_eq, not_exists]
    rintro e ⟨mem, ⟨agent, -⟩, -⟩
    exact idle e mem agent
  have sound : s.badBytes a bs.length = false := by
    simp only [State.poisoned, Bool.or_eq_false_iff] at clean
    exact clean.1
  rw [State.deviceWrite, State.agentStore, if_neg free, State.homeWrite_mem s _ _ _ _ sound, State.writeBytes, State.poke_mem]

/-- A slot's contents leave it, and memory, the package and the functions are as they were (R359). -/
theorem State.liftSlot_kept (s : State) (q : Nat) : (s.liftSlot q).1.mem = s.mem ∧ (s.liftSlot q).1.pkg = s.pkg ∧
    (s.liftSlot q).1.funcs = s.funcs := by
  unfold State.liftSlot
  extract_lets x gone
  have kept : (gone.mem, gone.pkg, gone.funcs) = (s.mem, s.pkg, s.funcs) :=
    State.foldl_kept (fun s => (s.mem, s.pkg, s.funcs))
      (f := fun (s : State) u => s.modThread u (fun t => { t with loc := .spilled q })) (fun _ _ => rfl) _ s
  simp only [Prod.mk.injEq] at kept
  exact kept
theorem State.foldl_liftSlot_kept (xs : List (Nat × Nat)) (p : State × Tab Slot) :
    let t := (xs.foldl (fun (p : State × Tab Slot) x =>
      let y := p.1.liftSlot x.1
      (y.1, p.2.put x.1 y.2)) p).1
    t.mem = p.1.mem ∧ t.pkg = p.1.pkg ∧ t.funcs = p.1.funcs := by
  induction xs generalizing p with
  | nil => exact ⟨rfl, rfl, rfl⟩
  | cons x xs ih =>
    obtain ⟨mem, pkg, funcs⟩ := ih ((p.1.liftSlot x.1).1, p.2.put x.1 (p.1.liftSlot x.1).2)
    obtain ⟨mem', pkg', funcs'⟩ := p.1.liftSlot_kept x.1
    exact ⟨mem.trans mem', pkg.trans pkg', funcs.trans funcs'⟩
/-- A function's context is lifted: its queues stay removed, and memory and the package are as they were. -/
theorem State.liftContext_kept (s : State) (vf : Nat) : (s.liftContext vf).mem = s.mem ∧
    ((s.liftContext vf).funcAt vf).removed = (s.funcAt vf).removed ∧ ((s.liftContext vf).funcAt vf).saved.isSome = true := by
  unfold State.liftContext
  extract_lets cs held lifted out engines blank cores
  obtain ⟨mem, -, funcs⟩ := State.foldl_liftSlot_kept (s.occupied cs)
    (s, (s.funcAt vf).loaded.filter (fun e => (s.slotAt e.1).occ.isNone))
  have kept : (cores.mem, cores.funcs) = (engines.mem, engines.funcs) := by
    refine State.foldl_kept (fun s => (s.mem, s.funcs)) (fun v c => ?_) cs engines
    rfl
  simp only [Prod.mk.injEq] at kept
  have func : cores.funcAt vf = s.funcAt vf := by
    rw [State.funcAt, kept.2]
    exact congrArg (Tab.get · Func.blank vf) funcs
  refine ⟨kept.1.trans mem, ?_, ?_⟩
  · rw [State.funcAt_modFunc_self, func]
  · rw [State.funcAt_modFunc_self]; rfl

/-! Load. -/

theorem State.markReady_mem (s : State) (die : Nat) : (s.markReady die).mem = s.mem := by
  unfold State.markReady
  extract_lets n fresh mark
  split <;> rfl
/-- The engines' work that returns changes no memory (R201, R213). -/
theorem State.lowerEngines_mem (s : State) (x : Saved) : (s.lowerEngines x).mem = s.mem := by
  unfold State.lowerEngines
  extract_lets copied
  have copies : copied.mem = s.mem := by
    refine State.foldl_kept State.mem (fun t e => ?_) x.copies s
    exact State.foldl_kept State.mem (f := fun (s : State) c => s.modCluster e.1 (fun k =>
      { k with copies := k.copies.put (freeFrom (fun i => (k.copies.find? i).isSome) c.1 Config.copyEntries) c.2 }))
      (fun _ _ => rfl) e.2 t
  refine (State.foldl_kept State.mem (fun t e => ?_) x.jobs copied).trans copies
  rw [State.markReady_mem]
  exact State.foldl_kept State.mem (f := fun (s : State) j => s.modCluster e.1 (fun k =>
    { k with jobs := k.jobs ++ [(freeFrom (fun i => k.jobs.any (fun y => y.1 == i)) j.1 Config.jobEntries, j.2)] }))
    (fun _ _ => rfl) e.2 t
theorem State.loadHeld_mem (s : State) (vf : Nat) (secs : List Section) : (s.loadHeld vf secs).mem = s.mem := by
  refine State.foldl_kept State.mem (fun t x => ?_) _ s
  unfold State.loadQueues
  split
  · rfl
  · refine State.foldl_kept State.mem (fun v e => ?_) _ t
    dsimp only
    split <;> rfl
/-- The function's state has returned: no queue is removed, and no context waits (R361). -/
theorem State.lowerContext_kept (s : State) (vf : Nat) : (s.lowerContext vf).mem = s.mem ∧
    ((s.lowerContext vf).funcAt vf).removed = [] ∧ ((s.lowerContext vf).funcAt vf).saved = none := by
  unfold State.lowerContext
  split
  next none' =>
    refine ⟨rfl, ?_, ?_⟩ <;> rw [State.funcAt_modFunc_self]
    exact none'
  next x _ =>
    extract_lets cores engines back
    have mem : cores.mem = s.mem := by
      refine State.foldl_kept State.mem (fun t e => ?_) x.cores s
      rfl
    have func : (back.funcAt vf).removed = [] ∧ (back.funcAt vf).saved = none := by
      simp only [back, State.funcAt_modFunc_self]
      exact ⟨trivial, trivial⟩
    exact ⟨(State.lowerEngines_mem cores x).trans mem, func⟩
theorem State.foldl_loadSlot_kept (vf : Nat) (xs : List Section) (s : State) :
    let t := xs.foldl (fun (s : State) x => s.loadSlot vf x) s
    t.mem = s.mem ∧ (t.funcAt vf).removed = (s.funcAt vf).removed ∧ (t.funcAt vf).saved = (s.funcAt vf).saved := by
  have kept := State.foldl_kept (fun s => (s.mem, (s.funcAt vf).removed, (s.funcAt vf).saved))
    (f := fun (s : State) x => s.loadSlot vf x) (fun t x => ?_) xs s
  · simpa only [Prod.mk.injEq] using kept
  · unfold State.loadSlot
    extract_lets q bs
    split
    · rfl
    next y _ =>
      extract_lets u
      have back : (u.mem, u.funcs) = (t.mem, t.funcs) := by
        simp only [u]
        split <;> rfl
      simp only [Prod.mk.injEq] at back
      simp only [State.modFunc_mem, State.funcAt_modFunc_self, back.1]
      rw [State.funcAt, back.2, State.funcAt]

end Sys2Proof.Machine
end

section
/-! PROOF. The actions of PREEMPT. -/

namespace Sys2Proof.Proofs
open Sys2Proof Sys2Proof.Machine

section
variable {p : Preempt} {s : State} (busy : s.pkg.preempt = some p)
include busy

/-- Queues are removed; the action ends once each slot of theirs has left the rotation (R356). -/
theorem exec_preemptRemove_removes (action : p.action = 1) :
    ∃ t, exec .preemptRemove s = .next t ∧ t.threads = s.threads ∧ t.mem = s.mem ∧
      (∀ q ∈ p.queues, q ∈ (t.funcAt p.vf).removed) ∧
      ((∀ q ∈ s.queueSlots p.vf p.queues, (s.slotAt q).removed = true) →
        t.pkg.preempt = none ∧ t.pkg.pstat.toNat / 2 ^ 61 = 1) ∧
      ((∃ q ∈ s.queueSlots p.vf p.queues, (s.slotAt q).removed = false) → t.pkg = s.pkg) := by
  let u := s.markRemoved p.vf p.queues
  have func : (u.funcAt p.vf).removed = _ := congrArg Func.removed (State.funcAt_modFunc_self s p.vf _)
  have removed : ∀ q ∈ p.queues, q ∈ (u.funcAt p.vf).removed := fun q hq => by
    rw [func]; exact List.mem_append_right _ hq
  have runs : exec .preemptRemove s = .next (
      if (s.queueSlots p.vf p.queues).all (fun q => (s.slotAt q).removed) then u.endPreempt 1 none else u) := by
    simp only [exec_preemptRemove, execPreemptRemove, State.preemptRemove, busy, action]
    rfl
  rw [runs]
  by_cases all : (s.queueSlots p.vf p.queues).all (fun q => (s.slotAt q).removed) = true
  · rw [if_pos all]
    obtain ⟨over', result, -⟩ := u.endPreempt_pkg 1 none (by decide)
    refine ⟨_, rfl, rfl, rfl, removed, fun _ => ⟨over', result⟩, fun ⟨q, mem, here⟩ => ?_⟩
    rw [List.all_eq_true.mp all q mem] at here
    exact absurd here nofun
  · rw [if_neg all]
    exact ⟨_, rfl, rfl, rfl, removed, fun every => absurd (List.all_eq_true.mpr every) all, fun _ => rfl⟩

/-- Queues are in the rotation again; the action ends once each slot of theirs has returned to it (R356). -/
theorem exec_preemptRestore_restores (action : p.action = 2) :
    ∃ t, exec .preemptRestore s = .next t ∧ t.mem = s.mem ∧ (∀ q ∈ p.queues, q ∉ (t.funcAt p.vf).removed) ∧
      ((∀ q ∈ s.queueSlots p.vf p.queues, (s.slotAt q).removed = false) →
        t.pkg.preempt = none ∧ t.pkg.pstat.toNat / 2 ^ 61 = 1) := by
  let w := s.modFunc p.vf (fun f => { f with removed := f.removed.filter (fun q => !p.queues.contains q) })
  let u := w.freeHeld p.vf p.queues
  have back : ∀ q ∈ p.queues, q ∉ (w.funcAt p.vf).removed := fun q hq => by
    simp [w, hq]
  have runs : exec .preemptRestore s = .next (
      if (s.queueSlots p.vf p.queues).all (fun q => !(s.slotAt q).removed) then u.endPreempt 1 none else u) := by
    simp only [exec_preemptRestore, execPreemptRestore, State.preemptRestore, busy, action]
    rfl
  rw [runs]
  obtain ⟨over', result, -⟩ := u.endPreempt_pkg 1 none (by decide)
  by_cases all : (s.queueSlots p.vf p.queues).all (fun q => !(s.slotAt q).removed) = true
  · rw [if_pos all]
    exact ⟨_, rfl, rfl, back, fun _ => ⟨over', result⟩⟩
  · rw [if_neg all]
    exact ⟨_, rfl, rfl, back, fun every => absurd (List.all_eq_true.mpr (fun q hq => by simp [every q hq])) all⟩

section
variable (action : p.action = 3) (idle : s.pkg.scrub = none)
  (rests : (s.markRemoved p.vf (List.range 16)).saveReady p.vf = true)
include action idle rests

/-- A save whose frames are in their places writes the function's image and lifts its context (R361). -/
theorem exec_preemptSaveImage_saves (u : State) (spilled : (s.markRemoved p.vf (List.range 16)).spillContext p.vf = .ok u)
    (clean : u.poisoned (u.funcAt p.vf).ctximg.toNat (u.contextImage p.vf).length = false)
    (near : inTier2 (u.funcAt p.vf).ctximg.toNat = false) (quiet : ∀ e ∈ u.reqs, e.2.engine ≠ some agentName) :
    ∃ t, exec .preemptSaveImage s = .next t ∧ u.homeWrites t none (u.funcAt p.vf).ctximg.toNat (u.contextImage p.vf) ∧
      t.pkg.preempt = none ∧ t.pkg.pstat.toNat / 2 ^ 61 = 1 ∧
      t.pkg.pstat.toNat % 2 ^ 48 = (u.contextImage p.vf).length % 2 ^ 48 ∧
      (t.funcAt p.vf).saved.isSome = true ∧ ∀ q, q < 16 → q ∈ (t.funcAt p.vf).removed := by
  have runs : exec .preemptSaveImage s = .next (((u.deviceWrite (u.funcAt p.vf).ctximg.toNat (u.contextImage p.vf)).liftContext
      p.vf).endPreempt 1 (some (u.contextImage p.vf).length)) := by
    simp only [exec_preemptSaveImage, execPreemptSaveImage, State.preemptSave, busy, action, idle, rests, spilled]
    rfl
  have written := State.deviceWrite_mem clean near quiet
  have keeps := State.KeepsQueues.agentStore u 0 (word (u.funcAt p.vf).ctximg.toNat) none (u.funcAt p.vf).ctximg.toNat
    (u.contextImage p.vf)
  rw [← State.deviceWrite] at keeps
  have func : u.funcAt p.vf = (s.markRemoved p.vf (List.range 16)).funcAt p.vf := by
    rw [State.funcAt, (State.spillContext_keeps spilled).funcs, State.funcAt]
  generalize u.deviceWrite (u.funcAt p.vf).ctximg.toNat (u.contextImage p.vf) = v at runs written keeps
  have func' : v.funcAt p.vf = u.funcAt p.vf := by rw [State.funcAt, keeps.funcs, State.funcAt]
  obtain ⟨mem, removed, saved⟩ := v.liftContext_kept p.vf
  generalize v.liftContext p.vf = l at runs mem removed saved
  obtain ⟨over', result, length⟩ := l.endPreempt_pkg 1 (some (u.contextImage p.vf).length) (by decide)
  refine ⟨_, runs, mem.trans written, over', result, length, saved, fun q hq => ?_⟩
  have left : q ∈ (l.funcAt p.vf).removed := by
    rw [removed, func', func, State.markRemoved, State.funcAt_modFunc_self]
    exact List.mem_append_right _ (List.mem_range.mpr hq)
  exact left

/-- A slot-area fault gives a save up, with a record for the host (R360). -/
theorem exec_preemptSaveImage_fails (e : Nat × Nat × Nat × Nat × Nat)
    (fault : (s.markRemoved p.vf (List.range 16)).spillContext p.vf = .error e) :
    ∃ t r, exec .preemptSaveImage s = .next t ∧ t.mem = s.mem ∧ t.pkg.preempt = none ∧ t.pkg.pstat.toNat / 2 ^ 61 = 2 ∧
      t.records.find? (s.markRemoved p.vf (List.range 16)).nextId = some r ∧ r.queue = 0 ∧ r.kind = 8 := by
  let u := s.markRemoved p.vf (List.range 16)
  let v := u.areaRecord ((u.slotAt e.1).occ.getD 0) e.1 (e.2.1, e.2.2.1, e.2.2.2.1) e.2.2.2.2
  obtain ⟨over', result, -⟩ := v.endPreempt_pkg 2 none (by decide)
  refine ⟨v.endPreempt 2 none, _, ?_, rfl, over', result, Tab.find?_put_self _ _ _, rfl, rfl⟩
  simp only [exec_preemptSaveImage, execPreemptSaveImage, State.preemptSave, busy, action, idle, rests, fault]
  rfl

end

section
variable (action : p.action = 4)
include action

/-- An image that an uncorrectable error has hit gives the thread that asked for it MACHINE(3) (R346). -/
theorem exec_preemptLoadImage_lost (lost : s.imageLost p.vf = true) (live : (s.threadAt p.thread).ended = none) :
    ∃ t, exec .preemptLoadImage s = .next t ∧ t.pkg.preempt = none ∧ t.pkg.pstat.toNat / 2 ^ 61 = 2 ∧
      (t.threadAt p.thread).ended = some (.fault fMACHINE 3) := by
  let u := s.raiseAt p.thread p.pc fMACHINE 3 (s.funcAt p.vf).ctximg 0 0
  obtain ⟨over', result, -⟩ := u.endPreempt_pkg 2 none (by decide)
  obtain ⟨⟨ended, -, -, -⟩, -, -⟩ := s.raiseAt_ends p.thread p.pc fMACHINE 3 (s.funcAt p.vf).ctximg 0 0 rfl live
  refine ⟨u.endPreempt 2 none, ?_, over', result, ended⟩
  simp only [exec_preemptLoadImage, execPreemptLoadImage, State.preemptLoad, busy, action, lost, live]
  rfl
/-- A malformed image is refused (R361). -/
theorem exec_preemptLoadImage_refuses (sound : s.imageLost p.vf = false) (bad : s.readImage p.vf = none) :
    ∃ t, exec .preemptLoadImage s = .next t ∧ t.mem = s.mem ∧ t.pkg.preempt = none ∧ t.pkg.pstat.toNat / 2 ^ 61 = 2 := by
  obtain ⟨over', result, -⟩ := s.endPreempt_pkg 2 none (by decide)
  refine ⟨s.endPreempt 2 none, ?_, rfl, over', result⟩
  simp only [exec_preemptLoadImage, execPreemptLoadImage, State.preemptLoad, busy, action, sound, bad]
  rfl
/-- An image is written back and the function's queues return (R361, R363). -/
theorem exec_preemptLoadImage_loads (secs : List Section) (sound : s.imageLost p.vf = false)
    (image : s.readImage p.vf = some secs) (owned : ∀ x ∈ secs, x.named = true → s.owns p.vf (resCore x.location) = true) :
    ∃ t, exec .preemptLoadImage s = .next t ∧ t.mem = (secs.foldl State.loadSection (s.clearRegions p.vf)).mem ∧
      (t.funcAt p.vf).removed = [] ∧ (t.funcAt p.vf).saved = none ∧ t.pkg.preempt = none ∧ t.pkg.pstat.toNat / 2 ^ 61 = 1 := by
  let loaded := (secs.foldl State.loadSection (s.clearRegions p.vf)).loadHeld p.vf secs
  have held : loaded.mem = _ := State.loadHeld_mem _ p.vf secs
  obtain ⟨mem, removed, saved⟩ := loaded.lowerContext_kept p.vf
  obtain ⟨mem', removed', saved'⟩ := State.foldl_loadSlot_kept p.vf (secs.filter (fun x => x.kind == 1)) (loaded.lowerContext p.vf)
  let u := (secs.filter (fun x => x.kind == 1)).foldl (fun (s : State) x => s.loadSlot p.vf x) (loaded.lowerContext p.vf)
  obtain ⟨over', result, -⟩ := u.endPreempt_pkg 1 none (by decide)
  have allowed : secs.any (fun x => x.named && !s.owns p.vf (resCore x.location)) = false := by
    rw [List.any_eq_false]
    intro x hx
    cases named : x.named
    · simp
    · simp [owned x hx named]
  refine ⟨u.endPreempt 1 none, ?_, (mem'.trans mem).trans held, removed'.trans removed, saved'.trans saved, over', result⟩
  simp only [exec_preemptLoadImage, execPreemptLoadImage, State.preemptLoad, busy, action, sound, image, allowed]
  rfl

end

end

end Sys2Proof.Proofs
end

section
/-! SUPPORT. The coding of a section's contents gives the contents back (R362). -/

namespace Sys2Proof.Machine

/-- What runs stand for. -/
def expandRuns (rs : List (Word × Nat)) : List Word := rs.flatMap (fun r => List.replicate r.2 r.1)

theorem expandRuns_cons (r : Word × Nat) (rs : List (Word × Nat)) :
    expandRuns (r :: rs) = List.replicate r.2 r.1 ++ expandRuns rs := List.flatMap_cons

/-- The runs of a list of dwords stand for the list. -/
theorem expandRuns_wordRuns (ws : List Word) : expandRuns (wordRuns ws) = ws := by
  induction ws with
  | nil => rfl
  | cons w ws ih =>
    unfold wordRuns
    split
    next v n rs runs =>
      rw [runs, expandRuns_cons] at ih
      split
      · next same => rw [expandRuns_cons, List.replicate_succ, List.cons_append, ih, same]
      · rw [expandRuns_cons, expandRuns_cons, ih]; rfl
    next runs =>
      rw [runs] at ih
      rw [← ih]; rfl

theorem token_toNat {kind n : Nat} (hk : kind < 4) (hn : n < 2 ^ 61) :
    (token kind n).toNat / 4 = n ∧ (token kind n).toNat % 4 = kind := by
  have value : (token kind n).toNat = n * 4 + kind := by
    rw [token, word, BitVec.toNat_ofNat, Nat.mod_eq_of_lt (by omega)]
  omega

/-- Tokens that decode to some contents with `rest` left, given a step for each dword. -/
def Decodes (ws xs rest : List Word) : Prop := ∀ fuel, ws.length < fuel → decodeTokens fuel ws = some (xs, rest)

namespace Decodes

variable {ws xs rest : List Word}

theorem stop (rest : List Word) : Decodes (3#64 :: rest) [] rest := fun fuel h => by
  obtain ⟨k, rfl⟩ := Nat.exists_eq_succ_of_ne_zero (Nat.ne_zero_of_lt h)
  rfl
theorem literals (h : Decodes ws xs rest) {lits : List Word} (small : lits.length < 2 ^ 61) :
    Decodes (Machine.literals lits ++ ws) (lits ++ xs) rest := fun fuel enough => by
  cases lits with
  | nil => exact h fuel enough
  | cons v lits =>
    obtain ⟨k, rfl⟩ := Nat.exists_eq_succ_of_ne_zero (Nat.ne_zero_of_lt enough)
    obtain ⟨count, kind⟩ := token_toNat (kind := 0) (by decide) small
    have later := h k (by simp [Machine.literals] at enough; omega)
    show decodeTokens (k + 1) (token 0 (v :: lits).length :: (v :: lits ++ ws)) = _
    simp only [decodeTokens, count, kind]
    rw [if_neg (by simp), List.drop_left, List.take_left, later]
    rfl
theorem zeros (h : Decodes ws xs rest) {n : Nat} (small : n < 2 ^ 61) :
    Decodes (token 1 n :: ws) (List.replicate n 0#64 ++ xs) rest := fun fuel enough => by
  obtain ⟨k, rfl⟩ := Nat.exists_eq_succ_of_ne_zero (Nat.ne_zero_of_lt enough)
  obtain ⟨count, kind⟩ := token_toNat (kind := 1) (by decide) small
  simp only [decodeTokens, count, kind, h k (by simpa using enough)]
  rfl
theorem run (h : Decodes ws xs rest) {n : Nat} (small : n < 2 ^ 61) (v : Word) :
    Decodes (token 2 n :: v :: ws) (List.replicate n v ++ xs) rest := fun fuel enough => by
  obtain ⟨k, rfl⟩ := Nat.exists_eq_succ_of_ne_zero (Nat.ne_zero_of_lt enough)
  obtain ⟨count, kind⟩ := token_toNat (kind := 2) (by decide) small
  simp only [decodeTokens, count, kind, h k (by simp at enough; omega)]
  rfl

/-- Coded runs decode to what they stand for, behind the literals gathered before them. -/
theorem codeRuns (rs : List (Word × Nat)) (lits rest : List Word) (small : (lits ++ expandRuns rs).length < 2 ^ 61) :
    Decodes (Machine.codeRuns rs lits ++ rest) (lits ++ expandRuns rs) rest := by
  induction rs generalizing lits with
  | nil =>
    have ends := (stop rest).literals (lits := lits) (by simpa [expandRuns] using small)
    simpa [Machine.codeRuns, expandRuns] using ends
  | cons r rs ih =>
    obtain ⟨v, n⟩ := r
    rw [expandRuns_cons] at small ⊢
    simp only [List.length_append, List.length_replicate] at small
    have later := ih [] (by simp only [List.nil_append]; omega)
    unfold Machine.codeRuns
    split
    · next zero =>
      subst zero
      have step := (later.zeros (n := n) (by omega)).literals (lits := lits) (by omega)
      simpa using step
    · split
      · have step := (later.run (n := n) (by omega) v).literals (lits := lits) (by omega)
        simpa using step
      · have step := ih (lits ++ List.replicate n v) (by simp only [List.length_append, List.length_replicate]; omega)
        simpa using step

end Decodes

end Sys2Proof.Machine
end

section
/-! PROOF. Rotation and preemption. -/

namespace Sys2Proof.Proofs
open Sys2Proof Sys2Proof.Machine

/-- An image's coding gives its contents back (R362). -/
theorem decodeTokens_codeSection (ws rest : List Word) (small : ws.length < 2 ^ 61) :
    decodeTokens ((codeSection ws ++ rest).length + 1) (codeSection ws ++ rest) = some (ws, rest) := by
  have codes := Decodes.codeRuns (wordRuns ws) [] rest (by rw [List.nil_append, expandRuns_wordRuns]; exact small)
  rw [List.nil_append, expandRuns_wordRuns] at codes
  exact codes _ (Nat.lt_succ_self _)

/-- Settles O44, one event at a time: an idle turn, a rotation boundary, each action of PREEMPT, and the coding of an image. -/
theorem rotationAndPreemption : Obligations.RotationAndPreemption := by
  unfold Obligations.RotationAndPreemption
  refine ⟨exec_idleTurn_passes, exec_rotationBoundary_rotates, fun p s busy => ⟨exec_preemptRemove_removes busy,
    exec_preemptRestore_restores busy, ?_, fun action => ⟨fun lost _ => exec_preemptLoadImage_lost busy action lost,
      exec_preemptLoadImage_refuses busy action, exec_preemptLoadImage_loads busy action⟩⟩, decodeTokens_codeSection⟩
  intro s' action idle rests
  exact ⟨exec_preemptSaveImage_saves busy action idle rests, exec_preemptSaveImage_fails busy action idle rests⟩

end Sys2Proof.Proofs
end

section
/-! SUPPORT. An instruction that changes its thread and its slot alone, as control transfers, calls and returns do. -/

namespace Sys2Proof.Machine

/-- The executing thread of `s` is `x` in `t` and its slot `y`; every other thread, every other slot and memory are as they
were. -/
structure State.Turns (s t : State) (x : Thread) (y : Slot) : Prop where
  me : t.me = s.me
  uid : t.uid = s.uid
  thread : t.threadAt s.uid = x
  others : ∀ u, u ≠ s.uid → t.threadAt u = s.threadAt u
  slot : t.slotAt s.me = y
  slots : ∀ q, q ≠ s.me → t.slotAt q = s.slotAt q
  mem : t.mem = s.mem

namespace State.Turns

variable {s t v : State} {x : Thread} {y : Slot}

theorem cur (h : s.Turns t x y) : t.cur = x := by rw [State.cur, h.uid, h.thread]
theorem mySlot (h : s.Turns t x y) : t.mySlot = y := by rw [State.mySlot, h.me, h.slot]
theorem gpr (h : s.Turns t x y) (r : BitVec 5) : t.gpr r = x.gpr s.me r.toNat := by rw [State.gpr_def, h.cur, h.me]

theorem consume_advance (s : State) (m : Mods) (a b : BitVec 5) :
    s.Turns ((s.consume m a b).advance m) (s.done m a b) s.mySlot := by
  rw [State.consume_advance]
  exact ⟨rfl, rfl, State.threadAt_putThread_self _ _ _, fun u hu => by rw [State.threadAt_putThread, if_neg hu], rfl,
    fun _ _ => rfl, rfl⟩

theorem modCur (h : s.Turns t x y) (f : Thread → Thread) : s.Turns (t.modCur f) (f x) y where
  me := h.me
  uid := h.uid
  thread := by rw [State.threadAt_modCur, h.uid, if_pos rfl, h.cur]
  others u hu := by rw [State.threadAt_modCur, h.uid, if_neg hu, h.others u hu]
  slot := h.slot
  slots := h.slots
  mem := h.mem

theorem modSlot (h : s.Turns t x y) {q : Nat} (here : q = s.me) (f : Slot → Slot) (occ : ∀ z, (f z).occ = z.occ) :
    s.Turns (t.modSlot q f) x (f y) where
  me := h.me
  uid := (t.uid_modSlot q f occ).trans h.uid
  thread := h.thread
  others := h.others
  slot := by rw [here, State.slotAt_modSlot_self, h.slot]
  slots k hk := by rw [here, State.slotAt_modSlot, if_neg hk, h.slots k hk]
  mem := h.mem

/-- What leaves the threads and the slots leaves the turn. -/
theorem beside (h : s.Turns t x y) (same : t.SameThreads v) (mem : v.mem = t.mem) : s.Turns v x y where
  me := same.me.trans h.me
  uid := by rw [← h.uid]; simp only [State.uid, State.uid?, State.slotAt, same.slots, same.me]
  thread := by rw [State.threadAt, same.threads, ← State.threadAt, h.thread]
  others u hu := by rw [State.threadAt, same.threads, ← State.threadAt, h.others u hu]
  slot := by rw [State.slotAt, same.slots, ← State.slotAt, h.slot]
  slots q hq := by rw [State.slotAt, same.slots, ← State.slotAt, h.slots q hq]
  mem := mem.trans h.mem

/-- A taken transfer: the next instruction, and an empty instruction buffer (R154). -/
theorem transfer (h : s.Turns t x y) (pc : Word) : s.Turns (t.transfer pc) { x with pc := pc } { y with ibuf := none } :=
  (h.modCur (fun z => { z with pc := pc })).modSlot h.me (fun z => { z with ibuf := none }) (fun _ => rfl)

end State.Turns

/-- A general register beside lk, ws and pc reads alike in threads with the same registers, globals, index and family. -/
theorem Thread.gpr_of_regs {x y : Thread} (regs : x.regs = y.regs) (globals : x.globals = y.globals) (ix : x.ix = y.ix)
    (fh : x.fh = y.fh) (q : Nat) {r : BitVec 5} (other : r ∉ [29#5, 30#5, 31#5]) : x.gpr q r.toNat = y.gpr q r.toNat := by
  simp only [List.mem_cons, List.not_mem_nil, or_false, not_or] at other
  obtain ⟨lk, ws, pc⟩ := other
  have not_lk : r.toNat ≠ 29 := toNat_ne_of_ne lk
  have not_ws : r.toNat ≠ 30 := toNat_ne_of_ne ws
  have not_pc : r.toNat ≠ 31 := toNat_ne_of_ne pc
  simp [Thread.gpr, Thread.reg, regs, globals, ix, fh, not_lk, not_ws, not_pc]

theorem Thread.gpr_withPc (t : Thread) (pc : Word) (q : Nat) {r : BitVec 5} (not_pc : r ≠ 31#5) :
    Thread.gpr { t with pc := pc } q r.toNat = t.gpr q r.toNat :=
  Thread.gpr_congr (x := { t with pc := pc }) (y := t) ⟨rfl, rfl, rfl, rfl, rfl, rfl⟩ q _ (toNat_ne_of_ne not_pc)
theorem Thread.fe_withPc (t : Thread) (pc : Word) (r : Nat) : Thread.fe { t with pc := pc } r = t.fe r := rfl

section
variable (s : State) (m : Mods) (a b : BitVec 5)

/-- A completed instruction leaves a register that no consume names. -/
theorem State.done_keeps {r : BitVec 5} (free : r ∉ consumed m a b) (not_pc : r ≠ 31#5) (q : Nat) :
    (s.done m a b).gpr q r.toNat = s.cur.gpr q r.toNat ∧ (s.done m a b).fe r.toNat = s.cur.fe r.toNat := by
  obtain ⟨gpr, fe⟩ := Thread.consumed_keeps s.cur m a b r free
  exact ⟨(Thread.gpr_withPc _ _ q not_pc).trans (gpr q), (Thread.fe_withPc _ _ _).trans fe⟩
/-- A completed instruction empties the locals that its consumes name (R24). -/
theorem State.done_empties {r : BitVec 5} (named : r ∈ consumed m a b) (low : r.toNat < 10) :
    (s.done m a b).fe r.toNat = .empty :=
  (Thread.fe_withPc _ _ _).trans (Thread.consumed_fe _ _ _ _ _ named low)

/-- A completed instruction that goes elsewhere (R109, R154). -/
theorem State.transfer_transfers (pc : Word) : s.transfers (((s.consume m a 27#5).advance m).transfer pc) m a pc := by
  have turns := (State.Turns.consume_advance s m a 27#5).transfer pc
  refine ⟨?_, ?_, fun r _ free not_pc => ?_, fun r named low _ => ?_, ?_, turns.others, turns.slots, ?_, ?_⟩
  · rw [turns.cur]
  · rw [turns.mySlot]
  · obtain ⟨gpr, fe⟩ := s.done_keeps m a 27#5 free not_pc s.me
    constructor
    · rw [turns.gpr, Thread.gpr_withPc _ _ _ not_pc, gpr, State.gpr_def]
    · rw [turns.cur, Thread.fe_withPc, fe]
  · rw [turns.cur, Thread.fe_withPc, s.done_empties m a 27#5 named low]
  · rw [State.keepsThread, turns.cur, State.done_eq]
  · rw [turns.mySlot]
  · rw [State.consume_advance]; rfl

end

end Sys2Proof.Machine
end

section
/-! PROOF. Branches and jmp. -/

namespace Sys2Proof.Proofs

open Sys2Proof Sys2Proof.Machine


section
variable {m : Mods} {s : State}

/-- A branch that is taken goes to its target (R22, R109). -/
theorem branch_takes (o : BitVec 19) (ready : s.Ready m 0 {}) : ∃ t, s.branch true o m = .next t ∧
    s.transfers t m 27#5 (branchTarget s.cur.pc o) :=
  ⟨_, by rw [State.branch, State.issue_ready s m 0 _ _ ready]; rfl, s.transfer_transfers m 27#5 (branchTarget s.cur.pc o)⟩
/-- A branch that is not taken only advances. -/
theorem branch_passes (o : BitVec 19) (ready : s.Ready m 0 {}) : ∃ t, s.branch false o m = .next t ∧
    s.regResult t m 27#5 27#5 27#5 0#64 ∧ s.keepsThread t := by
  rw [State.branch, State.issue_ready s m 0 _ _ ready]
  exact finish_completes m s

/-- `jmp` to an aligned address that lies ahead goes there (R58, R114). -/
theorem exec_jmp_goes (a : BitVec 5) (ready : s.Ready m 0 { src := [a] }) (aligned : (s.gpr a).toNat % 4 = 0)
    (ahead : s.cur.pc.toNat < (s.gpr a).toNat) : ∃ t, exec (.jmp a m) s = .next t ∧ s.transfers t m a (s.gpr a) := by
  refine ⟨_, ?_, s.transfer_transfers m a (s.gpr a)⟩
  rw [exec_jmp, execJmp, State.issue_ready s m 0 _ _ ready]
  simp only [aligned, Nat.not_le.mpr ahead]
  rfl
/-- `jmp` to any other address faults ILLEGAL (R58). -/
theorem exec_jmp_faults (a : BitVec 5) (ready : s.Ready m 0 { src := [a] })
    (bad : (s.gpr a).toNat % 4 ≠ 0 ∨ (s.gpr a).toNat ≤ s.cur.pc.toNat) (may : s.mayFault) :
    ∃ t, exec (.jmp a m) s = .next t ∧ s.faultsEnd t fILLEGAL 7 0#64 := by
  refine ⟨_, ?_, State.raise_faultsEnd (type := 3) 0#64 may rfl (by decide)⟩
  rw [exec_jmp, execJmp, State.issue_ready s m 0 _ _ ready]
  obtain crooked | behind := bad
  · simp [crooked, State.fail]
  · simp [behind, State.fail]

end

/-- Settles O28: a branch by its predicate, `jmp` by where its address lies. -/
theorem branchesAndJumps : Obligations.BranchesAndJumps := by
  unfold Obligations.BranchesAndJumps
  refine ⟨fun o p m s ready => ⟨branch_takes o ready, fun holds => ?_, fun fails => ?_⟩,
    fun a m s ready => ⟨exec_jmp_goes a ready, exec_jmp_faults a ready⟩⟩
  · have bt : exec (.bt p o m) s = s.branch true o m := by rw [exec_bt, execBt, holds]
    have bf : exec (.bf p o m) s = s.branch false o m := by rw [exec_bf, execBf, holds]; rfl
    dsimp only
    rw [bt, bf]
    exact ⟨branch_takes o ready, branch_passes o ready⟩
  · have bt : exec (.bt p o m) s = s.branch false o m := by rw [exec_bt, execBt, fails]
    have bf : exec (.bf p o m) s = s.branch true o m := by rw [exec_bf, execBf, fails]; rfl
    dsimp only
    rw [bt, bf]
    exact ⟨branch_takes o ready, branch_passes o ready⟩

end Sys2Proof.Proofs
end

section
/-! SUPPORT. Waits, calls and returns: what they leave of the thread and of its frames. -/

namespace Sys2Proof.Machine

/-! Waits. -/

/-- A change of the executing thread leaves the rest of the machine. -/
theorem State.keepsMachine_modCur (s : State) (f : Thread → Thread) : s.keepsMachine (s.modCur f) :=
  ⟨fun u hu => by rw [State.threadAt_modCur, if_neg hu], rfl⟩
theorem State.keepsMsgs_modCur (s : State) (f : Thread → Thread) : s.keepsMsgs (s.modCur f) := ⟨rfl, rfl, rfl, rfl⟩
@[simp] theorem State.cur_suspend (s : State) (w : Wait) : (s.suspend w).cur = { s.cur with wait := w, noHelp := false } :=
  s.cur_modCur _
/-- An instruction that waits changes nothing but its thread's wait (R92). -/
theorem State.await_waits (s : State) (w : Wait) :
    ∃ t, s.await w = .next t ∧ t.cur.wait = w ∧ t.cur.pc = s.cur.pc ∧ s.keepsMachine t := by
  refine ⟨_, rfl, ?_, ?_, s.keepsMachine_modCur _⟩
  · rw [State.cur_suspend]
  · rw [State.cur_suspend]
/-- An instruction whose reservations are free takes them (R157). -/
theorem State.withResv_free {s : State} {n : Nat} (free : s.resvFree s.me n = true) (body : State → Out) :
    s.withResv n body = body s.tookResv := by
  rw [State.withResv, if_pos free]
  rfl

/-! Calls. -/

theorem State.cur_consume (s : State) (m : Mods) (a b : BitVec 5) : (s.consume m a b).cur = s.cur.consumed m a b := by
  have e := s.foldl_emptyGpr (Machine.consumed m a b) id
  rw [← State.consume_eq] at e
  have cur := congrArg State.cur e
  rw [State.cur_modCur, State.cur_putThread] at cur
  exact cur

/-- A completed instruction leaves lk, the predicates, the depth and FCTL. -/
theorem State.done_rest (s : State) (m : Mods) (a b : BitVec 5) : (s.done m a b).lk = s.cur.lk ∧
    (s.done m a b).pred = s.cur.pred ∧ (s.done m a b).depth = s.cur.depth ∧ (s.done m a b).fctl = s.cur.fctl := by
  rw [State.done_eq]
  exact ⟨rfl, rfl, rfl, rfl⟩

/-- The locals of a frame are those of the thread (R110). -/
theorem Thread.frame_locals (t : Thread) (ret : Word) {r : Nat} (low : r < 10) : (t.frame ret).locals.get FReg.zero r = t.reg r := by
  have e := Tab.find?_filter_key t.regs (· < 10) r
  rw [if_pos (by simpa using low)] at e
  exact congrArg (Option.getD · FReg.zero) e

/-- A call that has made room (R112). -/
theorem State.Turns.enter {s t : State} {x : Thread} {y : Slot} (h : s.Turns t x y) (target ret : Word) (f : Frame) :
    s.Turns (t.enter target ret f) { x with depth := x.depth + 1, lk := ret, calls := t.nextId :: x.calls, pc := target }
      { y with frames := f :: y.frames, noSpill := false, ibuf := none } :=
  (((h.beside (.markDirty _) (State.markDirty_mem _ _)).modSlot h.me
    (fun z => { z with frames := f :: z.frames, noSpill := false }) (fun _ => rfl)).modCur _).transfer target

theorem State.sendFrames_one {s t : State} {q : Nat} {u : Option Nat} (sends : s.sendFrame q u = .ok t) :
    s.sendFrames q u 1 = .ok t := by
  simp only [State.sendFrames, sends]
/-- Frames that leave hold the instruction until they are acknowledged (R112, R115). -/
theorem State.flushFrames_sends {s t : State} {n : Nat} (sends : s.sendFrames s.me (some s.uid) n = .ok t) :
    s.flushFrames n = .next (t.suspend .frames) := by
  simp only [State.flushFrames, sends]
  rfl

/-! Returns. -/

/-- Registers that are set one after the other, each by its own number. -/
theorem Tab.get_foldl_set (d : FReg) (g : Nat → FReg) (xs : List Nat) (t : Tab FReg) (r : Nat) :
    (xs.foldl (fun (x : Tab FReg) i => x.set d (i + 1) (g (i + 1))) t).get d r =
      if r ∈ xs.map (· + 1) then g r else t.get d r := by
  induction xs generalizing t with
  | nil => rfl
  | cons i xs ih =>
    rw [List.foldl_cons, ih, Tab.get_set]
    by_cases same : r = i + 1
    · simp [same]
    · simp [same]

/-- A register that waits for nothing comes back as the frame holds it (R113). -/
theorem Thread.rearm_settled (t : Thread) (r : Nat) {f : FReg} (settled : ∀ w, f.st ≠ .pending w) : t.rearm r f = f := by
  unfold Thread.rearm
  split
  · next w e => exact absurd e (settled w)
  · rfl
/-- A return gives l1 to l9 back (R113). -/
theorem Thread.reg_unwind (t : Thread) (f : Frame) (r : Nat) :
    (t.unwind f).reg r = if 1 ≤ r ∧ r < 10 then t.rearm r (f.locals.get FReg.zero r) else t.reg r := by
  have e := Tab.get_foldl_set FReg.zero (fun r => t.rearm r (f.locals.get FReg.zero r)) (List.range 9) t.regs r
  have these : r ∈ (List.range 9).map (· + 1) ↔ 1 ≤ r ∧ r < 10 := by
    simp only [List.mem_map, List.mem_range]
    exact ⟨fun ⟨i, low, e⟩ => by omega, fun ⟨low, high⟩ => ⟨r - 1, by omega, by omega⟩⟩
  simp only [these] at e
  exact e
/-- Without the consume of a third register, an instruction without operands consumes nothing: z keeps nothing. -/
theorem Thread.consumed_z (t : Thread) {m : Mods} (h : m.consC = false) : t.consumed m 27#5 27#5 = t := by
  unfold Thread.consumed Machine.consumed
  cases m.consA <;> cases m.consB <;> simp [h, Thread.emptied]

end Sys2Proof.Machine
end

section
/-! PROOF. call and ret. -/

namespace Sys2Proof.Proofs

open Sys2Proof Sys2Proof.Machine

/-! call (R112, R138). -/

section
variable {s : State} {m : Mods} {a : BitVec 5} {target : Word}

/-- Both calls are one operation, on their target. -/
theorem exec_call {i : Instr} (call : (i = .callLit m ∧ a = 27#5 ∧ target = m.lit ∧ s.Ready m 0 {}) ∨
    (i = .callReg a m ∧ target = s.gpr a ∧ s.Ready m 0 { src := [a] })) : exec i s = s.call target a m := by
  obtain ⟨rfl, rfl, rfl, ready⟩ | ⟨rfl, rfl, ready⟩ := call
  · rw [exec_callLit, execCallLit, State.issue_ready s m 0 _ _ ready]
  · rw [exec_callReg, execCallReg, State.issue_ready s m 0 _ _ ready]

/-- A call to a target that is not aligned faults (R58). -/
theorem call_crooked (crooked : target.toNat % 4 ≠ 0) (may : s.mayFault) :
    ∃ t, s.call target a m = .next t ∧ s.faultsEnd t fILLEGAL 7 0#64 :=
  ⟨_, by simp [State.call, crooked, State.fail], State.raise_faultsEnd (type := 3) 0#64 may rfl (by decide)⟩

section
variable (aligned : target.toNat % 4 = 0)
include aligned

/-- A call at the depth limit faults (R112). -/
theorem call_deep (deep : 512 ≤ s.slotDepth s.me) (may : s.mayFault) :
    ∃ t, s.call target a m = .next t ∧ s.faultsEnd t fACCESS 5 0#64 :=
  ⟨_, by simp [State.call, aligned, deep, State.fail], State.raise_faultsEnd (type := 3) 0#64 may rfl (by decide)⟩

variable (room : s.slotDepth s.me < 512)
include room

theorem call_waits_loads (out : s.loadsLanded s.uid = false) : s.call target a m = s.await .loads := by
  simp [State.call, aligned, Nat.not_le.mpr room, out]

variable (landed : s.loadsLanded s.uid = true)
include landed

theorem call_waits_divided (dividing : s.dividing s.uid = true) : s.call target a m = s.await .divided := by
  simp [State.call, aligned, Nat.not_le.mpr room, landed, dividing]

variable (divided : s.dividing s.uid = false)
include divided

theorem call_waits_frames (full : 8 ≤ s.mySlot.frames.length) (out : s.framesOut s.me = true) :
    s.call target a m = s.await .frames := by
  simp [State.call, aligned, Nat.not_le.mpr room, landed, divided, Nat.not_lt.mpr full, out]

/-- With every place taken the oldest frame leaves first (R112, R155). -/
theorem call_sends {s1 : State} (full : 8 ≤ s.mySlot.frames.length) (home : s.framesOut s.me = false)
    (free : s.resvFree s.me 1 = true)
    (sends : (s.tookResv.modSlot s.me (fun x => { x with noSpill := false })).sendFrame s.me (some s.uid) = .ok s1) :
    s.call target a m = .next (s1.suspend .frames) := by
  have uid : (s.tookResv.modSlot s.me (fun x => { x with noSpill := false })).uid = s.uid :=
    s.tookResv.uid_modSlot s.me _ (fun _ => rfl)
  have call : s.call target a m =
      (s.tookResv.modSlot s.me (fun x => { x with noSpill := false })).flushFrames 1 := by
    simp only [State.call, aligned, Nat.not_le.mpr room, landed, divided, Nat.not_lt.mpr full, home, State.withResv_free free]
    rfl
  rw [call]
  exact State.flushFrames_sends (by rw [uid]; exact State.sendFrames_one sends)

/-- With a place free a call makes its frame and transfers. -/
theorem call_enters (few : s.mySlot.frames.length < 8) :
    let ret := s.cur.pc + word (Machine.lenBytes m)
    let t0 := (s.consume m a 27#5).advance m
    s.call target a m = .next (t0.enter target ret ((s.done m a 27#5).frame ret)) := by
  intro ret t0
  rw [← (State.Turns.consume_advance s m a 27#5).cur]
  simp only [State.call, aligned, Nat.not_le.mpr room, landed, divided, few]
  rfl

end

/-- What a call that has made its frame leaves (R112). -/
theorem enter_leaves (s : State) (m : Mods) (a : BitVec 5) (target : Word) :
    let ret := s.cur.pc + word (Machine.lenBytes m)
    let f := (s.done m a 27#5).frame ret
    let t := ((s.consume m a 27#5).advance m).enter target ret f
    t.mySlot.frames = f :: s.mySlot.frames ∧
    (∀ r, r < 10 → f.locals.get FReg.zero r = ((s.consume m a 27#5).cur).reg r) ∧
    f.lk = s.cur.lk ∧ f.ret = ret ∧ f.pred = s.cur.pred ∧
    t.cur.pc = target ∧ t.cur.lk = ret ∧ t.cur.depth = s.cur.depth + 1 ∧
    t.cur.pred = s.cur.pred ∧ t.mySlot.ibuf = none ∧ t.mem = s.mem ∧ t.cur.fctl = s.cur.fctl ∧
    (∀ r : BitVec 5, r ∉ consumed m a 27#5 → r ∉ [29#5, 30#5, 31#5] →
      t.gpr r = s.gpr r ∧ t.cur.fe r.toNat = s.cur.fe r.toNat) ∧ t.consumes m a 27#5 27#5 ∧
    (∀ u, u ≠ s.uid → t.threadAt u = s.threadAt u) := by
  intro ret f t
  have turns : s.Turns t _ _ := (State.Turns.consume_advance s m a 27#5).enter target ret f
  obtain ⟨lk, pred, depth, fctl⟩ := s.done_rest m a 27#5
  rw [turns.mySlot, turns.cur]
  refine ⟨rfl, fun r low => ?_, lk, rfl, pred, rfl, rfl, congrArg (· + 1) depth, pred, rfl, turns.mem, fctl,
    fun r free other => ?_, fun r named low _ => ?_, turns.others⟩
  · rw [State.cur_consume]
    exact Thread.frame_locals _ _ low
  · have not_pc : r ≠ 31#5 := fun e => other (by simp [e])
    obtain ⟨gpr, fe⟩ := s.done_keeps m a 27#5 free not_pc s.me
    constructor
    · have reads : s.gpr r = (s.done m a 27#5).gpr s.me r.toNat := gpr.symm
      rw [turns.gpr, reads]
      refine Thread.gpr_of_regs ?_ ?_ ?_ ?_ _ other <;> rfl
    · exact fe
  · rw [turns.cur]
    exact s.done_empties m a 27#5 named low

end

/-! ret (R15, R113, R138). -/

section
variable {s : State} {m : Mods} (ready : s.Ready m 0 {})
include ready

/-- `ret` at depth 0 ends the thread (R15). -/
theorem exec_ret_ends (flat : s.cur.depth = 0) (live : s.cur.ended = none) :
    ∃ t, exec (.ret m) s = .next t ∧ t.threadEnds s.uid .ret ∧ t.mem = s.mem := by
  have turns := State.Turns.consume_advance s m 27#5 27#5
  obtain ⟨ends, rest⟩ := ((s.consume m 27#5 27#5).advance m).endThread_ends s.uid .ret
    (by rw [turns.thread, State.done_eq]; exact live) nofun
  refine ⟨_, ?_, ends, rest.mem.trans turns.mem⟩
  rw [exec_ret, execRet, State.issue_ready s m 0 _ _ ready, if_pos flat, State.finish]

variable (deep : s.cur.depth ≠ 0) (landed : s.loadsLanded s.uid = true) (divided : s.dividing s.uid = false)
include deep landed divided

/-- `ret` takes the top frame back, where it is resident (R113). -/
theorem exec_ret_takes {f : Frame} {rest : List Frame} (top : s.mySlot.frames = f :: rest) :
    ∃ t, exec (.ret m) s = .next t ∧ t.cur.pc = f.ret ∧ t.cur.lk = f.lk ∧ t.cur.pred = f.pred ∧
      t.cur.depth = s.cur.depth - 1 ∧ t.mySlot.frames = rest ∧ t.mySlot.ibuf = none ∧
      (m.consC = false → t.cur.reg 0 = s.cur.reg 0) ∧ t.cur.fctl = s.cur.fctl ∧ t.mem = s.mem ∧
      (∀ r, 1 ≤ r → r < 10 → (∀ w, (f.locals.get FReg.zero r).st ≠ .pending w) → t.cur.reg r = f.locals.get FReg.zero r) ∧
      (∀ u, u ≠ s.uid → t.threadAt u = s.threadAt u) := by
  have before := State.Turns.consume_advance s m 27#5 27#5
  have turns := (before.modSlot before.me (fun x => { x with
    frames := rest, flushing := min x.flushing rest.length, noSpill := false, ibuf := none }) (fun _ => rfl)).modCur
    (fun x => x.unwind f)
  obtain ⟨-, -, depth, fctl⟩ := s.done_rest m 27#5 27#5
  refine ⟨_, ?_, ?_, ?_, ?_, ?_, ?_, ?_, fun free => ?_, ?_, turns.mem, fun r low high settled => ?_, turns.others⟩
  · rw [exec_ret, execRet, State.issue_ready s m 0 _ _ ready, if_neg deep, top]
    simp only [landed, divided]
    rfl
  · rw [turns.cur]; rfl
  · rw [turns.cur]; rfl
  · rw [turns.cur]; rfl
  · rw [turns.cur]; exact congrArg (· - 1) depth
  · rw [turns.mySlot]
  · rw [turns.mySlot]
  · rw [turns.cur, Thread.reg_unwind, if_neg (by omega)]
    have same : (s.cur.consumed m 27#5 27#5).reg 0 = s.cur.reg 0 := by rw [Thread.consumed_z s.cur free]
    exact same
  · rw [turns.cur]; exact fctl
  · rw [turns.cur, Thread.reg_unwind, if_pos ⟨low, high⟩, Thread.rearm_settled _ _ settled]

variable (away : s.mySlot.frames = [])
include away

theorem exec_ret_waits (out : s.framesOut s.me = true) : exec (.ret m) s = s.await .frames := by
  rw [exec_ret, execRet, State.issue_ready s m 0 _ _ ready, if_neg deep, away]
  simp [landed, divided, out]
/-- `ret` asks for the top frame, where it is not resident (R113). -/
theorem exec_ret_asks (s1 : State) (home : s.framesOut s.me = false) (free : s.resvFree s.me 1 = true)
    (asks : s.tookResv.askFrame = .ok s1) : exec (.ret m) s = .next (s1.suspend .frames) := by
  rw [exec_ret, execRet, State.issue_ready s m 0 _ _ ready, if_neg deep, away]
  simp only [landed, divided, home, State.withResv_free free, asks]
  rfl

end

/-- A frame is asked for as one request of 128 bytes from its spill place (R113, R155). -/
theorem askFrame_asks {s s1 : State} {p : Place} (reach : s.areaReach s.myCore s.cur.vf (s.slotLevel s.me) .load
      (s.spillPlace s.cur.vf s.me (s.slotDepth s.me)) = .ok (s1, p)) :
    ∃ t r, s.askFrame = .ok t ∧ t.reqs.find? s1.nextId = some r ∧ r.kind = .frameRead ∧ r.thread = some s.uid ∧ r.slot = s.me ∧
      r.addr = p.addr ∧ r.key = p.key ∧ r.size = 128 ∧ r.resv = true ∧ t.mem = s1.mem ∧ t.threads = s1.threads := by
  simp only [State.askFrame, reach, State.dispatch, ReqKind.writes, Bool.and_false]
  exact ⟨_, _, rfl, Tab.find?_put_self _ _ _, rfl, rfl, rfl, rfl, rfl, rfl, rfl, rfl, rfl⟩

/-- Settles O29: the calls by the one operation that they are, `ret` by the thread's depth and by where its top frame is. -/
theorem callsAndReturns : Obligations.CallsAndReturns := by
  unfold Obligations.CallsAndReturns
  refine ⟨fun i a m s target call => ?_, fun m s ready => ⟨exec_ret_ends ready, fun deep landed divided =>
    ⟨fun f rest => exec_ret_takes ready deep landed divided, fun away out => ?_,
      fun s1 away => exec_ret_asks ready deep landed divided away s1⟩⟩, fun s s1 p => askFrame_asks⟩
  · rw [exec_call call]
    refine ⟨fun aligned room => ⟨fun out => ?_, fun landed dividing => ?_, fun landed divided => ⟨fun few => ?_,
      fun full out => ?_, fun s1 => call_sends aligned room landed divided⟩⟩, call_crooked, call_deep⟩
    · rw [call_waits_loads aligned room out]
      exact s.await_waits .loads
    · rw [call_waits_divided aligned room landed dividing]
      exact s.await_waits .divided
    · exact ⟨_, _, call_enters aligned room landed divided few, enter_leaves s m a target⟩
    · rw [call_waits_frames aligned room landed divided full out]
      exact s.await_waits .frames
  · rw [exec_ret_waits ready deep landed divided away out]
    exact s.await_waits .frames

end Sys2Proof.Proofs
end

section
/-! SUPPORT. The seal of a frame, and what leaves and lands of frames. -/

namespace Sys2Proof.Machine

/-! Words as bytes. -/

/-- Eight bytes and what follows them, read as words. -/
theorem dwords_append (bs rest : List Byte) (eight : bs.length = 8) :
    dwords (bs ++ rest) = word (ofBytes bs) :: dwords rest := by
  have count : (bs ++ rest).length / 8 = rest.length / 8 + 1 := by rw [List.length_append, eight]; omega
  simp only [dwords, count, List.range_succ_eq_map, List.map_cons, List.map_map]
  refine congr (congrArg _ ?_) (List.map_congr_left fun i _ => ?_)
  · simp [← eight]
  · have past : 8 * (i + 1) = bs.length + 8 * i := by omega
    simp [past, List.drop_length_add_append]
/-- Words that are written as bytes are read back. -/
theorem dwords_wordBytes (ws : List Word) : dwords (wordBytes ws) = ws := by
  induction ws with
  | nil => rfl
  | cons w ws ih =>
    have first : word (ofBytes (toBytes 8 w.toNat)) = w := by
      rw [ofBytes_toBytes, show 256 ^ 8 = 2 ^ 64 from rfl, Nat.mod_eq_of_lt w.isLt, word, BitVec.ofNat_toNat, BitVec.setWidth_eq]
    have e : wordBytes (w :: ws) = toBytes 8 w.toNat ++ wordBytes ws := List.flatMap_cons ..
    rw [e, dwords_append _ _ (length_toBytes _ _), ih, first]
theorem length_wordBytes (ws : List Word) : (wordBytes ws).length = 8 * ws.length := by
  simp [wordBytes, List.length_flatMap, Nat.mul_comm]

/-! The seal (R110, R116). -/

/-- The words of a frame that its check word covers. -/
def Frame.fields (f : Frame) : List Word :=
  (List.range 10).map (fun r => (f.locals.get FReg.zero r).saved) ++ [f.lk, f.ret, f.stateWord]

theorem Frame.bytes_eq (f : Frame) : f.bytes = wordBytes f.fields := rfl
theorem Frame.sealed_eq (f : Frame) (va : Nat) (key : Word) :
    f.sealed va key = wordBytes (f.fields ++ [frameCheck f.bytes va key, 0#64, 0#64]) := by
  have zeros : List.replicate 16 0#8 = wordBytes [0#64, 0#64] := by decide
  rw [Frame.sealed, zeros, Frame.bytes_eq]
  simp [wordBytes]
theorem Frame.length_bytes (f : Frame) : f.bytes.length = 104 := by
  rw [Frame.bytes_eq, length_wordBytes, Frame.fields, List.length_append, List.length_map, List.length_range]
  rfl

theorem FReg.code_lt (f : FReg) : f.code < 3 := by
  unfold FReg.code
  split <;> decide

/-- Lanes side by side fit in the bits of them all. -/
theorem foldr_lanes_lt (w : Nat) (xs : List Nat) :
    xs.foldr (fun x acc => x % 2 ^ w + 2 ^ w * acc) 0 < 2 ^ (w * xs.length) := by
  induction xs with
  | nil => exact Nat.one_pos
  | cons x xs ih =>
    have below : x % 2 ^ w < 2 ^ w := Nat.mod_lt _ (Nat.two_pow_pos _)
    rw [List.foldr_cons, List.length_cons, Nat.mul_succ, Nat.add_comm (w * _), Nat.pow_add]
    calc x % 2 ^ w + 2 ^ w * _ < 2 ^ w + 2 ^ w * _ := Nat.add_lt_add_right below _
      _ = 2 ^ w * (_ + 1) := by rw [Nat.mul_succ, Nat.add_comm]
      _ ≤ 2 ^ w * 2 ^ (w * xs.length) := Nat.mul_le_mul_left _ ih

/-- The codes of a frame's locals. -/
def Frame.codes (f : Frame) : List Nat := (List.range 10).map (fun r => (f.locals.get FReg.zero r).code)

/-- The state word: the codes, two bits each, and the predicates above them. -/
theorem Frame.stateWord_toNat (f : Frame) : f.stateWord.toNat =
    f.pred.toNat / 2 % 128 * 2 ^ 20 + f.codes.foldr (fun x acc => x % 2 ^ 2 + 2 ^ 2 * acc) 0 := by
  have codes : f.codes.foldr (fun x acc => x % 2 ^ 2 + 2 ^ 2 * acc) 0 =
      (List.range 10).foldr (fun r acc => (f.locals.get FReg.zero r).code + 4 * acc) 0 := by
    rw [Frame.codes, List.foldr_map]
    congr 1
    funext r acc
    rw [Nat.mod_eq_of_lt (Nat.lt_of_lt_of_le (FReg.code_lt _) (by decide))]
    rfl
  have room : f.codes.foldr (fun x acc => x % 2 ^ 2 + 2 ^ 2 * acc) 0 < 2 ^ 20 := foldr_lanes_lt 2 f.codes
  rw [Frame.stateWord, ← codes, word, BitVec.toNat_ofNat, Nat.mod_eq_of_lt (by omega)]
theorem Frame.stateWord_high (f : Frame) : f.stateWord.toNat / 2 ^ 27 = 0 := by
  have room : f.codes.foldr (fun x acc => x % 2 ^ 2 + 2 ^ 2 * acc) 0 < 2 ^ 20 := foldr_lanes_lt 2 f.codes
  rw [Frame.stateWord_toNat]
  omega
theorem Frame.stateWord_code (f : Frame) {r : Nat} (low : r < 10) : bitsOf f.stateWord.toNat (2 * r) 2 ≠ 3 := by
  have room : f.codes.foldr (fun x acc => x % 2 ^ 2 + 2 ^ 2 * acc) 0 < 2 ^ 20 := foldr_lanes_lt 2 f.codes
  have code : f.codes.getD r 0 = (f.locals.get FReg.zero r).code := by simp [Frame.codes, low]
  have small := FReg.code_lt (f.locals.get FReg.zero r)
  rw [← bitsOf_mod _ (show 2 * r + 2 ≤ 20 by omega), Frame.stateWord_toNat, Nat.mul_add_mod_self_right, Nat.mod_eq_of_lt room,
    bitsOf_foldr_lanes, code]
  omega

/-- A sealed frame passes its checks, where its return address is aligned (R116). -/
theorem Frame.sealed_good (f : Frame) (va : Nat) (key : Word) (aligned : f.ret.toNat % 4 = 0) :
    frameGood (f.sealed va key) va key = true := by
  have covered : (f.sealed va key).take 104 = f.bytes := by
    rw [Frame.sealed, List.append_assoc, List.take_left' f.length_bytes]
  have words : dwords (f.sealed va key) = f.fields ++ [frameCheck f.bytes va key, 0#64, 0#64] := by
    rw [Frame.sealed_eq, dwords_wordBytes]
  have ret : (f.fields ++ [frameCheck f.bytes va key, 0#64, 0#64]).getD 11 0#64 = f.ret := rfl
  have state : (f.fields ++ [frameCheck f.bytes va key, 0#64, 0#64]).getD 12 0#64 = f.stateWord := rfl
  have check : (f.fields ++ [frameCheck f.bytes va key, 0#64, 0#64]).getD 13 0#64 = frameCheck f.bytes va key := rfl
  have codes : ∀ r ∈ List.range 10, (bitsOf f.stateWord.toNat (2 * r) 2 != 3) = true := fun r low =>
    bne_iff_ne.mpr (f.stateWord_code (List.mem_range.mp low))
  simp only [frameGood, covered, words, ret, state, check, f.stateWord_high, aligned, List.all_eq_true.mpr codes, beq_self_eq_true,
    Bool.and_true]

/-! Requests that leave and land. -/

/-- A request that leaves changes no thread, no slot and no memory. -/
theorem State.dispatch_kept (s : State) (r : Req) : (s.dispatch r).mem = s.mem ∧ (s.dispatch r).threads = s.threads ∧
    (s.dispatch r).slots = s.slots := by
  unfold State.dispatch
  split <;> exact ⟨rfl, rfl, rfl⟩

/-- The landing of a request that is no acquire tells its die the clock at most (R263). -/
theorem State.landed_kept (s : State) (r : Req) (plain : r.acq = false) : (s.landed r).reqs = s.reqs ∧
    (s.landed r).mem = s.mem ∧ (s.landed r).threads = s.threads ∧ (s.landed r).slots = s.slots := by
  simp only [State.landed, plain, Bool.false_and, Bool.false_eq_true, if_false]
  split <;> exact ⟨rfl, rfl, rfl, rfl⟩
theorem State.markDirty_reqs (s : State) (a : Nat) : (s.markDirty a).reqs = s.reqs := by
  unfold State.markDirty
  split <;> rfl
/-- A frame that is resident anew makes the window area dirty (R363). -/
theorem State.markFrame_kept (s : State) (q : Nat) : (s.markFrame q).reqs = s.reqs ∧ (s.markFrame q).mem = s.mem ∧
    (s.markFrame q).threads = s.threads := by
  unfold State.markFrame
  exact ⟨State.markDirty_reqs _ _, State.markDirty_mem _ _, State.markDirty_threads _ _⟩

end Sys2Proof.Machine
end

section
/-! PROOF. Frames in memory, wflush, wdepth and ifence. -/

namespace Sys2Proof.Proofs

open Sys2Proof Sys2Proof.Machine

/-- The oldest resident frame that is not on its way leaves as one write to its place, with an entry (R112, R155). -/
theorem sendFrame_sends (q : Nat) (u : Option Nat) (f : Frame) (p : Place) (s s1 : State) :
    let x := s.slotAt q
    let n := x.frames.length - x.flushing
    let va := s.spillPlace (s.slotVf q) q (s.slotDepth q + 1 - n)
    x.frames[n - 1]? = some f → s.areaReach (coreOfSlot q) (s.slotVf q) (s.slotLevel q) .store va = .ok (s1, p) →
    ∃ t r, s.sendFrame q u = .ok t ∧ t.reqs.find? s1.nextId = some r ∧ r.kind = .frameWrite ∧ r.thread = u ∧ r.slot = q ∧
      r.addr = p.addr ∧ r.key = p.key ∧ r.data = f.sealed va x.frameKey ∧ r.resv = true ∧ t.mem = s1.mem ∧
      t.threads = s1.threads ∧ (t.slotAt q).flushing = (s1.slotAt q).flushing + 1 ∧ (t.slotAt q).frames = (s1.slotAt q).frames := by
  intro x n va oldest reach
  let r : Req := { Req.blank with
    kind := .frameWrite, phase := if homeDie p.addr = dieOfCore (coreOfSlot q) then .home else .ingress, vf := s.slotVf q
    core := coreOfSlot q, slot := q, thread := u, addr := p.addr, va := word va, size := 128, key := p.key, resv := true
    data := f.sealed va x.frameKey, clock := s.clockOf (dieOfCore (coreOfSlot q)), pc := (s.threadAt (u.getD 0)).pc }
  have sends : s.sendFrame q u = .ok ((s1.dispatch r).modSlot q (fun x => { x with flushing := x.flushing + 1 })) := by
    simp only [State.sendFrame, x, n, va] at oldest reach ⊢
    rw [oldest]
    simp only [reach]
    rfl
  obtain ⟨place, here⟩ := s1.find?_dispatch r
  obtain ⟨mem, threads, slots⟩ := s1.dispatch_kept r
  have slot : (s1.dispatch r).slotAt q = s1.slotAt q := by rw [State.slotAt, slots, State.slotAt]
  refine ⟨_, _, sends, here, rfl, rfl, rfl, rfl, rfl, rfl, rfl, mem, threads, ?_, ?_⟩
  · rw [State.slotAt_modSlot_self, slot]
  · rw [State.slotAt_modSlot_self, slot]

/-! Landings (R112, R113, R116). -/

section
variable {id : Nat} {r : Req} {s : State} (here : s.reqs.find? id = some r) (replied : r.phase = .replied)
  (untimed : s.timed r = false) (plain : r.acq = false) (clean : r.err = none)
include here replied untimed plain clean

/-- Once nothing of a slot's frames is on its way, those written are resident no longer. -/
theorem exec_storeAcknowledged_frame (kind : r.kind = .frameWrite) (own : r.engine = none) :
    let x := s.slotAt r.slot
    ∃ t, exec (.storeAcknowledged id) s = .next t ∧ t.reqs.find? id = none ∧ t.mem = s.mem ∧ t.threads = s.threads ∧
      ((∀ e ∈ s.reqs, e.1 ≠ id → e.2.slot = r.slot → e.2.kind.isFrame = false) →
        (t.slotAt r.slot).frames = x.frames.take (x.frames.length - x.flushing) ∧ (t.slotAt r.slot).flushing = 0) := by
  intro x
  obtain ⟨reqs, mem, threads, slots⟩ := State.landed_kept (s.delReq id) r plain
  have slot : ((s.delReq id).landed r).slotAt r.slot = x := by rw [State.slotAt, slots]; rfl
  have gone : ((s.delReq id).landed r).reqs.find? id = none := by rw [reqs]; exact Tab.find?_del_self _ _
  have lands : exec (.storeAcknowledged id) s = .next (if ((s.delReq id).landed r).framesOut r.slot
      then (s.delReq id).landed r
      else ((s.delReq id).landed r).modSlot r.slot
        (fun x => { x with frames := x.frames.take (x.frames.length - x.flushing), flushing := 0 })) := by
    rw [exec_storeAcknowledged, execStoreAcknowledged, State.storeAcked, here]
    simp only [own, Option.isSome_none, Bool.false_and, State.landAck, here, kind]
    simp [State.landFrame, replied, untimed, State.frameFault, clean, kind]
  rw [lands]
  refine ⟨_, rfl, ?_, ?_, ?_, fun alone => ?_⟩
  · split <;> exact gone
  · split <;> exact mem
  · split <;> exact threads
  · have quiet : ((s.delReq id).landed r).framesOut r.slot = false := by
      rw [State.framesOut, reqs, List.any_eq_false]
      intro e there
      obtain ⟨stands, other⟩ := List.mem_filter.mp there
      by_cases same : e.2.slot = r.slot
      · simp [alone e stands (by simpa using other) same]
      · simp [same]
    rw [quiet, if_neg (by decide), State.slotAt_modSlot_self, slot]
    exact ⟨rfl, rfl⟩

variable {u : Nat} (kind : r.kind = .frameRead) (thread : r.thread = some u) (live : s.gone u = false)
include kind thread live

/-- A frame read back that passes its check is resident. -/
theorem exec_replyLands_frame (good : frameGood r.data r.va.toNat (s.slotAt r.slot).frameKey = true) :
    ∃ t, exec (.replyLands id) s = .next t ∧ t.reqs.find? id = none ∧ t.mem = s.mem ∧ t.threads = s.threads ∧
      ∃ f, (t.slotAt r.slot).frames = [f] ∧ f.lk = (dwords r.data).getD 10 0#64 ∧ f.ret = (dwords r.data).getD 11 0#64 := by
  obtain ⟨reqs, mem, threads, slots⟩ := State.landed_kept (s.delReq id) r plain
  obtain ⟨reqs', mem', threads'⟩ := ((s.delReq id).landed r).markFrame_kept r.slot
  have lands : exec (.replyLands id) s = .next ((((s.delReq id).landed r).markFrame r.slot).modSlot r.slot
      (fun x => { x with frames := [((s.delReq id).landed r).frameOf u r.data] })) := by
    rw [exec_replyLands, execReplyLands, State.landReply, here]
    simp [State.landFrame, replied, untimed, State.frameFault, clean, kind, good, thread, live, Option.filter]
  refine ⟨_, lands, ?_, ?_, ?_, ((s.delReq id).landed r).frameOf u r.data, ?_, rfl, rfl⟩
  · rw [State.modSlot_reqs, reqs', reqs]
    exact Tab.find?_del_self _ _
  · rw [State.modSlot_mem, mem', mem]
    rfl
  · rw [State.modSlot_threads, threads', threads]
    rfl
  · rw [State.slotAt_modSlot_self]

variable (bad : frameGood r.data r.va.toNat (s.slotAt r.slot).frameKey = false)
include bad

/-- A frame read back that fails its check ends the thread, once its earlier instructions are complete. -/
theorem exec_replyLands_badFrame (done : s.earlierDone u id id = true) :
    ∃ t, exec (.replyLands id) s = .next t ∧ (t.threadAt u).ended = some (.fault fMACHINE 5) := by
  obtain ⟨-, -, threads, -⟩ := State.landed_kept (s.delReq id) r plain
  have runs : (s.threadAt u).ended = none := by simpa [State.gone] using live
  have lands : exec (.replyLands id) s = .next ((((s.delReq id).landed r).modSlot r.slot
      (fun x => { x with flushing := 0 })).raiseAt u r.pc fMACHINE 5 r.va r.kind.acc.type 0) := by
    rw [exec_replyLands, execReplyLands, State.landReply, here]
    simp [State.landFrame, replied, untimed, State.frameFault, clean, kind, bad, thread, live, Option.filter, done]
  obtain ⟨⟨ended, -⟩, -⟩ := (((s.delReq id).landed r).modSlot r.slot (fun x => { x with flushing := 0 })).raiseAt_ends u r.pc
    fMACHINE 5 r.va r.kind.acc.type 0 (by rw [kind]; rfl) (by rw [State.threadAt_modSlot, State.threadAt, threads]; exact runs)
  exact ⟨_, lands, ended⟩
omit plain in
theorem exec_replyLands_heldFrame (early : s.earlierDone u id id = false) : exec (.replyLands id) s = .next s := by
  rw [exec_replyLands, execReplyLands, State.landReply, here]
  simp [State.landFrame, replied, untimed, State.frameFault, clean, kind, bad, thread, live, Option.filter, early]

end

/-! wflush, wdepth and ifence. -/

section
variable {s : State} {m : Mods}

theorem exec_wflush_waits (ready : s.Ready m 0 {}) (out : s.framesOut s.me = true) : exec (.wflush m) s = s.await .frames := by
  rw [exec_wflush, execWflush, State.issue_ready s m 0 _ _ ready, if_pos out]
theorem exec_wflush_advances (ready : s.Ready m 0 {}) (home : s.framesOut s.me = false) (none' : s.mySlot.frames = []) :
    exec (.wflush m) s = s.finish m 27#5 27#5 id := by
  rw [exec_wflush, execWflush, State.issue_ready s m 0 _ _ ready, home, none']
  rfl
/-- `wflush` sends every resident frame (R115). -/
theorem exec_wflush_sends (ready : s.Ready m 0 {}) (s1 : State) (home : s.framesOut s.me = false) (some' : s.mySlot.frames ≠ [])
    (free : s.resvFree s.me s.mySlot.frames.length = true)
    (sends : s.tookResv.sendFrames s.me (some s.uid) s.mySlot.frames.length = .ok s1) :
    exec (.wflush m) s = .next (s1.suspend .frames) := by
  have flush : exec (.wflush m) s = s.tookResv.flushFrames s.mySlot.frames.length := by
    rw [exec_wflush, execWflush, State.issue_ready s m 0 _ _ ready, home]
    simp only [List.isEmpty_iff, some', State.withResv_free free]
    rfl
  rw [flush]
  exact State.flushFrames_sends sends

/-- `ifence` empties the slot's buffer and the core's instruction cache (R118). -/
theorem exec_ifence_empties (ready : s.Ready m 0 {}) (acked : s.slotStoresAcked s.me = true) (seen : s.seenAcked s.uid = true) :
    ∃ t, exec (.ifence m) s = .next t ∧ s.advances t m 27#5 27#5 27#5 ∧ s.keepsThread t ∧ s.keepsMsgs t ∧
      t.mySlot.ibuf = none ∧ (t.coreAt s.myCore).icache.lines = [] ∧
      (t.coreAt s.myCore).dcache = (s.coreAt s.myCore).dcache ∧ ∀ c, c ≠ s.myCore → t.coreAt c = s.coreAt c := by
  have before := State.Turns.consume_advance s m 27#5 27#5
  let t0 := ((s.consume m 27#5 27#5).advance m).modSlot ((s.consume m 27#5 27#5).advance m).me
    (fun x => { x with ibuf := none })
  have turns : s.Turns (t0.modCore s.myCore (fun c => { c with icache := c.icache.clear })) _ _ :=
    (before.modSlot before.me (fun x => { x with ibuf := none }) (fun _ => rfl)).beside ⟨rfl, rfl, rfl⟩ rfl
  have cores (c : Nat) : t0.coreAt c = s.coreAt c := by
    simp only [t0]
    rw [State.consume_advance]
    rfl
  refine ⟨_, ?_, State.advances_of_cur (.refl _ _) turns.me turns.uid turns.mem turns.thread turns.others, ?_, ?_, ?_, ?_, ?_,
    fun c other => ?_⟩
  · rw [exec_ifence, execIfence, State.issue_ready s m 0 _ _ ready, acked, seen]
    rfl
  · rw [State.keepsThread, turns.cur, State.done_eq]
  · simp only [t0]
    rw [State.consume_advance]
    exact ⟨rfl, rfl, rfl, rfl⟩
  · rw [turns.mySlot]
  · rw [State.coreAt_modCore_self]
    rfl
  · rw [State.coreAt_modCore_self, cores]
  · rw [State.coreAt_modCore, if_neg other, cores]

end

/-- Settles O30: a frame by its seal, its way out and what lands of it, and each instruction by whether it waits. -/
theorem windowInstructions : Obligations.WindowInstructions := by
  unfold Obligations.WindowInstructions
  refine ⟨fun f va key => f.sealed_good va key, sendFrame_sends, fun id r s here replied untimed plain clean own => ?_,
    fun m s ready => ⟨fun out => ?_, fun home none' => ?_, exec_wflush_sends ready⟩, fun d m s ready => ?_,
    fun m s => exec_ifence_empties⟩
  · exact ⟨fun kind => exec_storeAcknowledged_frame here replied untimed plain clean kind own,
      fun u kind thread live => ⟨exec_replyLands_frame here replied untimed plain clean kind thread live,
        fun bad => ⟨exec_replyLands_badFrame here replied untimed plain clean kind thread live bad,
          exec_replyLands_heldFrame here replied untimed clean kind thread live bad⟩⟩⟩
  · rw [exec_wflush_waits ready out]
    exact s.await_waits .frames
  · rw [exec_wflush_advances ready home none']
    obtain ⟨t, finishes, writes, keeps⟩ := finish_completes m s
    exact ⟨t, finishes, keeps, writes⟩
  · obtain ⟨writes, keeps⟩ := s.complete_writes m 27#5 27#5 d (word s.cur.depth)
    refine ⟨_, ?_, keeps, writes⟩
    rw [exec_wdepth, execWdepth, State.issue_ready s m 0 _ _ ready, State.finish]

end Sys2Proof.Proofs
end

section
/-! SUPPORT. What a register names, what stops an engine operation, and what a wait on a handle reads of the machine. -/

namespace Sys2Proof.Machine

/-! Naming (R102). -/

section
variable (s : State) (vf : Nat) {h : Word}

/-- Bits 57 to 62 of a word whose bit 63 is clear are clear where it is below 2^57. -/
theorem fieldOf_high (low : h.getLsbD 63 = false) : fieldOf h 57 6 = 0 ↔ h.toNat < 2 ^ 57 := by
  have below : h.toNat < 2 ^ 63 := by
    have top := BitVec.msb_eq_false_iff_two_mul_lt.mp (show h.msb = false by rw [BitVec.msb_eq_getLsbD_last]; exact low)
    omega
  simp only [fieldOf, bitsOf]
  omega
theorem bitOf_top : bitOf h.toNat 63 = h.getLsbD 63 := by rw [bitOf_eq_testBit, BitVec.testBit_toNat]

/-- A value whose top bit is set is an engine operation's handle (R102). -/
theorem State.handleValue_engine (top : h.getLsbD 63 = true) : s.handleValue vf h = some (.engine false h) := by
  have some' : h ≠ 0#64 := by rintro rfl; exact absurd top (by decide)
  simp [State.handleValue, some', bitOf_top, top]
/-- Any other value but zero is a family's handle where the function's arena holds it with its generation (R102). -/
theorem State.handleValue_family (some' : h ≠ 0#64) (low : h.getLsbD 63 = false) : s.handleValue vf h =
    if h.toNat < 2 ^ 57 ∧ s.inArena vf (h.toNat / 256 * 256) = true ∧ s.handleOf (s.famOfHandle vf h) = h
    then some (.family false h) else none := by
  simp only [State.handleValue, some', bitOf_top, low, if_false, Bool.false_eq_true, ← fieldOf_high low]
  by_cases field : fieldOf h 57 6 = 0
  · by_cases arena : s.inArena vf (h.toNat / 256 * 256) = true
    · by_cases gen : s.handleOf (s.famOfHandle vf h) = h
      · simp [field, arena, gen]
      · simp [gen]
    · simp [arena]
  · simp [field]

/-- A value names nothing that runs in the register itself. -/
theorem State.handleValue_own {v : Word} {n : Named} (named : s.handleValue vf v = some n) :
    (∀ h, n ≠ .family true h) ∧ (∀ h, n ≠ .engine true h) ∧ n ≠ .waiting := by
  unfold State.handleValue at named
  split at named
  · cases named; exact ⟨nofun, nofun, nofun⟩
  · split at named
    · cases named; exact ⟨nofun, nofun, nofun⟩
    · split at named
      · cases named
      · cases named; exact ⟨nofun, nofun, nofun⟩

end

section
variable {s : State} {a : BitVec 5} {h : Word}

theorem State.named_value {n : Named} (full : s.cur.fe a.toNat = .full) (value : s.handleValue s.cur.vf (s.gpr a) = some n) :
    s.named a = .ok n := by
  simp [State.named, full, value]
theorem State.named_none (full : s.cur.fe a.toNat = .full) (value : s.handleValue s.cur.vf (s.gpr a) = none) :
    s.named a = .error (fFAMILY, 7) := by
  simp [State.named, full, value]
theorem State.named_pending {f : Fill} (pending : s.cur.fe a.toNat = .pending f) (not_family : ∀ g, f ≠ .family g)
    (not_engine : ∀ g, f ≠ .engine g) : s.named a = .ok .waiting := by
  cases f with
  | family g => exact absurd rfl (not_family g)
  | engine g => exact absurd rfl (not_engine g)
  | _ => simp [State.named, pending]

/-- What a register names is full or what it waits for. -/
theorem State.named_cases (s : State) (a : BitVec 5) :
    (s.cur.fe a.toNat = .empty ∧ s.named a = .error (fLINK, 1)) ∨
    (∃ h, s.cur.fe a.toNat = .pending (.family h) ∧ s.named a = .ok (.family true h)) ∨
    (∃ h, s.cur.fe a.toNat = .pending (.engine h) ∧ s.named a = .ok (.engine true h)) ∨
    (∃ f, s.cur.fe a.toNat = .pending f ∧ s.named a = .ok .waiting) ∨
    (∃ n, s.handleValue s.cur.vf (s.gpr a) = some n ∧ s.named a = .ok n) ∨
    s.named a = .error (fFAMILY, 7) := by
  cases state : s.cur.fe a.toNat with
  | empty => exact .inl ⟨rfl, by simp [State.named, state]⟩
  | pending f =>
    cases f with
    | family h => exact .inr (.inl ⟨h, rfl, by simp [State.named, state]⟩)
    | engine h => exact .inr (.inr (.inl ⟨h, rfl, by simp [State.named, state]⟩))
    | _ => exact .inr (.inr (.inr (.inl ⟨_, rfl, by simp [State.named, state]⟩)))
  | full =>
    cases value : s.handleValue s.cur.vf (s.gpr a) with
    | some n => exact .inr (.inr (.inr (.inr (.inl ⟨n, rfl, State.named_value state value⟩))))
    | none => exact .inr (.inr (.inr (.inr (.inr (State.named_none state value)))))

/-- A register that names nothing that it may faults LINK(1) or FAMILY(7). -/
theorem State.named_error {c k : Nat} (named : s.named a = .error (c, k)) : (c = fLINK ∧ k = 1) ∨ (c = fFAMILY ∧ k = 7) := by
  rcases s.named_cases a with ⟨-, e⟩ | ⟨h, -, e⟩ | ⟨h, -, e⟩ | ⟨f, -, e⟩ | ⟨n, -, e⟩ | e
  all_goals rw [e] at named; cases named
  · exact .inl ⟨rfl, rfl⟩
  · exact .inr ⟨rfl, rfl⟩
/-- A register that names what fills it waits for it. -/
theorem State.named_ownFamily (named : s.named a = .ok (.family true h)) : s.cur.fe a.toNat = .pending (.family h) := by
  rcases s.named_cases a with ⟨-, e⟩ | ⟨h, state, e⟩ | ⟨h, -, e⟩ | ⟨f, -, e⟩ | ⟨n, value, e⟩ | e
  all_goals rw [e] at named; cases named
  · exact state
  · exact absurd rfl ((s.handleValue_own _ value).1 h)
theorem State.named_ownEngine (named : s.named a = .ok (.engine true h)) : s.cur.fe a.toNat = .pending (.engine h) := by
  rcases s.named_cases a with ⟨-, e⟩ | ⟨h, -, e⟩ | ⟨h, state, e⟩ | ⟨f, -, e⟩ | ⟨n, value, e⟩ | e
  all_goals rw [e] at named; cases named
  · exact state
  · exact absurd rfl ((s.handleValue_own _ value).2.1 h)

end

/-! Engine operations. -/

/-- A table whose values are changed, each by the same function. -/
theorem Tab.find?_mapValues {α β : Type} (t : Tab α) (g : α → β) (n : Nat) :
    Tab.find? (t.map (fun e => (e.1, g e.2)) : Tab β) n = (Tab.find? t n).map g := by
  induction t with
  | nil => rfl
  | cons e t ih =>
    simp only [List.map_cons, Tab.find?]
    split
    · rfl
    · exact ih

/-- A cluster whose engine operations of one handle are changed. -/
def Cluster.modEngine (c : Cluster) (h : Word) (f : CopyOp → CopyOp) (g : Job → Job) : Cluster :=
  { c with
    copies := c.copies.map (fun e => (e.1, if e.2.h = h then f e.2 else e.2))
    jobs := c.jobs.map (fun e => (e.1, if e.2.h = h then g e.2 else e.2)) }
theorem State.clusterAt_modEngine (s : State) (h : Word) (f : CopyOp → CopyOp) (g : Job → Job) (cl : Nat) :
    (s.modEngine h f g).clusterAt cl = (s.clusterAt cl).modEngine h f g := by
  have e : (s.modEngine h f g).clusters.find? cl = (s.clusters.find? cl).map (·.modEngine h f g) :=
    Tab.find?_mapValues s.clusters (·.modEngine h f g) cl
  rw [State.clusterAt, State.clusterAt, Tab.get, Tab.get, e]
  cases s.clusters.find? cl <;> rfl
/-- An operation of the handle is changed, and any other is as it was. -/
theorem Cluster.copies_modEngine {c : Cluster} {h : Word} {f : CopyOp → CopyOp} {g : Job → Job} {e : Nat} {x : CopyOp}
    (here : c.copies.find? e = some x) : (c.modEngine h f g).copies.find? e = some (if x.h = h then f x else x) := by
  have found := Tab.find?_mapValues c.copies (fun x => if x.h = h then f x else x) e
  rw [here] at found
  exact found
theorem Cluster.jobs_modEngine {c : Cluster} {h : Word} {f : CopyOp → CopyOp} {g : Job → Job} {e : Nat} {j : Job}
    (here : (e, j) ∈ c.jobs) : (e, if j.h = h then g j else j) ∈ (c.modEngine h f g).jobs :=
  List.mem_map_of_mem (f := fun e : Nat × Job => (e.1, if e.2.h = h then g e.2 else e.2)) here
/-- A change of an engine operation goes on beside the threads. -/
theorem State.Beside.modEngine (s : State) (h : Word) (f : CopyOp → CopyOp) (g : Job → Job) : s.Beside (s.modEngine h f g) := ⟨rfl⟩

/-- An operation that does not stop yet is to stop (R104). -/
def CopyOp.stopped (c : CopyOp) : CopyOp := { c with stop := if c.stop = 0 then 2 else c.stop }
def Job.stopped (j : Job) : Job := { j with stop := if j.stop = 0 then 2 else j.stop }

theorem CopyOp.stopped_of (c : CopyOp) (h : Word) :
    (if c.h = h then c.stopped else c) = if c.h = h ∧ c.stop = 0 then { c with stop := 2 } else c := by
  by_cases same : c.h = h
  · subst same
    by_cases runs : c.stop = 0 <;> simp [CopyOp.stopped, runs]
  · simp [same]
theorem Job.stopped_of (j : Job) (h : Word) :
    (if j.h = h then j.stopped else j) = if j.h = h ∧ j.stop = 0 then { j with stop := 2 } else j := by
  by_cases same : j.h = h
  · subst same
    by_cases runs : j.stop = 0 <;> simp [Job.stopped, runs]
  · simp [same]

/-! Waits on handles (R89, R106, R300, R303). -/

section
variable (s : State) {f : Thread → Thread}

/-- What a change of the executing thread keeps of it, it keeps of every thread. -/
theorem State.threadAt_modCur_kept {α : Type} (g : Thread → α) (same : ∀ x, g (f x) = g x) (u : Nat) :
    g ((s.modCur f).threadAt u) = g (s.threadAt u) := by
  rw [State.threadAt_modCur]
  split
  · next here => rw [same, here]; rfl
  · rfl
theorem State.cycleFamily_modCur (loc : ∀ x, (f x).loc = x.loc) (fam : ∀ x, (f x).fam = x.fam) (u fk : Nat) :
    (s.modCur f).cycleFamily u fk = s.cycleFamily u fk := by
  simp only [State.cycleFamily, State.cycleChain, s.threadAt_modCur_kept Thread.loc loc, s.threadAt_modCur_kept Thread.fam fam]
  rfl
theorem State.mayHelp_modCur (loc : ∀ x, (f x).loc = x.loc) (vf : ∀ x, (f x).vf = x.vf)
    (adoptMax : ∀ x, (f x).adoptMax = x.adoptMax) (noHelp : ∀ x, (f x).noHelp = x.noHelp) (u fk : Nat) :
    (s.modCur f).mayHelp u fk = s.mayHelp u fk := by
  simp only [State.mayHelp, s.threadAt_modCur_kept Thread.loc loc, s.threadAt_modCur_kept Thread.vf vf,
    s.threadAt_modCur_kept Thread.adoptMax adoptMax, s.threadAt_modCur_kept Thread.noHelp noHelp]
  rfl
end

section
variable {s : State} {r : Nat} {h : Word}

/-- A register that waits for a family, in a thread that does not help. -/
theorem State.blockOn_family (pending : s.cur.fe r = .pending (.family h))
    (acyclic : s.cycleFamily s.uid (s.famOfHandle s.cur.vf h) = none)
    (alone : s.mayHelp s.uid (s.famOfHandle s.cur.vf h) = false) : s.blockOn r = s.suspend (.reg r) := by
  simp [State.blockOn, pending, acyclic, alone]
/-- A register that waits for what no task stands behind. -/
theorem State.blockOn_other {f : Fill} (pending : s.cur.fe r = .pending f) (not_family : ∀ g, f ≠ .family g)
    (not_ldfe : ∀ id ea, f ≠ .ldfe id ea) : s.blockOn r = s.suspend (.reg r) := by
  cases f with
  | family g => exact absurd rfl (not_family g)
  | ldfe id ea => exact absurd rfl (not_ldfe id ea)
  | _ => simp [State.blockOn, pending]
end

/-- An instruction that waits, its thread's registers and pc as they were, leaves the rest of the machine. -/
theorem State.putThread_waits (s : State) {x : Thread} {w : Wait} (wait : x.wait = w) (pc : x.pc = s.cur.pc)
    (regs : x.regs = s.cur.regs) :
    let t := s.putThread s.uid x
    t.cur.wait = w ∧ t.cur.pc = s.cur.pc ∧ (∀ r, t.cur.reg r = s.cur.reg r) ∧ s.keepsMachine t ∧ s.keepsMsgs t := by
  intro t
  have cur : t.cur = x := s.cur_putThread x
  rw [cur]
  exact ⟨wait, pc, fun r => by rw [Thread.reg, regs, Thread.reg], s.keepsMachine_modCur (fun _ => x),
    s.keepsMsgs_modCur (fun _ => x)⟩

/-- The executing thread of an instruction that has issued and waits: the next instruction's address, and what it owes its
consume (R106). -/
def State.owing (s : State) (m : Mods) (a : BitVec 5) : Thread :=
  { s.cur with
    owes := if m.consA && a.toNat < 10 then [a.toNat] else []
    pc := s.cur.pc + word (lenBytes m) }
theorem State.finishOwing_eq (s : State) (m : Mods) (a : BitVec 5) (f : State → State) :
    s.finishOwing m a f = .next (f (s.putThread s.uid (s.owing m a))) :=
  congrArg (fun t => Host.Outcome.next (f t)) (s.modCur_putThread _ _)
theorem State.Ran.send {s t : State} {x : Thread} (h : s.Ran t x) (msg : Msg) : s.Ran (t.send msg) x :=
  ⟨h.me, h.slots, h.mem, h.cur, h.others⟩
theorem State.Ran.owing (s : State) (m : Mods) (a : BitVec 5) : s.Ran (s.putThread s.uid (s.owing m a)) (s.owing m a) where
  me := rfl
  slots := rfl
  mem := rfl
  cur := State.threadAt_putThread_self _ _ _
  others u hu := by rw [State.threadAt_putThread, if_neg hu]

end Sys2Proof.Machine
end

section
/-! PROOF. kill, hcancel, htest, hwait and sync. -/

namespace Sys2Proof.Proofs

open Sys2Proof Sys2Proof.Machine

/-- An instruction without an effect that completes only advances, and consumes. -/
theorem finish_consumes (m : Mods) (a : BitVec 5) (s : State) :
    ∃ t, s.finish m a 27#5 id = .next t ∧ s.regResult t m a 27#5 27#5 0#64 ∧ s.keepsThread t :=
  ⟨_, rfl, State.complete_writes s m a 27#5 27#5 0#64⟩

/-- What is ready for a destination is ready without. -/
theorem ready_without {s : State} {m : Mods} {d : BitVec 5} (ready : s.Ready m 0 { dst := [d] }) : s.Ready m 0 {} :=
  ⟨ready.here, ready.guard, ready.allowed, by simp [State.operandsReady]⟩

/-- An instruction on a register that names nothing that it may faults (R102). -/
theorem exec_named_faults {d a : BitVec 5} {m : Mods} {s : State} {c k : Nat} (named : s.named a = .error (c, k))
    (ready : s.Ready m 0 { dst := [d] }) (free : s.cur.ownWait = false) (may : s.mayFault) :
    ∀ i ∈ [Instr.kill a m, .hcancel a m, .htest d a m, .hwait a m], ∃ t, exec i s = .next t ∧ s.faultsEnd t c k 0#64 := by
  have plain := ready_without ready
  have faults : s.faultsEnd (s.raise c k 0#64 3) c k 0#64 := by
    obtain ⟨rfl, rfl⟩ | ⟨rfl, rfl⟩ := State.named_error named
    · exact State.raise_faultsEnd 0#64 may rfl (by decide)
    · exact State.raise_faultsEnd 0#64 may rfl (by decide)
  intro i mem
  refine ⟨_, ?_, faults⟩
  simp only [List.mem_cons, List.not_mem_nil, or_false] at mem
  obtain rfl | rfl | rfl | rfl := mem
  · rw [exec_kill, execKill, State.stopNamed, State.issue_ready s m 0 _ _ plain, named]
    rfl
  · rw [exec_hcancel, execHcancel, State.stopNamed, State.issue_ready s m 0 _ _ plain, named]
    rfl
  · rw [exec_htest, execHtest, State.issue_ready s m 0 _ _ ready, named]
    rfl
  · rw [exec_hwait, execHwait, State.issue_ready s m 0 _ _ plain, named, free]
    rfl

/-! kill and hcancel (R103, R104). -/

section
variable {a : BitVec 5} {m : Mods} {s : State} {h : Word} {o : Bool}

/-- Both are one operation. -/
theorem exec_stopNamed {i : Instr} (stops : i ∈ [Instr.kill a m, Instr.hcancel a m]) : exec i s = s.stopNamed a m := by
  simp only [List.mem_cons, List.not_mem_nil, or_false] at stops
  obtain rfl | rfl := stops
  · exact exec_kill a m s
  · exact exec_hcancel a m s

/-- A family's home is sent a kill. -/
theorem stopNamed_kills (ready : s.Ready m 0 {}) (named : s.named a = .ok (.family o h)) :
    ∃ t, s.stopNamed a m = .next t ∧ s.advances t m 27#5 27#5 27#5 ∧
      t.msgs.find? s.nextId = some (.kill (s.famOfHandle s.cur.vf h) (h.toNat % 256)) := by
  have ran : s.Poised ((s.consume m 27#5 27#5).advance m) (s.done m 27#5 27#5) := .consume_advance (.refl s)
  refine ⟨_, ?_, (ran.send (.kill (s.famOfHandle s.cur.vf h) (h.toNat % 256))).advances (.refl _ _), ?_⟩
  · rw [State.stopNamed, State.issue_ready s m 0 _ _ ready, named]
    rfl
  · rw [← ran.nextId]
    exact Tab.find?_put_self _ _ _
/-- An engine operation that does not stop yet is stopped. -/
theorem stopNamed_stops (ready : s.Ready m 0 {}) (named : s.named a = .ok (.engine o h)) :
    ∃ t, s.stopNamed a m = .next t ∧ s.advances t m 27#5 27#5 27#5 ∧ s.keepsMsgs t ∧
      (∀ cl e c, (s.clusterAt cl).copies.find? e = some c →
        (t.clusterAt cl).copies.find? e = some (if c.h = h ∧ c.stop = 0 then { c with stop := 2 } else c)) ∧
      ∀ cl e j, (e, j) ∈ (s.clusterAt cl).jobs →
        (e, if j.h = h ∧ j.stop = 0 then { j with stop := 2 } else j) ∈ (t.clusterAt cl).jobs := by
  have ran : s.Ran ((s.consume m 27#5 27#5).advance m) (s.done m 27#5 27#5) := .consume_advance (.refl s)
  have clusters (cl : Nat) : ((s.consume m 27#5 27#5).advance m).clusterAt cl = s.clusterAt cl := by
    rw [State.consume_advance]; rfl
  refine ⟨_, ?_, (ran.beside (.modEngine _ h CopyOp.stopped Job.stopped)).advances (.refl _ _), ?_,
    fun cl e c here => ?_, fun cl e j here => ?_⟩
  · rw [State.stopNamed, State.issue_ready s m 0 _ _ ready, named]
    rfl
  · rw [State.consume_advance]
    exact ⟨rfl, rfl, rfl, rfl⟩
  · rw [State.clusterAt_modEngine, clusters, Cluster.copies_modEngine here, CopyOp.stopped_of]
  · rw [State.clusterAt_modEngine, clusters, ← Job.stopped_of]
    exact Cluster.jobs_modEngine here
/-- Where nothing is named, or nothing that can be stopped, nothing changes. -/
theorem stopNamed_passes (ready : s.Ready m 0 {}) (named : s.named a = .ok .nothing ∨ s.named a = .ok .waiting) :
    ∃ t, s.stopNamed a m = .next t ∧ s.regResult t m 27#5 27#5 27#5 0#64 ∧ s.keepsThread t := by
  have passes : s.stopNamed a m = s.finish m 27#5 27#5 id := by
    rw [State.stopNamed, State.issue_ready s m 0 _ _ ready]
    obtain named | named := named <;> rw [named]
  rw [passes]
  exact finish_completes m s

end

/-- `htest` reads what it finds (R105). -/
theorem exec_htest_reads {d a : BitVec 5} {m : Mods} {s : State} {n : Named} (ready : s.Ready m 0 { dst := [d] })
    (named : s.named a = .ok n) :
    ∃ t, exec (.htest d a m) s = .next t ∧ s.keepsThread t ∧ s.regResult t m 27#5 27#5 d (s.testNamed n) := by
  obtain ⟨writes, keeps⟩ := s.complete_writes m 27#5 27#5 d (s.testNamed n)
  refine ⟨_, ?_, keeps, writes⟩
  rw [exec_htest, execHtest, State.issue_ready s m 0 _ _ ready, named]
  rfl

/-! hwait (R106). -/

section
variable {a : BitVec 5} {m : Mods} {s : State} {h : Word} (ready : s.Ready m 0 {})

/-- A register that waits has not been filled. -/
theorem not_filled {f : Fill} (pending : s.cur.fe a.toNat = .pending f) :
    (s.cur.ownWait && s.cur.fe a.toNat == .full) = false := by
  simp [pending]

/-- The machine once `hwait` has issued and waits: the register still holds its value, and what the consume takes is owed. -/
def leavesOwing (s t : State) (m : Mods) (a : BitVec 5) (w : Wait) : Prop :=
  t.cur.pc = s.cur.pc + word (Machine.lenBytes m) ∧ (∀ r, t.cur.reg r = s.cur.reg r) ∧ t.cur.wait = w ∧
  t.cur.owes = (if m.consA = true ∧ a.toNat < 10 then [a.toNat] else []) ∧
  (∀ u, u ≠ s.uid → t.threadAt u = s.threadAt u) ∧ t.mem = s.mem

theorem suspend_leavesOwing {t : State} (ran : s.Ran t (s.owing m a)) (w : Wait) : leavesOwing s (t.suspend w) m a w := by
  have now := ran.modCur (fun x => { x with wait := w, noHelp := false })
  have cur : (t.suspend w).cur = { s.owing m a with wait := w, noHelp := false } := now.cur_eq
  rw [leavesOwing, cur]
  exact ⟨rfl, fun _ => rfl, rfl, by simp [State.owing], now.others, now.mem⟩

include ready

/-- The operation that was to fill the register has filled it: the wait is over. -/
theorem exec_hwait_filled (own : s.cur.ownWait = true) (full : s.cur.fe a.toNat = .full) :
    ∃ t, exec (.hwait a m) s = .next t ∧ s.regResult t m a 27#5 27#5 0#64 ∧ t.cur.ownWait = false ∧
      { t.cur with regs := s.cur.regs, lk := s.cur.lk, pc := s.cur.pc, ownWait := true } = s.cur := by
  have before := State.Turns.consume_advance s m a 27#5
  have turns := before.modCur (fun x => { x with ownWait := false })
  obtain ⟨writes, -⟩ := s.complete_writes m a 27#5 27#5 0#64
  have result : s.regResult (((s.consume m a 27#5).advance m).modCur (fun x => { x with ownWait := false })) m a 27#5 27#5 0#64 :=
    State.regResult_modCur _ writes before.uid ⟨rfl, rfl, rfl, rfl, rfl, rfl⟩ rfl
  refine ⟨_, ?_, result, ?_, ?_⟩
  · rw [exec_hwait, execHwait, State.issue_ready s m 0 _ _ ready, own, full]
    rfl
  · rw [turns.cur]
  · rw [turns.cur, State.done_eq]
    exact congrArg (fun b => { s.cur with ownWait := b }) own.symm

/-- An `hwait` on the register that an engine operation is to fill waits until it is full. -/
theorem exec_hwait_ownEngine (named : s.named a = .ok (.engine true h)) :
    exec (.hwait a m) s = .next (s.putThread s.uid { s.cur with ownWait := true, wait := .reg a.toNat, noHelp := false }) := by
  have pending := State.named_ownEngine named
  have blocks := State.blockOn_other (s := s.modCur (fun x => { x with ownWait := true }))
    (f := .engine h) (by rw [State.cur_modCur]; exact pending) nofun nofun
  rw [exec_hwait, execHwait, State.issue_ready s m 0 _ _ ready, not_filled pending, named]
  exact congrArg Host.Outcome.next (blocks.trans (s.modCur_putThread _ _))
/-- An `hwait` on the register that a family is to fill waits until it is full, where its thread does not help. -/
theorem exec_hwait_ownFamily (named : s.named a = .ok (.family true h))
    (acyclic : s.cycleFamily s.uid (s.famOfHandle s.cur.vf h) = none)
    (alone : s.mayHelp s.uid (s.famOfHandle s.cur.vf h) = false) :
    exec (.hwait a m) s = .next (s.putThread s.uid { s.cur with ownWait := true, wait := .reg a.toNat, noHelp := false }) := by
  have pending := State.named_ownFamily named
  have family : (s.modCur (fun x => { x with ownWait := true })).famOfHandle
      (s.modCur (fun x => { x with ownWait := true })).cur.vf h = s.famOfHandle s.cur.vf h := by
    rw [State.cur_modCur]; rfl
  have blocks := State.blockOn_family (s := s.modCur (fun x => { x with ownWait := true }))
    (h := h) (r := a.toNat) (by rw [State.cur_modCur]; exact pending)
    (by rw [family]; exact (s.cycleFamily_modCur (f := fun x => { x with ownWait := true }) (fun _ => rfl) (fun _ => rfl)
      _ _).trans acyclic)
    (by rw [family]; exact (s.mayHelp_modCur (f := fun x => { x with ownWait := true }) (fun _ => rfl) (fun _ => rfl)
      (fun _ => rfl) (fun _ => rfl) _ _).trans alone)
  rw [exec_hwait, execHwait, State.issue_ready s m 0 _ _ ready, not_filled pending, named]
  exact congrArg Host.Outcome.next (blocks.trans (s.modCur_putThread _ _))
/-- An `hwait` on a register that waits for anything else waits until it is full (log entry 29). -/
theorem exec_hwait_other {f : Fill} (pending : s.cur.fe a.toNat = .pending f) (not_family : ∀ g, f ≠ .family g)
    (not_engine : ∀ g, f ≠ .engine g) (not_ldfe : ∀ id ea, f ≠ .ldfe id ea) :
    exec (.hwait a m) s = .next (s.putThread s.uid { s.cur with wait := .reg a.toNat, noHelp := false }) := by
  rw [exec_hwait, execHwait, State.issue_ready s m 0 _ _ ready, not_filled pending,
    State.named_pending pending not_family not_engine]
  exact congrArg Host.Outcome.next (State.blockOn_other pending not_family not_ldfe)

variable (free : s.cur.ownWait = false)
include free

/-- An `hwait` where nothing runs completes. -/
theorem exec_hwait_ends (quiet : s.named a = .ok .nothing ∨
      (s.named a = .ok (.family false h) ∧ s.familyPending s.cur.vf h = false) ∨
      (s.named a = .ok (.engine false h) ∧ s.enginePending h = false)) :
    ∃ t, exec (.hwait a m) s = .next t ∧ s.regResult t m a 27#5 27#5 0#64 ∧ s.keepsThread t := by
  have ends : exec (.hwait a m) s = s.finish m a 27#5 id := by
    rw [exec_hwait, execHwait, State.issue_ready s m 0 _ _ ready, free]
    obtain named | ⟨named, gone⟩ | ⟨named, gone⟩ := quiet
    · rw [named]; rfl
    · rw [named]; simp [gone]
    · rw [named]; simp [gone]
  rw [ends]
  exact finish_consumes m a s

/-- An `hwait` on an engine operation waits with what runs. -/
theorem exec_hwait_engine (named : s.named a = .ok (.engine false h)) (runs : s.enginePending h = true) :
    ∃ t, exec (.hwait a m) s = .next t ∧ leavesOwing s t m a (.engine h) := by
  refine ⟨_, ?_, suspend_leavesOwing ((State.Ran.owing s m a).beside (.modEngine _ h
    (fun c => { c with waiters := c.waiters ++ [s.uid] }) (fun j => { j with waiters := j.waiters ++ [s.uid] }))) (.engine h)⟩
  rw [exec_hwait, execHwait, State.issue_ready s m 0 _ _ ready, free, named]
  simp only [runs, State.finishOwing_eq]
  rfl

section
variable (named : s.named a = .ok (.family false h)) (runs : s.familyPending s.cur.vf h = true)
  (acyclic : s.cycleFamily s.uid (s.famOfHandle s.cur.vf h) = none)
include named runs acyclic

/-- An `hwait` on a running family arms a wait at the family's home, where it does not help. -/
theorem exec_hwait_arms (alone : s.mayHelp s.uid (s.famOfHandle s.cur.vf h) = false ∨
      s.hasTask (s.famOfHandle s.cur.vf h) = false) :
    ∃ t, exec (.hwait a m) s = .next t ∧ leavesOwing s t m a (.family h) ∧ t.msgs.find? s.nextId = some (.arm h s.uid) := by
  have none' : (s.mayHelp s.uid (s.famOfHandle s.cur.vf h) && s.hasTask (s.famOfHandle s.cur.vf h)) = false := by
    rw [Bool.and_eq_false_iff]
    exact alone
  refine ⟨_, ?_, suspend_leavesOwing ((State.Ran.owing s m a).send (.arm h s.uid)) (.family h), Tab.find?_put_self _ _ _⟩
  rw [exec_hwait, execHwait, State.issue_ready s m 0 _ _ ready, free, named]
  simp only [runs, State.waitFamily, acyclic, none', State.finishOwing_eq]
  rfl
/-- An `hwait` on a running family helps, where it may and the family has a task. -/
theorem exec_hwait_helps (may : s.mayHelp s.uid (s.famOfHandle s.cur.vf h) = true)
    (task : s.hasTask (s.famOfHandle s.cur.vf h) = true) (loc : s.cur.loc = .slot s.me) :
    ∃ t, exec (.hwait a m) s = .next t ∧ t.cur.wait = .claim s.nextId ∧ t.cur.pc = s.cur.pc ∧
      t.msgs.find? s.nextId = some (.claim (s.famOfHandle s.cur.vf h) s.myCore s.me (some s.uid) none) := by
  let claim : Msg := .claim (s.famOfHandle s.cur.vf h) s.myCore s.me (some s.uid) none
  have cur : ((s.send claim).modThread s.uid (fun t => { t with wait := .claim s.nextId })).cur =
      { s.cur with wait := .claim s.nextId } := (s.send claim).cur_modCur _
  refine ⟨(s.send claim).modThread s.uid (fun t => { t with wait := .claim s.nextId }), ?_, ?_, ?_, Tab.find?_put_self _ _ _⟩
  · have here : (s.threadAt s.uid).loc = .slot s.me := loc
    rw [exec_hwait, execHwait, State.issue_ready s m 0 _ _ ready, free, named]
    simp only [runs, State.waitFamily, acyclic, may, task, State.sendHelp, here]
    rfl
  · rw [cur]
  · rw [cur]

end
end

/-- `sync` only waits for its register (R99). -/
theorem exec_sync_completes {a : BitVec 5} {m : Mods} {s : State} (ready : s.Ready m 0 { src := [a] }) :
    ∃ t, exec (.sync a m) s = .next t ∧ s.regResult t m a 27#5 27#5 0#64 ∧ s.keepsThread t := by
  rw [exec_sync, execSync, State.issue_ready s m 0 _ _ ready]
  exact finish_consumes m a s

/-- Settles O32: the name of a register by its state and value, and each instruction by what is named. -/
theorem namedOperations : Obligations.NamedOperations := by
  unfold Obligations.NamedOperations
  intro d a m s h fk inHandle
  refine ⟨fun state => ?_, fun state => ?_, fun f => State.named_pending, fun state => ?_, fun full zero => ?_,
    fun full value top => ?_, fun full value some' low => ?_, fun c k => exec_named_faults,
    fun ready i stops => ?_, fun ready => ?_, fun ready => ?_, exec_sync_completes⟩
  · simp [State.named, state]
  · simp [State.named, state]
  · simp [State.named, state]
  · exact State.named_value full (by rw [zero, State.handleValue, if_pos rfl])
  · exact State.named_value full (by rw [value, s.handleValue_engine _ top])
  · constructor
    · intro inside
      exact State.named_value full (by rw [value, s.handleValue_family _ some' low, if_pos inside])
    · intro outside
      exact State.named_none full (by rw [value, s.handleValue_family _ some' low, if_neg outside])
  · rw [exec_stopNamed stops]
    exact ⟨fun o => stopNamed_kills ready, fun o => stopNamed_stops ready, stopNamed_passes ready⟩
  · refine ⟨exec_htest_reads ready, exec_htest_reads ready, fun own => ?_, fun named => ?_, fun named => ?_⟩
    · obtain named | named := own <;> exact exec_htest_reads ready named
    · have reads := exec_htest_reads ready named
      rw [State.testNamed, Bool.false_or] at reads
      exact reads
    · have reads := exec_htest_reads ready named
      rw [State.testNamed, Bool.false_or] at reads
      exact reads
  · refine ⟨exec_hwait_filled ready, fun named => ?_, fun named acyclic alone => ?_,
      fun f pending not_family not_engine not_ldfe => ?_, fun free => ⟨fun named => ?_, fun named gone => ?_,
      fun named gone => ?_, fun named runs acyclic => ⟨?_, ?_⟩, ?_⟩⟩
    · exact ⟨_, exec_hwait_ownEngine ready named, s.putThread_waits rfl rfl rfl⟩
    · exact ⟨_, exec_hwait_ownFamily ready named acyclic alone, s.putThread_waits rfl rfl rfl⟩
    · exact ⟨_, exec_hwait_other ready pending not_family not_engine not_ldfe, s.putThread_waits rfl rfl rfl⟩
    · exact exec_hwait_ends (h := h) ready free (.inl named)
    · exact exec_hwait_ends ready free (.inr (.inl ⟨named, gone⟩))
    · exact exec_hwait_ends ready free (.inr (.inr ⟨named, gone⟩))
    · exact exec_hwait_arms ready free named runs acyclic
    · exact exec_hwait_helps ready free named runs acyclic
    · exact exec_hwait_engine ready free

end Sys2Proof.Proofs
end

section
/-! SUPPORT. What integer instructions outside the divide unit write, and the arithmetic of their functions. -/

namespace Sys2Proof.Machine

/-! The forms. -/

/-- A ready instruction that completes with a value for its destination writes it (R33 to R35). -/
theorem State.issue_writes {s : State} {m : Mods} {priv : Nat} {need : Need} (ready : s.Ready m priv need)
    (a b d : BitVec 5) (v : Word) :
    ∃ t, s.issue m priv need (s.finish m a b (fun t => t.writeGpr d v)) = .next t ∧ s.keepsThread t ∧
      s.regResult t m a b d v := by
  obtain ⟨result, keeps⟩ := s.complete_writes m a b d v
  exact ⟨_, s.issue_ready m priv _ _ ready, keeps, result⟩
/-- An instruction that is a function of operands A and B writes it (R31, R121). -/
theorem exec_intOp_writes {i : Instr} {s : State} {m : Mods} {d a b : BitVec 5} {imm : Bool} {f : Word → Word → Word}
    (run : exec i s = s.intOp f d a b imm m) (ready : s.Ready m 0 { src := if imm then [a] else [a, b], dst := [d] })
    {v : Word} (value : f (s.gpr a) (s.opB b imm m) = v) :
    ∃ t, exec i s = .next t ∧ s.keepsThread t ∧ s.regResult t m a b d v := by
  subst value
  rw [run]
  exact State.issue_writes ready a b d _
/-- An instruction that is a function of its one source writes it. -/
theorem exec_unary_writes {i : Instr} {s : State} {m : Mods} {d a : BitVec 5} {f : Word → Word}
    (run : exec i s = s.unary f d a m) (ready : s.Ready m 0 { src := [a], dst := [d] }) {v : Word} (value : f (s.gpr a) = v) :
    ∃ t, exec i s = .next t ∧ s.keepsThread t ∧ s.regResult t m a 27#5 d v := by
  rw [run]
  exact State.unary_writes f ready value
/-- A ready instruction that completes with a value for its predicate writes it (R25, R126). -/
theorem State.issue_setsPred {s : State} {m : Mods} {need : Need} (ready : s.Ready m 0 need) (a b : BitVec 5)
    (p : BitVec 3) (v : Bool) :
    ∃ t, s.issue m 0 need (s.finish m a b (fun t => t.setPred p v)) = .next t ∧ s.keepsThreadPred t ∧
      s.predResult t m a b p v := by
  obtain ⟨result, keeps⟩ := s.complete_setPred m a b p v
  exact ⟨_, s.issue_ready m 0 _ _ ready, keeps, result⟩

/-! Shift amounts. -/

theorem amount_eq (y : Word) : amount y = y.toNat % 64 := by
  simp [amount, fieldOf, bitsOf]
theorem shl_amount (x y : Word) : x <<< amount y = BitVec.ofNat 64 (x.toNat * 2 ^ (y.toNat % 64)) := by
  rw [amount_eq, shiftLeft_eq_ofNat]
theorem shr_amount (x y : Word) : x >>> amount y = BitVec.ofNat 64 (x.toNat / 2 ^ (y.toNat % 64)) := by
  rw [amount_eq, ushiftRight_eq_ofNat]
theorem sar_amount (x y : Word) : x.sshiftRight (amount y) = BitVec.ofInt 64 (x.toInt / 2 ^ (y.toNat % 64)) := by
  rw [amount_eq, sshiftRight_eq_ofInt]
theorem rotateLeft_amount (x y : Word) :
    x.rotateLeft (amount y) = x <<< (y.toNat % 64) ||| x >>> (64 - y.toNat % 64) := by
  rw [amount_eq]
  exact rotateLeft_eq_or x (y.setWidth 6)
theorem rotateRight_amount (x y : Word) :
    x.rotateRight (amount y) = x >>> (y.toNat % 64) ||| x <<< (64 - y.toNat % 64) := by
  rw [amount_eq]
  exact rotateRight_eq_or x (y.setWidth 6)

theorem minS_eq (x y : Word) : minS x y = if x.toInt < y.toInt then x else y := by
  simp [minS, BitVec.slt]
theorem maxS_eq (x y : Word) : maxS x y = if y.toInt < x.toInt then x else y := by
  simp [maxS, BitVec.slt]
theorem minU_eq (x y : Word) : minU x y = if x.toNat < y.toNat then x else y := by
  simp [minU, BitVec.ult]
theorem maxU_eq (x y : Word) : maxU x y = if y.toNat < x.toNat then x else y := by
  simp [maxU, BitVec.ult]

/-! Counts of bits (R122). -/

/-- The first members of a list that a test fails of are those before the first that it holds of. -/
theorem length_takeWhile_not_map {α : Type} (p : α → Bool) (xs : List α) :
    ((xs.map p).takeWhile (fun b => !b)).length = xs.findIdx p := by
  induction xs with
  | nil => rfl
  | cons x xs ih => cases h : p x <;> simp [List.findIdx_cons, h, ih]
theorem length_filter_id_map {α : Type} (p : α → Bool) (xs : List α) :
    ((xs.map p).filter id).length = (xs.map (fun x => (p x).toNat)).sum := by
  induction xs with
  | nil => rfl
  | cons x xs ih => cases h : p x <;> simp_all [Nat.add_comm]

theorem getLsbD_eq_div_mod (x : Word) (i : Nat) : x.getLsbD i = (x.toNat / 2 ^ i % 2 == 1) :=
  Nat.testBit_eq_decide_div_mod_eq

theorem countTrail_eq (x : Word) :
    countTrail x = BitVec.ofNat 64 ((List.range 64).findIdx (fun i => x.toNat / 2 ^ i % 2 == 1)) := by
  simp only [countTrail, bitsUp, length_takeWhile_not_map, getLsbD_eq_div_mod]
  rfl
theorem countOnes_eq (x : Word) :
    countOnes x = BitVec.ofNat 64 ((List.range 64).map (fun i => x.toNat / 2 ^ i % 2)).sum := by
  have bit (i : Nat) : (x.getLsbD i).toNat = x.toNat / 2 ^ i % 2 := Nat.toNat_testBit ..
  simp only [countOnes, bitsUp, length_filter_id_map, bit]
  rfl
/-- The highest bit of a word that is set is the one that its logarithm names. -/
theorem countLead_eq (x : Word) :
    countLead x = BitVec.ofNat 64 (if x = 0#64 then 64 else 63 - Nat.log2 x.toNat) := by
  rw [countLead, bitsDown, length_takeWhile_not_map, word]
  congr 1
  split
  next zero => subst zero; decide
  next nonzero =>
    have some_bit : x.toNat ≠ 0 := fun h => nonzero (BitVec.eq_of_toNat_eq h)
    have top : x.toNat.log2 < 64 := (Nat.log2_lt some_bit).mpr x.isLt
    refine (List.findIdx_eq (by simp; omega)).mpr ⟨?_, fun j below => ?_⟩
    · rw [List.getElem_range, show 63 - (63 - x.toNat.log2) = x.toNat.log2 by omega]
      exact Nat.testBit_log2 some_bit
    · rw [List.getElem_range]
      refine Nat.testBit_lt_two_pow (Nat.lt_of_lt_of_le Nat.lt_log2_self ?_)
      exact Nat.pow_le_pow_right (by decide) (by omega)

/-- Bytes in descending order hold the number whose digits they are in ascending order. -/
theorem ofBytes_append (xs : List Byte) (b : Byte) : ofBytes (xs ++ [b]) = ofBytes xs + 256 ^ xs.length * b.toNat := by
  induction xs with
  | nil => simp [ofBytes]
  | cons x xs ih => simp only [List.cons_append, ofBytes, ih, List.length_cons]; ring
theorem ofBytes_reverse_toBytes (n v : Nat) :
    ofBytes (toBytes n v).reverse = ((List.range n).map (fun i => v / 256 ^ i % 256 * 256 ^ (n - 1 - i))).sum := by
  induction n generalizing v with
  | zero => rfl
  | succ n ih =>
    have shifted : ∀ i ∈ List.range n, v / 256 / 256 ^ i % 256 * 256 ^ (n - 1 - i)
        = v / 256 ^ (i + 1) % 256 * 256 ^ (n - (i + 1)) := fun i _ => by
      rw [Nat.div_div_eq_div_mul, ← Nat.pow_succ', show n - 1 - i = n - (i + 1) by omega]
    rw [toBytes, List.reverse_cons, ofBytes_append, ih, List.length_reverse, length_toBytes, List.range_succ_eq_map,
      List.map_cons, List.map_map, List.sum_cons, List.map_congr_left shifted]
    simp [Function.comp_def, Nat.add_comm, Nat.mul_comm]
theorem swapBytes_eq (x : Word) :
    swapBytes x = BitVec.ofNat 64 ((List.range 8).map (fun i => x.toNat / 256 ^ i % 256 * 256 ^ (7 - i))).sum := by
  rw [swapBytes, ofBytes_reverse_toBytes, word]

theorem sextN_toNat (w : Nat) (x : Word) : sextN w x.toNat = (x.setWidth w).signExtend 64 := by
  rw [sextN, BitVec.ofNat_toNat]
theorem zeroExtend_eq (x : Word) : word (fieldOf x 0 32) = (x.setWidth 32).setWidth 64 := by
  apply BitVec.eq_of_toNat_eq
  simp [word, fieldOf, bitsOf]

/-! Fields and addresses (R124, R125). -/

/-- The width of the field that operand B names, cut at bit 63. -/
def cutWidth (y : Word) : Nat := min (y.toNat / 2 ^ 8 % 64 + 1) (64 - y.toNat % 64)

theorem fieldPos_eq (y : Word) : fieldPos y = y.toNat % 64 := amount_eq y
theorem cut_fieldWidth (y : Word) : min (fieldWidth y) (64 - fieldPos y) = cutWidth y := by
  rw [fieldPos_eq]; rfl
theorem fieldU_cut (x y : Word) :
    fieldU x (fieldPos y) (fieldWidth y) = BitVec.ofNat 64 (x.toNat / 2 ^ (y.toNat % 64) % 2 ^ cutWidth y) := by
  rw [fieldU, cut_fieldWidth, fieldPos_eq]; rfl
theorem fieldS_cut (x y : Word) : fieldS x (fieldPos y) (fieldWidth y) =
    BitVec.ofInt 64 (Int.bmod (x.toNat / 2 ^ (y.toNat % 64) % 2 ^ cutWidth y : Nat) (2 ^ cutWidth y)) := by
  rw [fieldS, cut_fieldWidth, fieldPos_eq, sextN, BitVec.signExtend, BitVec.toInt_ofNat']; rfl
/-- A bit of a word with a field inserted comes from the low bits of the value within the field. -/
theorem getLsbD_fieldInsert (c x y : Word) {i : Nat} (low : i < 64) :
    (fieldInsert c x (fieldPos y) (fieldWidth y)).getLsbD i =
      if y.toNat % 64 ≤ i ∧ i < y.toNat % 64 + cutWidth y then x.getLsbD (i - y.toNat % 64) else c.getLsbD i := by
  rw [fieldInsert, cut_fieldWidth, fieldPos_eq, word, BitVec.getLsbD_ofNat, testBit_putBits, decide_eq_true low, Bool.true_and]
  by_cases below : i < y.toNat % 64
  · rw [if_pos below, if_neg (by omega)]; rfl
  · by_cases within : i < y.toNat % 64 + cutWidth y
    · rw [if_neg below, if_pos within, if_pos (by omega)]; rfl
    · rw [if_neg below, if_neg within, if_neg (by omega)]; rfl

theorem lea_sum (x y z : Word) (n : Nat) : x + y * word n + z = BitVec.ofNat 64 (x.toNat + y.toNat * n + z.toNat) := by
  apply BitVec.eq_of_toNat_eq
  simp [word]

/-- An address formed from two registers and the displacement (R125). -/
theorem exec_lea_writes {i : Instr} {s : State} {m : Mods} {d a b : BitVec 5} {n : Nat} (run : exec i s = s.lea n d a b m)
    (ready : s.Ready m 0 { src := [a, b], dst := [d] }) :
    ∃ t, exec i s = .next t ∧ s.keepsThread t ∧
      s.regResult t m a b d (BitVec.ofNat 64 ((s.gpr a).toNat + (s.gpr b).toNat * n + (m.w2.signExtend 64).toNat)) := by
  rw [run, ← lea_sum]
  exact State.issue_writes ready a b d _

/-! Compares (R126). -/

/-- An instruction that compares its source with an immediate, and one that compares it with a register, write what their
function of the two operands gives. -/
theorem exec_compares {immediate : BitVec 3 → BitVec 5 → BitVec 14 → Mods → Instr}
    {register : BitVec 3 → BitVec 5 → BitVec 5 → Mods → Instr} {f g : Word → Word → Bool}
    (runImm : ∀ p a i m s, exec (immediate p a i m) s = s.cmpImm f p a i m)
    (runReg : ∀ p a b m s, exec (register p a b m) s = s.cmpReg f p a b m) (same : ∀ x y, f x y = g x y) :
    (∀ (p : BitVec 3) (a : BitVec 5) (i : BitVec 14) (m : Mods) (s : State), s.Ready m 0 { src := [a] } →
      ∃ t, exec (immediate p a i m) s = .next t ∧ s.keepsThreadPred t ∧
        s.predResult t m a 27#5 p (g (s.gpr a) (imm32 i m))) ∧
    (∀ (p : BitVec 3) (a b : BitVec 5) (m : Mods) (s : State), s.Ready m 0 { src := [a, b] } →
      ∃ t, exec (register p a b m) s = .next t ∧ s.keepsThreadPred t ∧ s.predResult t m a b p (g (s.gpr a) (s.gpr b))) := by
  refine ⟨fun p a i m s ready => ?_, fun p a b m s ready => ?_⟩
  · rw [runImm, ← same]
    exact State.issue_setsPred ready a 27#5 p _
  · rw [runReg, ← same]
    exact State.issue_setsPred ready a b p _

theorem bne_eq_decide (x y : Word) : (x != y) = decide (x ≠ y) := (decide_not ..).symm

end Sys2Proof.Machine
end

section
/-! PROOF. Integer instructions, fields, addresses and compares. -/

namespace Sys2Proof.Proofs

open Sys2Proof Sys2Proof.Machine

/-- Settles O1: each function is that of its one or two sources, which the completion writes. -/
theorem integerResults : Obligations.IntegerResults := by
  unfold Obligations.IntegerResults
  simp only [List.forall_mem_cons, List.not_mem_nil, false_imp_iff, implies_true, and_true]
  refine ⟨⟨?_, ?_, ?_, ?_, ?_, ?_, ?_, ?_, ?_, ?_, ?_, ?_, ?_, ?_, ?_, ?_, ?_, ?_⟩, ?_, ?_, ?_, ?_, ?_, ?_, ?_, ?_, ?_⟩
  · exact fun _ _ _ _ _ _ ready => exec_intOp_writes (exec_add ..) ready rfl
  · exact fun _ _ _ _ _ _ ready => exec_intOp_writes (exec_sub ..) ready rfl
  · exact fun _ _ _ _ _ _ ready => exec_intOp_writes (exec_mul ..) ready rfl
  · exact fun _ _ _ _ _ _ ready => exec_intOp_writes (exec_mulh ..) ready rfl
  · exact fun _ _ _ _ _ _ ready => exec_intOp_writes (exec_mulhu ..) ready rfl
  · exact fun _ _ _ _ _ _ ready => exec_intOp_writes (exec_and ..) ready rfl
  · exact fun _ _ _ _ _ _ ready => exec_intOp_writes (exec_or ..) ready rfl
  · exact fun _ _ _ _ _ _ ready => exec_intOp_writes (exec_xor ..) ready rfl
  · exact fun _ _ _ _ _ _ ready => exec_intOp_writes (exec_andn ..) ready rfl
  · exact fun _ _ _ _ _ _ ready => exec_intOp_writes (exec_shl ..) ready (shl_amount ..)
  · exact fun _ _ _ _ _ _ ready => exec_intOp_writes (exec_shr ..) ready (shr_amount ..)
  · exact fun _ _ _ _ _ _ ready => exec_intOp_writes (exec_sar ..) ready (sar_amount ..)
  · exact fun _ _ _ _ _ _ ready => exec_intOp_writes (exec_rol ..) ready (rotateLeft_amount ..)
  · exact fun _ _ _ _ _ _ ready => exec_intOp_writes (exec_ror ..) ready (rotateRight_amount ..)
  · exact fun _ _ _ _ _ _ ready => exec_intOp_writes (exec_min ..) ready (minS_eq ..)
  · exact fun _ _ _ _ _ _ ready => exec_intOp_writes (exec_max ..) ready (maxS_eq ..)
  · exact fun _ _ _ _ _ _ ready => exec_intOp_writes (exec_minu ..) ready (minU_eq ..)
  · exact fun _ _ _ _ _ _ ready => exec_intOp_writes (exec_maxu ..) ready (maxU_eq ..)
  · exact fun _ _ _ _ ready => exec_unary_writes (exec_mov ..) ready rfl
  · exact fun _ _ _ _ ready => exec_unary_writes (exec_clz ..) ready (countLead_eq _)
  · exact fun _ _ _ _ ready => exec_unary_writes (exec_ctz ..) ready (countTrail_eq _)
  · exact fun _ _ _ _ ready => exec_unary_writes (exec_popc ..) ready (countOnes_eq _)
  · exact fun _ _ _ _ ready => exec_unary_writes (exec_bswap ..) ready (swapBytes_eq _)
  · exact fun _ _ _ _ ready => exec_unary_writes (exec_sxb ..) ready (sextN_toNat 8 _)
  · exact fun _ _ _ _ ready => exec_unary_writes (exec_sxh ..) ready (sextN_toNat 16 _)
  · exact fun _ _ _ _ ready => exec_unary_writes (exec_sxw ..) ready (sextN_toNat 32 _)
  · exact fun _ _ _ _ ready => exec_unary_writes (exec_zxw ..) ready (zeroExtend_eq _)

/-- Settles O2: a field and an address are functions of their sources; an inserted field gives its bits. -/
theorem fieldAndAddressResults : Obligations.FieldAndAddressResults := by
  unfold Obligations.FieldAndAddressResults
  simp only [List.forall_mem_cons, List.not_mem_nil, false_imp_iff, implies_true, and_true]
  refine ⟨⟨?_, ?_⟩, ?_, ?_, ?_, ?_, ?_⟩
  · exact fun _ _ _ _ _ _ ready => exec_intOp_writes (exec_bfxReg ..) ready (fieldS_cut ..)
  · exact fun _ _ _ _ _ _ ready => exec_intOp_writes (exec_bfxuReg ..) ready (fieldU_cut ..)
  · intro d a b imm m s ready
    obtain ⟨t, run, keeps, result⟩ := State.issue_writes ready a b d
      (fieldInsert (s.gpr m.rc) (s.gpr a) (fieldPos (s.opB b imm m)) (fieldWidth (s.opB b imm m)))
    exact ⟨t, _, (exec_bfi ..).trans run, keeps, result, fun i low => getLsbD_fieldInsert _ _ _ low⟩
  · exact fun _ _ _ _ _ ready => exec_lea_writes (exec_lea1 ..) ready
  · exact fun _ _ _ _ _ ready => exec_lea_writes (exec_lea2 ..) ready
  · exact fun _ _ _ _ _ ready => exec_lea_writes (exec_lea4 ..) ready
  · exact fun _ _ _ _ _ ready => exec_lea_writes (exec_lea8 ..) ready

/-- Settles O4: each compare is one function of the source and of the immediate or the other register. -/
theorem integerCompareResults : Obligations.IntegerCompareResults := by
  unfold Obligations.IntegerCompareResults
  simp only [List.forall_mem_cons, List.not_mem_nil, false_imp_iff, implies_true, and_true, ← imm32_eq]
  refine ⟨?_, ?_, ?_, ?_, ?_, ?_, ?_, ?_, ?_, ?_, ?_, ?_⟩
  · exact exec_compares exec_cmpEqImm exec_cmpEq (fun _ _ => rfl)
  · exact exec_compares exec_cmpNeImm exec_cmpNe (fun x y => bne_eq_decide x y)
  · exact exec_compares exec_cmpLtImm exec_cmpLt (fun _ _ => rfl)
  · exact exec_compares exec_cmpLeImm exec_cmpLe (fun _ _ => rfl)
  · exact exec_compares exec_cmpGtImm exec_cmpGt (fun _ _ => rfl)
  · exact exec_compares exec_cmpGeImm exec_cmpGe (fun _ _ => rfl)
  · exact exec_compares exec_cmpLtuImm exec_cmpLtu (fun _ _ => rfl)
  · exact exec_compares exec_cmpLeuImm exec_cmpLeu (fun _ _ => rfl)
  · exact exec_compares exec_cmpGtuImm exec_cmpGtu (fun _ _ => rfl)
  · exact exec_compares exec_cmpGeuImm exec_cmpGeu (fun _ _ => rfl)
  · exact exec_compares exec_cmpTstImm exec_cmpTst (fun x y => bne_eq_decide (x &&& y) 0#64)
  · exact exec_compares exec_cmpTstzImm exec_cmpTstz (fun _ _ => rfl)

end Sys2Proof.Proofs
end

section
/-! SUPPORT. Instructions that change the executing thread alone, once they have completed. -/

namespace Sys2Proof.Machine

/-- What a completed instruction that then changes its thread, and no register of it, leaves. -/
theorem State.complete_modCur (s : State) (m : Mods) (a b : BitVec 5) (f : Thread → Thread)
    (regs : (f (s.done m a b)).sameRegs (s.done m a b)) (pc : (f (s.done m a b)).pc = (s.done m a b).pc) :
    let t := ((s.consume m a b).advance m).modCur f
    t.cur = f (s.done m a b) ∧ s.advances t m a b 27#5 ∧ s.keepsMachine t ∧ s.keepsMsgs t := by
  intro t
  have now : t = s.putThread s.uid (f (s.done m a b)) := by
    simp only [t]
    rw [State.consume_advance]
    exact s.modCur_putThread _ f
  have others (u : Nat) (other : u ≠ s.uid) : t.threadAt u = s.threadAt u := by
    rw [now, State.threadAt_putThread, if_neg other]
  have thread : t.threadAt s.uid = f (s.done m a b) := by rw [now, State.threadAt_putThread_self]
  refine ⟨by rw [now, State.cur_putThread], ?_, ⟨others, by rw [now]; rfl⟩, by rw [now]; exact ⟨rfl, rfl, rfl, rfl⟩⟩
  exact State.advances_of_cur (.of_sameRegs regs pc) (by rw [now]; rfl) (by rw [now]; rfl) (by rw [now]; rfl) thread others

/-- A later change of the executing thread that leaves its registers and predicates leaves the effect on the predicates. -/
theorem State.predResult_modCur {s t : State} {m : Mods} {a b : BitVec 5} {p : BitVec 3} {v : Bool} (f : Thread → Thread)
    (h : s.predResult t m a b p v) (uid : t.uid = s.uid) (regs : (f t.cur).sameRegs t.cur) (pc : (f t.cur).pc = t.cur.pc)
    (pred : (f t.cur).pred = t.cur.pred) : s.predResult (t.modCur f) m a b p v := by
  obtain ⟨takes, keepsPreds, advanced, keeps, empties, ⟨others, machine⟩, msgs⟩ := h
  have getPred (q : BitVec 3) : (t.modCur f).cur.getPred q = t.cur.getPred q := by
    rw [State.cur_modCur, Thread.getPred, pred, Thread.getPred]
  have gpr (r : BitVec 5) (not_pc : r ≠ 31#5) : (t.modCur f).gpr r = t.gpr r := by
    rw [State.gpr_def, State.gpr_def, State.cur_modCur]
    exact Thread.gpr_congr regs _ _ (toNat_ne_of_ne not_pc)
  have fe (r : Nat) : (t.modCur f).cur.fe r = t.cur.fe r := by
    rw [State.cur_modCur]
    exact Thread.fe_congr regs.1 r
  refine ⟨fun named => ?_, fun q other => ?_, ?_, fun r h1 h2 h3 => ?_, fun r h1 h2 h3 => ?_, ⟨fun u other => ?_, machine⟩, msgs⟩
  · rw [getPred, takes named]
  · rw [getPred, keepsPreds q other]
  · rw [State.cur_modCur, pc, advanced]
  · rw [gpr r h3, fe]
    exact keeps r h1 h2 h3
  · rw [fe]
    exact empties r h1 h2 h3
  · rw [State.threadAt_modCur, uid, if_neg other]
    exact others u other

end Sys2Proof.Machine
end

section
/-! PROOF. Predicate logic. -/

namespace Sys2Proof.Proofs

open Sys2Proof Sys2Proof.Machine

/-- Bit 0 of what `prd` writes is set, and every other bit is its predicate (R127). -/
theorem getLsbD_prd (x : Thread) (p : BitVec 3) : (word (putBits x.pred.toNat 0 1 1)).getLsbD p.toNat = x.getPred p := by
  have low : p.toNat < 64 := by omega
  rw [word, BitVec.getLsbD_ofNat, testBit_putBits, decide_eq_true low, Bool.true_and, Thread.getPred]
  by_cases p0 : p = 0#3
  · subst p0; rfl
  · have above : ¬ p.toNat < 0 + 1 := fun h => p0 (BitVec.eq_of_toNat_eq (by simp; omega))
    rw [if_neg (Nat.not_lt_zero _), if_neg above, beq_eq_false_iff_ne.mpr p0, Bool.false_or]
    rfl

/-- The bits that `pwr` takes for the predicates beside p0 (R127). -/
theorem getLsbD_pwr (w : Word) (x : BitVec 8) {p : BitVec 3} (named : p ≠ 0#3) :
    (BitVec.ofNat 8 (fieldOf w 1 7 * 2 + x.toNat % 2)).getLsbD p.toNat = w.getLsbD p.toNat := by
  obtain ⟨k, hk⟩ : ∃ k, p.toNat = k + 1 :=
    Nat.exists_eq_succ_of_ne_zero fun h => named (BitVec.eq_of_toNat_eq h)
  have small : k < 7 := by have := p.isLt; omega
  have bit : (fieldOf w 1 7 * 2 + x.toNat % 2) / 2 = fieldOf w 1 7 := by omega
  rw [BitVec.getLsbD_ofNat, hk, decide_eq_true (by omega), Bool.true_and, Nat.testBit_succ, bit, fieldOf, testBit_bitsOf,
    decide_eq_true small, Bool.true_and, Nat.add_comm]
  rfl

/-- A predicate from two predicates. -/
theorem exec_predOp_sets {i : Instr} {s : State} {m : Mods} {f : Bool → Bool → Bool} {d a b : BitVec 3}
    (run : exec i s = s.predOp f d a b m) (ready : s.Ready m 0 {}) :
    ∃ t, exec i s = .next t ∧ s.keepsThreadPred t ∧
      s.predResult t m 27#5 27#5 d (f (s.cur.getPred a) (s.cur.getPred b)) := by
  rw [run]
  exact State.issue_setsPred ready 27#5 27#5 d _

/-- Settles O5: predicates from predicates, and the bits that `prd` and `pwr` move. -/
theorem predicateLogicResults : Obligations.PredicateLogicResults := by
  unfold Obligations.PredicateLogicResults
  simp only [List.forall_mem_cons, List.not_mem_nil, false_imp_iff, implies_true, and_true]
  refine ⟨⟨?_, ?_, ?_, ?_⟩, fun d a m s ready => ⟨?_, ?_⟩, fun s => rfl, fun d m s ready => ?_, fun a m s ready => ?_⟩
  · exact fun _ _ _ _ _ => exec_predOp_sets (exec_pand ..)
  · exact fun _ _ _ _ _ => exec_predOp_sets (exec_por ..)
  · exact fun _ _ _ _ _ => exec_predOp_sets (exec_pxor ..)
  · exact fun _ _ _ _ _ => exec_predOp_sets (exec_pandn ..)
  · exact exec_predOp_sets (exec_pnot ..) ready
  · exact exec_predOp_sets (exec_pmov ..) ready
  · obtain ⟨t, run, keeps, result⟩ := State.issue_writes ready 27#5 27#5 d (word (putBits s.cur.pred.toNat 0 1 1))
    refine ⟨t, _, (exec_prd ..).trans run, keeps, result, ?_, getLsbD_prd s.cur⟩
    have small := s.cur.pred.isLt
    simp only [word, putBits, BitVec.toNat_ofNat]
    omega
  · obtain ⟨cur, ⟨⟨pc, keeps, empties, -⟩, -⟩, machine, msgs⟩ := s.complete_modCur m a 27#5
      (fun x => { x with pred := BitVec.ofNat 8 (fieldOf (s.gpr a) 1 7 * 2 + x.pred.toNat % 2) })
      ⟨rfl, rfl, rfl, rfl, rfl, rfl⟩ rfl
    refine ⟨_, (exec_pwr ..).trans (s.issue_ready m 0 _ _ ready), ?_, keeps, empties, machine, msgs, pc, fun p named => ?_⟩
    · rw [State.keepsThreadPred, cur, State.done_eq]
    · rw [cur, Thread.getPred, beq_eq_false_iff_ne.mpr named, Bool.false_or]
      exact getLsbD_pwr _ _ named

end Sys2Proof.Proofs
end

section
/-! SUPPORT. The completion of the scalar float instructions outside the divide unit: results, flags and seed. -/

namespace Sys2Proof.Machine

/-- The flags of an instruction enter FSTAT, and its seed steps where it rounds stochastically (R129, R236). -/
def Thread.floatDone (t : Thread) (fl : Flags) (stochastic : Bool) : Thread :=
  Thread.stepSeed { t with fstat := t.fstat ||| fl } stochastic

theorem Thread.floatDone_eq (t : Thread) (fl : Flags) (c : Bool) :
    t.floatDone fl c = { t with fstat := t.fstat ||| fl, srseed := if c = true then t.srseed + 1#64 else t.srseed } := by
  cases c <;> rfl
theorem Thread.floatDone_sameRegs (t : Thread) (fl : Flags) (c : Bool) : (t.floatDone fl c).sameRegs t := by
  rw [Thread.floatDone_eq]
  exact ⟨rfl, rfl, rfl, rfl, rfl, rfl⟩
theorem State.floatDone_eq_modCur (s : State) (m : Mods) (rounds : Bool) (fl : Flags) :
    s.floatDone m rounds fl = s.modCur (·.floatDone fl (rounds && s.mode m == 5)) :=
  State.bumpSeed_putThread s { s.cur with fstat := s.cur.fstat ||| fl } (rounds && s.mode m == 5)

/-- What keeps a thread keeps its float state. -/
theorem State.keepsThread.float {s t : State} (h : s.keepsThread t) :
    t.cur.fctl = s.cur.fctl ∧ t.cur.fstat = s.cur.fstat ∧ t.cur.srseed = s.cur.srseed := by
  have e := congrArg (fun x : Thread => (x.fctl, x.fstat, x.srseed)) h
  simpa using e
theorem State.keepsThreadPred.fstat {s t : State} (h : s.keepsThreadPred t) : t.cur.fstat = s.cur.fstat := by
  have e := congrArg Thread.fstat h
  exact e

section
variable {s t : State} {m : Mods} {a b : BitVec 5} (uid : t.uid = s.uid)
include uid

/-- Flags and seed beside the effect on the registers. -/
theorem State.floatDone_floatResult {d : BitVec 5} {r : FRes} (result : s.regResult t m a b d (word r.1))
    (keeps : s.keepsThread t) (rounds : Bool) : s.floatResult (t.floatDone m rounds r.2) m a b d rounds r := by
  obtain ⟨fctl, fstat, srseed⟩ := keeps.float
  have mode : t.mode m = s.mode m := by rw [State.mode, Thread.rmode, fctl]; rfl
  rw [State.floatDone_eq_modCur]
  refine ⟨State.regResult_modCur _ result uid (Thread.floatDone_sameRegs ..) (by rw [Thread.floatDone_eq]), ?_, ?_, ?_⟩
  · rw [State.cur_modCur, Thread.floatDone_eq, fstat]
  · rw [State.cur_modCur, Thread.floatDone_eq, srseed, mode]
    simp
  · rw [State.keepsThreadFp, State.cur_modCur, Thread.floatDone_eq]
    exact congrArg (fun x : Thread => { x with fstat := s.cur.fstat, srseed := s.cur.srseed }) keeps

/-- Flags beside the effect on the predicates. -/
theorem State.floatDone_predResult {p : BitVec 3} {v : Bool} (result : s.predResult t m a b p v)
    (keeps : s.keepsThreadPred t) (fl : Flags) :
    s.predResult (t.floatDone m false fl) m a b p v ∧ s.keepsThreadFcmp (t.floatDone m false fl) ∧
      (t.floatDone m false fl).cur.fstat = s.cur.fstat ||| fl := by
  rw [State.floatDone_eq_modCur]
  refine ⟨State.predResult_modCur _ result uid (Thread.floatDone_sameRegs ..) (by rw [Thread.floatDone_eq])
    (by rw [Thread.floatDone_eq]), ?_, ?_⟩
  · rw [State.keepsThreadFcmp, State.cur_modCur]
    exact congrArg (fun x : Thread => { x with fstat := s.cur.fstat }) keeps
  · rw [State.cur_modCur, Thread.floatDone_eq, keeps.fstat]
end

/-- A ready float instruction that writes a general register completes with its result (R129, R133, R236). -/
theorem State.fpOut_writes {s : State} {m : Mods} {d : BitVec 5} {sources : List (BitVec 5)}
    (ready : s.Ready m 0 { src := sources, dst := [d] }) (a b : BitVec 5) (rounds : Bool) (r : FRes) :
    ∃ t, s.fpOut m d a b sources rounds r = .next t ∧ s.floatResult t m a b d rounds r := by
  obtain ⟨result, keeps⟩ := s.complete_writes m a b d (word r.1)
  obtain ⟨uid, -⟩ := s.complete_writes_uid m a b d (word r.1)
  exact ⟨_, s.issue_ready m 0 _ _ ready, State.floatDone_floatResult uid result keeps rounds⟩

/-- A ready float compare completes with its predicate and its flags (R135). -/
theorem State.fpCmp_sets {s : State} {m : Mods} {a b : BitVec 5} (ready : s.Ready m 0 { src := [a, b] }) (cc : Nat) (w : Bool)
    (p : BitVec 3) :
    let r := fcmp cc (s.fpArg w a) (s.fpArg w b)
    ∃ t, s.fpCmp cc w p a b m = .next t ∧ s.predResult t m a b p r.1 ∧ s.keepsThreadFcmp t ∧
      t.cur.fstat = s.cur.fstat ||| r.2 := by
  intro r
  obtain ⟨result, keeps⟩ := s.complete_setPred m a b p r.1
  have uid : (((s.consume m a b).advance m).setPred p r.1).uid = s.uid := by rw [State.consume_advance]; rfl
  exact ⟨_, s.issue_ready m 0 _ _ ready, State.floatDone_predResult uid result keeps r.2⟩

/-! What an instruction rounds with. -/

theorem State.mode_eq (s : State) (m : Mods) :
    s.mode m = if m.round = 0#3 then s.cur.fctl.toNat % 8 else m.round.toNat := by
  simp [State.mode, Thread.rmode, bitsOf]
/-- Bit 3 of FCTL is ftz (R128). -/
theorem Thread.ftz_eq (t : Thread) : t.ftz = t.fctl.getLsbD 3 := by
  rw [Thread.ftz, bitOf_eq_testBit, BitVec.getLsbD]
theorem State.fenv_eq (s : State) (m : Mods) : s.fenv m 0 =
    { mode := s.mode m, daz := s.cur.fctl.getLsbD 4, ftz := s.cur.fctl.getLsbD 3,
      draw := if s.mode m = 5 then drawOf s.cur.srseed.toNat 0 else 0 } := by
  simp [State.fenv, Thread.daz_eq, Thread.ftz_eq]

/-! Compares. -/

/-- Of two values at most one is below the other. -/
theorem FVal.not_lt_of_lt {x y : FVal} (h : x.lt y = true) : y.lt x = false := by
  cases x with
  | nan => cases y <;> simp_all [FVal.lt]
  | inf a => cases y <;> cases a <;> simp_all [FVal.lt]
  | fin a m e =>
    cases y with
    | nan => simp [FVal.lt] at h
    | inf b => simpa [FVal.lt] using h
    | fin b n k =>
      simp only [FVal.lt, decide_eq_true_eq, decide_eq_false_iff_not, not_lt, min_comm k e] at h ⊢
      exact h.le
/-- Two numbers of which the second is not below are the first below, or equal. -/
theorem FVal.le_eq (x y : FVal) :
    (!(x.isNan || y.isNan) && !y.lt x) = (!x.isNan && !y.isNan && (x.lt y || x.eqNum y)) := by
  cases below : x.lt y
  · cases nx : x.isNan <;> cases ny : y.isNan <;> simp [FVal.eqNum, below, nx, ny]
  · simp [FVal.not_lt_of_lt below]

/-- Flags enter FSTAT where their condition holds. -/
theorem or_flagIf (x fl : Flags) (c : Bool) : x ||| flagIf c fl = if c = true then x ||| fl else x := by
  cases c <;> simp [flagIf]

theorem FVal.isNan_of_isSnan {x : FVal} (h : x.isSnan = true) : x.isNan = true := by
  cases x <;> simp_all [FVal.isSnan, FVal.isNan]

end Sys2Proof.Machine
end

section
/-! PROOF. Scalar float instructions. -/

namespace Sys2Proof.Proofs

open Sys2Proof Sys2Proof.Machine

theorem exec_fpOut_writes {i : Instr} {s : State} {m : Mods} {a b d : BitVec 5} {sources : List (BitVec 5)} {rounds : Bool}
    {r : FRes} (run : exec i s = s.fpOut m d a b sources rounds r) (ready : s.Ready m 0 { src := sources, dst := [d] }) :
    ∃ t, exec i s = .next t ∧ s.floatResult t m a b d rounds r := by
  rw [run]
  exact State.fpOut_writes ready a b rounds r

/-- Settles O6: each instruction is a function of its operands and of what it rounds with, and its completion enters the
result, the flags and the seed. -/
theorem floatArithmeticResults : Obligations.FloatArithmeticResults := by
  unfold Obligations.FloatArithmeticResults
  intro w d a b m s f x mode e
  have arg (r : BitVec 5) : x r = s.fpArg w r := (s.fpArg_eq w r).symm
  have rounding : e = s.fenv m 0 := by rw [State.fenv_eq, State.mode_eq]
  have daz : s.cur.fctl.getLsbD 4 = s.cur.daz := (Thread.daz_eq _).symm
  rw [rounding, arg, arg, arg, daz]
  refine ⟨fun ready => ⟨?_, ?_, ?_, ?_, ?_⟩, fun ready => ⟨?_, ?_⟩, fun ready => ?_⟩
  · exact exec_fpOut_writes (exec_fadd ..) ready
  · exact exec_fpOut_writes (exec_fsub ..) ready
  · exact exec_fpOut_writes (exec_fmul ..) ready
  · exact exec_fpOut_writes (exec_fmin ..) ready
  · exact exec_fpOut_writes (exec_fmax ..) ready
  · exact exec_fpOut_writes (exec_fma ..) ready
  · exact exec_fpOut_writes (exec_fnma ..) ready
  · obtain ⟨t, run, result⟩ := exec_fpOut_writes (exec_fcvt d a m s) ready
    refine ⟨t, _, run, result, rfl, fun n signed => ?_, fun other => ?_⟩
    · simp only [signed]
      exact BitVec.ofNat_toNat ..
    · dsimp only
      split
      next n signed => exact absurd signed (other n)
      next => rfl

/-- What a float compare writes, with the flag that it raises. -/
theorem exec_fpCmp_sets {i : Instr} {s : State} {m : Mods} {w : Bool} {p : BitVec 3} {a b : BitVec 5} {cc : Nat}
    (run : exec i s = s.fpCmp cc w p a b m) (ready : s.Ready m 0 { src := [a, b] }) {v c : Bool}
    (gives : fcmp cc (s.fpArg w a) (s.fpArg w b) = (v, flagIf c nv)) {P : Prop} [Decidable P] (when : c = true ↔ P) :
    ∃ t, exec i s = .next t ∧ s.predResult t m a b p v ∧ s.keepsThreadFcmp t ∧
      t.cur.fstat = (if P then s.cur.fstat ||| 0x10#5 else s.cur.fstat) := by
  obtain ⟨t, done, result, keeps, fstat⟩ := State.fpCmp_sets ready cc w p
  rw [gives] at result fstat
  refine ⟨t, run.trans done, result, keeps, fstat.trans ?_⟩
  rw [or_flagIf]
  exact if_congr when rfl rfl

/-- Settles O8: each compare is a function of its operands, and the ordering ones raise nv for every NaN. -/
theorem floatCompareResults : Obligations.FloatCompareResults := by
  unfold Obligations.FloatCompareResults
  simp only [List.forall_mem_cons, List.not_mem_nil, false_imp_iff, implies_true, and_true, ← State.fpArg_eq]
  have quiet (x y : FVal) : (x.isSnan || y.isSnan) = true ↔
      x.isSnan = true ∨ y.isSnan = true ∨ (false = true ∧ (x.isNan = true ∨ y.isNan = true)) := by simp
  have ordering (x y : FVal) : (x.isNan || y.isNan) = true ↔
      x.isSnan = true ∨ y.isSnan = true ∨ (True ∧ (x.isNan = true ∨ y.isNan = true)) := by
    have := @FVal.isNan_of_isSnan x
    have := @FVal.isNan_of_isSnan y
    simp only [Bool.or_eq_true, true_and]
    tauto
  refine ⟨?_, ?_, ?_, ?_, ?_⟩
  · exact fun _ _ _ _ _ _ ready => exec_fpCmp_sets (exec_fcmpEq ..) ready rfl (quiet ..)
  · exact fun _ _ _ _ _ _ ready => exec_fpCmp_sets (exec_fcmpNe ..) ready rfl (quiet ..)
  · exact fun _ _ _ _ _ _ ready => exec_fpCmp_sets (exec_fcmpLt ..) ready (by rw [← Bool.not_or]; rfl) (ordering ..)
  · exact fun _ _ _ _ _ _ ready => exec_fpCmp_sets (exec_fcmpLe ..) ready (by rw [← FVal.le_eq]; rfl) (ordering ..)
  · exact fun _ _ _ _ _ _ ready => exec_fpCmp_sets (exec_fcmpUn ..) ready rfl (quiet ..)

end Sys2Proof.Proofs
end

section
/-! PROOF. A conversion that the encoding does not permit, of a NaN. -/

namespace Sys2Proof.Proofs

open Sys2Proof Sys2Proof.Machine

/-- Thread 1 stands in slot 0, whose turn it is, and its l1 holds the canonical quiet NaN of f32. -/
def quietNanThread : State :=
  { State.reset with
    threads := [(1, { Thread.blank with regs := [(1, ⟨0x7FC00000#64, .full⟩)], loc := .slot 0 })]
    slots := [(0, { Slot.blank with occ := some 1 })] }

/-- The format fields of a conversion from f32 to 8-bit integers, which R136 does not list and `fcvtOk` does not permit. -/
def toByte : Mods := { Mods.base with fmtA := 0x14#5, fmtB := 0x15#5 }

theorem quietNanThread_ready : quietNanThread.Ready toByte 0 { src := [1#5], dst := [3#5] } := by
  have l1 : quietNanThread.cur.fe 1 = .full := rfl
  have l3 : quietNanThread.cur.fe 3 = .full := rfl
  exact ⟨rfl, rfl, .inl rfl, by simp [State.operandsReady, l1, l3]⟩

/-- Refutes O7: its clause on `fcvt` speaks of every target format, and counts 32- and 64-bit integers alone as integer ones.
A quiet NaN converted to the 8-bit integer format of code 0x15 sets nv (R233), where the clause says that FSTAT stays. -/
theorem not_floatSignClassAndNaN : ¬ Obligations.FloatSignClassAndNaN := by
  unfold Obligations.FloatSignClassAndNaN
  rintro ⟨-, -, converts⟩
  obtain ⟨t, v, run, -, -, -, -, -, -, -, quiet⟩ :=
    converts 3#5 1#5 toByte quietNanThread f32 quietNanThread_ready rfl (by decide +kernel)
  have kept : t.cur.fstat = quietNanThread.cur.fstat := quiet (by decide +kernel) (by decide)
  have raised : (match exec (.fcvt 3#5 1#5 toByte) quietNanThread with
      | .next t => t.cur.fstat
      | _ => 0#5) = nv := by decide +kernel
  rw [show exec (.fcvt 3#5 1#5 toByte) quietNanThread = _ from run] at raised
  exact absurd (raised.symm.trans kept) (by decide +kernel)

end Sys2Proof.Proofs
end

section
/-! SUPPORT. What a control register reads (R95, R128, R333 to R336, R355, R402 to R406). -/

namespace Sys2Proof.Machine

/-- A control register is one whose number fits its field, and a read of it gives `f`. -/
def ReadsAs (k : Nat) (f : State → Word) : Prop := k < 1024 ∧ ∀ s : State, s.kregRead k = f s

/-- A set bit of a word as a number. -/
theorem bitWord_eq (n : Nat) (b : Bool) : bitWord n b = if b = true then 2 ^ n else 0 := by
  cases b <;> simp [bitWord]

theorem toNat_eq_ite (b : Bool) : b.toNat = if b = true then 1 else 0 := by cases b <;> rfl

theorem pinned_iff (t : Thread) : t.pinned = true ↔ t.depth ≠ 0 ∨ t.vpin = true := by
  simp [Thread.pinned]

theorem readsAs_slotid : ReadsAs 0x008 (fun s => BitVec.ofNat 64 ((if s.cur.depth ≠ 0 ∨ s.cur.vpin = true then 512 else 0) +
    (if s.cur.serial = true then 256 else 0) + (s.slotAt s.me).qowner % 16 * 16 + s.me % 16)) := by
  refine ⟨by decide, fun s => ?_⟩
  have read : s.kregRead 0x008 =
    word (bitWord 9 s.cur.pinned + bitWord 8 s.cur.serial + (s.slotAt s.me).qowner % 16 * 16 + s.me % 16) := rfl
  rw [read, bitWord_eq, bitWord_eq]
  simp only [pinned_iff]
  rfl
theorem readsAs_cluster : ReadsAs 0x00A (fun s => BitVec.ofNat 64 (s.me / 128 % 64)) := by
  refine ⟨by decide, fun s => ?_⟩
  have read : s.kregRead 0x00A = word (s.me / 16 / 8 % 64) := rfl
  rw [read, Nat.div_div_eq_div_mul, word]
theorem readsAs_die : ReadsAs 0x00B (fun s => BitVec.ofNat 64 (s.me / 8192)) := by
  refine ⟨by decide, fun s => ?_⟩
  have read : s.kregRead 0x00B = word (s.me / 16 / 512) := rfl
  rw [read, Nat.div_div_eq_div_mul, word]
theorem readsAs_ctxctl : ReadsAs 0x103 (fun s => BitVec.ofNat 64 ((if (s.funcAt s.cur.vfsel).prot = true then 128 else 0) +
    (s.funcAt s.cur.vfsel).det * 16 + (if s.funcActive s.cur.vfsel = true then 2 else 0) +
    (if (s.funcAt s.cur.vfsel).enable = true then 1 else 0))) := by
  refine ⟨by decide, fun s => ?_⟩
  have read : s.kregRead 0x103 = word (bitWord 7 (s.funcAt s.cur.vfsel).prot + (s.funcAt s.cur.vfsel).det * 16 +
    bitWord 1 (s.funcActive s.cur.vfsel) + (s.funcAt s.cur.vfsel).enable.toNat) := rfl
  rw [read, bitWord_eq, bitWord_eq, toNat_eq_ite]
  rfl
theorem readsAs_ansact : ReadsAs 0x10D (fun s => BitVec.ofNat 64 (s.cur.ansres * 2 ^ 62 +
    (if s.cur.setl0 = true then 4 else 0) + s.cur.ansact)) := by
  refine ⟨by decide, fun s => ?_⟩
  have read : s.kregRead 0x10D = word (s.cur.ansres * 2 ^ 62 + bitWord 2 s.cur.setl0 + s.cur.ansact) := rfl
  rw [read, bitWord_eq]
  rfl
theorem readsAs_pstat : ReadsAs 0x110 (fun s => BitVec.ofNat 64 (s.pkg.pstat.toNat % 2 ^ 63 +
    (if s.pkg.preempt.isSome = true then 2 ^ 63 else 0))) := by
  refine ⟨by decide, fun s => ?_⟩
  have read : s.kregRead 0x110 = word (putBits s.pkg.pstat.toNat 63 1 s.pkg.preempt.isSome.toNat) := rfl
  have high : s.pkg.pstat.toNat / 2 ^ 64 = 0 := Nat.div_eq_of_lt s.pkg.pstat.isLt
  rw [read, putBits, word, high, Nat.zero_mul, Nat.zero_add]
  cases running : s.pkg.preempt.isSome <;> simp [running, Nat.add_comm]
theorem readsAs_bootstat : ReadsAs 0x206 (fun s => BitVec.ofNat 64 ((if s.pkg.halt = true then 2 ^ 63 else 0) +
    s.pkg.haltStep * 2 ^ 32 + s.pkg.starts % 2 ^ 32)) := by
  refine ⟨by decide, fun s => ?_⟩
  have read : s.kregRead 0x206 = word (bitWord 63 s.pkg.halt + s.pkg.haltStep * 2 ^ 32 + s.pkg.starts % 2 ^ 32) := rfl
  rw [read, bitWord_eq, word]
theorem Duty.word_eq (d : Duty) : d.word = BitVec.ofNat 64 ((if d.draining = true then 2 ^ 63 else 0) +
    (if d.cur = true then 2 ^ 32 else 0) + (if d.req = true then 1 else 0)) := by
  rw [Duty.word, bitWord_eq, bitWord_eq, toNat_eq_ite]
  rfl

/-- A core's shapes and headers, and the duties, by their number. -/
theorem readsAs_tshape {i : Nat} (h : i < 8) : ReadsAs (0x010 + i) (fun s => (s.coreAt (s.me / 16)).tshape.get 0#64 i) := by
  interval_cases i <;> exact ⟨by decide, fun _ => rfl⟩
theorem readsAs_tmeta {i : Nat} (h : i < 8) : ReadsAs (0x018 + i) (fun s => (s.coreAt (s.me / 16)).tmeta.get 0#64 i) := by
  interval_cases i <;> exact ⟨by decide, fun _ => rfl⟩
theorem readsAs_duty {i : Nat} (h : i < 6) : ReadsAs (0x200 + i) (fun s => BitVec.ofNat 64
    ((if (s.dutyAt i).draining = true then 2 ^ 63 else 0) + (if (s.dutyAt i).cur = true then 2 ^ 32 else 0) +
      (if (s.dutyAt i).req = true then 1 else 0))) := by
  interval_cases i <;> exact ⟨by decide, fun s => Duty.word_eq _⟩

section
variable {k : Nat} {f : State → Word} (reads : ReadsAs k f) (d : BitVec 5) (m : Mods) (s : State)
include reads

theorem ReadsAs.number : (BitVec.ofNat 10 k).toNat = k := by
  rw [BitVec.toNat_ofNat, Nat.mod_eq_of_lt reads.1]

/-- A ready `krd` writes what its register reads (R140). -/
theorem exec_krd_reads (ready : s.Ready m (if 0x100 ≤ k then 2 else 0) { dst := [d] }) :
    ∃ t, exec (.krd d (BitVec.ofNat 10 k) m) s = .next t ∧ s.keepsThread t ∧ s.regResult t m 27#5 27#5 d (f s) := by
  rw [exec_krd, execKrd, reads.number, reads.2]
  exact State.issue_writes ready 27#5 27#5 d (f s)

/-- A `krd` of a privileged register at user level faults (R37, R324). -/
theorem exec_krd_denied (high : 0x100 ≤ k) (here : s.uid?.isSome = true) (guard : s.guardHolds m = true)
    (user : s.cur.vf ≠ 0) (may : s.mayFault) :
    ∃ t, exec (.krd d (BitVec.ofNat 10 k) m) s = .next t ∧ s.faultsEnd t fPRIV 2 0#64 := by
  have priv : kregPriv k = 2 := if_pos high
  rw [exec_krd, execKrd, reads.number, priv, s.issue_denied m 2 _ _ here guard (by decide) user]
  exact ⟨_, rfl, State.raise_faultsEnd 0#64 may rfl (by decide)⟩
end

end Sys2Proof.Machine
end

section
/-! PROOF. What krd reads. -/

namespace Sys2Proof.Proofs

open Sys2Proof Sys2Proof.Machine

/-- Settles O10: each register's number and what its read gives, once; then a `krd` of it writes that, or is denied. -/
theorem controlRegisterReads : Obligations.ControlRegisterReads := by
  unfold Obligations.ControlRegisterReads
  intro e listed d m s
  suffices reads : ReadsAs e.1 e.2 from ⟨exec_krd_reads reads d m s, exec_krd_denied reads d m s⟩
  revert e
  simp only [List.forall_mem_append, List.forall_mem_map, List.mem_range, List.forall_mem_cons, List.not_mem_nil,
    false_imp_iff, implies_true, and_true]
  refine ⟨⟨⟨⟨?_, ?_, readsAs_slotid, ?_, readsAs_cluster, readsAs_die, ?_, ?_, ?_, ?_, ?_, readsAs_ctxctl, ?_, ?_, ?_, ?_, ?_, ?_,
    ?_, ?_, ?_, readsAs_ansact, ?_, ?_, readsAs_pstat, ?_, ?_, readsAs_bootstat, ?_, ?_⟩, fun _ => readsAs_tshape⟩,
    fun _ => readsAs_tmeta⟩, fun _ => readsAs_duty⟩
  all_goals exact ⟨by decide, fun _ => rfl⟩

end Sys2Proof.Proofs
end

section
/-! PROOF. nop, fence, FSTAT and ADOPTMAX. -/

namespace Sys2Proof.Proofs

open Sys2Proof Sys2Proof.Machine

/-! fence (R260, R262). -/

/-- A fence with nothing outstanding empties the data cache at cluster scope or wider (R153). -/
theorem coreAt_acquireIssue (s : State) (wide : Bool) :
    (wide = true → ((s.acquireIssue wide).coreAt s.myCore).dcache.lines = []) ∧
    (wide = false → (s.acquireIssue wide).cores = s.cores) ∧
    ∀ c, c ≠ s.myCore → (s.acquireIssue wide).coreAt c = s.coreAt c := by
  cases wide
  case false => exact ⟨nofun, fun _ => rfl, fun _ _ => rfl⟩
  case true =>
    refine ⟨fun _ => ?_, nofun, fun c other => ?_⟩
    · rw [State.acquireIssue, if_pos rfl, State.emptyCache, State.staleFills, State.coreAt_mapReqs, State.coreAt_modCore_self]
      rfl
    · rw [State.acquireIssue, if_pos rfl, State.emptyCache, State.staleFills, State.coreAt_mapReqs, State.coreAt_modCore,
        if_neg other]

/-- What has been done of a fence before it marks its thread's boundary. -/
def fenced (s : State) (m : Mods) : State := ((s.consume m 27#5 27#5).advance m).acquireIssue (2 ≤ fenceScope m)

theorem fenced_ran (s : State) (m : Mods) : s.Ran (fenced s m) (s.done m 27#5 27#5) :=
  (State.Ran.consume_advance (.refl s)).beside (.acquireIssue _)
theorem fenced_keepsMsgs (s : State) (m : Mods) : s.keepsMsgs (fenced s m) := by
  rw [fenced, State.consume_advance]
  cases decide (2 ≤ fenceScope m) <;> exact ⟨rfl, rfl, rfl, rfl⟩
theorem coreAt_fenced (s : State) (m : Mods) :
    (2 ≤ fenceScope m → ((fenced s m).coreAt s.myCore).dcache.lines = []) ∧
    (fenceScope m < 2 → (fenced s m).cores = s.cores) ∧ ∀ c, c ≠ s.myCore → (fenced s m).coreAt c = s.coreAt c := by
  have effect := coreAt_acquireIssue ((s.consume m 27#5 27#5).advance m) (2 ≤ fenceScope m)
  rw [fenced]
  rw [State.consume_advance] at effect ⊢
  obtain ⟨empties, narrow, others⟩ := effect
  exact ⟨fun wide => empties (decide_eq_true wide), fun small => narrow (decide_eq_false (by omega)), others⟩

section
variable {s : State} {m : Mods} (ready : s.Ready m 0 {})
include ready

theorem exec_fence_waits (out : s.fenceReady s.uid = false) : exec (.fence m) s = s.await (.fence (fenceScope m)) := by
  rw [exec_fence, execFence, s.issue_ready m 0 _ _ ready, out]
  rfl

theorem exec_fence_completes (clear : s.fenceReady s.uid = true) :
    ∃ t, exec (.fence m) s = .next t ∧ s.advances t m 27#5 27#5 27#5 ∧ s.keepsMsgs t ∧
      (2 ≤ fenceScope m → (t.coreAt s.myCore).dcache.lines = []) ∧ (fenceScope m < 2 → t.cores = s.cores) ∧
      (∀ c, c ≠ s.myCore → t.coreAt c = s.coreAt c) ∧
      t.cur.boundary = if 4 ≤ fenceScope m then s.nextId else s.cur.boundary := by
  have completes : exec (.fence m) s = .next (if 4 ≤ fenceScope m
      then (fenced s m).modCur (fun x => { x with boundary := (fenced s m).nextId }) else fenced s m) := by
    rw [exec_fence, execFence, s.issue_ready m 0 _ _ ready, clear]
    rfl
  have ran := fenced_ran s m
  obtain ⟨msgs, bound, carried, nextId⟩ := fenced_keepsMsgs s m
  obtain ⟨empties, narrow, others⟩ := coreAt_fenced s m
  by_cases wide : 4 ≤ fenceScope m
  · rw [completes, if_pos wide, if_pos wide]
    have marked := ran.modCur (fun x => { x with boundary := (fenced s m).nextId })
    exact ⟨_, rfl, marked.advances (.withBoundary (.refl _ _) _), ⟨msgs, bound, carried, nextId⟩, empties, narrow, others,
      by rw [marked.cur_eq, nextId]⟩
  · rw [completes, if_neg wide, if_neg wide]
    exact ⟨_, rfl, ran.advances (.refl _ _), ⟨msgs, bound, carried, nextId⟩, empties, narrow, others,
      by rw [ran.cur_eq, State.done_eq]⟩
end

/-! FSTAT and ADOPTMAX (R139, R298). -/

theorem rsvSet_fstat (w : Word) : rsvSet kFSTAT w = true ↔ 32 ≤ w.toNat := by
  have high := w.isLt
  simp [rsvSet, kregRsv, kFSTAT, fieldOf, bitsOf]
  omega

/-- A `krd` that may have to wait reads once it need not. -/
theorem exec_krdWhen {i : Instr} {s : State} {m : Mods} {d : BitVec 5} {c : Bool} {w : Wait} {k : Nat}
    (run : exec i s = s.krdWhen (!c) w k d m) (ready : s.Ready m 0 { dst := [d] }) :
    (c = false → ∃ t, exec i s = .next t ∧ s.keepsThread t ∧ s.regResult t m 27#5 27#5 d (s.kregRead k)) ∧
    (c = true → ∃ t, exec i s = .next t ∧ t.cur.wait = w ∧ t.cur.pc = s.cur.pc) := by
  rw [run, State.krdWhen]
  refine ⟨fun clear => ?_, fun out => ?_⟩
  · rw [clear]
    exact State.issue_writes ready 27#5 27#5 d _
  · rw [out, s.issue_ready m 0 _ _ ready]
    obtain ⟨t, run, wait, pc, -⟩ := s.await_waits w
    exact ⟨t, run, wait, pc⟩

theorem kregRead_adoptmax (s : State) : s.kregRead kADOPTMAX =
    BitVec.ofNat 64 (s.cur.mdsup.toNat * 2 ^ 32 + (s.slotAt s.me).chain.length * 2 ^ 8 + s.cur.adoptMax) := rfl

section
variable {s : State} {m : Mods} {a : BitVec 5} (ready : s.Ready m 0 { src := [a] })
include ready

theorem exec_kwrFstat_waits (out : s.dividing s.uid = true) : exec (.kwrFstat a m) s = s.await .divided := by
  rw [exec_kwrFstat, execKwrFstat, s.issue_ready m 0 _ _ ready, if_pos out]
theorem exec_kwrFstat_faults (landed : s.dividing s.uid = false) (reserved : 32 ≤ (s.gpr a).toNat) :
    exec (.kwrFstat a m) s = .next (s.raise fILLEGAL 4 0#64 3) := by
  rw [exec_kwrFstat, execKwrFstat, s.issue_ready m 0 _ _ ready, landed, if_neg nofun, if_pos ((rsvSet_fstat _).mpr reserved)]
  rfl
theorem exec_kwrFstat_clears (landed : s.dividing s.uid = false) (fits : (s.gpr a).toNat < 32) :
    ∃ t, exec (.kwrFstat a m) s = .next t ∧ s.advances t m a 27#5 27#5 ∧ s.keepsMachine t ∧ s.keepsMsgs t ∧
      t.cur.fstat = s.cur.fstat &&& ~~~((s.gpr a).setWidth 5) := by
  obtain ⟨cur, advances, machine, msgs⟩ := s.complete_modCur m a 27#5
    (fun x => { x with fstat := x.fstat &&& ~~~((s.gpr a).setWidth 5) }) ⟨rfl, rfl, rfl, rfl, rfl, rfl⟩ rfl
  refine ⟨_, ?_, advances, machine, msgs, ?_⟩
  · rw [exec_kwrFstat, execKwrFstat, s.issue_ready m 0 _ _ ready, landed, if_neg nofun,
      if_neg (by rw [rsvSet_fstat]; omega)]
    rfl
  · rw [cur, State.done_eq]
end

/-- Settles O12: each instruction by whether what it waits for has come. -/
theorem fencesAndStatus : Obligations.FencesAndStatus := by
  unfold Obligations.FencesAndStatus
  refine ⟨fun m s ready => ⟨?_, exec_fence_completes ready, fun out => ?_⟩, fun d m s ready => ?_,
    fun a m s ready => ⟨fun out => ?_, fun landed reserved may => ?_, exec_kwrFstat_clears ready⟩⟩
  · obtain ⟨t, finishes, writes, keeps⟩ := finish_completes m s
    refine ⟨t, ?_, writes, keeps⟩
    rw [exec_nop, execNop, s.issue_ready m 0 _ _ ready, finishes]
  · rw [exec_fence_waits ready out]
    refine ⟨_, rfl, ?_, s.keepsMachine_modCur _, s.keepsMsgs_modCur _, ?_, ?_⟩
    · rw [State.cur_suspend]
    · rw [State.cur_suspend]
    · rw [State.cur_suspend]
      rfl
  · obtain ⟨reads, waits⟩ := exec_krdWhen (exec_krdFstat d m s) ready
    obtain ⟨readsMax, waitsMax⟩ := exec_krdWhen (exec_krdAdoptmax d m s) ready
    rw [kregRead_adoptmax] at readsMax
    exact ⟨reads, waits, readsMax, waitsMax⟩
  · rw [exec_kwrFstat_waits ready out]
    refine ⟨_, rfl, ?_, ?_, ?_⟩
    all_goals rw [State.cur_suspend]
  · rw [exec_kwrFstat_faults ready landed reserved]
    exact ⟨_, rfl, State.raise_faultsEnd 0#64 may rfl (by decide)⟩

end Sys2Proof.Proofs
end

section
/-! SUPPORT. A thread's end and its fault leave every core's tile shapes and headers. -/

namespace Sys2Proof.Machine

/-! What leaves the cores as they are. -/

theorem State.cores_sendHelp (s : State) (u fk : Nat) (want : Option Nat) : (s.sendHelp u fk want).cores = s.cores := by
  unfold State.sendHelp
  split <;> rfl
theorem State.cores_helpArmed (s : State) (u id : Nat) : (s.helpArmed u id).cores = s.cores := by
  unfold State.helpArmed
  dsimp only
  repeat' split
  all_goals simp [State.cores_sendHelp]
theorem State.cores_readHelper (s : State) (h q d : Nat) : (s.readHelper h q d).cores = s.cores := by
  unfold State.readHelper
  extract_lets x lose t
  have record : t.cores = s.cores := by
    simp only [t]
    split <;> rfl
  split
  · exact record
  · split <;> exact record
theorem State.cores_checkHandles (s : State) (u : Nat) : (s.checkHandles u).cores = s.cores := (s.checkHandles_only u).cores
theorem State.cores_popHelper (s : State) (q : Nat) : (s.popHelper q).cores = s.cores := by
  unfold State.popHelper
  extract_lets x
  split
  · rfl
  next h rest chain =>
    extract_lets atop back t
    have reads : back.cores = s.cores := by
      simp only [back, State.cores_checkHandles, State.cores_readHelper, State.modThread_cores, atop, State.putSlot_cores]
    have waits : t.cores = s.cores := by rw [State.modThread_cores, reads]
    split
    · exact waits
    · split
      · rw [State.modThread_cores, waits]
      · rw [State.cores_helpArmed, waits]

/-! Tile shapes and headers. -/

/-- Every core's tile shapes and sparse headers are as they were. -/
def State.KeepsTiles (s t : State) : Prop :=
  ∀ k, (t.coreAt k).tshape = (s.coreAt k).tshape ∧ (t.coreAt k).tmeta = (s.coreAt k).tmeta

namespace State.KeepsTiles

variable {s t v : State}

theorem of_cores (h : t.cores = s.cores) : s.KeepsTiles t := fun k => by
  rw [State.coreAt, h]
  exact ⟨rfl, rfl⟩
theorem trans (h : s.KeepsTiles t) (g : t.KeepsTiles v) : s.KeepsTiles v := fun k =>
  ⟨(g k).1.trans (h k).1, (g k).2.trans (h k).2⟩
theorem modCore (c : Nat) (f : Core → Core) (shapes : ∀ x, (f x).tshape = x.tshape) (headers : ∀ x, (f x).tmeta = x.tmeta) :
    s.KeepsTiles (s.modCore c f) := fun k => by
  rw [State.coreAt_modCore]
  split
  next here => rw [here, shapes, headers]; exact ⟨rfl, rfl⟩
  next => exact ⟨rfl, rfl⟩

theorem dropWaits (q : Nat) : s.KeepsTiles (s.dropWaits q) :=
  have orders : s.KeepsTiles (s.modCore (coreOfSlot q) (fun c => { c with
      resvWait := dropSlot q c.resvWait, divWait := dropSlot q c.divWait })) := modCore _ _ (fun _ => rfl) (fun _ => rfl)
  orders.trans (of_cores rfl)
theorem leaveSlot (u : Nat) : s.KeepsTiles (s.leaveSlot u) := by
  unfold State.leaveSlot
  split
  · split
    · exact (dropWaits _).trans (of_cores (State.cores_popHelper _ _))
    · exact of_cores rfl
  · exact of_cores rfl
  · exact modCore _ _ (fun _ => rfl) (fun _ => rfl)
  · exact modCore _ _ (fun _ => rfl) (fun _ => rfl)
  · exact of_cores rfl

theorem of_sends (h : s.OnlySends t) : s.KeepsTiles t := by
  have e := congrArg State.cores h.rest
  exact of_cores e

/-- A thread ends, but for one by a kill (R81). -/
theorem endThread (u : Nat) (how : Ended) (hk : how ≠ .killed) : s.KeepsTiles (s.endThread u how) := by
  unfold State.endThread
  extract_lets x passed told helper helped last
  have passes : passed = s.passThrough u := by
    cases how
    case killed => exact absurd rfl hk
    all_goals rfl
  have tells : s.KeepsTiles told := by
    refine (of_sends (.passThrough u)).trans (of_cores ?_)
    rw [← passes]
    cases how
    case killed => exact absurd rfl hk
    case ret => rfl
    all_goals
      simp only [told]
      split <;> rfl
  have helps : told.KeepsTiles helped := by
    clear_value helper
    cases helper <;> exact of_cores rfl
  split
  · exact of_cores rfl
  · have ends : (helped.leaveSlot u).KeepsTiles last := of_cores (State.modThread_cores _ _ _)
    exact (((tells.trans helps).trans (leaveSlot u)).trans ends).trans (of_cores (State.sendWith_cores _ _ _))

/-- A thread that takes a fault at once, and ends with it (R346). -/
theorem raise (code cause : Nat) (addr : Word) (type : Nat) (ending : faultParks code cause type = false)
    (settled : s.settled s.uid = true) : s.KeepsTiles (s.raise code cause addr type) := by
  obtain ⟨r, e⟩ := s.raiseAt_eq_endThread s.uid (s.threadAt s.uid).pc code cause addr type 0 ending
  rw [State.raise, State.raiseNow, if_pos settled, State.raiseFor, e]
  exact (of_cores (s.addRecord_cores r)).trans (endThread (s := s.addRecord r) s.uid _ nofun)

end State.KeepsTiles
end Sys2Proof.Machine
end

section
/-! SUPPORT. A write of a tile's shape or header: its causes as numbers, and what it leaves. -/

namespace Sys2Proof.Machine

/-! Causes. -/

/-- A cause from its number, 0 for none. -/
def causeOf (n : Nat) : Option Nat := if n = 0 then none else some n

theorem causeOf_zero : causeOf 0 = none := rfl
theorem causeOf_some {n : Nat} (h : n ≠ 0) : causeOf n = some n := if_neg h

/-- The SHAPE cause of a value of TSHAPE (R205), 0 for none. -/
def shapeNumber (w : Word) : Nat :=
  let fmt := w.toNat / 2 ^ 16 % 2 ^ 5
  let cols := w.toNat / 2 ^ 6 % 2 ^ 9 + 1
  if 0x17 < fmt ∧ fmt ≠ 0x1A then 1 else if 256 < cols * shapeWidth w / 8 then 2
    else if fmt = 0x17 ∧ cols % 2 = 1 then 3 else 0

/-- The META cause of a value of TMETA without reserved bits (R241, R242), 0 for none. -/
def headerNumber (w : Word) : Nat :=
  let h := w.toNat
  let n := h % 8
  let mm := h / 8 % 16 + 1
  if h = 0 then 0
    else if h / 2 ^ 12 % 16 ≠ (h % 16) ^^^ (h / 16 % 16) ^^^ (h / 256 % 16) ^^^ 15 then 2
    else if n = 0 ∨ mm ≤ n then 3 else if mm ∉ [2, 4, 8, 16] then 4
    else if h / 256 % 2 = 1 ∧ ¬ (n = 1 ∧ mm = 2) ∧ ¬ (n = 2 ∧ mm = 4) then 5 else 0

theorem shapeCause_eq (w : Word) : shapeCause w = causeOf (shapeNumber w) := by
  unfold shapeCause shapeNumber
  dsimp only
  rw [apply_ite causeOf, apply_ite causeOf, apply_ite causeOf]
  rfl
theorem shapeNumber_le (w : Word) : shapeNumber w ≤ 3 := by
  unfold shapeNumber
  dsimp only
  repeat' split
  all_goals decide
theorem headerNumber_le (w : Word) : headerNumber w ≤ 5 := by
  unfold headerNumber
  dsimp only
  repeat' split
  all_goals decide

theorem tshapeReserved_iff (w : Word) :
    (fieldOf w 21 43 != 0 || bitOf w.toNat 15) = true ↔ 2 ^ 21 ≤ w.toNat ∨ w.toNat / 2 ^ 15 % 2 = 1 := by
  have high := w.isLt
  simp [fieldOf, bitsOf, bitOf]
  omega
theorem tmetaReserved_iff (w : Word) :
    (fieldOf w 16 48 != 0 || fieldOf w 9 3 != 0) = true ↔ 2 ^ 16 ≤ w.toNat ∨ w.toNat / 2 ^ 9 % 8 ≠ 0 := by
  have high := w.isLt
  simp [fieldOf, bitsOf]
  omega

/-- Without reserved bits the causes of a header are those of its number. -/
theorem metaCause_eq (w : Word) (plain : (fieldOf w 16 48 != 0 || fieldOf w 9 3 != 0) = false) :
    (if w = 0#64 then none else metaCause w) = causeOf (headerNumber w) := by
  have zero : w = 0#64 ↔ w.toNat = 0 := ⟨fun h => by rw [h]; rfl, fun h => BitVec.eq_of_toNat_eq h⟩
  have n : headN w = w.toNat % 8 := by simp [headN, fieldOf, bitsOf]
  have check : headCheck w.toNat = (w.toNat % 16) ^^^ (w.toNat / 16 % 16) ^^^ (w.toNat / 256 % 16) ^^^ 15 := by
    simp [headCheck, bitsOf]
  have m : headM w = w.toNat / 8 % 16 + 1 := rfl
  have sum : fieldOf w 12 4 = w.toNat / 2 ^ 12 % 16 := rfl
  have dir : bitOf w.toNat 8 = (w.toNat / 256 % 2 == 1) := rfl
  simp only [metaCause, plain, Bool.false_eq_true, if_false, headerNumber, apply_ite causeOf, zero, n, check, m, sum, dir]
  simp [causeOf, imp_iff_not_or]

/-! What a write leaves. -/

/-- What a completed instruction that then changes its core leaves. -/
theorem State.complete_modCore (s : State) (m : Mods) (a b : BitVec 5) (f : Core → Core) :
    let t := ((s.consume m a b).advance m).modCore s.myCore f
    s.advances t m a b 27#5 ∧ s.keepsThread t ∧ s.keepsMsgs t ∧ t.coreAt s.myCore = f (s.coreAt s.myCore) ∧
      ∀ c, c ≠ s.myCore → t.coreAt c = s.coreAt c := by
  intro t
  have ran : s.Ran t (s.done m a b) := (State.Ran.consume_advance (.refl s)).beside (.modCore _ _)
  have cores (c : Nat) : ((s.consume m a b).advance m).coreAt c = s.coreAt c := by rw [State.consume_advance]; rfl
  refine ⟨ran.advances (.refl _ _), ?_, ?_, ?_, fun c other => ?_⟩
  · rw [State.keepsThread, ran.cur_eq, State.done_eq]
  · simp only [t]
    rw [State.consume_advance]
    exact ⟨rfl, rfl, rfl, rfl⟩
  · rw [State.coreAt_modCore_self, cores]
  · rw [State.coreAt_modCore, if_neg other, cores]

/-- A fault of an instruction that may fault ends its thread, and leaves the tile registers (R248). -/
theorem State.fail_stops {s : State} {code cause : Nat} (ending : faultParks code cause 3 = false)
    (fits : code + cause * 2 ^ 8 < 2 ^ 16) (may : s.mayFault) :
    ∃ t, s.fail code cause 0#64 3 = .next t ∧ s.faultsEnd t code cause 0#64 ∧ s.KeepsTiles t :=
  ⟨_, rfl, State.raise_faultsEnd 0#64 may ending fits, .raise code cause 0#64 3 ending may.settled⟩

section
variable {s : State} {m : Mods} {a : BitVec 5} (i : BitVec 3) (ready : s.Ready m 0 { src := [a] })
include ready

theorem exec_kwrTshape_reserved (reserved : (fieldOf (s.gpr a) 21 43 != 0 || bitOf (s.gpr a).toNat 15) = true) :
    exec (.kwrTshape i a m) s = s.fail fILLEGAL 4 0#64 3 := by
  rw [exec_kwrTshape, execKwrTshape, s.issue_ready m 0 _ _ ready, if_pos reserved]
theorem exec_kwrTmeta_reserved (reserved : (fieldOf (s.gpr a) 16 48 != 0 || fieldOf (s.gpr a) 9 3 != 0) = true) :
    exec (.kwrTmeta i a m) s = s.fail fILLEGAL 4 0#64 3 := by
  rw [exec_kwrTmeta, execKwrTmeta, s.issue_ready m 0 _ _ ready, if_pos reserved]

section
variable (plain : (fieldOf (s.gpr a) 21 43 != 0 || bitOf (s.gpr a).toNat 15) = false)
include plain

/-- A shape without a cause is written (R204). -/
theorem exec_kwrTshape_writes (sound : shapeNumber (s.gpr a) = 0) :
    exec (.kwrTshape i a m) s = s.finish m a 27#5 (fun t =>
      t.modCore s.myCore (fun c => { c with tshape := c.tshape.set 0#64 i.toNat (s.gpr a) })) := by
  rw [exec_kwrTshape, execKwrTshape, s.issue_ready m 0 _ _ ready]
  simp only [plain, shapeCause_eq, sound, causeOf_zero, Bool.false_eq_true, if_false]
/-- A bad shape faults with its cause (R205). -/
theorem exec_kwrTshape_faults (bad : shapeNumber (s.gpr a) ≠ 0) :
    exec (.kwrTshape i a m) s = s.fail fSHAPE (shapeNumber (s.gpr a)) 0#64 3 := by
  rw [exec_kwrTshape, execKwrTshape, s.issue_ready m 0 _ _ ready]
  simp only [plain, shapeCause_eq, causeOf_some bad, Bool.false_eq_true, if_false]
end

section
variable (plain : (fieldOf (s.gpr a) 16 48 != 0 || fieldOf (s.gpr a) 9 3 != 0) = false)
include plain

/-- A header without a cause is written (R241). -/
theorem exec_kwrTmeta_writes (sound : headerNumber (s.gpr a) = 0) :
    exec (.kwrTmeta i a m) s = s.finish m a 27#5 (fun t =>
      t.modCore s.myCore (fun c => { c with tmeta := c.tmeta.set 0#64 i.toNat (s.gpr a) })) := by
  rw [exec_kwrTmeta, execKwrTmeta, s.issue_ready m 0 _ _ ready]
  simp only [plain, metaCause_eq _ plain, sound, causeOf_zero, Bool.false_eq_true, if_false]
/-- A bad header faults with its cause (R242). -/
theorem exec_kwrTmeta_faults (bad : headerNumber (s.gpr a) ≠ 0) :
    exec (.kwrTmeta i a m) s = s.fail fMETA (headerNumber (s.gpr a)) 0#64 3 := by
  rw [exec_kwrTmeta, execKwrTmeta, s.issue_ready m 0 _ _ ready]
  simp only [plain, metaCause_eq _ plain, causeOf_some bad, Bool.false_eq_true, if_false]
end
end

end Sys2Proof.Machine
end

section
/-! PROOF. Writes of tile shapes and sparse headers. -/

namespace Sys2Proof.Proofs

open Sys2Proof Sys2Proof.Machine

/-- Settles O16: reserved bits first, then the number of the cause, then the write. -/
theorem tileRegisterWrites : Obligations.TileRegisterWrites := by
  unfold Obligations.TileRegisterWrites
  intro i a m s ready w h stops fmt cols shape n mm sparse shapeRsv metaRsv
  have shapePlain (allowed : ¬ shapeRsv) := Bool.eq_false_iff.mpr (mt (tshapeReserved_iff w).mp allowed)
  have metaPlain (allowed : ¬ metaRsv) := Bool.eq_false_iff.mpr (mt (tmetaReserved_iff w).mp allowed)
  refine ⟨fun allowed sound => ?_, fun allowed sound => ?_, fun reserved may => ?_, fun reserved may => ?_,
    fun allowed bad may => ?_, fun allowed bad may => ?_⟩
  · obtain ⟨advances, keeps, msgs, here, others⟩ := s.complete_modCore m a 27#5
      (fun c => { c with tshape := c.tshape.set 0#64 i.toNat w })
    rw [exec_kwrTshape_writes i ready (shapePlain allowed) sound]
    refine ⟨_, rfl, advances, keeps, msgs, ?_, fun j other => ?_, ?_, others⟩
    · rw [here, Tab.get_set_self]
    · rw [here, Tab.get_set_ne _ _ _ _ _ other]
    · rw [here]
  · obtain ⟨advances, keeps, msgs, here, others⟩ := s.complete_modCore m a 27#5
      (fun c => { c with tmeta := c.tmeta.set 0#64 i.toNat w })
    rw [exec_kwrTmeta_writes i ready (metaPlain allowed) sound]
    refine ⟨_, rfl, advances, keeps, msgs, ?_, fun j other => ?_, ?_, others⟩
    · rw [here, Tab.get_set_self]
    · rw [here, Tab.get_set_ne _ _ _ _ _ other]
    · rw [here]
  · rw [exec_kwrTshape_reserved i ready ((tshapeReserved_iff w).mpr reserved)]
    exact State.fail_stops rfl (by decide) may
  · rw [exec_kwrTmeta_reserved i ready ((tmetaReserved_iff w).mpr reserved)]
    exact State.fail_stops rfl (by decide) may
  · have le := shapeNumber_le (s.gpr a)
    rw [exec_kwrTshape_faults i ready (shapePlain allowed) bad]
    exact State.fail_stops rfl (by simp only [fSHAPE]; omega) may
  · have le := headerNumber_le (s.gpr a)
    rw [exec_kwrTmeta_faults i ready (metaPlain allowed) bad]
    exact State.fail_stops rfl (by simp only [fMETA]; omega) may

end Sys2Proof.Proofs
end

section
/-! SUPPORT. Writes of vector registers by instructions that only compute, and the lanes of what they write. -/

namespace Sys2Proof.Machine

/-! What a vector write leaves. -/

namespace State.Turns

variable {s t v : State} {x z : Thread} {y : Slot}

/-- A completed instruction whose thread has every register but `d` as the completion leaves it advances (R35). -/
theorem advances {m : Mods} {a b d : BitVec 5} (h : s.Turns t x y) (same : x.SameBut (s.done m a b) d) :
    s.advances t m a b d :=
  State.advances_of_cur same h.me h.uid h.mem h.thread h.others

/-- What runs in the executing thread alone leaves the turn. -/
theorem ran (h : s.Turns t x y) (g : t.Ran v z) : s.Turns v z y where
  me := g.me.trans h.me
  uid := g.uid_eq.trans h.uid
  thread := by rw [← h.uid, g.cur]
  others u hu := (g.others u (by rw [h.uid]; exact hu)).trans (h.others u hu)
  slot := by rw [State.slotAt, g.slots, ← State.slotAt, h.slot]
  slots q hq := by rw [State.slotAt, g.slots, ← State.slotAt, h.slots q hq]
  mem := g.mem.trans h.mem

theorem writeGpr (h : s.Turns t x y) (d : BitVec 5) (w : Word) : s.Turns (t.writeGpr d w) (x.written d.toNat w) y := by
  have still : t.Ran t x := ⟨rfl, rfl, rfl, by rw [h.uid, h.thread], fun _ _ => rfl⟩
  exact h.ran (still.writeGpr d w)

/-- A write of a vector register pins the thread (R169). -/
theorem writeVec (h : s.Turns t x y) (d : BitVec 5) (w : VWord) :
    s.Turns (t.writeVec d w) { x with vpin := true } { y with vecs := y.vecs.set 0#512 d.toNat w } :=
  (h.modSlot h.me (fun l => { l with vecs := l.vecs.set 0#512 d.toNat w }) (fun _ => rfl)).modCur (fun t => { t with vpin := true })

theorem vec (h : s.Turns t x y) (r : BitVec 5) : t.vec r = y.vecs.get 0#512 r.toNat := by rw [State.vec, h.mySlot]

/-- Of the vector registers the one that has been written reads its new value, and every other what it held (R168). -/
theorem vec_written {d : BitVec 5} {w : VWord} (h : s.Turns t x { s.mySlot with vecs := s.mySlot.vecs.set 0#512 d.toNat w }) :
    t.vec d = w ∧ ∀ r : BitVec 5, r ≠ d → t.vec r = s.vec r :=
  ⟨by rw [h.vec, Tab.get_set_self], fun r other => by rw [h.vec, Tab.get_set_ne _ _ _ _ _ (toNat_ne_of_ne other), State.vec]⟩

end State.Turns

/-- A ready instruction that only computes a vector writes it, with the frame of a vector write (R168, R169). -/
theorem State.vecOut_writes {s : State} {m : Mods} {src : List (BitVec 5)} {vecs : List (BitVec 3)} {d : BitVec 3}
    (ready : s.Ready m 0 { src := src, vec := (d :: vecs).map reg3 }) (a b : BitVec 5) (v : VWord) :
    ∃ u, s.vecOut m src vecs d a b v id = .next u ∧ s.vecFrame u m a b d ∧ u.vec (d.setWidth 5) = v := by
  have turns := (State.Turns.consume_advance s m a b).writeVec (reg3 d) v
  obtain ⟨written, others⟩ := turns.vec_written
  have same : ({ s.done m a b with vpin := true } : Thread).SameBut (s.done m a b) 27#5 :=
    .of_sameRegs ⟨rfl, rfl, rfl, rfl, rfl, rfl⟩ rfl
  refine ⟨_, s.issue_ready m 0 _ _ ready, ⟨turns.advances same, ?_, others, turns.slots, ?_, ?_, ?_⟩, written⟩
  · exact congrArg Thread.vpin turns.cur
  · exact congrArg (fun l : Slot => { l with vecs := s.mySlot.vecs }) turns.mySlot
  · show ({ State.cur (((s.consume m a b).advance m).writeVec (reg3 d) v) with
      regs := s.cur.regs, pc := s.cur.pc, vpin := s.cur.vpin, fstat := s.cur.fstat, srseed := s.cur.srseed } : Thread) = s.cur
    rw [turns.cur, State.done_eq]
  · rw [State.consume_advance]; rfl

/-- The same, for an instruction whose vector is read by its lanes. -/
theorem exec_vecOut_lanes {i : Instr} {s : State} {m : Mods} {src : List (BitVec 5)} {vecs : List (BitVec 3)} {d : BitVec 3}
    {a b : BitVec 5} {v : VWord} (run : exec i s = s.vecOut m src vecs d a b v id)
    (ready : s.Ready m 0 { src := src, vec := (d :: vecs).map reg3 }) {w n : Nat} {f : Nat → Nat}
    (value : ∀ j, j < n → lane w v j = f j) :
    ∃ u, exec i s = .next u ∧ s.vecFrame u m a b d ∧ ∀ j, j < n → lane w (u.vec (d.setWidth 5)) j = f j := by
  obtain ⟨u, next, frame, written⟩ := State.vecOut_writes ready a b v
  exact ⟨u, run.trans next, frame, fun j here => by rw [written, value j here]⟩

/-! Lanes. -/

theorem lane_lt (w : Nat) (v : VWord) (i : Nat) : lane w v i < 2 ^ w := Nat.mod_lt _ (Nat.two_pow_pos w)
theorem lane_fits {w i : Nat} (here : i < 512 / w) : w * i + w ≤ 512 := by
  rw [← Nat.mul_succ, Nat.mul_comm]
  exact Nat.mul_le_of_le_div _ _ _ here
theorem length_lanes (w : Nat) (v : VWord) : (lanes w v).length = 512 / w := by simp [lanes]

/-- A lane of a vector that is given by the list of its lanes. -/
theorem lane_ofLanes_of {w i x : Nat} {xs : List Nat} (here : i < 512 / w) (at_i : xs.getD i 0 = x) (small : x < 2 ^ w) :
    lane w (ofLanes w xs) i = x := by
  rw [lane_ofLanes w xs i (lane_fits here), at_i, Nat.mod_eq_of_lt small]

/-- Every lane of a broadcast is the low bits of its source (R177). -/
theorem lane_replicate {w i : Nat} (here : i < 512 / w) (x : Nat) : lane w (ofLanes w (List.replicate (512 / w) x)) i = x % 2 ^ w := by
  rw [lane_ofLanes w _ i (lane_fits here), List.getD_replicate _ here]

/-- Of a vector's lanes an insertion replaces the one that it names (R177). -/
theorem lane_putBits {w i : Nat} (here : i < 512 / w) (v : VWord) (k x : Nat) :
    lane w (BitVec.ofNat 512 (putBits v.toNat (w * k) w x)) i = if i = k then x % 2 ^ w else lane w v i := by
  rw [lane, BitVec.toNat_ofNat, bitsOf_mod _ (lane_fits here)]
  refine Nat.eq_of_testBit_eq fun j => ?_
  rw [testBit_bitsOf, testBit_putBits]
  by_cases inside : j < w
  · obtain below | same | above := Nat.lt_trichotomy i k
    · have le := Nat.mul_le_mul_left w (Nat.succ_le_of_lt below)
      rw [Nat.mul_succ] at le
      rw [if_neg below.ne, if_pos (by omega), lane, testBit_bitsOf]
    · subst same
      rw [if_pos rfl, if_neg (by omega), if_pos (by omega), Nat.testBit_mod_two_pow, Nat.add_sub_cancel_left]
    · have le := Nat.mul_le_mul_left w (Nat.succ_le_of_lt above)
      rw [Nat.mul_succ] at le
      rw [if_neg above.ne', if_neg (by omega), if_neg (by omega), lane, testBit_bitsOf]
  · rw [decide_eq_false inside, Bool.false_and]
    split
    · rw [Nat.testBit_mod_two_pow, decide_eq_false inside, Bool.false_and]
    · rw [lane, testBit_bitsOf, decide_eq_false inside, Bool.false_and]

/-- The kept lanes stand first, and zeros after them (R179). -/
theorem lane_compress {w i : Nat} (here : i < 512 / w) (v : VWord) (kept : List Nat) :
    lane w (ofLanes w (kept.map (lane w v))) i = if i < kept.length then lane w v (kept.getD i 0) else 0 := by
  split
  next inside => exact lane_ofLanes_of here (by simp [inside]) (lane_lt ..)
  next beyond => exact lane_ofLanes_of here (by simp [Nat.le_of_not_lt beyond]) (Nat.two_pow_pos w)

/-- A lane of a permutation is the one that its index vector names (R179). -/
theorem lane_permute {w i : Nat} (here : i < 512 / w) (v ix : VWord) :
    lane w (ofLanes w ((lanes w ix).map (fun k => lane w v (k % (512 / w))))) i = lane w v (lane w ix i % (512 / w)) :=
  lane_ofLanes_of here (by simp [lanes, here]) (lane_lt ..)

/-- Positions stand first, and all ones after them (R142). -/
theorem lane_positions {w i : Nat} (here : i < 512 / w) (wide : 512 / w ≤ 2 ^ w) {live : List Nat}
    (among : ∀ p ∈ live, p < 512 / w) :
    lane w (ofLanes w (live ++ List.replicate (512 / w - live.length) (2 ^ w - 1))) i =
      if i < live.length then live.getD i 0 else 2 ^ w - 1 := by
  split
  next inside =>
    refine lane_ofLanes_of here (List.getD_append _ _ _ _ inside) ?_
    rw [List.getD_eq_getElem _ _ inside]
    exact Nat.lt_of_lt_of_le (among _ (List.getElem_mem inside)) wide
  next beyond =>
    refine lane_ofLanes_of here ?_ (Nat.sub_lt (Nat.two_pow_pos w) Nat.one_pos)
    rw [List.getD_append_right _ _ _ _ (Nat.le_of_not_lt beyond), List.getD_replicate _ (by omega)]

end Sys2Proof.Machine
end

section
/-! SUPPORT. Reductions: what a way of combining values keeps, whichever pairs it takes (R180). -/

namespace Sys2Proof.Machine

/-- A property of the values of a reduction that neither their order nor the combination of two of them changes. -/
structure KeptBy (f : Nat → Nat → Nat → FRes) (I : List Nat → Prop) : Prop where
  perm : ∀ {xs ys : List Nat}, xs.Perm ys → I xs → I ys
  combine : ∀ {x y : Nat} {zs : List Nat} (c : Nat), I (x :: y :: zs) → I ((f c x y).1 :: zs)

/-- A pass of the tree halves the values (R180). -/
theorem length_redPass (f : Nat → Nat → Nat → FRes) (c : Nat) (xs : List Nat) :
    (redPass f c xs).1.length = (xs.length + 1) / 2 := by
  induction c, xs using redPass.induct (f := f) with
  | case1 c x y rest ih =>
    simp only [redPass, List.length_cons, ih]
    omega
  | case2 c xs short =>
    match xs, short with
    | [], _ => simp [redPass]
    | [x], _ => simp [redPass]
    | x :: y :: rest, short => exact (short x y rest rfl).elim

/-- An element that is taken, and the rest. -/
theorem takeFree_perm (i : Nat) {xs : List Nat} (some' : xs ≠ []) : xs.Perm ((takeFree i xs).1 :: (takeFree i xs).2) := by
  have inside : i % xs.length < xs.length := Nat.mod_lt _ (List.length_pos_of_ne_nil some')
  rw [takeFree, List.getD_eq_getElem _ _ inside]
  exact (List.getElem_cons_eraseIdx_perm inside).symm

/-- The one value that is left where no more than one is. -/
theorem singleton_headD {xs : List Nat} (some' : xs ≠ []) (one : xs.length ≤ 1) : [xs.headD 0] = xs := by
  obtain ⟨x, rfl⟩ := List.length_eq_one_iff.mp (le_antisymm one (List.length_pos_of_ne_nil some'))
  rfl

section
variable {f : Nat → Nat → Nat → FRes} {I : List Nat → Prop} (kept : KeptBy f I)
include kept

/-- A pass of the tree, beside values that it has already combined. -/
theorem KeptBy.redPass (c : Nat) (xs done : List Nat) (h : I (done ++ xs)) : I (done ++ (redPass f c xs).1) := by
  induction c, xs using redPass.induct (f := f) generalizing done with
  | case1 c x y rest ih =>
    have front : I (x :: y :: (done ++ rest)) := kept.perm (List.perm_middle.trans (List.perm_middle.cons x)) h
    have back : I (done ++ (f c x y).1 :: rest) := kept.perm List.perm_middle.symm (kept.combine c front)
    rw [List.append_cons] at back
    rw [Machine.redPass, List.append_cons]
    exact ih _ back
  | case2 c xs short =>
    rw [Machine.redPass]
    · exact h
    · exact short

/-- The tree of neighbours. -/
theorem KeptBy.redTree (total n : Nat) {xs : List Nat} (some' : xs ≠ []) (fuel : xs.length ≤ n + 1) (h : I xs) :
    I [(redTree f total n xs).1] := by
  induction n generalizing xs with
  | zero => exact (singleton_headD some' fuel).symm ▸ h
  | succ n ih =>
    rw [Machine.redTree]
    split
    next one => exact (singleton_headD some' one).symm ▸ h
    next many =>
      have halves := length_redPass f (total - xs.length) xs
      exact ih (List.ne_nil_of_length_pos (by omega)) (by omega) (kept.redPass _ xs [] h)

/-- Any pairing of the unordered form (log entry 9). -/
theorem KeptBy.redFree (choice : Nat → Nat) (n : Nat) (draws : List Nat) {xs : List Nat} (some' : xs ≠ [])
    (fuel : xs.length ≤ n + 1) (h : I xs) : I [(redFree f choice n draws xs).1] := by
  induction n generalizing draws xs with
  | zero => exact (singleton_headD some' fuel).symm ▸ h
  | succ n ih =>
    rw [Machine.redFree]
    split
    next one => exact (singleton_headD some' one).symm ▸ h
    next many =>
      dsimp only
      have first := takeFree_perm (choice (3 * n)) some'
      generalize takeFree (choice (3 * n)) xs = x at first ⊢
      have rest : x.2.length + 1 = xs.length := first.length_eq.symm
      have second := takeFree_perm (choice (3 * n + 1)) (List.ne_nil_of_length_pos (show 0 < x.2.length by omega))
      generalize takeFree (choice (3 * n + 1)) x.2 = y at second ⊢
      have left : x.2.length = y.2.length + 1 := second.length_eq
      refine ih _ (List.cons_ne_nil _ _) (by rw [List.length_cons]; omega) ?_
      exact kept.combine _ (kept.perm (first.trans (second.cons x.1)) h)
end

/-! The integer operations. -/

/-- The sum modulo the lanes' width (R180). -/
theorem keptBy_sum (w : Nat) (env : Nat → FEnv) (n : Nat) : KeptBy (redOp 0 none w env) (fun xs => xs.sum % 2 ^ w = n) where
  perm same h := by rw [← same.sum_eq]; exact h
  combine c h := by simpa [redOp, Nat.add_assoc] using h

/-- Of the values some are left, one of them at most as great under the key as each of all. -/
def LeastLeft (key : Nat → Int) (all xs : List Nat) : Prop :=
  (∀ x ∈ xs, x ∈ all) ∧ ∀ z ∈ all, ∃ x ∈ xs, key x ≤ key z

/-- Taking of two values the one with the lesser key keeps the least. -/
theorem keptBy_leastLeft {f : Nat → Nat → Nat → FRes} {key : Nat → Int}
    (takes : ∀ c x y, (f c x y).1 = if key y < key x then y else x) (all : List Nat) : KeptBy f (LeastLeft key all) where
  perm {xs ys} same h := by
    obtain ⟨among, least⟩ := h
    refine ⟨fun x here => among x (same.mem_iff.mpr here), fun z hz => ?_⟩
    obtain ⟨x, here, le⟩ := least z hz
    exact ⟨x, same.mem_iff.mp here, le⟩
  combine {x y zs} c h := by
    obtain ⟨among, least⟩ := h
    have taken : ((f c x y).1 = x ∨ (f c x y).1 = y) ∧ key (f c x y).1 ≤ key x ∧ key (f c x y).1 ≤ key y := by
      rw [takes]
      split
      next lt => exact ⟨.inr rfl, lt.le, le_rfl⟩
      next ge => exact ⟨.inl rfl, le_rfl, not_lt.mp ge⟩
    obtain ⟨one, le_x, le_y⟩ := taken
    constructor
    · simp only [List.forall_mem_cons] at among ⊢
      obtain ⟨hx, hy, hzs⟩ := among
      exact ⟨one.elim (fun e => by rwa [e]) (fun e => by rwa [e]), hzs⟩
    · intro z hz
      obtain ⟨v, here, le⟩ := least z hz
      simp only [List.mem_cons] at here
      obtain rfl | rfl | here := here
      · exact ⟨_, List.mem_cons_self, le_x.trans le⟩
      · exact ⟨_, List.mem_cons_self, le_y.trans le⟩
      · exact ⟨v, List.mem_cons_of_mem _ here, le⟩

theorem keptBy_min (w : Nat) (env : Nat → FEnv) (all : List Nat) : KeptBy (redOp 1 none w env) (LeastLeft (signedN w) all) :=
  keptBy_leastLeft (fun c x y => by simp only [redOp]) all
theorem keptBy_max (w : Nat) (env : Nat → FEnv) (all : List Nat) :
    KeptBy (redOp 2 none w env) (LeastLeft (fun x => -signedN w x) all) :=
  keptBy_leastLeft (fun c x y => by simp only [redOp, neg_lt_neg_iff]) all

/-- The one value that is left is the least. -/
theorem LeastLeft.single {key : Nat → Int} {all : List Nat} {x : Nat} (h : LeastLeft key all [x]) :
    x ∈ all ∧ ∀ z ∈ all, key x ≤ key z := by
  obtain ⟨among, least⟩ := h
  exact ⟨among x (List.mem_singleton_self x), fun z hz => by simpa using least z hz⟩
theorem leastLeft_refl (key : Nat → Int) (all : List Nat) : LeastLeft key all all :=
  ⟨fun _ here => here, fun z hz => ⟨z, hz, le_rfl⟩⟩

/-! The instruction. -/

/-- What a reduction leaves beside its result and its flags: of its thread FSTAT and SRSEED apart only registers change,
and of the machine neither memory nor slots (R180). -/
def State.reduceFrame (s u : State) (m : Mods) (d : BitVec 5) : Prop :=
  u.cur.pc = s.cur.pc + word (lenBytes m) ∧ s.keepsRegs u m 27#5 27#5 d ∧ s.keepsThreadFp u ∧
  (∀ y, u.byteAt y = s.byteAt y) ∧ u.slots = s.slots

/-- A ready reduction writes its result, and its flags enter FSTAT (R129, R180). -/
theorem State.vecGpr_reduces {s : State} {m : Mods} {a : BitVec 3} {d : BitVec 5}
    (ready : s.Ready m 0 { vec := [reg3 a], dst := [d] }) (v : Word) (rounds : Bool) (fl : Flags) :
    ∃ u, s.vecGpr m [] [a] d 27#5 v (fun t => (t.floatDone m rounds fl).draw) = .next u ∧ s.reduceFrame u m d ∧
      (writable d = true → u.gpr d = v) ∧ u.cur.fstat = s.cur.fstat ||| fl := by
  obtain ⟨result, keeps⟩ := s.complete_writes m 27#5 27#5 d v
  obtain ⟨uid, -⟩ := s.complete_writes_uid m 27#5 27#5 d v
  have same : word v.toNat = v := by simp [word]
  obtain ⟨⟨writes, pc, regs, -, ⟨-, machine⟩, -⟩, fstat, -, thread⟩ :=
    State.floatDone_floatResult uid (r := (v.toNat, fl)) (by rw [same]; exact result) keeps rounds
  rw [same] at writes
  generalize ht : (((s.consume m 27#5 27#5).advance m).writeGpr d v).floatDone m rounds fl = t at *
  have mem : t.mem = s.mem := by
    have e := congrArg State.mem machine
    exact e
  have slots : t.slots = s.slots := by
    have e := congrArg State.slots machine
    exact e
  refine ⟨t.draw, ?_, ⟨pc, regs, thread, fun y => ?_, slots⟩, fun can => (writes can).1, fstat⟩
  · rw [← ht]
    exact s.issue_ready m 0 _ _ ready
  · exact congrArg (fun x : Memory => x.get 0#8 y) mem

/-- The width of a reduction's lanes, by its type's code. -/
def redWidth (t : BitVec 2) : Nat := if t = 0#2 ∨ t = 2#2 then 32 else 64
/-- The float format of a reduction whose type is a float. -/
def redFmt (t : BitVec 2) : FloatFmt := if t = 2#2 then f32 else f64

theorem redWidth_pos (t : BitVec 2) : 0 < redWidth t := by
  unfold redWidth
  split <;> decide
theorem redType_int {t : BitVec 2} (int : t.toNat < 2) : redType t = (redWidth t, none) := by
  revert t
  decide
theorem redType_float {t : BitVec 2} (float : 2 ≤ t.toNat) :
    redType t = (redWidth t, some (redFmt t)) := by
  revert t
  decide
theorem lanes_redWidth_ne_nil (t : BitVec 2) (v : VWord) : lanes (redWidth t) v ≠ [] := by
  refine List.ne_nil_of_length_pos ?_
  rw [length_lanes, redWidth]
  split <;> decide

section
variable {s : State} {m : Mods} {a : BitVec 3} {d : BitVec 5} {t : BitVec 2}
  (ready : s.Ready m 0 { vec := [reg3 a], dst := [d] }) (op : Nat)
include ready

/-- A reduction of integer lanes leaves one value, with every property that its combinations keep, in the ordered form and
for any pairing of the unordered one (R180). -/
theorem State.vred_keeps {I : List Nat → Prop} (kept : KeptBy (redOp op none (redWidth t) (fun c => s.fenv m c)) I) (o : Bool)
    (h : I (lanes (redWidth t) (s.vec (reg3 a)))) :
    ∃ u, s.vred op t o d a m = .next u ∧ s.reduceFrame u m d ∧
      (t.toNat < 2 → ∃ x, I [x] ∧ (writable d = true → u.gpr d = sextN (redWidth t) x)) := by
  by_cases int : t.toNat < 2
  · have some' := lanes_redWidth_ne_nil t (s.vec (reg3 a))
    generalize hxs : lanes (redWidth t) (s.vec (reg3 a)) = xs at *
    generalize hr : (if o = true then redFree (redOp op none (redWidth t) (fun c => s.fenv m c)) (Config.pairing s.fresh)
      xs.length (List.range (xs.length - 1)) xs
      else redTree (redOp op none (redWidth t) (fun c => s.fenv m c)) xs.length xs.length xs) = r
    have one : I [r.1] := by
      rw [← hr]
      cases o
      · exact kept.redTree _ _ some' (Nat.le_succ _) h
      · exact kept.redFree _ _ _ some' (Nat.le_succ _) h
    obtain ⟨u, next, frame, writes, -⟩ := State.vecGpr_reduces ready (sextN (redWidth t) r.1) (op == 0 && false) r.2
    refine ⟨u, ?_, frame, fun _ => ⟨r.1, one, writes⟩⟩
    rw [← next, State.vred, redType_int int]
    simp only [hxs, hr]
    rfl
  · obtain ⟨u, next, frame, -⟩ := State.vecGpr_reduces ready _ _ _
    exact ⟨u, next, frame, fun int' => absurd int' int⟩

/-- A float reduction in the ordered form is the tree of its lanes with daz applied (R180). -/
theorem State.vred_tree (float : 2 ≤ t.toNat) :
    let n := 512 / redWidth t
    let r := redTree (redOp op (some (redFmt t)) (redWidth t) (fun c => s.fenv m c)) n n
      ((List.range n).map (fun i => (redFmt t).dazBits (s.cur.fctl.getLsbD 4) (lane (redWidth t) (s.vec (reg3 a)) i)))
    ∃ u, s.vred op t false d a m = .next u ∧ (writable d = true → u.gpr d = BitVec.ofNat 64 r.1) ∧
      u.cur.fstat = s.cur.fstat ||| r.2 := by
  intro n r
  have applied : (lanes (redWidth t) (s.vec (reg3 a))).map ((redFmt t).dazBits s.cur.daz) =
      (List.range n).map (fun i => (redFmt t).dazBits (s.cur.fctl.getLsbD 4) (lane (redWidth t) (s.vec (reg3 a)) i)) := by
    rw [lanes, List.map_map, Thread.daz_eq]
    rfl
  obtain ⟨u, next, -, writes, flags⟩ := State.vecGpr_reduces ready (word r.1) (op == 0 && true) r.2
  refine ⟨u, ?_, writes, flags⟩
  rw [← next, State.vred, redType_float float]
  simp only [applied, List.length_map, List.length_range]
  rfl
end

/-! Signed lanes. -/

/-- A lane read in two's complement (R168). -/
theorem signedN_lane {w : Nat} (pos : 0 < w) (v : VWord) (i : Nat) :
    signedN w (lane w v i) = if lane w v i < 2 ^ (w - 1) then (lane w v i : Int) else (lane w v i : Int) - 2 ^ w := by
  have double : 2 ^ w = 2 * 2 ^ (w - 1) := by
    rw [← Nat.pow_succ', Nat.succ_eq_add_one, Nat.sub_add_cancel pos]
  have half : 2 * lane w v i < 2 ^ w ↔ lane w v i < 2 ^ (w - 1) := by omega
  rw [signedN, BitVec.toInt_eq_toNat_cond, BitVec.toNat_ofNat, Nat.mod_eq_of_lt (lane_lt ..), Nat.cast_pow, Nat.cast_ofNat]
  simp only [half]

theorem sextN_eq_ofInt (w x : Nat) : sextN w x = BitVec.ofInt 64 (signedN w x) := rfl
theorem sextN_congr {w x y : Nat} (same : x % 2 ^ w = y % 2 ^ w) : sextN w x = (BitVec.ofNat w y).signExtend 64 := by
  have words : BitVec.ofNat w x = BitVec.ofNat w y := BitVec.eq_of_toNat_eq (by simpa using same)
  rw [sextN, words]

end Sys2Proof.Machine
end

section
/-! PROOF. Vector moves, packing, release and reductions. -/

namespace Sys2Proof.Proofs

open Sys2Proof Sys2Proof.Machine

/-! Moves, packing and release (R142, R170, R177, R179). -/

section
variable {a d : BitVec 3} {g h : BitVec 5} {m : Mods} {s : State}

/-- The broadcasts, by their width (R177). -/
theorem vbcast_lanes (t : Bool) {i : Instr} (run : exec i s = s.vbcast t d g m)
    (ready : s.Ready m 0 { src := [g], vec := [d.setWidth 5] }) :
    ∃ u, exec i s = .next u ∧ s.vecFrame u m g 27#5 d ∧
      ∀ j, j < laneN t → lane (laneW t) (u.vec (d.setWidth 5)) j = (s.gpr g).toNat % 2 ^ laneW t :=
  exec_vecOut_lanes run ready fun _ here => lane_replicate here _

/-- The insertions, by their width (R177). -/
theorem vins_lanes (t : Bool) {i : Instr} (run : exec i s = s.vins t d g h m)
    (ready : s.Ready m 0 { src := [g, h], vec := [d.setWidth 5] }) :
    ∃ u, exec i s = .next u ∧ s.vecFrame u m g h d ∧ ∀ j, j < laneN t → lane (laneW t) (u.vec (d.setWidth 5)) j =
      if j = (s.gpr h).toNat % laneN t then (s.gpr g).toNat % 2 ^ laneW t else lane (laneW t) (s.vec (d.setWidth 5)) j :=
  exec_vecOut_lanes run ready fun _ here => lane_putBits here _ _ _

/-- The extractions, by their width (R177). -/
theorem vext_writes (t : Bool) {i : Instr} (run : exec i s = s.vext t g a h m)
    (ready : s.Ready m 0 { src := [h], vec := [a.setWidth 5], dst := [g] }) :
    ∃ u, exec i s = .next u ∧ s.keepsThread u ∧ s.regResult u m 27#5 h g
      (BitVec.ofNat 64 (lane (laneW t) (s.vec (a.setWidth 5)) ((s.gpr h).toNat % laneN t))) := by
  obtain ⟨u, next, keeps, result⟩ := State.issue_writes ready 27#5 h g
    (word (lane (laneW t) (s.vec (reg3 a)) (laneIndex t (s.gpr h))))
  exact ⟨u, run.trans next, keeps, result⟩

/-- `nzscan` writes the positions to its vector and their count to C (R142). -/
theorem exec_nzscan_writes (e : Bool) (ready : s.Ready m 0 { vec := [d.setWidth 5, a.setWidth 5], dst := [m.rc] }) :
    let live := (List.range (laneN e)).filter (fun i => lane (laneW e) (s.vec (a.setWidth 5)) i != 0)
    ∃ u, exec (.nzscan e d a m) s = .next u ∧ (writable m.rc = true → u.gpr m.rc = BitVec.ofNat 64 live.length) ∧
      u.cur.pc = s.cur.pc + word (Machine.lenBytes m) ∧ (∀ x, u.byteAt x = s.byteAt x) ∧ s.keepsRegs u m 27#5 27#5 m.rc ∧
      (∀ r : BitVec 5, r ≠ d.setWidth 5 → u.vec r = s.vec r) ∧
      ∀ i, i < laneN e → lane (laneW e) (u.vec (d.setWidth 5)) i =
        if i < live.length then live.getD i 0 else 2 ^ laneW e - 1 := by
  intro live
  let v := ofLanes (laneW e) (live ++ List.replicate (laneN e - live.length) (2 ^ laneW e - 1))
  have turns := ((State.Turns.consume_advance s m 27#5 27#5).writeVec (reg3 d) v).writeGpr m.rc (word live.length)
  obtain ⟨written, others⟩ := turns.vec_written
  have pinned : ({ s.done m 27#5 27#5 with vpin := true } : Thread).SameBut (s.done m 27#5 27#5) m.rc :=
    .of_sameRegs ⟨rfl, rfl, rfl, rfl, rfl, rfl⟩ rfl
  obtain ⟨⟨pc, keeps, -, -⟩, bytes⟩ := turns.advances ((Thread.SameBut.written _).trans pinned)
  refine ⟨(((s.consume m 27#5 27#5).advance m).writeVec (reg3 d) v).writeGpr m.rc (word live.length),
    (exec_nzscan ..).trans (s.issue_ready m 0 _ _ ready), fun can => ?_, pc, bytes, keeps, others, fun i here => ?_⟩
  · rw [turns.gpr]
    simp only [writable, Bool.or_eq_true, Bool.and_eq_true, decide_eq_true_eq, beq_iff_eq] at can
    exact Thread.gpr_written_self _ _ _ _ (by omega)
  · have among (p : Nat) (listed : p ∈ live) : p < 512 / laneW e := List.mem_range.mp (List.mem_of_mem_filter listed)
    have wide : 512 / laneW e ≤ 2 ^ laneW e := by cases e <;> decide
    rw [show (d.setWidth 5 : BitVec 5) = reg3 d from rfl, written]
    exact lane_positions here wide among

/-- `vrel` zeroes the vector registers and takes the pin, once none is pending (R170). -/
theorem exec_vrel_releases (ready : s.Ready m 0 {}) (landed : s.mySlot.vpend = []) :
    ∃ u, exec (.vrel m) s = .next u ∧ s.advances u m 27#5 27#5 27#5 ∧ (∀ r, u.vec r = 0#512) ∧ u.cur.vpin = false ∧
      ∀ q, q ≠ s.me → u.slotAt q = s.slotAt q := by
  have before := State.Turns.consume_advance s m 27#5 27#5
  have turns := (before.modSlot rfl (fun x => { x with vecs := [] }) (fun _ => rfl)).modCur
    (fun x => { x with vpin := false })
  refine ⟨_, ?_, turns.advances (.of_sameRegs ⟨rfl, rfl, rfl, rfl, rfl, rfl⟩ rfl), fun r => turns.vec r, ?_, turns.slots⟩
  · rw [exec_vrel, execVrel, State.issue_ready s m 0 _ _ ready, landed]
    rfl
  · rw [turns.cur]
end

/-! Reductions (R180). -/

section
variable {a : BitVec 3} {d : BitVec 5} {m : Mods} {s : State} {t : BitVec 2}
  (ready : s.Ready m 0 { vec := [a.setWidth 5], dst := [d] }) (o : Bool)
include ready

/-- The sum of integer lanes, modulo their width. -/
theorem vred_sum :
    ∃ u, s.vred 0 t o d a m = .next u ∧ s.reduceFrame u m d ∧ (t.toNat < 2 → writable d = true → u.gpr d =
      (BitVec.ofNat (redWidth t) (lanes (redWidth t) (s.vec (a.setWidth 5))).sum).signExtend 64) := by
  obtain ⟨u, next, frame, leaves⟩ := State.vred_keeps ready 0 (keptBy_sum (redWidth t) _ _) o rfl
  refine ⟨u, next, frame, fun int can => ?_⟩
  obtain ⟨x, sum, writes⟩ := leaves int
  rw [List.sum_singleton] at sum
  exact (writes can).trans (sextN_congr sum)

/-- Where combinations keep the least under a key, a lane is left that is the least. -/
theorem vred_least (op : Nat) (key : Nat → Int)
    (kept : ∀ all, KeptBy (redOp op none (redWidth t) (fun c => s.fenv m c)) (LeastLeft key all)) :
    let w := redWidth t
    let x (i : Nat) : Nat := lane w (s.vec (a.setWidth 5)) i
    ∃ u, s.vred op t o d a m = .next u ∧ s.reduceFrame u m d ∧ (t.toNat < 2 → writable d = true →
      ∃ i, i < 512 / w ∧ u.gpr d = BitVec.ofInt 64 (signedN w (x i)) ∧ ∀ j, j < 512 / w → key (x i) ≤ key (x j)) := by
  intro w x
  obtain ⟨u, next, frame, leaves⟩ := State.vred_keeps ready op (kept (lanes w (s.vec (reg3 a)))) o (leastLeft_refl key _)
  refine ⟨u, next, frame, fun int can => ?_⟩
  obtain ⟨v, left, writes⟩ := leaves int
  obtain ⟨among, least⟩ := left.single
  obtain ⟨i, here, rfl⟩ := List.mem_map.mp among
  refine ⟨i, List.mem_range.mp here, writes can, fun j inside => ?_⟩
  exact least _ (List.mem_map.mpr ⟨j, List.mem_range.mpr inside, rfl⟩)
end

/-- Settles O26: moves and packings by the lanes of what they write, integer reductions by what any order of combinations
keeps, and ordered float reductions by the tree itself. -/
theorem vectorMovesAndReductions : Obligations.VectorMovesAndReductions := by
  unfold Obligations.VectorMovesAndReductions
  refine ⟨?_, ?_⟩
  · intro d a b g h m s va
    refine ⟨fun ready => State.vecOut_writes ready 27#5 27#5 _, fun ready => ⟨vbcast_lanes false (exec_vbcastW ..) ready, ?_⟩,
      fun ready => ⟨vext_writes false (exec_vextW ..) ready, vext_writes true (exec_vextD ..) ready⟩,
      fun ready => ⟨vins_lanes false (exec_vinsW ..) ready, ?_⟩, ?_, exec_vrel_releases⟩
    · obtain ⟨u, next, frame, lanes⟩ := vbcast_lanes true (exec_vbcastD ..) ready
      exact ⟨u, next, frame, fun i here => (lanes i here).trans (Nat.mod_eq_of_lt (s.gpr g).isLt)⟩
    · obtain ⟨u, next, frame, lanes⟩ := vins_lanes true (exec_vinsD ..) ready
      refine ⟨u, next, frame, fun i here => ?_⟩
      have value := lanes i here
      rw [show laneW true = 64 from rfl, Nat.mod_eq_of_lt (s.gpr g).isLt] at value
      exact value
    · intro e w n
      refine ⟨fun ready => ?_, fun ready => ?_, exec_nzscan_writes e⟩
      · exact exec_vecOut_lanes (exec_vcompress ..) ready fun _ here => lane_compress here _ _
      · exact exec_vecOut_lanes (exec_vperm ..) ready fun _ here => lane_permute here _ _
  · intro sg t o d a m s ready w n x frame
    have signed (i : Nat) : signedN w (x i) = sg w (x i) := signedN_lane (redWidth_pos t) _ i
    refine ⟨vred_sum ready o, ?_, ?_, ?_⟩
    · obtain ⟨u, next, kept, leaves⟩ := vred_least ready o 1 _ (keptBy_min (redWidth t) _)
      refine ⟨u, next, kept, fun int can => ?_⟩
      obtain ⟨i, here, value, least⟩ := leaves int can
      exact ⟨i, here, signed i ▸ value, fun j inside => signed i ▸ signed j ▸ least j inside⟩
    · obtain ⟨u, next, kept, leaves⟩ := vred_least ready o 2 _ (keptBy_max (redWidth t) _)
      refine ⟨u, next, kept, fun int can => ?_⟩
      obtain ⟨i, here, value, least⟩ := leaves int can
      exact ⟨i, here, signed i ▸ value, fun j inside => signed i ▸ signed j ▸ neg_le_neg_iff.mp (least j inside)⟩
    · intro float ordered f reduces
      subst ordered
      exact ⟨State.vred_tree ready 0 float, State.vred_tree ready 1 float, State.vred_tree ready 2 float⟩

end Sys2Proof.Proofs
end

section
/-! SUPPORT. Memory stays in its canonical form (log entry 1) through every operation of the model: one lemma for each
operation, named after it, so that a proof reads like the operation's definition. An operation that leaves memory alone
has `h` itself for its proof. First come the forms that the definitions share (branches, folds and results), then the
parts of the state, memory, caches and walks. -/
namespace Sys2Proof.Machine
variable {s t : State}

/-- Memory is canonical in the state that an outcome leaves, if it leaves one. -/
def OutWf : Out → Prop
  | .next t => t.memWf
  | _ => True

/-- Memory is canonical in what a result gives, if it gives a state. -/
def OkWf {ε : Type} : Except ε State → Prop
  | .ok t => t.memWf
  | .error _ => True

/-- Memory is canonical in the state that a fetch leaves. -/
def Fetched.memWf : Fetched → Prop
  | .words s _ => s.memWf
  | .stop s => s.memWf

theorem State.memWf.of_mem (h : s.memWf) (e : t.mem = s.mem) : t.memWf := State.memWf_congr e h

theorem State.memWf.of_fst {α : Type} {a : α} {p : State × α} (h : p.1.memWf) (e : p = (t, a)) : t.memWf := by
  rw [e] at h; exact h

theorem State.memWf.ite {c : Prop} [Decidable c] (hs : s.memWf) (ht : t.memWf) : (if c then s else t).memWf := by
  split <;> assumption

theorem State.memWf.iteThen {c : Prop} [Decidable c] (h : s.memWf) (hf : s.memWf → t.memWf) :
    (if c then t else s).memWf := .ite (hf h) h

theorem State.memWf.iteElse {c : Prop} [Decidable c] (h : s.memWf) (hf : s.memWf → t.memWf) :
    (if c then s else t).memWf := .ite h (hf h)

theorem State.memWf.iteFst {α : Type} {p q : State × α} {c : Prop} [Decidable c] (hp : p.1.memWf) (hq : q.1.memWf) :
    (if c then p else q).1.memWf := by
  split <;> assumption

theorem State.memWf.foldl {α : Type} {xs : List α} {f : State → α → State} (h : s.memWf)
    (hf : ∀ t x, t.memWf → (f t x).memWf) : (xs.foldl f s).memWf := s.memWf_foldl xs f hf h

theorem State.memWf.foldlFst {α β : Type} {xs : List α} {f : State × β → α → State × β} {p : State × β}
    (h : p.1.memWf) (hf : ∀ p a, p.1.memWf → (f p a).1.memWf) : (xs.foldl f p).1.memWf := by
  induction xs generalizing p with
  | nil => exact h
  | cons a xs ih => exact ih (hf p a h)

theorem State.memWf.getD {o : Option State} (ho : ∀ t, o = some t → t.memWf) (h : s.memWf) : (o.getD s).memWf := by
  cases o with
  | none => exact h
  | some t => exact ho t rfl

theorem OutWf.next (h : t.memWf) : OutWf (.next t) := h

theorem OutWf.ite {c : Prop} [Decidable c] {o o' : Out} (hs : OutWf o) (ht : OutWf o') :
    OutWf (if c then o else o') := by
  split <;> assumption

theorem OkWf.ok {ε : Type} (h : t.memWf) : OkWf (.ok t : Except ε State) := h

theorem OkWf.ite {ε : Type} {c : Prop} [Decidable c] {x y : Except ε State} (hx : OkWf x) (hy : OkWf y) :
    OkWf (if c then x else y) := by
  split <;> assumption

theorem OkWf.state {ε : Type} {x : Except ε State} (h : OkWf x) (eq : x = .ok t) : t.memWf := by
  rw [eq] at h; exact h

theorem OkWf.foldl {ε α : Type} {xs : List α} {f : Except ε State → α → Except ε State} {x : Except ε State}
    (h : OkWf x) (hf : ∀ x a, OkWf x → OkWf (f x a)) : OkWf (xs.foldl f x) := by
  induction xs generalizing x with
  | nil => exact h
  | cons a xs ih => exact ih (hf x a h)

theorem Fetched.memWf.ite {c : Prop} [Decidable c] {a b : Fetched} (ha : a.memWf) (hb : b.memWf) :
    (if c then a else b).memWf := by
  split <;> assumption

theorem Fetched.memWf.stop (h : s.memWf) : (Fetched.stop s).memWf := h

theorem State.memWf.modThread {u f} (h : s.memWf) : (s.modThread u f).memWf := h
theorem State.memWf.putSlot {q x} (h : s.memWf) : (s.putSlot q x).memWf := h
theorem State.memWf.modSlot {q f} (h : s.memWf) : (s.modSlot q f).memWf := h
theorem State.memWf.modCore {c f} (h : s.memWf) : (s.modCore c f).memWf := h
theorem State.memWf.modCluster {c f} (h : s.memWf) : (s.modCluster c f).memWf := h
theorem State.memWf.modFunc {n f} (h : s.memWf) : (s.modFunc n f).memWf := h
theorem State.memWf.modQueue {vf q f} (h : s.memWf) : (s.modQueue vf q f).memWf := h
theorem State.memWf.modFam {fk f} (h : s.memWf) : (s.modFam fk f).memWf := h
theorem State.memWf.modPkg {f} (h : s.memWf) : (s.modPkg f).memWf := h
theorem State.memWf.putReq {id r} (h : s.memWf) : (s.putReq id r).memWf := h

theorem State.memWf.modReq {id f} (h : s.memWf) : (s.modReq id f).memWf := by
  unfold State.modReq
  split <;> exact h

theorem State.memWf.addReq {r} (h : s.memWf) : (s.addReq r).memWf := h
theorem State.memWf.send {m} (h : s.memWf) : (s.send m).memWf := h
theorem State.memWf.sendWith {c m} (h : s.memWf) : (s.sendWith c m).memWf := h
theorem State.memWf.putMsg {id m} (h : s.memWf) : (s.putMsg id m).memWf := h
theorem State.memWf.delMsg {id} (h : s.memWf) : (s.delMsg id).memWf := h
theorem State.memWf.countWrite {die} (h : s.memWf) : (s.countWrite die).1.memWf := h
theorem State.memWf.addRecord {r} (h : s.memWf) : (s.addRecord r).memWf := h

theorem State.memWf.modRecord {id f} (h : s.memWf) : (s.modRecord id f).memWf := by
  unfold State.modRecord
  split <;> exact h

theorem State.memWf.modCur {f} (h : s.memWf) : (s.modCur f).memWf := h
theorem State.memWf.draw (h : s.memWf) : (s.draw).memWf := h
theorem State.memWf.markDirty {a} (h : s.memWf) : (s.markDirty a).memWf := .of_mem h (s.markDirty_mem a)
theorem State.memWf.markRange {a n} (h : s.memWf) : (s.markRange a n).memWf := .of_mem h (s.markRange_mem a n)
theorem State.memWf.poke {a bs} (h : s.memWf) : (s.poke a bs).memWf := s.memWf_poke a bs h

theorem State.memWf.writeBytes {key a bs} (h : s.memWf) : (s.writeBytes key a bs).memWf :=
  s.memWf_writeBytes key a bs h

theorem State.memWf.tellDie {die c} (h : s.memWf) : (s.tellDie die c).memWf := h
theorem State.memWf.answerWaits {a always} (h : s.memWf) : (s.answerWaits a always).memWf := h
theorem State.memWf.emptyBarriers {a n} (h : s.memWf) : (s.emptyBarriers a n).memWf := h

theorem State.memWf.homeWrite {vf va key a bs} (h : s.memWf) : (s.homeWrite vf va key a bs).memWf :=
  s.memWf_homeWrite vf va key a bs h

theorem State.memWf.phaseWrite {key a w} (h : s.memWf) : (s.phaseWrite key a w).memWf := .answerWaits (.writeBytes h)

theorem State.memWf.agentStore {vf va key a bs} (h : s.memWf) : (s.agentStore vf va key a bs).memWf :=
  .ite h (.homeWrite h)

theorem State.memWf.staleFills {core p} (h : s.memWf) : (s.staleFills core p).memWf := h
theorem State.memWf.emptyCache {core} (h : s.memWf) : (s.emptyCache core).memWf := h
theorem State.memWf.storeLine {core a bs} (h : s.memWf) : (s.storeLine core a bs).memWf := h

theorem State.memWf.walkFrom {vf va write both n tb} (h : s.memWf) : (s.walkFrom vf va write both n tb).1.memWf := by
  induction n generalizing tb with
  | zero => exact h
  | succ lv ih =>
    exact .iteFst h (.iteFst h (.iteFst h (.iteFst (.iteFst h (.ite (.poke h) h)) (.iteFst h ih))))

theorem State.memWf.setNums {a n t} (h : s.memWf) : (s.setNums a n t).memWf := h
theorem State.memWf.latestMapped {x t} (h : s.memWf) : (s.latestMapped x t).memWf := .ite h h

theorem State.memWf.latestFound {x} (h : s.memWf) : (s.latestFound x).memWf := by
  unfold State.latestFound
  dsimp only
  split
  · exact .ite h (.latestMapped h)
  · exact .latestMapped h

theorem State.memWf.noteWalk {vf va f} (h : s.memWf) : (s.noteWalk vf va f).memWf := by
  unfold State.noteWalk
  split
  · exact .ite (.latestFound h) h
  · exact .ite h h

theorem State.memWf.walk {vf va write both} (h : s.memWf) : (s.walk vf va write both).1.memWf := by
  unfold State.walk
  split
  next e => exact .noteWalk (.of_fst (.walkFrom h) e)

theorem State.memWf.latestLeaves {e} (h : s.memWf) : (s.latestLeaves e).memWf := by
  unfold State.latestLeaves
  dsimp only
  split
  · exact h
  · exact .ite h (.ite h h)

theorem State.memWf.lookup {core vf va acc} (h : s.memWf) : (s.lookup core vf va acc).1.memWf := by
  unfold State.lookup
  split
  · exact h
  · split <;> exact h

theorem State.memWf.joinWalk {u core vf va acc} (h : s.memWf) : (s.joinWalk u core vf va acc).1.memWf := by
  unfold State.joinWalk
  split <;> exact h

theorem State.memWf.engineReach {core vf acc align va} (h : s.memWf) :
    (s.engineReach core vf acc align va).1.memWf := by
  unfold State.engineReach
  split
  · exact h
  · exact h
  · exact h
  · split
    next e => split <;> exact .of_fst (.walk h) e

end Sys2Proof.Machine
end

section
/-! SUPPORT. Memory stays canonical through threads: registers, records, slots, starts and ends, faults. -/
namespace Sys2Proof.Machine
variable {s t : State}

theorem State.memWf.sendFill {c u m} (h : s.memWf) : (s.sendFill c u m).memWf := h

theorem State.memWf.sendDep {t i v} (h : s.memWf) : (s.sendDep t i v).memWf := by
  unfold State.sendDep
  refine .ite h ?_
  split <;> exact h

theorem State.memWf.landGpr {u n v} (h : s.memWf) : (s.landGpr u n v).memWf := .ite h (.ite (.sendDep h) (.ite h h))
theorem State.memWf.writeGpr {r v} (h : s.memWf) : (s.writeGpr r v).memWf := .landGpr h
theorem State.memWf.pendGpr {r f} (h : s.memWf) : (s.pendGpr r f).memWf := .ite h h
theorem State.memWf.emptyGpr {r} (h : s.memWf) : (s.emptyGpr r).memWf := .ite h h
theorem State.memWf.writeVec {v x} (h : s.memWf) : (s.writeVec v x).memWf := h

theorem State.memWf.dropClaim {id slot helper} (h : s.memWf) : (s.dropClaim id slot helper).memWf := by
  unfold State.dropClaim
  dsimp only
  split
  · exact .ite h h
  · exact h

theorem State.memWf.sendHelp {u fk want} (h : s.memWf) : (s.sendHelp u fk want).memWf := by
  unfold State.sendHelp
  split <;> exact h

theorem State.memWf.helpArmed {u id} (h : s.memWf) : (s.helpArmed u id).memWf := by
  unfold State.helpArmed
  dsimp only
  split
  · exact h
  · refine .ite h ?_
    split
    · split
      · exact h
      · exact .ite (.sendHelp h) h
    · refine .ite h ?_
      split
      · exact h
      · exact .ite (.sendHelp h) h
    · exact h

theorem State.memWf.markFrame {q} (h : s.memWf) : (s.markFrame q).memWf := .markDirty h

theorem State.memWf.areaReach {core vf level acc va p} (h : s.memWf)
    (e : s.areaReach core vf level acc va = .ok (t, p)) : t.memWf := by
  unfold State.areaReach at e
  split at e
  · cases e
  next x =>
    split_ifs at e
    cases e
    exact .of_fst (.engineReach h) x

theorem State.memWf.emptyFor {u} (h : s.memWf) : (s.emptyFor u).memWf := by
  unfold State.emptyFor
  split <;> exact h

theorem State.memWf.learnAt {u c} (h : s.memWf) : (s.learnAt u c).memWf := .ite h h
theorem State.memWf.acquireFor {u} (h : s.memWf) : (s.acquireFor u).memWf := .modThread (.emptyFor h)

theorem State.memWf.areaWrite {q vf va bs} (h : s.memWf) (e : s.areaWrite q vf va bs = .ok t) : t.memWf := by
  unfold State.areaWrite at e
  split at e
  · cases e
  next x =>
    split_ifs at e
    cases e
    exact .agentStore (.areaReach h x)

theorem State.memWf.syncRecord {u} (h : s.memWf) : (s.syncRecord u).memWf := by
  unfold State.syncRecord
  dsimp only
  split
  · exact h
  · split
    next eq => exact .areaWrite h eq
    · exact h

theorem State.memWf.landFill {u n f v} (h : s.memWf) : (s.landFill u n f v).memWf :=
  .iteThen (.ite h h) fun h => .syncRecord (.landGpr h)

theorem State.memWf.wake {core} (h : s.memWf) : (s.wake core).memWf := .ite h h

theorem State.memWf.checkHandles {u} (h : s.memWf) : (s.checkHandles u).memWf := by
  unfold State.checkHandles
  refine .foldl h fun _ _ h => ?_
  split
  · split <;> exact h
  · exact h

theorem State.memWf.enterSlot {u q} (h : s.memWf) : (s.enterSlot u q).memWf :=
  .checkHandles (.modThread (.iteThen (.draw (.modSlot (.wake h))) .emptyCache))

theorem State.memWf.freeSlot {q} (h : s.memWf) : (s.freeSlot q).memWf := h

theorem State.memWf.readHelper {h' q d} (h : s.memWf) : (s.readHelper h' q d).memWf := by
  unfold State.readHelper
  extract_lets x lose read
  have h : read.memWf := by
    simp only [read]
    split
    · exact .modThread h
    · exact .modThread h
  clear_value read
  refine .ite h ?_
  split
  · exact .modSlot h
  · exact .modThread h

theorem State.memWf.popHelper {q} (h : s.memWf) : (s.popHelper q).memWf := by
  unfold State.popHelper
  dsimp only
  split
  · exact h
  · split
    · exact .modThread (.checkHandles (.readHelper h))
    · split
      · exact .modThread (.modThread (.checkHandles (.readHelper h)))
      · exact .helpArmed (.modThread (.checkHandles (.readHelper h)))

theorem State.memWf.dropWaits {q} (h : s.memWf) : (s.dropWaits q).memWf := h

theorem State.memWf.leaveSlot {u} (h : s.memWf) : (s.leaveSlot u).memWf := by
  unfold State.leaveSlot
  split
  · exact .ite (.popHelper h) h
  · exact h
  · exact h
  · exact h
  · exact h

theorem State.memWf.park {u held} (h : s.memWf) : (s.park u held).memWf := .modFam (.modThread (.leaveSlot h))

theorem State.memWf.passThrough {u} (h : s.memWf) : (s.passThrough u).memWf := by
  unfold State.passThrough
  dsimp only
  refine .foldl h fun _ _ h => ?_
  refine .ite h ?_
  split
  · exact .sendDep h
  · exact .ite h h
  · exact .sendDep h

theorem State.memWf.dropShared {u} (h : s.memWf) : (s.dropShared u).memWf := .ite h h
theorem State.memWf.dropFaulted {u} (h : s.memWf) : (s.dropFaulted u).memWf := h

theorem State.memWf.endThread {u how} (h : s.memWf) : (s.endThread u how).memWf := by
  unfold State.endThread
  refine .ite h (.sendWith (.modThread (.leaveSlot ?_)))
  have sent (w : State) (hw : w.memWf) (o : Option Nat) : (match o with
      | some x => w.modThread x (fun x => { x with helped := x.helped ++ [u] })
      | none => w).memWf := by
    cases o
    · exact hw
    · exact .modThread hw
  cases how with
  | ret => exact sent _ (.passThrough h) _
  | killed => exact sent _ (.foldl (.dropFaulted (.dropShared h)) fun _ _ h => .ite (.send h) h) _
  | _ => exact sent _ (.iteThen (.passThrough h) .send) _

theorem State.memWf.raiseAt {u pc code cause addr type level} (h : s.memWf) :
    (s.raiseAt u pc code cause addr type level).memWf := by
  unfold State.raiseAt
  extract_lets x q parks t
  have h : t.memWf := .addRecord h
  exact .ite (.modThread h) (.endThread h)

theorem State.memWf.raiseFor {u code cause addr type level} (h : s.memWf) :
    (s.raiseFor u code cause addr type level).memWf :=
  .raiseAt h

theorem State.memWf.raiseNow {code cause addr type level} (h : s.memWf) :
    (s.raiseNow code cause addr type level).memWf :=
  .ite (.raiseFor h) h

theorem State.memWf.raise {code cause addr type} (h : s.memWf) : (s.raise code cause addr type).memWf := .raiseNow h

theorem State.memWf.sendHeld {core cell} (h : s.memWf) : (s.sendHeld core cell).memWf := by
  unfold State.sendHeld
  dsimp only
  refine .ite h ?_
  split
  · exact h
  · exact .modCore (.addReq (.iteFst h h))

theorem State.memWf.rename {id r} (h : s.memWf) : (s.rename id r).memWf := by
  unfold State.rename
  dsimp only
  split
  · exact .modThread (.modCore (.addReq h))
  · exact .modCore (.addReq h)

theorem State.memWf.releaseLdlo {core cell} (h : s.memWf) : (s.releaseLdlo core cell).memWf :=
  .foldl h fun _ _ h => .rename h

theorem State.memWf.leaveQueue {id core cell} (h : s.memWf) : (s.leaveQueue id core cell).memWf :=
  .releaseLdlo (.sendHeld h)

theorem State.memWf.dropReq {id r} (h : s.memWf) : (s.dropReq id r).memWf := .ite (.leaveQueue h) h

theorem State.memWf.faultReq {u id r code cause level} (h : s.memWf) : (s.faultReq u id r code cause level).memWf :=
  .ite (.raiseAt h) (.raiseAt (.dropReq h))

theorem State.memWf.issueAgain {id r p} (h : s.memWf) : (s.issueAgain id r p).memWf :=
  .rename (.iteFst (.countWrite (.ite h h)) (.ite h h))

theorem State.memWf.resend {id r} (h : s.memWf) : (s.resend id r).memWf := by
  unfold State.resend
  split
  next eq => exact .ite (.dropReq h) (.issueAgain (.of_fst (.engineReach h) eq))
  · exact .dropReq h

theorem State.memWf.resumeThread {u id rec action setl0 val} (h : s.memWf) :
    (s.resumeThread u id rec action setl0 val).memWf :=
  .ite (.foldl h fun _ _ h => .ite (.dropReq h) (.resend h))
    (.ite (.endThread (.foldl h fun _ _ h => .dropReq h)) (.modThread (.ite h h)))

end Sys2Proof.Machine
end

section
/-! SUPPORT. Memory stays canonical through the issue of an instruction and the waits before memory. -/
namespace Sys2Proof.Machine
variable {s t : State}

theorem State.memWf.suspend {w} (h : s.memWf) : (s.suspend w).memWf := h
theorem OutWf.await {w} (h : s.memWf) : OutWf (s.await w) := .next h

theorem State.memWf.blockOn {r} (h : s.memWf) : (s.blockOn r).memWf := by
  unfold State.blockOn
  dsimp only
  split
  · split
    · exact .raise h
    · exact .ite (.sendHelp h) h
  · exact .iteThen (.helpArmed h) .suspend
  · exact h

theorem State.memWf.advance {m} (h : s.memWf) : (s.advance m).memWf := h

theorem State.memWf.consume {m a b} (h : s.memWf) : (s.consume m a b).memWf :=
  .iteThen (.iteThen (.ite (.emptyGpr h) h) .emptyGpr) .emptyGpr

theorem OutWf.issue {m priv n body} (h : s.memWf) (hb : OutWf body) : OutWf (s.issue m priv n body) := by
  unfold State.issue
  split
  · trivial
  · refine .ite (.next h) (.ite (.next (.raise h)) ?_)
    split
    · exact hb
    · exact .next (.raise h)
    · exact .next (.blockOn h)
    · exact .next h

theorem OutWf.finish {m a b f} (h : s.memWf) (hf : ∀ t, t.memWf → (f t).memWf) : OutWf (s.finish m a b f) :=
  .next (hf _ (.advance (.consume h)))

theorem OutWf.finishOwing {m a f} (h : s.memWf) (hf : ∀ t, t.memWf → (f t).memWf) : OutWf (s.finishOwing m a f) :=
  .next (hf _ h)

theorem OutWf.fail {code cause addr type} (h : s.memWf) : OutWf (s.fail code cause addr type) := .next (.raise h)

theorem OutWf.withResv {n body} (h : s.memWf) (hb : ∀ t, t.memWf → OutWf (body t)) : OutWf (s.withResv n body) :=
  .ite (hb _ h) (.next h)

theorem OutWf.ordered {rel body} (h : s.memWf) (hb : OutWf body) : OutWf (s.ordered rel body) :=
  .ite (.next h) (.ite (.next h) hb)

/-- An address that is reached, or that misses, leaves memory canonical. -/
theorem State.memWf.reach {u core vf acc align va p} (h : s.memWf) (eq : s.reach u core vf acc align va = .ok t p) :
    t.memWf := by
  unfold State.reach at eq
  split at eq
  · cases eq
  · cases eq; exact h
  · cases eq; exact h
  · split at eq
    next found => cases eq; exact .of_fst (.lookup h) found
    next => cases eq

theorem State.memWf.reachMiss {u core vf acc align va w} (h : s.memWf)
    (eq : s.reach u core vf acc align va = .miss t w) : t.memWf := by
  unfold State.reach at eq
  split at eq
  · cases eq
  · cases eq
  · cases eq
  · split at eq
    next => cases eq
    next found => cases eq; exact .joinWalk (.of_fst (.lookup h) found)

theorem OutWf.access {acc align va body} (h : s.memWf) (hb : ∀ t p, t.memWf → OutWf (body t p)) :
    OutWf (s.access acc align va body) := by
  unfold State.access
  dsimp only
  split
  · exact .fail h
  next eq => exact .ite (.next (.suspend (.modCore (.reachMiss h eq)))) (.next h)
  next eq => exact .ite (.fail (.reach h eq)) (hb _ _ (.reach h eq))

theorem OutWf.divide {m a b d vec val flags more} (h : s.memWf) (hm : ∀ t, t.memWf → (more t).memWf) :
    OutWf (s.divide m a b d vec val flags more) :=
  .ite (.finish h fun _ h => hm _ (.ite h (.pendGpr h))) (.next h)

theorem State.memWf.orFlags {u fl} (h : s.memWf) : (s.orFlags u fl).memWf := h
theorem State.memWf.bumpSeed {stochastic} (h : s.memWf) : (s.bumpSeed stochastic).memWf := .ite h h
theorem State.memWf.floatDone {m rounds fl} (h : s.memWf) : (s.floatDone m rounds fl).memWf := .bumpSeed h

end Sys2Proof.Machine
end

section
/-! SUPPORT. Memory stays canonical through what homes do with requests. -/
namespace Sys2Proof.Machine
variable {s t : State}

theorem State.memWf.learn {r} (h : s.memWf) : (s.learn r).memWf := .ite h h
theorem State.memWf.homeDone {id r r'} (h : s.memWf) : (s.homeDone id r r').memWf := .learn h
theorem State.memWf.reply {id r data} (h : s.memWf) : (s.reply id r data).memWf := .homeDone h
theorem State.memWf.replyErr {id r code cause} (h : s.memWf) : (s.replyErr id r code cause).memWf := .homeDone h
theorem State.memWf.armReq {id r w} (h : s.memWf) : (s.armReq id r w).memWf := .learn h

theorem State.memWf.serve {id r reads f} (h : s.memWf) (hf : ∀ t, t.memWf → (f t).memWf) :
    (s.serve id r reads f).memWf := by
  unfold State.serve
  split
  · exact .replyErr h
  · exact hf _ (.learn h)

theorem State.memWf.serveLoad {id r} (h : s.memWf) : (s.serveLoad id r).memWf := .serve h fun _ h => .draw (.reply h)

theorem State.memWf.serveStore {id r} (h : s.memWf) : (s.serveStore id r).memWf :=
  .serve h fun _ h => .ite (.replyErr h) (.reply (.homeWrite h))

theorem State.memWf.serveRed {id fmt oper r} (h : s.memWf) : (s.serveRed id fmt oper r).memWf :=
  .serve h fun _ h => .ite (.replyErr h) (.reply (.homeWrite h))

theorem State.memWf.serveFrameWrite {id r} (h : s.memWf) : (s.serveFrameWrite id r).memWf := .serveStore h

theorem State.memWf.serveFrameRead {id r} (h : s.memWf) : (s.serveFrameRead id r).memWf :=
  .serve h fun _ h => .ite (.replyErr h) (.reply h)

theorem State.memWf.serveAtom {id op r} (h : s.memWf) : (s.serveAtom id op r).memWf := by
  unfold State.serveAtom
  dsimp only
  refine .serve h fun _ h => ?_
  split
  · exact h
  · exact .reply (.homeWrite h)
  · refine .foldl (.modCluster (.homeWrite h)) fun _ _ h => ?_
    split
    · exact .reply h
    · exact h

theorem State.memWf.answerReq {id data} (h : s.memWf) : (s.answerReq id data).memWf := .modReq h
theorem State.memWf.writeWord {r w} (h : s.memWf) : (s.writeWord r w).memWf := .homeWrite h

theorem State.memWf.serveLdfe {id r} (h : s.memWf) : (s.serveLdfe id r).memWf := by
  unfold State.serveLdfe
  dsimp only
  refine .serve h fun _ h => ?_
  refine .ite ?_ (.armReq h)
  split
  · exact .reply (.answerReq (.writeWord h))
  · exact .reply (.writeWord h)

theorem State.memWf.serveStfe {id r} (h : s.memWf) : (s.serveStfe id r).memWf := by
  unfold State.serveStfe
  refine .serve h fun _ h => ?_
  split
  · exact .reply (.answerReq (.writeWord h))
  · exact .ite (.armReq h) (.reply (.writeWord h))

theorem State.memWf.serveTkget {id r} (h : s.memWf) : (s.serveTkget id r).memWf :=
  .serve h fun _ h => .reply (.writeWord h)

theorem State.memWf.serveTkadv {id r} (h : s.memWf) : (s.serveTkadv id r).memWf :=
  .serve h fun _ h => .reply (.writeWord h)

theorem State.memWf.serveWait {id r} (h : s.memWf) : (s.serveWait id r).memWf :=
  .serve h fun _ h => .ite (.reply h) (.armReq h)

theorem State.memWf.serveLkacq {id r} (h : s.memWf) : (s.serveLkacq id r).memWf :=
  .serve h fun _ h => .ite (.reply (.writeWord h)) (.armReq h)

theorem State.memWf.serveLkrel {id r} (h : s.memWf) : (s.serveLkrel id r).memWf := by
  unfold State.serveLkrel
  refine .serve h fun _ h => ?_
  split
  · exact .reply (.answerReq (.writeWord h))
  · exact .reply (.writeWord h)

theorem State.memWf.putBarrier {b} (h : s.memWf) : (s.putBarrier b).memWf := h

theorem State.memWf.completePhases {r a n} (h : s.memWf) : (s.completePhases r a n).memWf := by
  induction n generalizing s with
  | zero => exact h
  | succ n ih => exact .ite h (ih (.foldl (.putBarrier (.phaseWrite h)) fun _ _ h => .answerReq h))

theorem State.memWf.completeAll {r} (h : s.memWf) : (s.completeAll r).memWf := .completePhases h

theorem State.memWf.serveJoin {id r} (h : s.memWf) : (s.serveJoin id r).memWf :=
  .serve h fun _ h => .ite (.reply h) (.ite (.replyErr h) (.reply h))

theorem State.memWf.serveDrop {id r} (h : s.memWf) : (s.serveDrop id r).memWf := by
  unfold State.serveDrop
  dsimp only
  refine .serve h fun _ h => ?_
  split
  · exact .replyErr h
  · exact .reply (.completeAll h)

theorem State.memWf.serveArrive {id r} (h : s.memWf) : (s.serveArrive id r).memWf := by
  unfold State.serveArrive
  dsimp only
  refine .serve h fun _ h => ?_
  split
  · exact .replyErr h
  · exact .ite (.armReq h) (.reply (.completeAll h))

theorem State.memWf.haccPlace {r e} (h : s.memWf) : (s.haccPlace r e).1.memWf := by
  unfold State.haccPlace
  split
  next eq => exact .of_fst (.engineReach h) eq
  next eq => exact .iteFst (.of_fst (.engineReach h) eq) (.of_fst (.engineReach h) eq)

theorem State.memWf.haccProbe {r f env cap start key val n j b fl} (h : s.memWf)
    (eq : s.haccProbe r f env cap start key val n j = .ok (t, b, fl)) : t.memWf := by
  induction n generalizing s j with
  | zero => cases eq; exact h
  | succ n ih =>
    unfold State.haccProbe at eq
    split at eq
    next => cases eq
    next found =>
      have h := State.memWf.of_fst (.haccPlace h) found
      dsimp only at eq
      split at eq
      · cases eq; exact .homeWrite h
      · split at eq
        · cases eq; exact .writeWord (.homeWrite h)
        · exact ih h eq

theorem State.memWf.haccLanes {r f cap probe lg all ps fl un g} (h : s.memWf)
    (e : s.haccLanes r f cap probe lg all ps fl = .ok (t, un, g)) : t.memWf := by
  induction ps generalizing s fl with
  | nil => cases e; exact h
  | cons p ps ih =>
    unfold State.haccLanes at e
    split_ifs at e
    · exact ih h e
    · dsimp only at e
      split at e
      · cases e
      next x => exact ih (.haccProbe h x) e
      next x => cases e; exact .haccProbe h x

theorem State.memWf.serveHacc {id u f r} (h : s.memWf) : (s.serveHacc id u f r).memWf := by
  unfold State.serveHacc
  dsimp only
  refine .serve h fun _ h => ?_
  refine .ite (.reply h) ?_
  split
  · exact .replyErr h
  next eq => exact .draw (.reply (.haccLanes h eq))

theorem State.memWf.serveLdlo {id r} (h : s.memWf) : (s.serveLdlo id r).memWf := .serve h fun _ h => .reply h

theorem State.memWf.serveStlo {id md r} (h : s.memWf) : (s.serveStlo id md r).memWf :=
  .serve h fun _ h => .reply (.iteThen (.ite (.of_mem (.writeWord h) rfl) (.ite h h)) .answerWaits)

theorem State.memWf.dispatch {r} (h : s.memWf) : (s.dispatch r).memWf := .ite h h

theorem State.memWf.serveReq {id r} (h : s.memWf) : (s.serveReq id r).memWf := by
  unfold State.serveReq
  split
  · exact .serveLoad h
  · exact .serveLoad h
  · exact .serveStore h
  · exact .serveAtom h
  · exact .serveLdfe h
  · exact .serveStfe h
  · exact .serveTkget h
  · exact .serveWait h
  · exact .serveTkadv h
  · exact .serveWait h
  · exact .serveLkacq h
  · exact .serveLkrel h
  · exact .serveJoin h
  · exact .serveArrive h
  · exact .serveDrop h
  · exact .serveHacc h
  · exact .serveLdlo h
  · exact .serveStlo h
  · exact .serveWait h
  · exact .serveFrameWrite h
  · exact .serveFrameRead h
  · exact .serveRed h

theorem State.memWf.serveAtHome {id p} (h : s.memWf) : (s.serveAtHome id p).memWf := by
  unfold State.serveAtHome
  split
  · exact .serveReq h
  · exact h

end Sys2Proof.Machine
end

section
/-! SUPPORT. Memory stays canonical through window frames, and what cores do with what lands. -/
namespace Sys2Proof.Machine
variable {s t : State}

theorem State.memWf.spillOldest {q} (h : s.memWf) (eq : s.spillOldest q = .ok t) : t.memWf := by
  unfold State.spillOldest at eq
  split at eq
  · cases eq; exact h
  · dsimp only at eq
    split at eq
    next => cases eq
    next written => cases eq; exact .modSlot (.areaWrite h written)

theorem State.memWf.spillAll {q n} (h : s.memWf) (e : s.spillAll q n = .ok t) : t.memWf := by
  induction n generalizing s with
  | zero => cases e; exact h
  | succ n ih =>
    unfold State.spillAll at e
    split at e
    · cases e
    next x => exact ih (.spillOldest h x) e

theorem State.memWf.sendFrame {q u} (h : s.memWf) (e : s.sendFrame q u = .ok t) : t.memWf := by
  unfold State.sendFrame at e
  dsimp only at e
  split at e
  · cases e; exact h
  · split at e
    · cases e
    next x => cases e; exact .dispatch (.areaReach h x)

theorem State.memWf.sendFrames {q u n} (h : s.memWf) (e : s.sendFrames q u n = .ok t) : t.memWf := by
  induction n generalizing s with
  | zero => cases e; exact h
  | succ n ih =>
    unfold State.sendFrames at e
    split at e
    · cases e
    next x => exact ih (.sendFrame h x) e

theorem State.memWf.askFrame (h : s.memWf) (e : s.askFrame = .ok t) : t.memWf := by
  unfold State.askFrame at e
  dsimp only at e
  split at e
  · cases e
  next x => cases e; exact .dispatch (.areaReach h x)

theorem State.memWf.landed {r} (h : s.memWf) : (s.landed r).memWf := by
  unfold State.landed
  dsimp only
  refine .ite ?_ (.iteThen (.ite h h) .staleFills)
  split
  · exact .modThread (.iteThen (.ite h h) .staleFills)
  · exact .iteThen (.ite h h) .staleFills

theorem State.memWf.installLine {id r} (h : s.memWf) : (s.installLine id r).memWf := .ite h (.ite h h)
theorem State.memWf.landVector {q v ls line} (h : s.memWf) : (s.landVector q v ls line).memWf := h

theorem State.memWf.landErr {id r code cause} (h : s.memWf) : (s.landErr id r code cause).memWf := by
  unfold State.landErr
  dsimp only
  split
  · exact h
  · exact .ite (.ite (.sendDep h) h) (.ite h (.ite (.raiseFor h) (.faultReq h)))

theorem State.memWf.landData {id r} (h : s.memWf) : (s.landData id r).memWf := by
  unfold State.landData
  dsimp only
  split
  · exact .landGpr (.installLine (.landed h))
  · exact .iteElse (.installLine (.landed h)) .landVector
  · exact .orFlags (.landGpr (.landed h))
  · exact .orFlags (.landGpr (.landed h))
  · exact .landGpr (.landed h)

theorem State.memWf.releaseReply {id} (h : s.memWf) : (s.releaseReply id).memWf := by
  unfold State.releaseReply
  split
  · exact .ite h h
  · exact h

theorem State.memWf.land {id p f} (h : s.memWf) (hf : ∀ t r, t.memWf → (f t r).memWf) : (s.land id p f).memWf := by
  unfold State.land
  split
  · exact h
  · refine .ite h (.ite (.landed h) ?_)
    split
    · exact .landErr h
    · exact hf _ _ h

theorem State.memWf.landFrame {id r} (h : s.memWf) : (s.landFrame id r).memWf := by
  unfold State.landFrame
  dsimp only
  refine .ite h ?_
  split
  · exact .ite h (.raiseAt (.modSlot (.landed h)))
  · exact .modSlot (.landed h)
  · refine .ite (.iteElse (.landed h) .modSlot) ?_
    split
    · exact .modSlot (.markFrame (.landed h))
    · exact .landed h

theorem State.memWf.landReply {id} (h : s.memWf) : (s.landReply id).memWf := by
  unfold State.landReply
  split
  · exact .ite (.landFrame h) (.land h fun _ _ h => .landData h)
  · exact h

theorem State.memWf.landAck {id} (h : s.memWf) : (s.landAck id).memWf := by
  unfold State.landAck
  split
  · exact .ite (.landFrame h) (.land h fun _ _ h => .landed h)
  · exact h

theorem State.memWf.landAnswer {id} (h : s.memWf) : (s.landAnswer id).memWf :=
  .land h fun _ _ h =>
    .ite (.landFill (.iteThen (.landed h) .emptyFor)) (.iteThen (.iteThen (.landed h) .emptyFor) .syncRecord)

theorem State.memWf.landArmed {id} (h : s.memWf) : (s.landArmed id).memWf := by
  unfold State.landArmed
  dsimp only
  split
  · exact h
  · refine .ite h ?_
    split
    · exact .ite h h
    · exact .iteThen (.ite h h) .helpArmed

theorem State.memWf.noteMarker {u outcome md} (h : s.memWf) : (s.noteMarker u outcome md).memWf := .ite h h

theorem State.memWf.landLatest {id} (h : s.memWf) : (s.landLatest id).memWf := by
  unfold State.landLatest
  dsimp only
  split
  · exact h
  · split
    · refine .ite h ?_
      split
      · exact .ite (.dropReq (.landed h)) (.ite h (.faultReq (.landed h)))
      · exact .leaveQueue (.noteMarker (.landed h))
    · exact h

theorem State.memWf.landLdlo {id} (h : s.memWf) : (s.landLdlo id).memWf :=
  .land h fun _ _ h => .ite (.rename h) (.landGpr (.landGpr (.iteElse (.landed h) .modSlot)))

end Sys2Proof.Machine
end

section
/-! SUPPORT. Memory stays canonical through the scalar memory instructions and the atomics as they issue. -/
namespace Sys2Proof.Machine
variable {s t : State}

theorem State.memWf.post {r} (h : s.memWf) : (s.post r).memWf :=
  .iteElse (.dispatch h) fun h =>
    .iteElse (.serveAtHome h) fun h => .landArmed (.landAnswer (.landAck (.landReply h)))

theorem State.memWf.acquireIssue {wide} (h : s.memWf) : (s.acquireIssue wide).memWf := .ite h h
theorem State.memWf.dropPlace {p} (h : s.memWf) : (s.dropPlace p).memWf := .ite h h

theorem OutWf.homeAccess {rel size ea body} (h : s.memWf) (hb : ∀ t p, t.memWf → OutWf (body t p)) :
    OutWf (s.homeAccess rel size ea body) :=
  .ordered h (.access h fun _ _ h => .ite (.fail h) (.withResv h fun _ h => hb _ _ h))

theorem State.memWf.noteHit {a n} (h : s.memWf) : (s.noteHit a n).memWf := h

theorem OutWf.load {m src a b d ea size signed} (h : s.memWf) : OutWf (s.load m src a b d ea size signed) := by
  refine .issue h (.ordered h (.access h fun _ _ h => ?_))
  refine .ite (.finish h fun _ h => .landed (.writeGpr (.acquireIssue h))) ?_
  split
  · exact .finish h fun _ h => .writeGpr (.modCore (.noteHit h))
  · exact .withResv h fun _ h => .finish h fun _ h => .post (.pendGpr (.acquireIssue h))

theorem OutWf.store {m src a b d ea size} (h : s.memWf) : OutWf (s.store m src a b d ea size) :=
  .issue h
    (.ordered h
      (.access h fun _ _ h =>
        .ite (.fail h)
          (.ite (.finish h fun _ h => .homeWrite h) (.withResv h fun _ h => .finish h fun _ h => .post h))))

theorem OutWf.loadDisp {size signed d a i m} (h : s.memWf) : OutWf (s.loadDisp size signed d a i m) := .load h
theorem OutWf.storeDisp {size d a i m} (h : s.memWf) : OutWf (s.storeDisp size d a i m) := .store h

theorem OutWf.latestAccess {rel acc ea body} (h : s.memWf) (hb : ∀ t p, t.memWf → OutWf (body t p)) :
    OutWf (s.latestAccess rel acc ea body) :=
  .ordered h (.access h fun _ _ h => .ite (.fail h) (hb _ _ h))

theorem State.memWf.queueLatest {x} (h : s.memWf) : (s.queueLatest x).memWf := .releaseLdlo (.sendHeld h)

theorem OutWf.stlo {md a b m} (h : s.memWf) : OutWf (s.stlo md a b m) :=
  .issue h
    (.latestAccess h fun _ _ h => .ite (.fail h) (.withResv h fun _ h => .finish h fun _ h => .queueLatest h))

theorem State.memWf.closeGroup {g} (h : s.memWf) : (s.closeGroup g).memWf := by
  unfold State.closeGroup
  dsimp only
  refine .foldl h fun _ _ h => ?_
  split
  · exact .ite h h
  · exact h

theorem State.memWf.postAtomic {r} (h : s.memWf) : (s.postAtomic r).memWf := by
  unfold State.postAtomic
  dsimp only
  refine .ite (.post h) ?_
  refine .ite ?_ (.post (.ite h h))
  split
  · exact .ite (.closeGroup h) h
  · exact h

theorem OutWf.atomic {op order src d a b c m} (h : s.memWf) : OutWf (s.atomic op order src d a b c m) :=
  .issue h
    (.homeAccess h fun _ _ h =>
      .finish h fun _ h => .postAtomic (.bumpSeed (.pendGpr (.acquireIssue (.dropPlace h)))))

theorem OutWf.amo {op w o d a b m} (h : s.memWf) : OutWf (s.amo op w o d a b m) := .atomic h
theorem OutWf.famo {op w o d a b m} (h : s.memWf) : OutWf (s.famo op w o d a b m) := .atomic h

theorem OutWf.syncRelease {kind a m} (h : s.memWf) : OutWf (s.syncRelease kind a m) :=
  .issue h (.homeAccess h fun _ _ h => .finish h fun _ h => .post (.dropPlace h))

theorem State.memWf.postWait {p r} (h : s.memWf) : (s.postWait p r).memWf := .suspend (.post (.dropPlace h))

theorem OutWf.waitOp {eq a b m} (h : s.memWf) : OutWf (s.waitOp eq a b m) :=
  .issue h (.ordered h (.access h fun _ _ h => .withResv h fun _ h => .finish h fun _ h => .postWait h))

theorem OutWf.barrierOp {kind a m} (h : s.memWf) : OutWf (s.barrierOp kind a m) :=
  .issue h (.homeAccess h fun _ _ h => .finish h fun _ h => .postWait h)

end Sys2Proof.Machine
end

section
/-! SUPPORT. Memory stays canonical through control registers, system instructions, control transfer and the ends of
packets. -/
namespace Sys2Proof.Machine
variable {s t : State}

theorem State.memWf.zeroRange {a n} (h : s.memWf) : (s.zeroRange a n).memWf := s.memWf_zeroRange a n h

theorem State.memWf.cleanRange {a n} (h : s.memWf) : (s.cleanRange a n).memWf := by
  unfold State.cleanRange
  refine .foldl h fun _ _ h => ?_
  split <;> exact h

theorem State.memWf.answerRange {a n} (h : s.memWf) : (s.answerRange a n).memWf := h
theorem State.memWf.cleanStarts {a n stop} (h : s.memWf) : (s.cleanStarts a n stop).memWf := .ite (.cleanRange h) h

theorem State.memWf.setBadNums {bad nums} (h : s.memWf) : ({ s with bad := bad, nums := nums } : State).memWf := h

theorem State.memWf.scrubRange {a n stop} (h : s.memWf) : (s.scrubRange a n stop).memWf :=
  .answerRange (.emptyBarriers (.setBadNums (.cleanStarts (.zeroRange h))))

theorem State.memWf.freshRegion {k} (h : s.memWf) : (s.freshRegion k).memWf :=
  .ite (.zeroRange (.cleanRange (.zeroRange h))) (.ite (.cleanRange (.zeroRange h)) h)

theorem State.memWf.assign {k vf} (h : s.memWf) : (s.assign k vf).1.memWf :=
  .iteFst h (.iteFst h (.iteFst h (.iteFst h (.freshRegion h))))

theorem State.memWf.dutyRequest {n req} (h : s.memWf) : (s.dutyRequest n req).memWf := h

theorem State.memWf.keyload {vf w} (h : s.memWf) : (s.keyload vf w).memWf := by
  unfold State.keyload
  dsimp only
  refine .ite h ?_
  split <;> exact h

theorem OkWf.ctxWrite {k vf w} (h : s.memWf) : OkWf (s.ctxWrite k vf w) := by
  unfold State.ctxWrite
  dsimp only
  split
  case h_1 | h_7 | h_10 => exact .ok h
  all_goals exact .ite (.ok h) trivial

theorem OkWf.pwrcapWrite {w} (h : s.memWf) : OkWf (s.pwrcapWrite w) := .ite (.ok h) trivial

theorem OkWf.kregWrite {k w} (h : s.memWf) : OkWf (s.kregWrite k w) := by
  unfold State.kregWrite
  dsimp only
  refine .ite trivial (.ite trivial ?_)
  split
  case h_1 | h_3 | h_7 => exact .ite trivial (.ok h)
  case h_8 => exact .pwrcapWrite h
  case h_9 => exact .ite (.ok (.dutyRequest h)) (.ctxWrite h)
  all_goals exact .ok h

theorem OutWf.krdWhen {ready w k d m} (h : s.memWf) : OutWf (s.krdWhen ready w k d m) :=
  .issue h (.ite (.finish h fun _ h => .writeGpr h) (.await h))

theorem OutWf.preemptWrite {m a w} (h : s.memWf) : OutWf (s.preemptWrite m a w) :=
  .ite (.fail h) (.ite (.fail h) (.ite (.await h) (.finish h fun _ h => h)))

theorem State.memWf.answerRecord {vf seq action setl0 val} (h : s.memWf) :
    (s.answerRecord vf seq action setl0 val).1.memWf := by
  unfold State.answerRecord
  split
  · exact .send (.modRecord h)
  · exact h

theorem State.memWf.invalidate {w} (h : s.memWf) : (s.invalidate w).memWf :=
  .of_mem (.foldl h fun _ _ h => .latestLeaves h) rfl

theorem State.memWf.zeroKey {n} (h : s.memWf) : (s.zeroKey n).memWf := .ite h h

theorem State.memWf.scrubReport {vf done w} (h : s.memWf) : (s.scrubReport vf done w).memWf := by
  unfold State.scrubReport
  split
  · exact h
  · exact .homeWrite h

theorem State.memWf.startScrub {vf count done regions status value} (h : s.memWf) :
    (s.startScrub vf count done regions status value).memWf :=
  .ite (.scrubReport h) h

theorem OutWf.scrub {m a d} (h : s.memWf) : OutWf (s.scrub m a d) := by
  unfold State.scrub
  extract_lets c f level
  split
  · exact .next (.raiseNow h)
  · extract_lets _ placed
    have hp : placed.1.memWf := by
      refine .iteFst h ?_
      split
      next eq => exact .of_fst (.engineReach h) eq
      next eq =>
        have h := State.memWf.of_fst (.engineReach h) eq
        exact .iteFst h (.iteFst h (.iteFst h h))
    clear_value placed
    split
    · exact .next (.raiseNow hp)
    next =>
      have h : State.memWf _ := hp
      refine .ite (.finish h fun _ h => .startScrub h) ?_
      split
      · exact .next (.raiseNow h)
      · exact .finish h fun _ h => .startScrub h

theorem State.memWf.idleSpill {core} (h : s.memWf) : (s.idleSpill core).memWf := by
  unfold State.idleSpill
  dsimp only
  refine .ite h ?_
  split
  next eq => exact .sendFrame h eq
  · exact h

theorem State.memWf.transfer {pc} (h : s.memWf) : (s.transfer pc).memWf := h

theorem OutWf.branch {taken o m} (h : s.memWf) : OutWf (s.branch taken o m) :=
  .issue h (.finish h fun _ h => .ite h h)

theorem State.memWf.enter {target ret f} (h : s.memWf) : (s.enter target ret f).memWf :=
  .transfer (.modCur (.modSlot (.markFrame h)))

theorem OutWf.flushFrames {n} (h : s.memWf) : OutWf (s.flushFrames n) := by
  unfold State.flushFrames
  split
  · exact .next (.raiseNow h)
  next eq => exact .await (.sendFrames h eq)

theorem OutWf.call {target a m} (h : s.memWf) : OutWf (s.call target a m) :=
  .ite (.fail h)
    (.ite (.fail h)
      (.ite (.await h)
        (.ite (.await h)
          (.ite (.finish h fun _ h => .enter h) (.ite (.await h) (.withResv h fun _ h => .flushFrames h))))))

theorem State.memWf.putPacket {vf q n p} (h : s.memWf) : (s.putPacket vf q n p).memWf := h

theorem State.memWf.queueWrite {vf q tag addr w} (h : s.memWf) : (s.queueWrite vf q tag addr w).memWf := by
  unfold State.queueWrite
  dsimp only
  refine .ite h ?_
  split
  next eq => exact .addRecord (.of_fst (.engineReach h) eq)
  next s p eq =>
    exact .ite (.addRecord (.of_fst (.engineReach h) eq))
      (.ite (.addRecord (.of_fst (.engineReach h) eq)) (.agentStore (.of_fst (.engineReach h) eq)))

theorem State.memWf.packetDone {vf q n} (h : s.memWf) : (s.packetDone vf q n).memWf := by
  unfold State.packetDone
  dsimp only
  split
  · exact h
  · exact .ite h (.queueWrite h)

theorem State.memWf.packetEnds {vf q n addr w} (h : s.memWf) : (s.packetEnds vf q n addr w).memWf := by
  unfold State.packetEnds
  split
  · exact h
  · exact .packetDone (.queueWrite h)

theorem State.memWf.queueError {vf q code n} (h : s.memWf) : (s.queueError vf q code n).memWf := by
  unfold State.queueError
  dsimp only
  refine .modQueue ?_
  split
  · split
    · exact .modFam (.ite h h)
    · exact .ite h h
  · exact h

end Sys2Proof.Machine
end

section
/-! SUPPORT. Memory stays canonical through families and the instructions on them. -/
namespace Sys2Proof.Machine
variable {s t : State}

theorem State.memWf.dealMember {fk q} (h : s.memWf) : (s.dealMember fk q).memWf := .enterSlot h

theorem State.memWf.dealCore {fk c} (h : s.memWf) : (s.dealCore fk c).memWf :=
  .ite h (.foldl h fun _ _ h => .dealMember h)

theorem State.memWf.deal {fk} (h : s.memWf) : (s.deal fk).memWf :=
  .iteElse (.foldl h fun _ _ h => .dealCore h) fun h => .foldl h fun _ _ h => h

theorem State.memWf.makeFamily {fk x} (h : s.memWf) : (s.makeFamily fk x).memWf := .deal h

theorem State.memWf.freeEntryIf {fk} (h : s.memWf) : (s.freeEntryIf fk).memWf := by
  have dropped (s : State) (h : s.memWf) (cs : List (Nat × Nat × Option Nat)) :
      (cs.foldl (fun (s : State) c => s.dropClaim c.1 c.2.1 c.2.2) s).memWf := .foldl h fun _ _ h => .dropClaim h
  exact .ite h (.of_mem (dropped _ (.modFam h) _) rfl)

theorem State.memWf.launchOver {fk} (h : s.memWf) : (s.launchOver fk).memWf := h

theorem State.memWf.fixEnd {fk w results} (h : s.memWf) : (s.fixEnd fk w results).memWf := by
  unfold State.fixEnd
  dsimp only
  split
  · exact .freeEntryIf (.modFam (.foldl h fun _ _ h => h))
  · exact .ite (.freeEntryIf (.modFam (.foldl h fun _ _ h => h))) (.sendFill (.foldl h fun _ _ h => h))
  · exact .freeEntryIf (.launchOver (.packetEnds (.foldl h fun _ _ h => h)))

theorem State.memWf.checkEnd {fk} (h : s.memWf) : (s.checkEnd fk).memWf := by
  unfold State.checkEnd
  split
  · exact .fixEnd h
  · exact h

theorem State.memWf.linkSeen {fk k u} (h : s.memWf) : (s.linkSeen fk k u).memWf := h

theorem State.memWf.landDep {id fk k i v} (h : s.memWf) : (s.landDep id fk k i v).memWf := by
  unfold State.landDep
  dsimp only
  refine .ite (.checkEnd h) ?_
  split
  · exact .ite h
      (.checkEnd (.iteElse (.iteThen (.learnAt h) fun h => .syncRecord (.modThread h)) fun h =>
        .ite (.acquireFor h) (.ite (.emptyFor h) (.linkSeen h))))
  · exact .ite h (.checkEnd h)

theorem State.memWf.forwardDep {id fk k i v} (h : s.memWf) : (s.forwardDep id fk k i v).memWf := by
  unfold State.forwardDep
  split
  · exact h
  · refine .checkEnd ?_
    split
    · exact .sendFill (.modFam (.delMsg (.tellDie h)))
    · exact .sendWith (.modFam (.delMsg (.tellDie h)))

theorem State.memWf.landFamily {id h' u} (h : s.memWf) : (s.landFamily id h' u).memWf := by
  unfold State.landFamily
  dsimp only
  refine .ite h ?_
  refine .freeEntryIf ?_
  refine .modFam ?_
  refine .ite (.delMsg (.learnAt h)) ?_
  split
  · exact .acquireFor (.modThread (.landFill (.foldl (.delMsg (.learnAt h)) fun _ _ h => .landFill h)))
  · exact .delMsg (.learnAt h)

theorem State.memWf.landWaiter {id h' u} (h : s.memWf) : (s.landWaiter id h' u).memWf :=
  .ite h
    (.iteElse (.iteElse (.delMsg (.learnAt h)) fun h => .acquireFor (.iteThen h .modThread)) fun h =>
      .freeEntryIf (.modFam h))

theorem State.memWf.killMembers {fk p} (h : s.memWf) : (s.killMembers fk p).memWf := .foldl h fun _ _ h => h

theorem State.memWf.recordBreak {fk k how} (h : s.memWf) : (s.recordBreak fk k how).memWf :=
  .ite h (.checkEnd (.killMembers h))

theorem State.memWf.killAtHome {fk gen} (h : s.memWf) : (s.killAtHome fk gen).memWf :=
  .ite h (.checkEnd (.killMembers h))

theorem State.memWf.killReaches {u} (h : s.memWf) : (s.killReaches u).memWf := by
  unfold State.killReaches
  dsimp only
  refine .ite h ?_
  split
  · exact h
  · exact h
  · exact h
  · exact .endThread h

theorem State.memWf.landReport {id fk u} (h : s.memWf) : (s.landReport id fk u).memWf := .ite h (.ite h (.checkEnd h))

theorem OutWf.createFamily {own d a b m} (h : s.memWf) : OutWf (s.createFamily own d a b m) := by
  unfold State.createFamily
  dsimp only
  refine .issue h ?_
  split
  · exact .fail h
  · exact .finish h fun _ h => .ite (.writeGpr h) h
  · split
    · exact .fail h
    · exact .finish h fun _ h => .makeFamily (.ite (.foldl (.pendGpr h) fun _ _ h => .pendGpr h) h)

theorem OutWf.stopNamed {a m} (h : s.memWf) : OutWf (s.stopNamed a m) := by
  unfold State.stopNamed
  refine .issue h ?_
  split
  · exact .fail h
  · exact .finish h fun _ h => h
  · exact .finish h fun _ h => h
  · exact .finish h fun _ h => h

theorem OutWf.waitFamily {h' a m} (h : s.memWf) : OutWf (s.waitFamily h' a m) := by
  unfold State.waitFamily
  dsimp only
  split
  · exact .fail h
  · exact .ite (.next (.sendHelp h)) (.finishOwing h fun _ h => h)

theorem OutWf.migrate {serial a m} (h : s.memWf) : OutWf (s.migrate serial a m) :=
  .issue h
    (.ite (.fail h)
      (.access h fun _ _ h =>
        .ite (.await h)
          (.finish h fun _ h =>
            .ite (.modCore (.modThread (.iteElse (.leaveSlot h) .modThread)))
              (.sendWith (.modThread (.iteElse (.leaveSlot h) .modThread))))))

theorem State.memWf.startRecord {c u q} (h : s.memWf) : (s.startRecord c u q).memWf := .enterSlot h

end Sys2Proof.Machine
end

section
/-! SUPPORT. Memory stays canonical through the copy unit and the collectives. -/
namespace Sys2Proof.Machine
variable {s t : State}

theorem State.memWf.placeRuns {core vf level dest rs} (h : s.memWf) :
    (s.placeRuns core vf level dest rs).1.memWf := by
  induction rs generalizing s with
  | nil => exact h
  | cons r rs ih =>
    unfold State.placeRuns
    split
    next eq => exact .of_fst (.engineReach h) eq
    next eq =>
      have h := State.memWf.of_fst (.engineReach h) eq
      refine .iteFst h (.iteFst h (.iteFst h ?_))
      split
      next eq => exact .of_fst (ih h) eq
      next eq => exact .of_fst (ih h) eq

theorem State.memWf.agentLearns {g rs} (h : s.memWf) : (Agent.learns g s rs).memWf := .foldl h fun _ _ h => .ite h h

theorem State.memWf.checkChunk {g level align src dst len} (h : s.memWf) :
    (s.checkChunk g level align src dst len).1.memWf := by
  unfold State.checkChunk
  dsimp only
  split
  · exact h
  · refine .iteFst h ?_
    split
    next eq => exact .of_fst (.placeRuns h) eq
    next eq =>
      have h := State.memWf.of_fst (.placeRuns h) eq
      split
      next eq => exact .of_fst (.placeRuns h) eq
      next eq =>
        have h := State.memWf.of_fst (.placeRuns h) eq
        refine .iteFst h ?_
        split
        · exact h
        · exact .agentLearns h

theorem State.memWf.agentWrite {g n a va key bs} (h : s.memWf) : (Agent.write g s n a va key bs).memWf :=
  .ite (.homeWrite h) (.dispatch h)

theorem State.memWf.addCopy {cl c} (h : s.memWf) : (s.addCopy cl c).1.memWf := h

theorem OutWf.startCopy {m a b d c more} (h : s.memWf) (hm : ∀ t, t.memWf → (more t).memWf) :
    OutWf (s.startCopy m a b d c more) := by
  unfold State.startCopy
  split
  · exact .fail h
  · exact .ite (.finish h fun _ h => .bumpSeed (.writeGpr h))
      (.ite (.next h) (.finish h fun _ h => .bumpSeed (.pendGpr (.addCopy (hm _ h)))))

theorem OutWf.afterAcquire {body} (h : s.memWf) (hb : OutWf body) : OutWf (s.afterAcquire body) := .ite (.next h) hb

theorem OutWf.copyInstr {op inReg d a b m} (h : s.memWf) : OutWf (s.copyInstr op inReg d a b m) :=
  .issue h (.afterAcquire h (.startCopy h fun _ h => h))

theorem OutWf.rowInstr {op d a b m} (h : s.memWf) : OutWf (s.rowInstr op d a b m) :=
  .issue h (.afterAcquire h (.startCopy h fun _ h => h))

theorem OutWf.collInstr {op d a b m} (h : s.memWf) : OutWf (s.collInstr op d a b m) := by
  unfold State.collInstr
  dsimp only
  refine .issue h ?_
  refine .afterAcquire h ?_
  refine .access h fun _ _ h => ?_
  refine .ite (.await h) (.ite (.fail h) (.ite (.fail h) ?_))
  split
  · exact .fail h
  · split
    · exact .fail h
    · exact .startCopy h fun _ h => .homeWrite h

theorem State.memWf.putCopy {cl e c} (h : s.memWf) : (s.putCopy cl e c).memWf := h

theorem State.memWf.copyRecord {cl e c f die} (h : s.memWf) : (s.copyRecord cl e c f die).memWf := by
  unfold State.copyRecord
  dsimp only
  split
  · exact .queueError h
  · exact h

theorem State.memWf.settleCopy {cl e c} (h : s.memWf) : (s.settleCopy cl e c).memWf := by
  unfold State.settleCopy
  dsimp only
  refine .ite h ?_
  split
  · exact .ite (.copyRecord h) h
  · exact h

theorem State.memWf.failWrite {cl e n c f} (h : s.memWf) : (s.failWrite cl e n c f).memWf := .settleCopy h
theorem State.memWf.loseRank {cl e c} (h : s.memWf) : (s.loseRank cl e c).memWf := .settleCopy h

theorem State.memWf.forkCopy {cl e} (h : s.memWf) : (s.forkCopy cl e).memWf := by
  unfold State.forkCopy
  dsimp only
  split
  · exact h
  · exact .ite (.ite (.loseRank h) h) h

theorem State.memWf.copyCheck {cl e n} (h : s.memWf) : (s.copyCheck cl e n).memWf := by
  unfold State.copyCheck
  dsimp only
  split
  · exact h
  · refine .ite h ?_
    split
    next eq => exact .settleCopy (.of_fst (.checkChunk h) eq)
    · exact h
    next eq => exact .settleCopy (.of_fst (.checkChunk h) eq)

theorem State.memWf.collStep {cl e n c g x} (h : s.memWf) (eq : s.collStep cl e n c g x = some t) : t.memWf := by
  unfold State.collStep at eq
  dsimp only at eq
  split at eq
  · cases eq; exact .failWrite h
  · split at eq
    · split at eq
      · cases eq
      · obtain ⟨_, _, rfl⟩ := Option.map_eq_some_iff.mp eq
        exact .settleCopy h
    · split at eq
      · cases eq
      · obtain ⟨_, _, rfl⟩ := Option.map_eq_some_iff.mp eq
        exact .settleCopy h

theorem State.memWf.redWrite {c n a va key e bs} (h : s.memWf) : (s.redWrite c n a va key e bs).1.memWf := by
  unfold State.redWrite
  dsimp only
  refine .iteFst (.homeWrite h) ?_
  split
  · exact h
  · exact .draw (.dispatch h)

theorem State.memWf.copyUnit? {cl e n} (h : s.memWf) (eq : s.copyUnit? cl e n = some t) : t.memWf := by
  unfold State.copyUnit? at eq
  split at eq
  · cases eq
  · split at eq
    · cases eq
    · split at eq
      · split at eq
        · split at eq
          · cases eq
          · exact .collStep h eq
        · cases eq
      · split at eq
        · cases eq
        · dsimp only at eq
          split at eq
          · cases eq; exact .settleCopy h
          · split at eq
            · cases eq; exact .failWrite h
            · split at eq
              · cases eq
              · split at eq
                · cases eq
                  exact .settleCopy (.iteFst (.redWrite h) (.agentWrite h))
                · cases eq
                  exact .putCopy (.iteFst (.redWrite h) (.agentWrite h))

theorem State.memWf.copyUnit {cl e n} (h : s.memWf) : (s.copyUnit cl e n).memWf := .getD (fun _ => .copyUnit? h) h

theorem State.memWf.copyUnits {cl e n fuel} (h : s.memWf) : (s.copyUnits cl e n fuel).memWf := by
  induction fuel generalizing s with
  | zero => exact h
  | succ fuel ih =>
    unfold State.copyUnits
    split
    next eq => exact ih (.copyUnit? h eq)
    · exact h

theorem State.memWf.copyWrite {cl e n} (h : s.memWf) : (s.copyWrite cl e n).memWf := .copyUnits h

theorem State.memWf.endCopy {cl e c w} (h : s.memWf) : (s.endCopy cl e c w).memWf := by
  unfold State.endCopy
  extract_lets s1 _ s2 s3
  have h2 : s2.memWf := by
    unfold s2
    split <;> exact h
  have h3 : s3.memWf := .foldl h2 fun _ _ h => .sendFill h
  split
  · exact .ite h3 (.sendFill h3)
  · split
    · exact .ite (.packetEnds h3) (.putPacket h3)
    · exact h3

theorem State.memWf.copyComplete {cl e} (h : s.memWf) : (s.copyComplete cl e).memWf := by
  unfold State.copyComplete
  split
  · exact h
  · exact .ite h (.ite (.ite h (.endCopy h)) (.ite (.endCopy h) h))

theorem State.memWf.answerCopy {cl e c action} (h : s.memWf) : (s.answerCopy cl e c action).memWf := by
  unfold State.answerCopy
  dsimp only
  refine .ite h (.ite h ?_)
  split
  · exact h
  · exact .ite (.ite (.loseRank h) h) (.ite (.loseRank h) h)

theorem State.memWf.rankLost {pkg} (h : s.memWf) : (s.rankLost pkg).memWf := .foldl h fun _ _ h => .loseRank h

end Sys2Proof.Machine
end

section
/-! SUPPORT. Memory stays canonical through tiles, jobs and the matrix instructions. -/
namespace Sys2Proof.Machine
variable {s t : State}

theorem State.memWf.putRow {core t r n row} (h : s.memWf) : (s.putRow core t r n row).memWf := .poke h
theorem State.memWf.putJob {cl e j} (h : s.memWf) : (s.putJob cl e j).memWf := h
theorem State.memWf.markReady {die} (h : s.memWf) : (s.markReady die).memWf := .ite h h
theorem State.memWf.addJob {cl j} (h : s.memWf) : (s.addJob cl j).1.memWf := .markReady h

theorem OutWf.admission {m a b d j draws more} (h : s.memWf) (hm : ∀ t, t.memWf → (more t).memWf) :
    OutWf (s.admission m a b d j draws more) :=
  .ite (.next h) (.ite (.next h) (.finish h fun _ h => .bumpSeed (hm _ (.pendGpr (.addJob h)))))

theorem OutWf.tileMove {store d t a m} (h : s.memWf) : OutWf (s.tileMove store d t a m) :=
  .issue h (.afterAcquire h (.ite (.fail h) (.admission h fun _ h => h)))

theorem State.memWf.slewStep {die} (h : s.memWf) : (s.slewStep die).memWf := h

theorem State.memWf.startJob {cl e} (h : s.memWf) : (s.startJob cl e).memWf := by
  unfold State.startJob
  dsimp only
  split
  · exact h
  · exact .ite h (.ite h (.ite h (.ite h h)))

theorem State.memWf.laneEnds {cl} (h : s.memWf) : (s.laneEnds cl).memWf := .ite h h

theorem State.memWf.checkRow {j r} (h : s.memWf) : (s.checkRow j r).1.memWf := by
  unfold State.checkRow
  dsimp only
  split
  · exact h
  · refine .iteFst h ?_
    split
    next eq => exact .of_fst (.placeRuns h) eq
    next s xs eq =>
        refine .iteFst (.of_fst (.placeRuns h) eq) (.iteFst (.of_fst (.placeRuns h) eq) ?_)
        split
        · exact .of_fst (.placeRuns h) eq
        · exact .agentLearns (.of_fst (.placeRuns h) eq)

theorem State.memWf.settleJob {cl e j} (h : s.memWf) : (s.settleJob cl e j).memWf := by
  unfold State.settleJob
  dsimp only
  refine .ite h ?_
  split
  · exact .ite h h
  · exact h

theorem State.memWf.failRow {cl e r j f} (h : s.memWf) : (s.failRow cl e r j f).memWf := .settleJob h

theorem State.memWf.rowUnit? {cl e r} (h : s.memWf) (eq : s.rowUnit? cl e r = some t) : t.memWf := by
  unfold State.rowUnit? at eq
  split at eq
  · cases eq
  · split at eq
    · cases eq
    · dsimp only at eq
      split_ifs at eq
      · cases eq; exact .settleJob (.poke h)
      · split at eq
        · cases eq; exact .settleJob h
        · split_ifs at eq
          · cases eq; exact .failRow h
          · cases eq; exact .settleJob (.agentWrite h)
          · cases eq; exact .putJob (.agentWrite h)

theorem State.memWf.rowUnits {cl e r fuel} (h : s.memWf) : (s.rowUnits cl e r fuel).memWf := by
  induction fuel generalizing s with
  | zero => exact h
  | succ fuel ih =>
    unfold State.rowUnits
    split
    next eq => exact ih (.rowUnit? h eq)
    · exact h

theorem State.memWf.rowCheck {cl e r} (h : s.memWf) : (s.rowCheck cl e r).memWf := by
  unfold State.rowCheck
  split
  · exact h
  · refine .ite h ?_
    split
    next eq => exact .settleJob (.of_fst (.checkRow h) eq)
    · exact h
    next eq => exact .settleJob (.of_fst (.checkRow h) eq)

theorem State.memWf.engineAck {id r} (h : s.memWf) : (s.engineAck id r).memWf := by
  unfold State.engineAck
  refine .foldl (.foldl h fun _ _ h => ?_) fun _ _ h => ?_
  · split
    · split
      · exact .failWrite h
      · exact .settleCopy h
    · exact h
  · split
    · split
      · exact .failRow h
      · exact .settleJob h
    · exact h

theorem State.memWf.storeAcked {id} (h : s.memWf) : (s.storeAcked id).memWf := by
  unfold State.storeAcked
  split
  · exact .iteThen (.landAck h) .engineAck
  · exact h

theorem State.memWf.rowPart {cl e r} (h : s.memWf) : (s.rowPart cl e r).memWf :=
  .getD (fun _ => .rowUnit? h) (.rowCheck h)

theorem State.memWf.moveRow {cl e r} (h : s.memWf) : (s.moveRow cl e r).memWf := .rowUnits (.rowCheck h)

theorem State.memWf.forkJob {cl e} (h : s.memWf) : (s.forkJob cl e).memWf := by
  unfold State.forkJob
  split
  · exact h
  · exact .ite h h

theorem State.memWf.answerJob {cl e j action} (h : s.memWf) : (s.answerJob cl e j action).memWf := .ite h (.ite h h)

theorem State.memWf.fillJob {cl e} (h : s.memWf) : (s.fillJob cl e).memWf := by
  unfold State.fillJob
  dsimp only
  split
  · exact h
  · split
    · exact h
    · exact .iteElse (.foldl h fun _ _ h => h) .sendFill

theorem State.memWf.runMma {j} (h : s.memWf) : (s.runMma j).memWf := .foldl h fun _ _ h => .putRow h
theorem State.memWf.runSca {j} (h : s.memWf) : (s.runSca j).memWf := .foldl h fun _ _ h => .putRow h
theorem State.memWf.runPrune {j} (h : s.memWf) : (s.runPrune j).memWf := .foldl h fun _ _ h => .putRow h

theorem OutWf.mmaInstr {kind D d a b m} (h : s.memWf) : OutWf (s.mmaInstr kind D d a b m) := by
  unfold State.mmaInstr
  dsimp only
  refine .issue h ?_
  refine .afterAcquire h ?_
  split
  · exact .fail h
  · split
    · exact .fail h
    · exact .admission h fun _ h => h

theorem State.memWf.runJob {j} (h : s.memWf) : (s.runJob j).memWf := by
  unfold State.runJob
  split
  · exact .poke h
  · exact .poke h
  · exact .runMma h
  · exact .runMma h
  · exact .runMma h
  · exact .runSca h
  · exact .runPrune h
  · exact h
  · exact h

theorem State.memWf.landSums {j sums} (h : s.memWf) : (s.landSums j sums).memWf := by
  unfold State.landSums
  dsimp only
  refine .ite h (.ite h ?_)
  split
  · exact .ite h h
  · exact h

theorem State.memWf.endJob {cl e} (h : s.memWf) : (s.endJob cl e).memWf := by
  unfold State.endJob
  dsimp only
  split
  · exact h
  · split
    · exact h
    · exact .ite (.markReady (.laneEnds (.putJob (.modCore (.ite (.landSums (.runJob h)) (.landSums h))))))
        (.markReady (.putJob (.modCore (.ite (.landSums (.runJob h)) (.landSums h)))))

end Sys2Proof.Machine
end

section
/-! SUPPORT. Memory stays canonical through the vector instructions. -/
namespace Sys2Proof.Machine
variable {s t : State}

theorem OutWf.vecOut {m src vecs d a b v f} (h : s.memWf) (hf : ∀ t, t.memWf → (f t).memWf) :
    OutWf (s.vecOut m src vecs d a b v f) := .issue h (.finish h fun _ h => hf _ h)

theorem OutWf.vecGpr {m src vecs d b v f} (h : s.memWf) (hf : ∀ t, t.memWf → (f t).memWf) :
    OutWf (s.vecGpr m src vecs d b v f) := .issue h (.finish h fun _ h => hf _ (.writeGpr h))

theorem OutWf.vint2 {f t d a b m} (h : s.memWf) : OutWf (s.vint2 f t d a b m) := .vecOut h fun _ h => h
theorem OutWf.vint1 {f t d a m} (h : s.memWf) : OutWf (s.vint1 f t d a m) := .vecOut h fun _ h => h
theorem OutWf.vcmp {f t d a b m} (h : s.memWf) : OutWf (s.vcmp f t d a b m) := .vecGpr h fun _ h => h

theorem OutWf.vfOut {m vecs d rounds r} (h : s.memWf) : OutWf (s.vfOut m vecs d rounds r) :=
  .vecOut h fun _ h => .floatDone h

theorem OutWf.vf2 {f w d a b m} (h : s.memWf) : OutWf (s.vf2 f w d a b m) := .vfOut h
theorem OutWf.vfFma {negate w d a b m} (h : s.memWf) : OutWf (s.vfFma negate w d a b m) := .vfOut h
theorem OutWf.vfMinMax {isMax w d a b m} (h : s.memWf) : OutWf (s.vfMinMax isMax w d a b m) := .vfOut h
theorem OutWf.vfSign {f w d a m} (h : s.memWf) : OutWf (s.vfSign f w d a m) := .vfOut h
theorem OutWf.vfCmp {cc w d a b m} (h : s.memWf) : OutWf (s.vfCmp cc w d a b m) := .vecGpr h fun _ h => .floatDone h

theorem OutWf.vfDivide {m vecs d r} (h : s.memWf) : OutWf (s.vfDivide m vecs d r) :=
  .issue h (.divide h fun _ h => .bumpSeed h)

theorem OutWf.vbcast {t d a m} (h : s.memWf) : OutWf (s.vbcast t d a m) := .vecOut h fun _ h => h
theorem OutWf.vext {t d a b m} (h : s.memWf) : OutWf (s.vext t d a b m) := .vecGpr h fun _ h => h
theorem OutWf.vins {t d a b m} (h : s.memWf) : OutWf (s.vins t d a b m) := .vecOut h fun _ h => h

theorem OutWf.vred {op t o d a m} (h : s.memWf) : OutWf (s.vred op t o d a m) :=
  .vecGpr h fun _ h => .draw (.floatDone h)

theorem OutWf.lanePlaces {acc ls body} (h : s.memWf) (hb : ∀ t ps, t.memWf → OutWf (body t ps)) :
    OutWf (s.lanePlaces acc ls body) := by
  induction ls generalizing s body with
  | nil => exact hb _ _ h
  | cons l ls ih => exact .access h fun _ _ h => .ite (.fail h) (ih h fun _ _ h => hb _ _ h)

theorem OutWf.contigPlaces {acc base ls body} (h : s.memWf) (hb : ∀ t ps, t.memWf → OutWf (body t ps)) :
    OutWf (s.contigPlaces acc base ls body) := .access h fun _ _ h => .ite (.fail h) (hb _ _ h)

theorem State.memWf.vloadLine {d ps line resend} (h : s.memWf) : (s.vloadLine d ps line resend).memWf := by
  unfold State.vloadLine
  dsimp only
  split
  · exact h
  · split
    · refine .modSlot ?_
      split
      · exact .foldl h fun _ _ h => h
      · exact h
    · exact .post h

theorem OutWf.vload {m a b d ps} (h : s.memWf) : OutWf (s.vload m a b d ps) := by
  unfold State.vload
  exact .withResv h fun _ h => .finish h fun _ h => .foldl (.writeVec h) fun _ _ h => .vloadLine h

theorem OutWf.vstore {m a b d ps} (h : s.memWf) : OutWf (s.vstore m a b d ps) := by
  unfold State.vstore
  dsimp only
  refine .withResv h fun _ h => .finish h fun _ h => .foldl h fun _ _ h => ?_
  exact .ite (.homeWrite h) (.post (.storeLine h))

theorem OutWf.hacc {u d a b m} (h : s.memWf) : OutWf (s.hacc u d a b m) :=
  .issue h
    (.ordered h
      (.access h fun _ _ h =>
        .ite (.fail h) (.withResv h fun _ h => .finish h fun _ h => .post (.bumpSeed (.pendGpr (.acquireIssue h))))))

end Sys2Proof.Machine
end

section
/-! SUPPORT. Memory stays canonical through the events of the memory system, the slot spills and a core's turn. -/
namespace Sys2Proof.Machine
variable {s t : State}

theorem State.memWf.egressLoad {id} (h : s.memWf) : (s.egressLoad id).memWf := by
  unfold State.egressLoad
  dsimp only
  split
  · exact h
  · exact .ite h (.ite h h)

theorem State.memWf.ingressRelease {id} (h : s.memWf) : (s.ingressRelease id).memWf := by
  unfold State.ingressRelease
  split
  · exact h
  · exact .ite h h

theorem State.memWf.groupCloses {id} (h : s.memWf) : (s.groupCloses id).memWf := by
  unfold State.groupCloses
  split
  · exact h
  · split
    · exact .ite (.closeGroup h) h
    · exact h

theorem State.memWf.inTransit {id} (h : s.memWf) : (s.inTransit id).memWf := by
  unfold State.inTransit
  dsimp only
  split
  · exact h
  · refine .ite ?_ h
    refine .putReq ?_
    split
    · exact .foldl h fun _ _ h => .ite h h
    · exact h

theorem State.memWf.walkRun {id} (h : s.memWf) : (s.walkRun id).memWf := by
  unfold State.walkRun
  split
  · exact h
  · refine .ite h ?_
    split
    next eq => exact .of_mem (.of_fst (.walk h) eq) rfl

theorem State.memWf.keepEntry {id u acc} (h : s.memWf) : (s.keepEntry id u acc).memWf := by
  unfold State.keepEntry
  split
  · exact .ite h h
  · exact h

theorem State.memWf.install {x cores} (h : s.memWf) : (s.install x cores).memWf :=
  .foldl (.foldl h fun _ _ h => h) fun _ _ h => h

theorem State.memWf.walkReaches {id f j} (h : s.memWf) : (s.walkReaches id f j).memWf := by
  unfold State.walkReaches
  dsimp only
  split
  · exact .keepEntry h
  · refine .ite h ?_
    refine .ite h ?_
    split
    · exact .faultReq h
    · exact .raiseFor h

theorem State.memWf.walkLands {id} (h : s.memWf) : (s.walkLands id).memWf := by
  unfold State.walkLands
  split
  · exact h
  · split
    · exact h
    · refine .foldl ?_ fun _ _ h => .walkReaches h
      split
      · exact .ite h (.install h)
      · exact h

theorem State.memWf.fetchLands {id} (h : s.memWf) : (s.fetchLands id).memWf := by
  unfold State.fetchLands
  dsimp only
  split
  · exact h
  · refine .ite h ?_
    split
    · exact h
    · refine .foldl h fun _ _ h => ?_
      split
      · exact .ite (.raiseFor h) h
      · exact h

theorem State.memWf.divideLands {core} (h : s.memWf) : (s.divideLands core).memWf := by
  unfold State.divideLands
  dsimp only
  split
  · exact h
  · exact .ite h (.ite (.ite h h) (.landGpr h))

theorem State.memWf.withdrawHome {id} (h : s.memWf) : (s.withdrawHome id).memWf := by
  unfold State.withdrawHome
  split
  · exact h
  · split
    · exact h
    · split
      · exact .ite h h
      · exact h

theorem State.memWf.withdrawLands {id} (h : s.memWf) : (s.withdrawLands id).memWf := by
  unfold State.withdrawLands
  dsimp only
  split
  · exact h
  · refine .ite h ?_
    split
    · exact h
    · split
      · exact .ite h (.raiseFor h)
      · exact h

theorem State.memWf.areaRecord {u q e va} (h : s.memWf) : (s.areaRecord u q e va).memWf := h

theorem State.memWf.liftSlot {q} (h : s.memWf) : (s.liftSlot q).1.memWf :=
  .freeSlot (.dropWaits (.foldl h fun _ _ h => h))

theorem State.memWf.lowerSlot {q x image} (h : s.memWf) : (s.lowerSlot q x image).memWf := by
  unfold State.lowerSlot
  dsimp only
  split
  · exact .checkHandles (.modThread (.foldl (.iteThen (.foldl (.putSlot (.wake h)) fun _ _ h => h) .emptyCache)
      fun _ _ h => h))
  · exact .foldl (.iteThen (.foldl (.putSlot (.wake h)) fun _ _ h => h) .emptyCache) fun _ _ h => h

theorem State.memWf.lendSlot {q} (h : s.memWf) : (s.lendSlot q).memWf := h
theorem State.memWf.spilledNow {q} (h : s.memWf) : (s.spilledNow q).memWf := h

theorem State.memWf.spillImage {q u} (h : s.memWf) : (s.spillImage q u).memWf := by
  unfold State.spillImage
  extract_lets vf
  generalize spills : s.spillAll q 8 = spilled
  cases spilled with
  | error e => exact .areaRecord (.spilledNow h)
  | ok t =>
    have h := State.memWf.spillAll h spills
    simp only []
    split
    · exact .areaRecord (.spilledNow h)
    next v writes => exact .spilledNow (.modFunc (.liftSlot (.areaWrite h writes)))

theorem State.memWf.spillSlot {q} (h : s.memWf) : (s.spillSlot q).memWf := by
  unfold State.spillSlot
  dsimp only
  split
  · exact .ite h h
  · exact .ite h
      (.ite h
        (.ite (.lendSlot (.spilledNow (.endThread h)))
          (.ite (.lendSlot (.spilledNow (.park h))) (.iteThen (.spillImage h) .lendSlot))))

theorem State.memWf.parkAll {core} (h : s.memWf) : (s.parkAll core).memWf := by
  unfold State.parkAll
  refine .foldl h fun _ _ h => ?_
  split
  · exact .ite (.park h) h
  · exact h

theorem State.memWf.idleTurn {core} (h : s.memWf) : (s.idleTurn core).memWf := by
  unfold State.idleTurn
  dsimp only
  split
  · exact .spillSlot h
  · exact .idleSpill h

theorem State.memWf.beginTurn {q} (h : s.memWf) : (s.beginTurn q).memWf := h
theorem State.memWf.idleIf {core} (h : s.memWf) : (s.idleIf core).memWf := .ite (.idleTurn h) h
theorem State.memWf.waitEntry (h : s.memWf) : (s.waitEntry).memWf := h

theorem State.memWf.reissue {id r} (h : s.memWf) : (s.reissue id r).memWf := by
  unfold State.reissue
  dsimp only
  split
  · exact .faultReq h
  next eq => exact .ite (.suspend (.modCore (.reachMiss h eq))) (.waitEntry h)
  next eq =>
    exact .ite (.faultReq (.reach h eq)) (.ite (.faultReq (.reach h eq))
      (.ite (.waitEntry h) (.modCur (.issueAgain (.modCore (.reach h eq))))))

theorem State.memWf.illegal {e} (h : s.memWf) : (s.illegal e).memWf := by
  unfold State.illegal
  split
  · exact .raise h
  · exact h

theorem Fetched.memWf.fetchRaise {code cause va} (h : s.memWf) : (s.fetchRaise code cause va).memWf :=
  .stop (.raise h)
theorem Fetched.memWf.refill {va} (h : s.memWf) : (s.refill va).memWf := by
  unfold State.refill
  split
  · exact .fetchRaise h
  · split
    next eq => exact .stop (.suspend (.joinWalk (.of_fst (.lookup h) eq)))
    next eq =>
      have h := State.memWf.of_fst (.lookup h) eq
      refine .ite (.fetchRaise h) ?_
      split
      · exact .modSlot (.modCore h)
      · dsimp only
        split
        · exact .stop (.suspend h)
        · exact .ite (.stop (.suspend (.of_mem h rfl))) (.stop (.suspend h))
theorem Fetched.memWf.fetchFrom {va n} (h : s.memWf) : (s.fetchFrom va n).memWf := by
  induction n generalizing s va with
  | zero => exact h
  | succ n ih =>
    have rest (s : State) (h : s.memWf) : (match s.mySlot.held? va.toNat with
        | none => Fetched.stop s
        | some w => match s.fetchFrom (va + 4#64) n with
          | .words s ws => .words s (w :: ws)
          | .stop s => .stop s).memWf := by
      split
      · exact h
      · have h := ih (va := va + 4#64) h
        split
        next eq => rw [eq] at h; exact h
        next eq => rw [eq] at h; exact h
    unfold State.fetchFrom
    dsimp only
    split
    · exact .ite (.fetchRaise h) (rest _ h)
    · have h := Fetched.memWf.refill (va := va) h
      split
      next eq => rw [eq] at h; exact h
      next eq => rw [eq] at h; exact rest _ h
theorem Fetched.memWf.fetch (h : s.memWf) : s.fetch.memWf := by
  have h := Fetched.memWf.fetchFrom (va := s.cur.pc) (n := 1) h
  unfold State.fetch
  split
  next eq => rw [eq] at h; exact h
  next eq => rw [eq] at h; exact h
  next eq => rw [eq] at h; exact .fetchFrom h
theorem Fetched.memWf.turnStart {core} (h : s.memWf) : (s.turnStart core).memWf := by
  unfold State.turnStart
  refine .ite h ?_
  have h := h.parkAll (core := core)
  generalize s.parkAll core = s at h
  dsimp only
  split
  · exact .stop (.idleTurn h)
  next q _ =>
    have h := h.beginTurn (q := q)
    generalize s.beginTurn q = s at h
    refine .ite (.stop (.endThread h)) ?_
    split
    · exact .stop (.raise h)
    · split
      · exact .stop (.reissue h)
      · exact .fetch h

end Sys2Proof.Machine
end

section
/-! SUPPORT. Memory stays canonical through claims, the family events, fault records and paging. -/
namespace Sys2Proof.Machine
variable {s t : State}

theorem State.memWf.coreClaim {c} (h : s.memWf) : (s.coreClaim c).memWf := by
  unfold State.coreClaim
  refine .ite h ?_
  split
  · exact .enterSlot h
  · split
    · exact .startRecord h
    · split
      · exact h
      · split <;> exact h

theorem State.memWf.steal {c} (h : s.memWf) : (s.steal c).memWf := by
  unfold State.steal
  refine .ite h ?_
  split <;> exact h

theorem State.memWf.trimDeques {fk} (h : s.memWf) : (s.trimDeques fk).memWf := .ite h h

theorem State.memWf.claimHome {id} (h : s.memWf) : (s.claimHome id).memWf := by
  unfold State.claimHome
  dsimp only
  split
  · split
    · exact .dropClaim h
    · exact .putMsg (.trimDeques h)
    · exact h
  · exact h

theorem State.memWf.returnClaim {u c} (h : s.memWf) : (s.returnClaim u c).memWf := by
  unfold State.returnClaim
  dsimp only
  refine .ite h ?_
  split
  · exact .iteThen (.modFam (.modThread (.leaveSlot h))) .endThread
  · exact .foldl (.modFam (.modThread (.leaveSlot h))) fun _ _ h => .ite h h

theorem State.memWf.saveHelper {u q} (h : s.memWf) (e : s.saveHelper u q = .ok t) : t.memWf := by
  unfold State.saveHelper at e
  dsimp only at e
  split at e
  · cases e
  next x =>
    have h := State.memWf.areaWrite h x
    split_ifs at e
    · cases e; exact h
    · split at e
      · cases e
      next x => cases e; exact .areaWrite h x

theorem State.memWf.adopt {u h' q} (h : s.memWf) : (s.adopt u h' q).memWf := .modThread (.modThread (.ite h h))

theorem State.memWf.claimLands {id} (h : s.memWf) : (s.claimLands id).memWf := by
  unfold State.claimLands
  dsimp only
  split
  · refine .ite (.modFam (.dropClaim h)) ?_
    split
    · exact .dropClaim h
    · refine .ite (.dropClaim h) ?_
      split
      · exact .ite h (.ite (.returnClaim (.dropClaim h)) (.send (.modThread (.enterSlot (.modSlot (.ite h h))))))
      · refine .ite (.returnClaim (.dropClaim h)) ?_
        refine .ite h ?_
        split
        · exact .returnClaim (.dropClaim h)
        next eq => exact .send (.adopt (.iteThen (.delMsg (.tellDie (.saveHelper h eq))) .modThread))
  · exact h

theorem State.memWf.claimAck {id} (h : s.memWf) : (s.claimAck id).memWf := by
  unfold State.claimAck
  dsimp only
  split
  · split
    · exact .ite h (.ite h h)
    · exact h
  · exact h

theorem State.memWf.leaseExpires {u} (h : s.memWf) : (s.leaseExpires u).memWf := by
  unfold State.leaseExpires
  dsimp only
  split
  · exact h
  · split
    · exact .dropClaim (.returnClaim h)
    · exact .returnClaim h

theorem State.memWf.depLands {id} (h : s.memWf) : (s.depLands id).memWf := by
  unfold State.depLands
  split
  · exact .landDep h
  · exact h

theorem State.memWf.depForward {id} (h : s.memWf) : (s.depForward id).memWf := by
  unfold State.depForward
  split
  · exact .forwardDep h
  · exact h

theorem State.memWf.stubResend {id} (h : s.memWf) : (s.stubResend id).memWf := by
  unfold State.stubResend
  split
  · exact h
  · split <;> exact h

theorem State.memWf.reportHome {id} (h : s.memWf) : (s.reportHome id).memWf := by
  unfold State.reportHome
  split
  · exact .landReport h
  · exact h

theorem State.memWf.fillLands {id} (h : s.memWf) : (s.fillLands id).memWf := by
  unfold State.fillLands
  split
  · exact .landFamily h
  · exact h

theorem State.memWf.answerLands {id} (h : s.memWf) : (s.answerLands id).memWf := by
  unfold State.answerLands
  split
  · exact .landWaiter h
  · exact h

theorem State.memWf.breakHome {id} (h : s.memWf) : (s.breakHome id).memWf := by
  unfold State.breakHome
  split
  · exact .recordBreak h
  · exact h

theorem State.memWf.killHome {id} (h : s.memWf) : (s.killHome id).memWf := by
  unfold State.killHome
  split
  · exact .killAtHome h
  · exact h

theorem State.memWf.killLands {id} (h : s.memWf) : (s.killLands id).memWf := by
  unfold State.killLands
  split
  · exact .killReaches h
  · exact h

theorem State.memWf.migrationArrives {id} (h : s.memWf) : (s.migrationArrives id).memWf := by
  unfold State.migrationArrives
  dsimp only
  split
  · exact .ite h (.ite h (.ite (.modCore (.modThread (.wake h))) (.modCore (.modThread (.wake h)))))
  · exact h

theorem State.memWf.armHome {id} (h : s.memWf) : (s.armHome id).memWf := by
  unfold State.armHome
  dsimp only
  split
  · exact .ite h h
  · exact h

theorem State.memWf.engineLands {id} (h : s.memWf) : (s.engineLands id).memWf := by
  unfold State.engineLands
  dsimp only
  split
  · exact .ite h (.iteElse (.delMsg (.learnAt h)) fun h => .acquireFor (.landFill h))
  · exact h

theorem State.memWf.deviceWrite {a bs} (h : s.memWf) : (s.deviceWrite a bs).memWf := .agentStore h

theorem State.memWf.claimRecord {id} (h : s.memWf) : (s.claimRecord id).memWf := by
  unfold State.claimRecord
  dsimp only
  split
  · exact h
  · exact .ite h
      (.ite (.modRecord (.ite (.deviceWrite h) (.deviceWrite (.deviceWrite h))))
        (.ite (.deviceWrite h) (.deviceWrite (.deviceWrite h))))

theorem State.memWf.holderActs {id r action setl0 val} (h : s.memWf) :
    (s.holderActs id r action setl0 val).memWf := by
  unfold State.holderActs
  split
  · exact h
  · exact .resumeThread h
  · split
    · exact .answerCopy h
    · exact h
  · split
    · exact .answerJob h
    · exact h

theorem State.memWf.answerHolder {id} (h : s.memWf) : (s.answerHolder id).memWf := by
  unfold State.answerHolder
  dsimp only
  split
  · refine .ite h ?_
    split
    · exact h
    · exact .holderActs h
  · exact h

theorem State.memWf.answerDoorbell {vf w} (h : s.memWf) : (s.answerDoorbell vf w).memWf :=
  .ite h (.modFunc (.answerRecord h))

theorem State.memWf.savedNumbers {vf va size a} (h : s.memWf) : (s.savedNumbers vf va size a).memWf := .ite h h

theorem State.memWf.copyPage {key a b n} (h : s.memWf) : (s.copyPage key a b n).memWf := by
  unfold State.copyPage
  dsimp only
  split
  · exact moveBytes_wf _ _ _ _ h
  · exact .foldl h fun _ _ h => .writeBytes h

theorem State.memWf.takeFrame {vf lv a} (h : s.memWf) (eq : s.takeFrame vf lv = some (a, t)) : t.memWf := by
  unfold State.takeFrame at eq
  dsimp only at eq
  split_ifs at eq
  simp only [Option.some.injEq, Prod.mk.injEq] at eq
  obtain ⟨-, rfl⟩ := eq
  exact .poke h

theorem State.memWf.served {id r} (h : s.memWf) : (s.served id r).memWf := .holderActs (.modRecord h)

theorem State.memWf.pagingService {id} (h : s.memWf) : (s.pagingService id).memWf := by
  unfold State.pagingService
  dsimp only
  split
  · exact h
  · refine .ite h ?_
    refine .ite (.modRecord h) ?_
    split
    · exact .modRecord h
    · refine .ite (.served h) ?_
      refine .ite (.modRecord h) ?_
      split
      · exact .modRecord h
      next frame t eq =>
        exact .served (.poke (.copyPage (.iteThen (.takeFrame h eq) fun h => .setNums (.savedNumbers h))))

end Sys2Proof.Machine
end

section
/-! SUPPORT. Memory stays canonical through launch queues, admission and gangs. -/
namespace Sys2Proof.Machine
variable {s t : State}

theorem State.memWf.queueDoorbell {vf q w} (h : s.memWf) : (s.queueDoorbell vf q w).memWf := .ite h h

theorem State.memWf.queueControl {vf q w} (h : s.memWf) : (s.queueControl vf q w).memWf :=
  .ite h (.ite h (.queueError h))

theorem State.memWf.packetRead {vf q n} (h : s.memWf) : (s.packetRead vf q n).memWf := by
  unfold State.packetRead
  dsimp only
  refine .ite h ?_
  split
  · exact h
  · exact .ite (.queueError h) h

theorem State.memWf.begin {vf q n k f} (h : s.memWf) (hf : ∀ t p, t.memWf → (f t p).memWf) :
    (s.begin vf q n k f).memWf := by
  unfold State.begin
  split
  · exact h
  · split
    · exact .queueError h
    · exact .ite (hf _ _ h) h

theorem State.memWf.started {vf q n p} (h : s.memWf) : (s.started vf q n p).memWf := h

theorem State.memWf.copyPacket {vf q n} (h : s.memWf) : (s.copyPacket vf q n).memWf := by
  unfold State.copyPacket
  dsimp only
  refine .begin h fun _ _ h => ?_
  split
  · exact .packetEnds h
  · exact .ite (.packetEnds h) (.ite h h)

theorem State.memWf.signalPlace {vf q acc va plain} (h : s.memWf) : (s.signalPlace vf q acc va plain).1.memWf := by
  unfold State.signalPlace
  split
  next eq => exact .of_fst (.engineReach h) eq
  next eq => exact .iteFst (.of_fst (.engineReach h) eq) (.of_fst (.engineReach h) eq)

theorem State.memWf.signal {vf q n} (h : s.memWf) : (s.signal vf q n).memWf := by
  unfold State.signal
  dsimp only
  refine .begin h fun _ _ h => ?_
  split
  · exact .queueError h
  next t pl eq =>
    exact .ite (.queueError h) (.ite h (.packetDone (.started (.homeWrite (.of_fst (.signalPlace h) eq)))))

theorem State.memWf.waitSeq {vf q n} (h : s.memWf) : (s.waitSeq vf q n).memWf := by
  unfold State.waitSeq
  dsimp only
  refine .begin h fun _ _ h => ?_
  split
  · exact .queueError h
  next eq => exact .started (.addReq (.of_fst (.signalPlace h) eq))

theorem State.memWf.waitSeqAnswer {id} (h : s.memWf) : (s.waitSeqAnswer id).memWf := by
  unfold State.waitSeqAnswer
  dsimp only
  split
  · exact h
  · split
    · exact .ite h (.ite (.queueError (.ite h h)) (.packetDone (.ite h h)))
    · exact h

theorem State.memWf.setDet {vf q n} (h : s.memWf) : (s.setDet vf q n).memWf := .begin h fun _ _ h => h

theorem State.memWf.setDetDrained {vf} (h : s.memWf) : (s.setDetDrained vf).memWf := by
  unfold State.setDetDrained
  dsimp only
  split
  · exact h
  · exact .ite h (.packetDone h)

theorem State.memWf.fencePacket {vf q n} (h : s.memWf) : (s.fencePacket vf q n).memWf := .begin h fun _ _ h => h

theorem State.memWf.fencePacketDone {vf q n} (h : s.memWf) : (s.fencePacketDone vf q n).memWf := by
  unfold State.fencePacketDone
  split
  · exact h
  · exact .ite (.packetDone h) h

theorem State.memWf.promise {vf core base len p} (h : s.memWf) (e : s.promise vf core base len = some (t, p)) :
    t.memWf := by
  unfold State.promise at e
  dsimp only at e
  split at e
  · cases e; exact h
  · obtain ⟨_, _, x⟩ := Option.map_eq_some_iff.mp e
    cases x; exact h

theorem State.memWf.gangOver {vf gid stat} (h : s.memWf) : (s.gangOver vf gid stat).memWf := h

theorem State.memWf.gangAbort {vf q n gid named pkg} (h : s.memWf) : (s.gangAbort vf q n gid named pkg).memWf := by
  unfold State.gangAbort
  dsimp only
  split
  · exact h
  · refine .packetEnds ?_
    refine .started ?_
    refine .addRecord ?_
    refine .gangOver ?_
    split <;> exact h

theorem State.memWf.gangDrop {vf q n g named} (h : s.memWf) : (s.gangDrop vf q n g named).memWf :=
  .modFunc (.gangAbort h)

theorem State.memWf.gangGiveUp {vf q n g} (h : s.memWf) : (s.gangGiveUp vf q n g).memWf := .gangDrop h

theorem State.memWf.refuseLaunch {vf q n p status value} (h : s.memWf) :
    (s.refuseLaunch vf q n p status value).memWf := by
  unfold State.refuseLaunch
  dsimp only
  refine .ite ?_ (.packetEnds (.started (.ite h h)))
  split
  · exact h
  · exact .ite (.gangDrop h) h

theorem State.memWf.takeCluster {vf q cl} (h : s.memWf) : (s.takeCluster vf q cl).memWf :=
  .foldl h fun _ _ h => .ite (.foldl h fun _ _ h => h) h

theorem State.memWf.lightLane {cl} (h : s.memWf) : (s.lightLane cl).memWf := .ite h h

theorem State.memWf.admitMake {vf q n p fk} (h : s.memWf) : (s.admitMake vf q n p fk).memWf := by
  unfold State.admitMake
  dsimp only
  split
  · exact .refuseLaunch h
  · exact .ite (.packetEnds h) (.makeFamily h)

theorem State.memWf.admitCopy {vf q n p fk} (h : s.memWf) : (s.admitCopy vf q n p fk).memWf :=
  .ite (.admitMake h) (.ite (.queueError h) (.ite h h))

theorem State.memWf.gangDeal {vf q n gid} (h : s.memWf) : (s.gangDeal vf q n gid).memWf := by
  unfold State.gangDeal
  dsimp only
  split
  · exact h
  · split
    · exact .admitCopy h
    · exact h

theorem State.memWf.gangTry {vf} (h : s.memWf) : (s.gangTry vf).memWf := by
  unfold State.gangTry
  dsimp only
  split
  · exact .ite h (.ite (.gangGiveUp h) (.ite (.gangDeal h) h))
  · exact h

theorem State.memWf.admitTake {vf q n p fk} (h : s.memWf) : (s.admitTake vf q n p fk).memWf :=
  .ite (.gangTry h) (.admitCopy h)

theorem State.memWf.admitPlace {vf q n p fk} (h : s.memWf) : (s.admitPlace vf q n p fk).memWf := by
  unfold State.admitPlace
  dsimp only
  refine .ite ?_ ?_
  · split
    · exact .refuseLaunch h
    · exact .admitTake h
  · refine .ite h ?_
    refine .ite ?_ (.foldl (.ite h (.putPacket (.foldl h fun _ _ h => .takeCluster h))) fun _ _ h => .lightLane h)
    split
    · exact .refuseLaunch (.foldl (.ite h (.putPacket (.foldl h fun _ _ h => .takeCluster h))) fun _ _ h =>
        .lightLane h)
    · exact .admitTake (.foldl (.ite h (.putPacket (.foldl h fun _ _ h => .takeCluster h))) fun _ _ h => .lightLane h)

theorem State.memWf.admitEntry {vf q n p} (h : s.memWf) : (s.admitEntry vf q n p).memWf := by
  unfold State.admitEntry
  split
  · exact h
  · exact .ite (.admitPlace h) (.admitPlace h)

theorem State.memWf.admitFresh {vf q n p} (h : s.memWf) : (s.admitFresh vf q n p).memWf := by
  unfold State.admitFresh
  dsimp only
  split
  · exact .queueError h
  · split
    · exact .queueError h
    next s promise eq =>
      exact .ite (.refuseLaunch (.putPacket (.promise h eq))) (.admitEntry (.putPacket (.promise h eq)))

theorem State.memWf.admitStart {vf q n p} (h : s.memWf) : (s.admitStart vf q n p).memWf := by
  unfold State.admitStart
  dsimp only
  refine .ite h (.ite (.admitFresh h) ?_)
  split
  · exact h
  · split
    · exact .gangAbort h
    · exact .admitFresh h

theorem State.memWf.admitNext {vf q n p} (h : s.memWf) : (s.admitNext vf q n p).memWf := by
  unfold State.admitNext
  split
  · exact .admitStart h
  · exact .admitStart h
  · exact .admitStart h
  · exact .admitMake h
  · exact .admitCopy h
  · exact h

theorem State.memWf.launch {vf q n} (h : s.memWf) : (s.launch vf q n).memWf :=
  .begin h fun _ _ h => .ite (.admitStart h) h

theorem State.memWf.admissionWake {vf q n} (h : s.memWf) : (s.admissionWake vf q n).memWf :=
  .begin h fun _ _ h => .admitNext h

theorem State.memWf.localCopyLands {vf q n} (h : s.memWf) : (s.localCopyLands vf q n).memWf := by
  unfold State.localCopyLands
  split
  · exact h
  · split
    · exact .admissionWake (.copyComplete h)
    · exact h

theorem State.memWf.gangctlWrite {vf w} (h : s.memWf) : (s.gangctlWrite vf w).memWf := .ite h h

theorem State.memWf.gangPrepared {vf gid rank} (h : s.memWf) : (s.gangPrepared vf gid rank).memWf :=
  .ite (.gangTry h) h

theorem State.memWf.gangRefused {vf gid rank} (h : s.memWf) : (s.gangRefused vf gid rank).memWf := .ite (.gangTry h) h

theorem State.memWf.gangCommit {vf gid} (h : s.memWf) : (s.gangCommit vf gid).memWf := by
  unfold State.gangCommit
  split
  · split
    · exact .ite (.gangDeal h) h
    · exact h
  · exact h

theorem State.memWf.gangAborted {vf gid named pkg} (h : s.memWf) : (s.gangAborted vf gid named pkg).memWf := by
  unfold State.gangAborted
  dsimp only
  refine .ite h ?_
  split
  · exact .ite (.gangAbort h) h
  · exact h

theorem State.memWf.gangTimeout {vf} (h : s.memWf) : (s.gangTimeout vf).memWf := by
  unfold State.gangTimeout
  split
  · exact .ite (.gangGiveUp h) h
  · exact h

theorem State.memWf.gangOrphan {pkg vf} (h : s.memWf) : (s.gangOrphan pkg vf).memWf := by
  unfold State.gangOrphan
  split
  · exact .ite (.gangAbort h) h
  · exact h

end Sys2Proof.Machine
end

section
/-! SUPPORT. Memory stays canonical through rotation and pre-emption. -/
namespace Sys2Proof.Machine
variable {s t : State}

theorem State.memWf.rewriteSlot {core fqs q} (h : s.memWf) : (s.rewriteSlot core fqs q).memWf := by
  unfold State.rewriteSlot
  dsimp only
  split <;> exact h

theorem State.memWf.arbitrate {core} (h : s.memWf) : (s.arbitrate core).memWf := by
  unfold State.arbitrate
  dsimp only
  refine .ite h ?_
  split
  · exact h
  · exact .foldl h fun _ _ h => .rewriteSlot h

theorem State.memWf.rotateSlots {core} (h : s.memWf) : (s.rotateSlots core).memWf :=
  .foldl h fun _ _ h => .modSlot (.ite h h)

theorem State.memWf.returnSlots {core} (h : s.memWf) : (s.returnSlots core).memWf := by
  unfold State.returnSlots
  split
  · exact h
  · refine .foldl (.foldl h fun _ _ h => .ite h (.modFunc (.lowerSlot h))) fun _ _ h => ?_
    extract_lets back
    have taken (image) : (back image).memWf := .modFunc (.lowerSlot h)
    refine .ite h ?_
    split
    · exact taken _
    · exact .ite (taken _) h

theorem State.memWf.chooseSpills {core} (h : s.memWf) : (s.chooseSpills core).memWf := .ite h (.ite h h)

theorem State.memWf.rotationBoundary {core} (h : s.memWf) : (s.rotationBoundary core).memWf :=
  .ite (.chooseSpills (.arbitrate (.returnSlots (.rotateSlots h)))) h

theorem State.memWf.endPreempt {result length} (h : s.memWf) : (s.endPreempt result length).memWf := h
theorem State.memWf.markRemoved {vf qs} (h : s.memWf) : (s.markRemoved vf qs).memWf := h

theorem State.memWf.preemptRemove (h : s.memWf) : (s.preemptRemove).memWf := by
  unfold State.preemptRemove
  dsimp only
  split
  · exact h
  · exact .ite h (.ite h h)

theorem State.memWf.freeHeld {vf qs} (h : s.memWf) : (s.freeHeld vf qs).memWf := h

theorem State.memWf.preemptRestore (h : s.memWf) : (s.preemptRestore).memWf := by
  unfold State.preemptRestore
  dsimp only
  split
  · exact h
  · exact .ite h (.ite h h)

theorem State.memWf.liftContext {vf} (h : s.memWf) : (s.liftContext vf).memWf := by
  refine .modFunc (.foldl (.of_mem (.foldlFst (p := (s, _)) h fun p _ h => ?_) rfl) fun _ _ h => .modCore h)
  exact .liftSlot h

theorem OkWf.spillContext {vf} (h : s.memWf) : OkWf (s.spillContext vf) := by
  refine .foldl (.ok h) fun x _ h => ?_
  cases x with
  | error => trivial
  | ok s =>
    dsimp only
    split
    next => trivial
    next eq => exact .ok (.spillAll h eq)

theorem State.memWf.preemptSave (h : s.memWf) : (s.preemptSave).memWf := by
  unfold State.preemptSave
  split
  · exact h
  next p _ =>
    refine .ite h (.ite (.endPreempt h) ?_)
    have h := h.markRemoved (vf := p.vf) (qs := List.range 16)
    generalize s.markRemoved p.vf (List.range 16) = s at h
    dsimp only
    refine .ite h ?_
    split
    · exact .endPreempt (.areaRecord h)
    next eq => exact .endPreempt (.liftContext (.deviceWrite ((OkWf.spillContext h).state eq)))

theorem State.memWf.loadQueues {vf x} (h : s.memWf) : (s.loadQueues vf x).memWf := by
  unfold State.loadQueues
  dsimp only
  split
  · exact h
  · exact .foldl h fun _ _ h => .ite h h

theorem State.memWf.loadSlot {vf x} (h : s.memWf) : (s.loadSlot vf x).memWf := by
  unfold State.loadSlot
  dsimp only
  split
  · exact h
  · refine .modFunc ?_
    split <;> exact h

theorem State.memWf.loadSection {x} (h : s.memWf) : (s.loadSection x).memWf :=
  .ite (.modCore (.poke h)) (.ite (.poke h) (.ite (.poke h) h))

theorem State.memWf.loadHeld {vf secs} (h : s.memWf) : (s.loadHeld vf secs).memWf :=
  .modFunc (.foldl h fun _ _ h => .loadQueues h)

theorem State.memWf.clearRegions {vf} (h : s.memWf) : (s.clearRegions vf).memWf :=
  .foldl (.foldl h fun _ _ h => .markRange (.zeroRange h)) fun _ _ h => .markRange (.zeroRange h)

theorem State.memWf.lowerEngines {x} (h : s.memWf) : (s.lowerEngines x).memWf :=
  .foldl (.foldl h fun _ _ h => .foldl h fun _ _ h => h) fun _ _ h => .markReady (.foldl h fun _ _ h => h)

theorem State.memWf.lowerContext {vf} (h : s.memWf) : (s.lowerContext vf).memWf := by
  unfold State.lowerContext
  dsimp only
  split
  · exact h
  · exact .freeHeld (.modFunc (.lowerEngines (.foldl h fun _ _ h => h)))

theorem State.memWf.preemptLoad (h : s.memWf) : (s.preemptLoad).memWf := by
  unfold State.preemptLoad
  dsimp only
  split
  · exact h
  · refine .ite h ?_
    refine .ite (.endPreempt (.ite h (.raiseAt h))) ?_
    split
    · exact h
    · exact .ite h
        (.endPreempt (.foldl (.lowerContext (.loadHeld (.foldl (.clearRegions h) fun _ _ h => .loadSection h)))
          fun _ _ h => .loadSlot h))

end Sys2Proof.Machine
end

section
/-! SUPPORT. Memory stays canonical through the host, the start, power and the management space. -/
namespace Sys2Proof.Machine
variable {s t : State}

theorem State.memWf.slotqNow {w} (h : s.memWf) : (s.slotqNow w).memWf := .ite h (.foldl h fun _ _ h => .ite h h)
theorem State.memWf.spillNow {w} (h : s.memWf) : (s.spillNow w).memWf := .ite h h
theorem State.memWf.dutyWork {n w} (h : s.memWf) : (s.dutyWork n w).memWf := .ite h (.ite (.slotqNow h) (.spillNow h))
theorem State.memWf.slotq {w} (h : s.memWf) : (s.slotq w).memWf := .dutyWork h
theorem State.memWf.spillWrite {w} (h : s.memWf) : (s.spillWrite w).memWf := .dutyWork h
theorem State.memWf.scrubGoWrite {w} (h : s.memWf) : (s.scrubGoWrite w).memWf := h

theorem State.memWf.assignWrite {w} (h : s.memWf) : (s.assignWrite w).memWf := by
  unfold State.assignWrite
  dsimp only
  split
  · exact h
  · exact .modPkg (.assign h)

theorem State.memWf.dutyWrite {n w} (h : s.memWf) : (s.dutyWrite n w).memWf := .ite h h
theorem State.memWf.putScrub {x} (h : s.memWf) : (s.putScrub x).memWf := h
theorem State.memWf.scrubEnd {x} (h : s.memWf) : (s.scrubEnd x).memWf := .ite h (.scrubReport h)

theorem State.memWf.scrubUnit (h : s.memWf) : (s.scrubUnit).memWf := by
  unfold State.scrubUnit
  split
  · exact h
  · split
    · exact h
    · exact .ite h (.putScrub (.scrubRange h))

theorem State.memWf.scrubRegionDone (h : s.memWf) : (s.scrubRegionDone).memWf := by
  unfold State.scrubRegionDone
  dsimp only
  split
  · exact h
  · split
    · exact .scrubEnd h
    · exact .ite h (.modPkg (.putScrub (.ite h (.scrubRange h))))

theorem State.memWf.machineEnd {u} (h : s.memWf) : (s.machineEnd u).memWf := .raiseFor h

theorem State.memWf.stopThreads {q n} (h : s.memWf) : (s.stopThreads q n).1.memWf := by
  induction n generalizing s with
  | zero => exact h
  | succ n ih =>
    unfold State.stopThreads
    split
    · exact h
    next u _ =>
      have spilled := h.spillImage (q := q) (u := u)
      refine .iteFst (ih (.endThread h)) (.iteFst (ih (.park h)) (.iteFst spilled ?_))
      exact .foldl (f := State.machineEnd) spilled fun _ _ h => .machineEnd h

theorem State.memWf.stopClaim {q} (h : s.memWf) : (s.stopClaim q).memWf := by
  unfold State.stopClaim
  split
  · split <;> exact h
  · exact h

theorem State.memWf.stopSlot {q} (h : s.memWf) : (s.stopSlot q).1.memWf :=
  .iteFst (.stopThreads (.stopClaim h)) (.stopClaim h)

theorem State.memWf.repairRecord {core outcome ended spare} (h : s.memWf) :
    (s.repairRecord core outcome ended spare).memWf :=
  h

theorem State.memWf.openRange {a n} (h : s.memWf) : (s.openRange a n).memWf := .draw (.poke h)

theorem State.memWf.clusterBack {core} (h : s.memWf) : (s.clusterBack core).memWf :=
  .modCluster (.foldl h fun _ _ h => h)

theorem State.memWf.mapSpare {core spare} (h : s.memWf) : (s.mapSpare core spare).memWf :=
  .openRange (.openRange (.modCore (.modCluster (.clusterBack (.foldl h fun _ _ h => h)))))

theorem State.memWf.shrinkPlace {core} (h : s.memWf) : (s.shrinkPlace core).1.memWf :=
  .modCore (.modCore (.foldl
    (.foldl (.of_mem (.of_mem (.foldl (.clusterBack h) fun _ _ h => .machineEnd h) rfl) rfl) fun _ _ h => h)
    fun _ _ h => h))

theorem State.memWf.repairGo {core} (h : s.memWf) : (s.repairGo core).memWf := by
  unfold State.repairGo
  split
  · exact h
  next r _ =>
    refine .ite h ?_
    have stopped := State.memWf.foldlFst (xs := slotsOf core) (f := fun (p : State × Nat) q =>
      ((p.1.stopSlot q).1, p.2 + (p.1.stopSlot q).2)) (p := (s, r.ended)) h fun _ _ h => .stopSlot h
    refine .ite (.modPkg stopped) (.ite (.repairRecord (.modPkg stopped)) ?_)
    split
    · exact .repairRecord (.mapSpare stopped)
    · exact .repairRecord (.shrinkPlace stopped)

theorem State.memWf.repairStart {core bad} (h : s.memWf) : (s.repairStart core bad).memWf := by
  refine .repairGo (.modPkg (.foldlFst (p := (_, 0)) (.modCluster h) fun _ _ h => ?_))
  exact .foldl h fun _ _ h => .machineEnd h

theorem State.memWf.coreStop {core bad} (h : s.memWf) : (s.coreStop core bad).memWf :=
  .ite h (.ite h (.repairStart h))

theorem State.memWf.repairWrite {w} (h : s.memWf) : (s.repairWrite w).memWf := by
  unfold State.repairWrite
  split
  · exact h
  · split
    · exact .mapSpare h
    · exact .shrinkPlace h
    · exact h

theorem State.memWf.dutyTakes {n} (h : s.memWf) : (s.dutyTakes n).memWf := by
  unfold State.dutyTakes
  dsimp only
  split
  · exact h
  · exact h
  · exact .foldl h fun _ _ h => .repairStart h
  · exact .foldl h fun _ _ h => h
  · exact .foldl h fun _ _ h => .dutyWork h

theorem State.memWf.dutyDrainEnd {n} (h : s.memWf) : (s.dutyDrainEnd n).memWf := .ite h (.dutyTakes h)
theorem State.memWf.holdHost {i} (h : s.memWf) : (s.holdHost i).memWf := h

theorem State.memWf.hostLines {rs bs} (h : s.memWf) : (s.hostLines rs bs).memWf := by
  induction rs generalizing s bs with
  | nil => exact h
  | cons r rs ih => exact .ite (.holdHost h) (ih (.ite (.homeWrite h) h))

theorem State.memWf.hostWrite {a bs} (h : s.memWf) : (s.hostWrite a bs).memWf := .hostLines h
theorem State.memWf.hostAccess {wr a len v} (h : s.memWf) : (s.hostAccess wr a len v).memWf := .ite (.hostWrite h) h
theorem State.memWf.releaseAgents (h : s.memWf) : (s.releaseAgents).memWf := .foldl h fun _ _ h => .serveAtHome h
theorem State.memWf.peerLost {pkg} (h : s.memWf) : (s.peerLost pkg).memWf := .foldl h fun _ _ h => .gangOrphan h
theorem State.memWf.rankLostEvent {pkg} (h : s.memWf) : (s.rankLostEvent pkg).memWf := .ite (.rankLost h) h
theorem State.memWf.keepalive {pkg answered} (h : s.memWf) : (s.keepalive pkg answered).memWf := .ite (.peerLost h) h
theorem State.memWf.setPorts {up} (h : s.memWf) : (s.setPorts up).memWf := .foldl h fun _ _ h => .ite (.peerLost h) h
theorem State.memWf.portDown {port} (h : s.memWf) : (s.portDown port).memWf := .ite (.peerLost h) h

theorem State.memWf.collArrives {pkg gid seq chunk rank p} (h : s.memWf) :
    (s.collArrives pkg gid seq chunk rank p).memWf :=
  .ite h (.ite h h)

theorem State.memWf.gate {core} (h : s.memWf) : (s.gate core).memWf := .ite h h
theorem State.memWf.gatingRequest {core} (h : s.memWf) : (s.gatingRequest core).memWf := .ite h (.gate h)
theorem State.memWf.bootWrite {i result} (h : s.memWf) : (s.bootWrite i result).memWf := h
theorem State.memWf.bootAbsent {i} (h : s.memWf) : (s.bootAbsent i).memWf := .ite h (.setPorts h)

theorem State.memWf.beginOwed {last5} (h : s.memWf) : (s.beginOwed last5).memWf := by
  unfold State.beginOwed
  dsimp only
  split <;> exact h

theorem State.memWf.bootStep {i fuel} (h : s.memWf) : (s.bootStep i fuel).memWf := by
  induction fuel generalizing s i with
  | zero => exact h
  | succ fuel ih =>
    exact .ite h (.ite (.ite (ih (.bootAbsent h)) (.ite (ih h) (.ite (.beginOwed h) h))) (.ite (.beginOwed h) h))

theorem State.memWf.powerUp (h : s.memWf) : s.powerUp.memWf := Tab.wf_filter _ _ _ h

theorem State.memWf.bootEffect {i mask} (h : s.memWf) : (s.bootEffect i mask).memWf := by
  unfold State.bootEffect
  split
  · exact h
  · exact .foldl h fun _ _ h => h
  · exact h
  · exact h
  · exact .setPorts h
  · exact .ite h h

theorem State.memWf.bootRun {ok mask} (h : s.memWf) : (s.bootRun ok mask).memWf :=
  .ite h
    (.ite (.bootStep (.bootWrite (.bootEffect h)))
      (.ite (.bootStep (.bootWrite (.ite (.bootEffect h) (.bootAbsent h)))) h))

theorem State.memWf.start {again ok mask} (h : s.memWf) : (s.start again ok mask).memWf :=
  .ite (.bootStep (.modPkg (.powerUp h))) (.bootRun h)

theorem State.memWf.bootclr {w} (h : s.memWf) : (s.bootclr w).memWf := .ite h (.bootStep h)
theorem State.memWf.attest {w} (h : s.memWf) : (s.attest w).memWf := .deviceWrite h
theorem State.memWf.thermalTrip (h : s.memWf) : (s.thermalTrip).memWf := .start h

theorem State.memWf.powerReading {power temp die} (h : s.memWf) : (s.powerReading power temp die).memWf :=
  .ite (.thermalTrip h) (.modPkg h)

theorem State.memWf.packageWrite {o w} (h : s.memWf) : (s.packageWrite o w).memWf := by
  unfold State.packageWrite
  refine .ite (.dutyWrite h) (.ite (.ite h ?_) ?_)
  · split
    next eq => exact (OkWf.ctxWrite h).state eq
    · exact h
  · split
    · exact .slotq h
    · exact .scrubGoWrite h
    · exact .repairWrite h
    · exact .spillWrite h
    · exact .bootclr h
    · exact .attest h
    · split
      next eq => exact (OkWf.pwrcapWrite h).state eq
      · exact h
    · exact .assignWrite h
    · exact .ite h h

theorem State.memWf.managementWrite {off w} (h : s.memWf) : (s.managementWrite off w).memWf := by
  unfold State.managementWrite
  dsimp only
  refine .ite h (.ite ?_ ?_)
  · split
    · exact h
    · exact .queueControl h
    · exact .queueDoorbell h
    · exact h
    · exact h
  · split
    · exact h
    · exact h
    · exact h
    · exact .answerDoorbell h
    · exact .ite h h
    · exact h
    · exact .gangctlWrite h
    · exact .ite (.packageWrite h) h

end Sys2Proof.Machine
end

section
/-! SUPPORT. Memory stays canonical through the moves that a step may make, and the instructions. -/
namespace Sys2Proof.Machine
variable {s t : State}

theorem State.memWf.hostEvent {x} (h : s.memWf) : (s.hostEvent x).memWf := by
  unfold State.hostEvent
  split
  · exact .hostAccess h
  · exact .managementWrite h
  · exact .answerDoorbell h
  · exact .queueDoorbell h
  · exact .queueControl h
  · exact .gangctlWrite h
  · exact .dutyWrite h
  · exact .assignWrite h
  · exact .slotq h
  · exact .spillWrite h
  · exact h
  · exact .repairWrite h
  · exact .bootclr h
  · exact .attest h
  · exact h
  · exact h

theorem State.memWf.fromHost {i} (h : s.memWf) : (s.fromHost i).memWf := .ite (.hostEvent h) h

theorem State.memWf.releaseHeld (h : s.memWf) : (s.releaseHeld).memWf :=
  .foldl (.modPkg (.releaseAgents h)) fun _ _ h => .fromHost h

theorem State.memWf.forkEngine {unit cl e} (h : s.memWf) : (s.forkEngine unit cl e).memWf := by
  unfold State.forkEngine
  split
  · exact .forkCopy h
  · exact .forkJob h
  · exact h

theorem State.memWf.throttleOn {power temp die} (h : s.memWf) : (s.throttleOn power temp die).memWf :=
  .ite (.powerReading h) h

theorem State.memWf.throttleOff {power temp die} (h : s.memWf) : (s.throttleOff power temp die).memWf :=
  .ite h (.powerReading h)

theorem State.memWf.reqAct {id r} (h : s.memWf) : (s.reqAct id r).memWf := by
  unfold State.reqAct
  split
  · exact .egressLoad h
  · exact .serveAtHome h
  · exact .serveAtHome h
  · exact .landArmed h
  · exact .ite (.releaseReply h)
      (.ite (.landReply h)
        (.ite (.storeAcked h) (.ite (.landAnswer h) (.ite (.landLdlo h) (.ite (.landLatest h) (.waitSeqAnswer h))))))
  · exact .withdrawLands h
  · exact .withdrawHome h
  · exact h

theorem State.memWf.msgAct {id x} (h : s.memWf) : (s.msgAct id x).memWf := by
  unfold State.msgAct
  split
  · exact .claimHome h
  · exact .claimLands h
  · exact .claimAck h
  · exact .depForward (.depLands h)
  · exact .fillLands h
  · exact .armHome h
  · exact .answerLands h
  · exact .breakHome h
  · exact .killHome h
  · exact .killLands h
  · exact .reportHome h
  · exact .migrationArrives h
  · exact .engineLands h
  · exact .answerHolder h

theorem State.memWf.copyAct {cl e c} (h : s.memWf) : (s.copyAct cl e c).memWf := by
  unfold State.copyAct
  refine .ite (.forkCopy h) ?_
  split
  · exact .copyWrite h
  · exact .ite (.copyCheck h) (.copyComplete h)

theorem State.memWf.jobAct {cl e j} (h : s.memWf) : (s.jobAct cl e j).memWf := by
  unfold State.jobAct
  refine .ite (.fillJob h) (.ite (.endJob h) (.ite (.forkJob h) (.ite (.startJob h) ?_)))
  split
  · exact .rowUnits h
  · exact .ite (.moveRow h) (.endJob h)

theorem State.memWf.queueAct {vf q x} (h : s.memWf) : (s.queueAct vf q x).memWf := by
  unfold State.queueAct
  dsimp only
  split
  · exact .ite h (.packetRead h)
  · split
    · exact .ite (.launch h) (.ite (.localCopyLands h) (.admissionWake h))
    · exact .copyPacket h
    · exact .signal h
    · exact .waitSeq h
    · exact .setDet h
    · exact .fencePacket h
    · exact .launch h

/-- Every move that a state lists leaves memory canonical. -/
theorem State.memWf.acts (h : s.memWf) : ∀ t ∈ s.acts, t.memWf := by
  unfold State.acts
  simp only [List.mem_append, List.mem_map, List.mem_flatMap, List.mem_cons, List.not_mem_nil]
  rintro t ((((((((((hm | hm) | hm) | hm) | hm) | hm) | hm) | hm) | hm) | hm) | hm)
  · obtain ⟨e, -, rfl⟩ := hm; exact .reqAct h
  · obtain ⟨e, -, rfl⟩ := hm; exact .msgAct h
  · obtain ⟨e, -, rfl⟩ := hm; exact .ite (.walkRun h) (.walkLands h)
  · obtain ⟨e, -, rfl⟩ := hm; exact .fetchLands h
  · obtain ⟨e, -, rfl⟩ := hm; exact .ite (.divideLands h) (.coreClaim h)
  · obtain ⟨e, -, (⟨c, -, rfl⟩ | ⟨c, -, rfl⟩) | ⟨c, -, rfl⟩⟩ := hm
    · exact .copyAct h
    · exact .jobAct h
    · exact .groupCloses h
  · obtain ⟨e, -, rfl⟩ := hm; exact .ite (.pagingService h) (.claimRecord h)
  · obtain ⟨f, -, rfl | ⟨q, -, rfl | ⟨p, -, rfl⟩⟩⟩ := hm
    · exact .setDetDrained h
    · exact .queueAct h
    · exact .ite (.fencePacketDone h) h
  · obtain ⟨r, -, rfl⟩ := hm; exact .repairGo h
  · obtain ⟨e, -, rfl⟩ := hm; exact .gate h
  · rcases hm with rfl | rfl | rfl | rfl | rfl | hm
    · exact .preemptRemove h
    · exact .preemptRestore h
    · exact .preemptSave h
    · exact .preemptLoad h
    · exact .scrubRegionDone h
    · exact hm.elim

theorem State.memWf.part {i} (h : s.memWf) (eq : s.part i = some t) : t.memWf := by
  unfold State.part at eq
  split at eq
  · cases eq; exact .copyUnit h
  · cases eq; exact .rowPart h
  · cases eq; exact .scrubUnit h
  · cases eq; exact .repairGo h
  · cases eq; exact .gate h
  · cases eq

theorem State.memWf.upset {unit} (h : s.memWf) : (s.upset unit).memWf := h

theorem State.memWf.timedActs (h : s.memWf) : ∀ t ∈ s.timedActs, t.memWf := by
  unfold State.timedActs
  simp only [List.mem_append, List.mem_map]
  rintro t ((⟨e, -, rfl⟩ | ⟨e, -, rfl⟩) | ⟨n, -, rfl⟩)
  · exact .rotationBoundary h
  · exact .slewStep h
  · exact .dutyDrainEnd h

theorem State.memWf.otherwise (h : s.memWf) : s.otherwise.memWf := by
  unfold State.otherwise
  split
  next found => exact State.memWf.acts h _ (List.mem_of_find?_eq_some found)
  next =>
    split
    · exact .idleTurn h
    · exact .getD (fun t found => h.timedActs t (List.mem_of_find?_eq_some found)) (.idleTurn h)

theorem OutWf.fpOut {m d a b src rounds res} (h : s.memWf) : OutWf (s.fpOut m d a b src rounds res) :=
  .issue h (.finish h fun _ h => .floatDone (.writeGpr h))

theorem OutWf.fpBin {f w d a b m} (h : s.memWf) : OutWf (s.fpBin f w d a b m) := .fpOut h
theorem OutWf.fpFma {negate w d a b m} (h : s.memWf) : OutWf (s.fpFma negate w d a b m) := .fpOut h
theorem OutWf.fpMinMax {isMax w d a b m} (h : s.memWf) : OutWf (s.fpMinMax isMax w d a b m) := .fpOut h
theorem OutWf.fpSign {f w d a m} (h : s.memWf) : OutWf (s.fpSign f w d a m) := .fpOut h

theorem OutWf.fpCmp {cc w p a b m} (h : s.memWf) : OutWf (s.fpCmp cc w p a b m) :=
  .issue h (.finish h fun _ h => .floatDone h)

theorem OutWf.intOp {f d a b imm m} (h : s.memWf) : OutWf (s.intOp f d a b imm m) :=
  .issue h (.finish h fun _ h => .writeGpr h)

theorem OutWf.intDiv {f d a b imm m} (h : s.memWf) : OutWf (s.intDiv f d a b imm m) :=
  .issue h (.divide h fun _ h => h)

theorem OutWf.unary {f d a m} (h : s.memWf) : OutWf (s.unary f d a m) := .issue h (.finish h fun _ h => .writeGpr h)

theorem OutWf.lea {scale d a b m} (h : s.memWf) : OutWf (s.lea scale d a b m) :=
  .issue h (.finish h fun _ h => .writeGpr h)

theorem OutWf.cmpImm {f p a i m} (h : s.memWf) : OutWf (s.cmpImm f p a i m) := .issue h (.finish h fun _ h => h)
theorem OutWf.cmpReg {f p a b m} (h : s.memWf) : OutWf (s.cmpReg f p a b m) := .issue h (.finish h fun _ h => h)
theorem OutWf.predOp {f d a b m} (h : s.memWf) : OutWf (s.predOp f d a b m) := .issue h (.finish h fun _ h => h)

theorem OutWf.execKwr {k a m} (h : s.memWf) : OutWf (execKwr k a m s) := by
  unfold Sys2Proof.Machine.execKwr
  refine .issue h ?_
  refine .ite (.preemptWrite h) ?_
  split
  · exact .fail h
  next a eq =>
      refine .finish h fun _ h => ?_
      split
      next eq => exact (OkWf.kregWrite h).state eq
      · exact h
theorem OutWf.execKwrAssign {a m} (h : s.memWf) : OutWf (execKwrAssign a m s) := by
  unfold Sys2Proof.Machine.execKwrAssign
  dsimp only
  refine .issue h ?_
  refine .ite (.fail h) ?_
  split
  · exact .fail h
  · exact .finish h fun _ h => .modCur (.assign h)
theorem OutWf.execRet {m} (h : s.memWf) : OutWf (execRet m s) := by
  unfold Sys2Proof.Machine.execRet
  refine .issue h ?_
  refine .ite (.finish h fun _ h => .endThread h) ?_
  refine .ite (.await h) (.ite (.await h) ?_)
  split
  · exact .finish h fun _ h => h
  · refine .ite (.await h) ?_
    refine .withResv h fun _ h => ?_
    split
    · exact .next (.raiseNow h)
    next eq => exact .await (.askFrame h eq)
theorem OutWf.execHtest {d a m} (h : s.memWf) : OutWf (execHtest d a m s) := by
  unfold Sys2Proof.Machine.execHtest
  refine .issue h ?_
  split
  · exact .fail h
  · exact .finish h fun _ h => .writeGpr h
theorem OutWf.execHwait {a m} (h : s.memWf) : OutWf (execHwait a m s) := by
  unfold Sys2Proof.Machine.execHwait
  refine .issue h ?_
  refine .ite (.finish h fun _ h => h) ?_
  split
  · exact .fail h
  · exact .finish h fun _ h => h
  · exact .next (.blockOn h)
  · exact .next (.blockOn h)
  · exact .next (.blockOn h)
  · exact .ite (.waitFamily h) (.finish h fun _ h => h)
  · exact .ite (.finishOwing h fun _ h => h) (.finish h fun _ h => h)
theorem OutWf.execYield {m} (h : s.memWf) : OutWf (execYield m s) := by
  unfold Sys2Proof.Machine.execYield
  dsimp only
  refine .issue h ?_
  refine .ite (.finish h fun _ h => h) ?_
  split
  · exact .finish h fun _ h => h
  · exact .ite (.await h) (.finish h fun _ h => .startRecord (.modCore (.modThread (.leaveSlot h))))
theorem OutWf.execKwrTshape {i a m} (h : s.memWf) : OutWf (execKwrTshape i a m s) := by
  unfold Sys2Proof.Machine.execKwrTshape
  dsimp only
  refine .issue h ?_
  refine .ite (.fail h) ?_
  split
  · exact .fail h
  · exact .finish h fun _ h => h
theorem OutWf.execKwrTmeta {i a m} (h : s.memWf) : OutWf (execKwrTmeta i a m s) := by
  unfold Sys2Proof.Machine.execKwrTmeta
  dsimp only
  refine .issue h ?_
  refine .ite (.fail h) ?_
  split
  · exact .fail h
  · exact .finish h fun _ h => h
theorem OutWf.execMmaQ {D d a b m} (h : s.memWf) : OutWf (execMmaQ D d a b m s) := by
  unfold Sys2Proof.Machine.execMmaQ
  dsimp only
  refine .issue h ?_
  refine .afterAcquire h ?_
  split
  · exact .fail h
  · exact .ite (.await h) (.admission h fun _ h => h)
theorem OutWf.execSca {D d a b m} (h : s.memWf) : OutWf (execSca D d a b m s) := by
  unfold Sys2Proof.Machine.execSca
  dsimp only
  refine .issue h ?_
  refine .afterAcquire h ?_
  split
  · exact .fail h
  · exact .admission h fun _ h => h
theorem OutWf.exec {i} (h : s.memWf) : OutWf (exec i s) := by
  cases i <;> unfold Sys2Proof.Machine.exec
  case add | sub | mul | mulh | mulhu | and | or | xor | andn | shl | shr | sar | rol | ror | min | max | minu |
    maxu | bfxReg | bfxuReg => exact .intOp h
  case div | divu | rem | remu => exact .intDiv h
  case mov | clz | ctz | popc | bswap | sxb | sxh | sxw | zxw | addi | muli | andi | ori | xori | shlImm | shrImm |
    sarImm | rolImm | rorImm | bfxImm | bfxuImm | movi => exact .unary h
  case krd | wdepth | nzscan | bfi | prd => exact .issue h (.finish h fun _ h => .writeGpr h)
  case lea1 | lea2 | lea4 | lea8 => exact .lea h
  case cmpEqImm | cmpNeImm | cmpLtImm | cmpLeImm | cmpGtImm | cmpGeImm | cmpLtuImm | cmpLeuImm | cmpGtuImm |
    cmpGeuImm | cmpTstImm | cmpTstzImm => exact .cmpImm h
  case cmpEq | cmpNe | cmpLt | cmpLe | cmpGt | cmpGe | cmpLtu | cmpLeu | cmpGtu | cmpGeu | cmpTst | cmpTstz =>
    exact .cmpReg h
  case pand | por | pxor | pandn | pnot | pmov => exact .predOp h
  case nop | sync | pwr => exact .issue h (.finish h fun _ h => h)
  case fadd | fsub | fmul => exact .fpBin h
  case fdiv | fsqrt => exact .issue h (.divide h fun _ h => .bumpSeed h)
  case fmin | fmax => exact .fpMinMax h
  case fabs | fneg => exact .fpSign h
  case fma | fnma => exact .fpFma h
  case fcmpEq | fcmpNe | fcmpLt | fcmpLe | fcmpUn => exact .fpCmp h
  case fclass | fcvt => exact .fpOut h
  case kwr => exact .execKwr h
  case fence =>
    exact .issue h (.ite (.await h) (.finish h fun _ h => .iteThen (.acquireIssue h) .modCur))
  case trap | ifence | vrel => exact .issue h (.ite (.await h) (.finish h fun _ h => h))
  case rft => exact .issue h (.ite (.await h) (.finish h fun _ h => .modCur (.answerRecord h)))
  case tlbinv => exact .issue h (.ite (.fail h) (.ite (.await h) (.finish h fun _ h => .invalidate h)))
  case kslz => exact .issue h (.ite (.fail h) (.finish h fun _ h => .zeroKey h))
  case scrb => exact .issue h (.access h fun _ _ h => .ite (.await h) (.scrub h))
  case ldB | ldBu | ldH | ldHu | ldW | ldWu | ldD => exact .loadDisp h
  case stB | stH | stW | stD => exact .storeDisp h
  case ldfe | tkget =>
    exact .issue h (.homeAccess h fun _ _ h => .finish h fun _ h => .post (.pendGpr (.acquireIssue (.dropPlace h))))
  case stfe => exact .issue h (.homeAccess h fun _ _ h => .finish h fun _ h => .post (.dropPlace h))
  case ldIndexed => exact .load h
  case stIndexed => exact .store h
  case ldlo =>
    exact .issue h
      (.latestAccess h fun _ _ h =>
        .ite (.await h) (.withResv h fun _ h => .finish h fun _ h => .post (.pendGpr (.pendGpr (.acquireIssue h)))))
  case stlo | stloMd => exact .stlo h
  case b | bt | bf => exact .branch h
  case callLit | callReg => exact .issue h (.call h)
  case jmp => exact .issue h (.ite (.fail h) (.finish h fun _ h => h))
  case ret => exact .execRet h
  case wflush =>
    exact .issue h (.ite (.await h) (.ite (.finish h fun _ h => h) (.withResv h fun _ h => .flushFrames h)))
  case create | spawn => exact .createFamily h
  case brk => exact .issue h (.finish h fun _ h => .endThread h)
  case kill | hcancel => exact .stopNamed h
  case mig | migS => exact .migrate h
  case yield => exact .execYield h
  case htest => exact .execHtest h
  case hwait => exact .execHwait h
  case amoAdd | amoAnd | amoOr | amoXor | amoMin | amoMax | amoMinu | amoMaxu | amoXchg => exact .amo h
  case cas => exact .atomic h
  case famoAdd | famoMin | famoMax => exact .famo h
  case tkwait | lkacq => exact .issue h (.homeAccess h fun _ _ h => .finish h fun _ h => .postWait h)
  case tkadv | lkrel => exact .syncRelease h
  case waiteq | waitne => exact .waitOp h
  case barJoin | barArrive | barDrop => exact .barrierOp h
  case vldContig => exact .issue h (.ordered h (.contigPlaces h fun _ _ h => .vload h))
  case vldStrided | vldIndexed => exact .issue h (.ordered h (.lanePlaces h fun _ _ h => .vload h))
  case vstContig => exact .issue h (.ordered h (.contigPlaces h fun _ _ h => .vstore h))
  case vstStrided | vstIndexed => exact .issue h (.ordered h (.lanePlaces h fun _ _ h => .vstore h))
  case vadd | vsub | vmul | vmulh | vmin | vmax | vminu | vmaxu | vand | vor | vxor | vshl | vshr | vsar | vadds |
    vaddus | vsubs | vsubus => exact .vint2 h
  case vabs | vneg => exact .vint1 h
  case vcmpEq | vcmpLt | vcmpLe | vcmpLtu | vcmpLeu => exact .vcmp h
  case vmad | vmov | vcompress | vperm => exact .vecOut h fun _ h => h
  case vfadd | vfsub | vfmul => exact .vf2 h
  case vfdiv | vfsqrt => exact .vfDivide h
  case vfmin | vfmax => exact .vfMinMax h
  case vfabs | vfneg => exact .vfSign h
  case vfma | vfnma => exact .vfFma h
  case vfcmpEq | vfcmpLt | vfcmpLe | vfcmpUn => exact .vfCmp h
  case vbcastW | vbcastD => exact .vbcast h
  case vextW | vextD => exact .vext h
  case vinsW | vinsD => exact .vins h
  case vcvt => exact .vfOut h
  case vredAdd | vredMin | vredMax => exact .vred h
  case haccO | haccU => exact .hacc h
  case cpy | cpyRegSize | cpyrAdd | cpyrMin | cpyrMax => exact .copyInstr h
  case gth | sct => exact .rowInstr h
  case allredAdd | allredMin | allredMax => exact .collInstr h
  case tld | tst => exact .tileMove h
  case tzero | tmov => exact .issue h (.afterAcquire h (.admission h fun _ h => h))
  case mma | mmaSp => exact .mmaInstr h
  case mmaQ => exact .execMmaQ h
  case sca => exact .execSca h
  case prune => exact .issue h (.afterAcquire h (.ite (.fail h) (.ite (.fail h) (.admission h fun _ h => h))))
  case kwrFstat => exact .issue h (.ite (.await h) (.ite (.fail h) (.finish h fun _ h => h)))
  case krdFstat | krdAdoptmax => exact .krdWhen h
  case kwrTshape => exact .execKwrTshape h
  case kwrTmeta => exact .execKwrTmeta h
  case kwrAssign => exact .execKwrAssign h
  case keyload => exact .issue h (.ite (.fail h) (.ite (.fail h) (.finish h fun _ h => .keyload h)))
  case preemptRemove => exact .next (.preemptRemove h)
  case preemptRestore => exact .next (.preemptRestore h)
  case preemptSaveImage => exact .next (.preemptSave h)
  case preemptLoadImage => exact .next (.preemptLoad h)
  case idleTurn => exact .next (.idleIf h)
  case rotationBoundary => exact .next (.rotationBoundary h)
  case replyLands => exact .next (.landReply h)
  case storeAcknowledged => exact .next (.storeAcked h)
  case divideResultLands => exact .next (.divideLands h)
  case codeFetchLands => exact .next (.fetchLands h)
  case loadAtHome | storeAtHome | atomicAtHome | ldfeAtHome | stfeAtHome | tkgetAtHome | tkwaitAtHome | tkadvAtHome
    | waitAtHome | lkacqAtHome | lkrelAtHome | barJoinAtHome | barArriveAtHome | barDropAtHome | haccAtHome |
    ldloAtHome | stloAtHome => exact .next (.serveAtHome h)
  case egressLoad => exact .next (.egressLoad h)
  case ingressRelease => exact .next (.ingressRelease h)
  case combinerGroupClose => exact .next (.groupCloses h)
  case predictorEntryDrop | snowploughStep | ucieModuleFailure | cxlLinkDown | scaleOutPortUp => exact .next h
  case armedReplyLands => exact .next (.landArmed h)
  case servedAnswerLands => exact .next (.landAnswer h)
  case ldloReplyLands => exact .next (.landLdlo h)
  case latestOnlyAckLands => exact .next (.landLatest h)
  case inTransitDiscard => exact .next (.inTransit h)
  case translationWalk => exact .next (.walkRun h)
  case walkResultLands => exact .next (.walkLands h)
  case claimAtHome => exact .next (.claimHome h)
  case coreClaim => exact .next (.coreClaim h)
  case steal => exact .next (.steal h)
  case claimLands => exact .next (.claimLands h)
  case claimAckAtHome => exact .next (.claimAck h)
  case leaseExpiry => exact .next (.leaseExpires h)
  case dependentFillLands => exact .next (.depLands h)
  case passThroughForward => exact .next (.depForward h)
  case stubResend => exact .next (.stubResend h)
  case endReportAtHome => exact .next (.reportHome h)
  case familyFillLands => exact .next (.fillLands h)
  case hwaitAnswerLands => exact .next (.answerLands h)
  case breakAtHome => exact .next (.breakHome h)
  case killAtHome => exact .next (.killHome h)
  case killReachesMember => exact .next (.killLands h)
  case migrationArrival => exact .next (.migrationArrives h)
  case copyFork => exact .next (.forkEngine h)
  case copyChunkCheck => exact .next (.copyCheck h)
  case copyChunkWrite => exact .next (.copyWrite h)
  case copyComplete => exact .next (.copyComplete h)
  case engineHandleFillLands => exact .next (.engineLands h)
  case jobStart => exact .next (.startJob h)
  case tileRowTransfer => exact .next (.moveRow h)
  case jobEnd => exact .next (.endJob h)
  case jobHandleFill => exact .next (.fillJob h)
  case level2ReplyRelease => exact .next (.releaseReply h)
  case faultRecordClaim => exact .next (.claimRecord h)
  case pagingService => exact .next (.pagingService h)
  case answerAtHolder => exact .next (.answerHolder h)
  case answerDoorbell | queueDoorbell | queueControlWrite | scrubgo | repair | slotq | spill | assign |
    managementWrite | hostMemoryAccess | gangctlArm | bootclr | attest | dutyWrite | peerAdmit | firmwareImageWrite =>
    exact .next (.fromHost h)
  case packetReadLands => exact .next (.packetRead h)
  case launch => exact .next (.launch h)
  case admissionWake => exact .next (.admissionWake h)
  case localSectionCopyLands => exact .next (.localCopyLands h)
  case copy => exact .next (.copyPacket h)
  case signal => exact .next (.signal h)
  case waitSeq => exact .next (.waitSeq h)
  case waitSeqAnswer => exact .next (.waitSeqAnswer h)
  case setDet => exact .next (.setDet h)
  case setDetDrained => exact .next (.setDetDrained h)
  case fencePacket => exact .next (.fencePacket h)
  case fencePacketComplete => exact .next (.fencePacketDone h)
  case scrubRegionDone => exact .next (.scrubRegionDone h)
  case coreStop => exact .next (.coreStop h)
  case prepared => exact .next (.gangPrepared h)
  case refused => exact .next (.gangRefused h)
  case commit => exact .next (.gangCommit h)
  case abort => exact .next (.gangAborted h)
  case gangTimeout => exact .next (.gangTimeout h)
  case allredMessage => exact .next (.collArrives h)
  case rankLost => exact .next (.rankLostEvent h)
  case keepalive => exact .next (.keepalive h)
  case peerPortDown => exact .next (.portDown h)
  case cxlLinkRetrain => exact .next (.releaseHeld h)
  case start => exact .next (.start h)
  case dutyDrainEnd => exact .next (.dutyDrainEnd h)
  case throttle => exact .next (.throttleOn h)
  case thermalTrip => exact .next (.thermalTrip h)
  case withdrawalAtHome => exact .next (.withdrawHome h)
  case withdrawalAckLands => exact .next (.withdrawLands h)
  case hwaitArmAtHome => exact .next (.armHome h)
  case gatingRequest => exact .next (.gatingRequest h)
  case throttleEnd => exact .next (.throttleOff h)

theorem OutWf.turn {core} (h : s.memWf) : OutWf (s.turn core) := by
  have h := Fetched.memWf.turnStart (core := core) h
  unfold State.turn
  split
  next eq => rw [eq] at h; exact .next h
  next eq =>
    rw [eq] at h
    split
    · exact .exec h
    · exact .next (.illegal h)

theorem OutWf.step (h : s.memWf) : OutWf (step s) := by
  unfold Sys2Proof.Machine.step
  split
  · exact .turn h
  · exact .ite (.exec h) (.next h)
  next rest _ => exact .next (.getD (fun _ moved => .part (s := { s with agenda := rest }) h moved) h)
  · exact .next (.upset h)
  · split
    · exact .turn h
    · exact .next (.otherwise h)

end Sys2Proof.Machine
end

section
/-! PROOF. Memory stays canonical (O60). -/
namespace Sys2Proof.Proofs
open Sys2Proof Sys2Proof.Machine

/-- Settles O60: the step's outcome is taken apart into its moves, each of which is made of operations that keep memory
canonical. -/
theorem stepKeepsMemoryCanonical : Obligations.StepKeepsMemoryCanonical := by
  unfold Obligations.StepKeepsMemoryCanonical
  intro s t canonical moves
  have kept := OutWf.step canonical
  rw [moves] at kept
  exact kept

end Sys2Proof.Proofs
end

section
/-! SUPPORT. Accesses that the check of their address refuses. -/
namespace Sys2Proof.Machine
variable {s : State} {va : Word} {size : Nat}

theorem State.checkVa_wide (vf : Nat) (acc : Acc) (size : Nat) (wide : 2 ^ 57 ≤ va.toNat) :
    s.checkVa vf acc size va = .error (fACCESS, 1) := if_pos wide

theorem State.checkVa_unaligned (vf : Nat) (acc : Acc) (fits : va.toNat < 2 ^ 57) (unaligned : va.toNat % size ≠ 0) :
    s.checkVa vf acc size va = .error (fALIGN, 0) := by
  rw [State.checkVa, if_neg (by omega), if_pos (bne_iff_ne.mpr unaligned)]

/-- An access whose address the check refuses raises the fault that the check names (R160). -/
theorem State.access_refused {acc : Acc} {code cause : Nat}
    (refused : s.checkVa s.cur.vf acc size va = .error (code, cause)) (body : State → Place → Out) :
    s.access acc size va body = .next (s.raise code cause va acc.type) := by
  have fault : s.reach s.uid s.myCore s.cur.vf acc size va = .fault code cause := by rw [State.reach, refused]
  simp only [State.access, fault, State.fail]

theorem State.ordered_idle {rel : Bool} (body : Out) (idle : s.acquiring s.uid = false)
    (release : rel = true → s.releaseReady s.uid = true) : s.ordered rel body = body := by
  rw [State.ordered, if_neg (by simp [idle]), if_neg (by cases rel <;> simp_all)]

/-- A fault that ends its thread leaves memory. -/
theorem State.raise_mem {code cause : Nat} (addr : Word) {type : Nat} (may : s.mayFault)
    (ending : faultParks code cause type = false) : (s.raise code cause addr type).mem = s.mem := by
  obtain ⟨r, run, -⟩ := s.raiseAt_records s.uid s.cur.pc code cause addr type 0 ending
  obtain ⟨-, rest⟩ := (s.addRecord r).endThread_ends s.uid (.fault code cause) may.runs nofun
  rw [State.raise, State.raiseNow, if_pos may.settled, State.raiseFor]
  exact (congrArg State.mem run).trans rest.mem

/-- The thread ends with a recorded fault, at an address, and memory stays. -/
def State.stopsAt (s : State) (o : Out) (code cause : Nat) (va : Word) : Prop :=
  ∃ t, o = .next t ∧ s.faultsEnd t code cause va ∧ t.mem = s.mem

/-- An access ends as the check of its address says (R160): the first two steps of the check, in their order. -/
theorem State.access_checks {o : Out} {acc : Acc} (may : s.mayFault)
    (run : ∀ code cause, s.checkVa s.cur.vf acc size va = .error (code, cause) →
      o = .next (s.raise code cause va acc.type)) :
    (2 ^ 57 ≤ va.toNat → s.stopsAt o fACCESS 1 va) ∧
    (va.toNat < 2 ^ 57 → va.toNat % size ≠ 0 → s.stopsAt o fALIGN 0 va) := by
  have stops {code cause : Nat} (refused : s.checkVa s.cur.vf acc size va = .error (code, cause))
      (ending : faultParks code cause acc.type = false) (fits : code + cause * 2 ^ 8 < 2 ^ 16) : s.stopsAt o code cause va :=
    ⟨_, run code cause refused, s.raise_faultsEnd va may ending fits, s.raise_mem va may ending⟩
  exact ⟨fun wide => stops (s.checkVa_wide _ _ _ wide) rfl (by decide),
    fun fits unaligned => stops (s.checkVa_unaligned _ _ fits unaligned) rfl (by decide)⟩

section
variable {m : Mods} {src : List (BitVec 5)} {d : BitVec 5} (a b : BitVec 5) {code cause : Nat} (signed : Bool)
  (idle : s.acquiring s.uid = false)
include idle

theorem State.load_refused (ready : s.Ready m 0 { src := src, dst := [d] })
    (refused : s.checkVa s.cur.vf .load size va = .error (code, cause)) :
    s.load m src a b d va size signed = .next (s.raise code cause va Acc.load.type) := by
  rw [State.load, State.issue_ready _ _ _ _ _ ready, s.ordered_idle (rel := false) _ idle nofun,
    s.access_refused refused]

theorem State.store_refused (ready : s.Ready m 0 { src := src ++ [d] })
    (release : m.scope ≠ 0#3 → s.releaseReady s.uid = true)
    (refused : s.checkVa s.cur.vf .store size va = .error (code, cause)) :
    s.store m src a b d va size = .next (s.raise code cause va Acc.store.type) := by
  rw [State.store, State.issue_ready _ _ _ _ _ ready, s.ordered_idle _ idle (fun rel => release (bne_iff_ne.mp rel)),
    s.access_refused refused]
end

end Sys2Proof.Machine
end

section
/-! PROOF. What the check of an address refuses to the scalar loads and stores. -/
namespace Sys2Proof.Proofs
open Sys2Proof Sys2Proof.Machine

/-- Settles O19: each load and each store comes to one access, which ends as the check of its address says. -/
theorem addressChecks : Obligations.AddressChecks := by
  unfold Obligations.AddressChecks
  intro op mem d a i m s ready idle release may
  rw [← imm32_eq]
  have loads {o : Out} {size : Nat} {signed : Bool} (run : o = s.loadDisp size signed d a i m)
      (ready : s.Ready m 0 { src := [a], dst := [d] }) :=
    s.access_checks may fun _ _ refused => run.trans (s.load_refused a 27#5 signed idle ready refused)
  have stores {o : Out} {size : Nat} (run : o = s.storeDisp size d a i m) (ready : s.Ready m 0 { src := [a] ++ [d] })
      (release : m.scope ≠ 0#3 → s.releaseReady s.uid = true) :=
    s.access_checks may fun _ _ refused => run.trans (s.store_refused a 27#5 idle ready release refused)
  simp only [List.mem_cons, List.not_mem_nil, or_false] at mem
  rcases mem with rfl | rfl | rfl | rfl | rfl | rfl | rfl | rfl | rfl | rfl | rfl
  iterate 7 exact loads rfl ready
  iterate 4 exact stores rfl ready (release rfl)

end Sys2Proof.Proofs
end

section
/-! SUPPORT. An arena entry in its frame. -/

namespace Sys2Proof.Machine

/-- A family's arena entry shows the bytes of its descriptor in its frame, where the frame's page is plain (R66). -/
theorem State.byteAt_entryShown {s : State} {fk k : Nat} {p : Place} (frame : s.entryFrame? fk = some p)
    (plain : p.key = none) (inside : k < (wordBytes (s.descriptor fk)).length) :
    (s.entryShown fk).byteAt (p.addr + k) = (wordBytes (s.descriptor fk)).getD k 0#8 := by
  have shown : s.entryShown fk =
      s.poke p.addr (wordBytes (s.descriptor fk) ++ (List.range 128).map (Config.openByte s.fresh)) := by
    simp only [State.entryShown, frame, plain, State.writeBytes]
  rw [shown, State.byteAt_poke, if_pos ⟨by omega, by rw [List.length_append]; omega⟩, Nat.add_sub_cancel_left,
    List.getD_append _ _ _ _ inside]

end Sys2Proof.Machine
end

section
/-! PROOF. A load that a second page leads to a family's arena entry. -/

namespace Sys2Proof.Proofs

open Sys2Proof Sys2Proof.Machine

/-- A load at its home, for the eight bytes at 0x8000 by the virtual address 0x2000. -/
def aliasLoad : Req := { Req.blank with addr := 0x8000, va := 0x2000#64, size := 8 }

/-- Function 0's page table at 0x10000 leads to itself at every level above the leaves and maps the pages 0x1000 and 0x2000,
both readable, to the frame at 0x8000. Its arena is one entry at 0x1000, where family 0 stands with the global 1; the frame
itself holds zeros. `aliasLoad` is the only request. -/
def arenaAliased : State :=
  { State.reset with
    mem := [(0x10000, 1#8), (0x10002, 1#8), (0x10008, 7#8), (0x10009, 0x80#8), (0x10010, 7#8), (0x10011, 0x80#8)]
    funcs := [(0, { Func.blank with ctxroot := 0x10000#64, arena := 0x1000#64 })]
    families := [(0, { Family.blank with alloc := true, globals := [1#64], count := 1 })]
    reqs := [(1, aliasLoad)]
    nextId := 2 }

theorem arenaAliased_atHome : arenaAliased.AtHome 1 aliasLoad where
  here := rfl
  turn := by decide +kernel
  alone := rfl
  clear := rfl
  key := rfl
  clean := by decide +kernel

/-- Both pages lead to the frame, where the load's is in no arena and the entry's is plain. -/
theorem arenaAliased_leads :
    (arenaAliased.engineReach 0 0 .load 8 0x2000#64).2.toOption.map (·.addr) = some aliasLoad.addr ∧
    arenaAliased.inArena 0 0x2000 = false ∧ arenaAliased.entryAt? 0x8000 = some 0 ∧
    (arenaAliased.entryFrame? 0).map (fun p => (p.addr, p.key)) = some (0x8000, none) := by decide +kernel

/-- The home's line shows the family's global, where memory holds 0 (R66). -/
theorem arenaAliased_homeLine : ((arenaAliased.homeLine 0 0x2000 none 0x8000).getD []).head? = some 1#8 := by
  obtain ⟨-, free, entry, frame⟩ := arenaAliased_leads
  obtain ⟨⟨addr, lo, key, cached⟩, there, place⟩ := Option.map_eq_some_iff.mp frame
  obtain ⟨rfl, rfl⟩ := Prod.mk.inj place
  have line : arenaAliased.homeLine 0 0x2000 none 0x8000 = some ((arenaAliased.entryShown 0).peek 0x8000 64) := by
    rw [State.homeLine, if_neg (by simp [free]), show lineOf 0x8000 = 0x8000 from rfl, entry]
    rfl
  have first : (arenaAliased.entryShown 0).byteAt 0x8000 = 1#8 :=
    (State.byteAt_entryShown (k := 0) there rfl (by decide +kernel)).trans (by decide +kernel)
  rw [line]
  exact congrArg some first

/-- Refutes O40: a load outside the arena and outside encrypted pages is said to reply with the line as memory holds it.
Here the load's page is a second one of the frame in which a family's arena entry stands: the entry's bytes stand in its
frame, whichever address leads there (R66, log entry 33), so the reply shows the family's global where memory holds 0. The
statement asks only whether the load's own virtual address lies in the arena. -/
theorem not_homesServeMemory : ¬ Obligations.HomesServeMemory := by
  unfold Obligations.HomesServeMemory
  intro h
  obtain ⟨loads, -⟩ := h 1 aliasLoad arenaAliased arenaAliased_atHome
  obtain ⟨t, -, -, ⟨q, found, -, line, -⟩, plain⟩ := loads (.inl rfl)
  obtain ⟨_, found', -, memory, -⟩ := plain arenaAliased_leads.2.1 rfl
  obtain rfl := Option.some.inj (found.symm.trans found')
  have same := congrArg List.head? (line.symm.trans memory)
  have shows := arenaAliased_homeLine.symm.trans same
  exact absurd shows (by decide +kernel)

end Sys2Proof.Proofs
end
